-- ==== Sys2Proof/Word.lean ====
section
/-! DEFINITION. The word types of Pasyn: a byte, a list of bytes, and the widths the manual names (R11: every
multi-byte value is little-endian). Field extraction and byte order stand in Machine/Ops.lean. -/

namespace Sys2Proof

/-- One byte. -/
abbrev Byte := BitVec 8

/-- A string of bytes, lowest address first. -/
abbrev Bytes := List (BitVec 8)

/-- A 32-bit word: an FP32 value, an I32 lane, a count (R75). -/
abbrev W32 := BitVec 32

/-- A 64-bit word: a scalar or an address register (R75). -/
abbrev W64 := BitVec 64

end Sys2Proof
end

