-- ==== Sys2Proof/Syntax.lean ====
section
/-! DEFINITION. The commands of the block: one constructor of `Instr` per row of spec/opcode_table.json, with the
row's operands, and the records those operands are made of. A row of a slot instruction (03) names the spar whose
bundle reaches issue and the common fields (Table 3-3) of the slot that carries it; the bundle itself is the one in
the spar's instruction store. A row whose payload already stands in the state (a frame among the delivered packets,
a command record at a unit) carries only what selects it. -/

namespace Sys2Proof

/-- Common slot fields beside OP (03 Table 3-3, R70). -/
structure Fields where
  /-- [119] guard enabled (R72) -/
  gen : Bool := false
  /-- [118] the slot executes when the guard register is zero -/
  gneg : Bool := false
  /-- [117:112] guard register -/
  greg : BitVec 6 := 0
  /-- [111:104] modifiers -/
  mod : BitVec 8 := 0
  /-- [103:96] destination register index -/
  d : BitVec 8 := 0
  /-- [95:88] first source register index -/
  a : BitVec 8 := 0
  /-- [87:80] second source register index -/
  b : BitVec 8 := 0
  /-- [79:72] third source register index -/
  c : BitVec 8 := 0
  /-- [71:64] extension: predicate, mask, loop or scalar register index -/
  x : BitVec 8 := 0
  /-- [63:0] immediate -/
  imm : BitVec 64 := 0
deriving DecidableEq, Repr

/-- One slot of a bundle: OP and the common fields (03 R70). OP = 0 is the no-operation (R71). -/
structure SlotWord where
  /-- [127:120] opcode -/
  op : BitVec 8 := 0
  /-- the common fields -/
  f : Fields := {}
deriving DecidableEq, Repr

/-- What the error-correcting code of a dome finds in a line it reads (10 R306, Table 10-3). -/
inductive LineErr where
  /-- no error -/
  | clean
  /-- an error confined to one die -/
  | oneDie (die : Nat)
  /-- an error confined to two dies -/
  | twoDies (d1 d2 : Nat)
  /-- any other error the code detects -/
  | other
  /-- any other error the code does not detect: the line reads as these bytes -/
  | undetected (data : List (BitVec 8))
deriving DecidableEq, Repr

/-- The source of a dictionary request (13 R388). -/
inductive Requester where
  /-- the CXL mailbox -/
  | cxl
  /-- a Shroud request from this SLID -/
  | shroud (lid : Nat)
  /-- MCTP over I3C, from this endpoint -/
  | mctp (eid : Nat)
deriving DecidableEq, Repr

/-- A Merec request without its OP, which the row gives (13 Table 13-5). -/
structure Merec where
  /-- [0] LAST of FLAGS -/
  last : Bool := false
  /-- TOKEN -/
  token : Nat := 0
  /-- INDEX -/
  index : Nat := 0
  /-- SUB -/
  sub : Nat := 0
  /-- QSEL -/
  qsel : Nat := 0
  /-- OFFSET -/
  offset : Nat := 0
  /-- LENGTH -/
  length : Nat := 0
  /-- DATA -/
  data : List (BitVec 8) := []
deriving DecidableEq, Repr

/-- How a self-test ends (14 R421, R432). -/
inductive TestResult where
  /-- both signatures pass -/
  | pass
  /-- passes at the nominal cycle, fails at the shortened one -/
  | marginal
  /-- fails at the nominal cycle: failing pattern and signature (Table 14-2) -/
  | fail (pattern sig : Nat)
  /-- the cause lies outside the device -/
  | external
deriving DecidableEq, Repr

/-- One poll of a rail group over AVSBus (15 R447, R448). -/
structure AvsReading where
  /-- a frame with a valid answer came, repeats included (R448) -/
  valid : Bool := true
  /-- rail voltage, mV -/
  volt : Nat := 0
  /-- rail current, A -/
  cur : Nat := 0
  /-- regulator temperature, degrees C -/
  temp : Int := 0
  /-- status word -/
  status : Nat := 0
deriving DecidableEq, Repr

/-- A Shroud packet (11 R330). -/
structure Packet where
  /-- DLID -/
  dlid : Nat := 0
  /-- SLID -/
  slid : Nat := 0
  /-- KIND -/
  kind : Nat := 0
  /-- HOPS -/
  hops : Nat := 0
  /-- QDST -/
  qdst : Nat := 0
  /-- QSRC -/
  qsrc : Nat := 0
  /-- FLOW -/
  flow : Nat := 0
  /-- virtual lane of its flits -/
  vl : Nat := 0
  /-- payload bytes -/
  payload : List (BitVec 8) := []
deriving DecidableEq, Repr

/-- A TRAIN message (11 Table 11-3). -/
structure TrainMsg where
  /-- protocol version -/
  ver : Nat := 1
  /-- sender's LID -/
  lid : Nat := 0
  /-- sender's port -/
  port : Nat := 0
  /-- role -/
  role : Nat := 0
  /-- pool of each lane -/
  pools : List Nat := []
deriving DecidableEq, Repr

/-- The commands of the block, one constructor per row of spec/opcode_table.json. -/
inductive Instr where
  /-- SC_ADD (R76): Slot-0 scalar add of two registers or a register and an immediate. -/
  | scAdd (sp : Nat) (f : Fields)
  /-- SC_SUB (R76): Slot-0 scalar subtract. -/
  | scSub (sp : Nat) (f : Fields)
  /-- SC_AND (R76): Slot-0 scalar bitwise and. -/
  | scAnd (sp : Nat) (f : Fields)
  /-- SC_OR (R76): Slot-0 scalar bitwise or. -/
  | scOr (sp : Nat) (f : Fields)
  /-- SC_XOR (R76): Slot-0 scalar bitwise xor. -/
  | scXor (sp : Nat) (f : Fields)
  /-- SC_SHL (R76): Slot-0 scalar shift left by B[5:0]. -/
  | scShl (sp : Nat) (f : Fields)
  /-- SC_SHR (R76): Slot-0 scalar logical shift right. -/
  | scShr (sp : Nat) (f : Fields)
  /-- SC_SAR (R76): Slot-0 scalar arithmetic shift right. -/
  | scSar (sp : Nat) (f : Fields)
  /-- SC_MIN (R76): Slot-0 signed or unsigned scalar minimum. -/
  | scMin (sp : Nat) (f : Fields)
  /-- SC_MAX (R76): Slot-0 signed or unsigned scalar maximum. -/
  | scMax (sp : Nat) (f : Fields)
  /-- SC_CMP (R76): Slot-0 scalar comparison that writes 1 or 0 for the condition in MOD[7:4]. -/
  | scCmp (sp : Nat) (f : Fields)
  /-- SC_MUL (R76): Slot-0 low 64 bits of the 128-bit product. -/
  | scMul (sp : Nat) (f : Fields)
  /-- SC_MULH (R76): Slot-0 high 64 bits of the 128-bit product. -/
  | scMulh (sp : Nat) (f : Fields)
  /-- SC_DIV (R78): Slot-0 quotient, with defined results for division by zero and overflow. -/
  | scDiv (sp : Nat) (f : Fields)
  /-- SC_REM (R78): Slot-0 remainder, with the sign of the dividend. -/
  | scRem (sp : Nat) (f : Fields)
  /-- SC_LI (R76): Slot-0 load of an immediate into a scalar register. -/
  | scLi (sp : Nat) (f : Fields)
  /-- BR (R81): Unconditional branch to an immediate or register target. -/
  | br (sp : Nat) (f : Fields)
  /-- BR_NZ (R81): Branch taken when s[C] is non-zero. -/
  | brNz (sp : Nat) (f : Fields)
  /-- BR_Z (R81): Branch taken when s[C] is zero. -/
  | brZ (sp : Nat) (f : Fields)
  /-- BR_LINK (R81): Branch that writes the index of the next bundle to s[D]. -/
  | brLink (sp : Nat) (f : Fields)
  /-- SC_CFG (R107): Reads a self-description item into a scalar register. -/
  | scCfg (sp : Nat) (f : Fields)
  /-- SC_CYC (R76): Reads the island's cycle count into a scalar register. -/
  | scCyc (sp : Nat) (f : Fields)
  /-- SC_HALT (R88): Requests the end of the spar's part of the job once its operations complete. -/
  | scHalt (sp : Nat) (f : Fields)
  /-- HALT_COMPLETE (R88): A halting spar's last operation completes, and the spar halts and leaves its barrier groups. -/
  | haltComplete (sp : Nat)
  /-- SEQUENTIAL_FETCH_OVERRUN (R81): A spar completes bundle 511 and would fetch bundle 512, raising BUNDLE_INVALID cause 0x05. -/
  | sequentialFetchOverrun (sp : Nat)
  /-- AD_ADD (R76): Slot-1 address add of a scalar register or an immediate. -/
  | adAdd (sp : Nat) (f : Fields)
  /-- AD_INCM (R76): Slot-1 address increment that wraps against a bound. -/
  | adIncm (sp : Nat) (f : Fields)
  /-- AD_LI (R76): Slot-1 load of an immediate into an address register. -/
  | adLi (sp : Nat) (f : Fields)
  /-- AD_FROMS (R76): Copies a scalar register into an address register. -/
  | adFroms (sp : Nat) (f : Fields)
  /-- AD_TOS (R76): Copies an address register into a scalar register. -/
  | adTos (sp : Nat) (f : Fields)
  /-- LP_BEGIN (R82): Activates a hardware loop counter with a body and a count, skipping the body when the count is zero. -/
  | lpBegin (sp : Nat) (f : Fields)
  /-- LP_BREAK (R82): Deactivates a hardware loop counter. -/
  | lpBreak (sp : Nat) (f : Fields)
  /-- LP_GET (R76): Copies a loop counter into a scalar register. -/
  | lpGet (sp : Nat) (f : Fields)
  /-- LD_S (R76): Slot-2 scalar load of 1 to 8 bytes from scratch. -/
  | ldS (sp : Nat) (f : Fields)
  /-- ST_S (R76): Slot-2 scalar store of 1 to 8 bytes to scratch. -/
  | stS (sp : Nat) (f : Fields)
  /-- LD_V (R76): Slot-2 load of 1,024 bytes into a vector register. -/
  | ldV (sp : Nat) (f : Fields)
  /-- ST_V (R76): Slot-2 store of a vector register to scratch. -/
  | stV (sp : Nat) (f : Fields)
  /-- ST_VT (R164): Stores 256 FP32 lanes through a tensor descriptor, converting by its policy entry. -/
  | stVt (sp : Nat) (f : Fields)
  /-- LD_P (R76): Loads a predicate register from scratch. -/
  | ldP (sp : Nat) (f : Fields)
  /-- ST_P (R76): Stores a predicate register to scratch. -/
  | stP (sp : Nat) (f : Fields)
  /-- LD_M (R76): Loads an array mask register from scratch. -/
  | ldM (sp : Nat) (f : Fields)
  /-- ST_M (R76): Stores an array mask register to scratch. -/
  | stM (sp : Nat) (f : Fields)
  /-- LD_T (R151): Loads a 64-byte tensor descriptor into a t register. -/
  | ldT (sp : Nat) (f : Fields)
  /-- MLD (R119): Issues a stationary tile load, direct or transposed, from scratch or dome into the background set or staging buffer. -/
  | mld (sp : Nat) (f : Fields)
  /-- MMX (R110): Issues an array product of a streamed tile against the stationary tile into accumulator entries. -/
  | mmx (sp : Nat) (f : Fields)
  /-- MEW (R134): Issues an element-wise operation on accumulator entries from the stationary set or a scratch tile. -/
  | mew (sp : Nat) (f : Fields)
  /-- MWB (R144): Issues a write-back of accumulator rows through a descriptor to scratch, optionally clearing them. -/
  | mwb (sp : Nat) (f : Fields)
  /-- MAL (R141): Allocates an accumulator region at the top of the allocation stack. -/
  | mal (sp : Nat) (f : Fields)
  /-- MFR (R141): Frees the most recent live accumulator region. -/
  | mfr (sp : Nat) (f : Fields)
  /-- ARRAY_INSTRUCTION_START (R110): A waiting slot-3 instruction reaches its start conditions, swaps sets if asked and begins streaming. -/
  | arrayInstructionStart (sp : Nat)
  /-- ARRAY_ROW_LANDS (R110): A streamed row's group values are added into its accumulator entries. -/
  | arrayRowLands (sp : Nat)
  /-- STATIONARY_LOAD_COMPLETE (R119): The last byte of a stationary tile arrives in the background set or staging buffer. -/
  | stationaryLoadComplete (sp : Nat)
  /-- STAGED_TILE_MOVE (R119): A staged tile moves into a freed background set over 8 cycles. -/
  | stagedTileMove (sp : Nat)
  /-- MAL_CLEAR (R141): An allocation's clear runs at its turn in the slot-3 stream queue. -/
  | malClear (sp : Nat)
  /-- MWB_READ_START (R144): A write-back begins reading once every earlier slot-3 row has landed. -/
  | mwbReadStart (sp : Nat)
  /-- VA_ADD (R48): Lane-wise vector add. -/
  | vaAdd (sp : Nat) (f : Fields)
  /-- VA_SUB (R48): Lane-wise vector subtract. -/
  | vaSub (sp : Nat) (f : Fields)
  /-- VA_MUL (R48): Lane-wise vector multiply. -/
  | vaMul (sp : Nat) (f : Fields)
  /-- VA_FMA (R48): Lane-wise fused multiply-add. -/
  | vaFma (sp : Nat) (f : Fields)
  /-- VA_MIN (R79): Lane-wise vector minimum. -/
  | vaMin (sp : Nat) (f : Fields)
  /-- VA_MAX (R79): Lane-wise vector maximum. -/
  | vaMax (sp : Nat) (f : Fields)
  /-- VA_CMP (R500): Lane-wise comparison that writes a predicate register. -/
  | vaCmp (sp : Nat) (f : Fields)
  /-- VA_SEL (R500): Selects whole lanes of two vectors by a predicate. -/
  | vaSel (sp : Nat) (f : Fields)
  /-- VA_AND (R76): Lane-wise bitwise and. -/
  | vaAnd (sp : Nat) (f : Fields)
  /-- VA_OR (R76): Lane-wise bitwise or. -/
  | vaOr (sp : Nat) (f : Fields)
  /-- VA_XOR (R76): Lane-wise bitwise xor. -/
  | vaXor (sp : Nat) (f : Fields)
  /-- VA_MOV (R76): Vector register move. -/
  | vaMov (sp : Nat) (f : Fields)
  /-- VB_SFU (R80): Correctly rounded special function on 256 FP32 lanes. -/
  | vbSfu (sp : Nat) (f : Fields)
  /-- VB_CVT (R79): Packs 256 FP32 lanes into a narrow format with a policy entry and rounding key. -/
  | vbCvt (sp : Nat) (f : Fields)
  /-- VB_WID (R49): Widens packed data to FP32. -/
  | vbWid (sp : Nat) (f : Fields)
  /-- VB_RED (R79): Pairwise sum, maximum or minimum over 256 lanes into a scalar register. -/
  | vbRed (sp : Nat) (f : Fields)
  /-- VB_PERM (R76): Permutes vector lanes by an index vector. -/
  | vbPerm (sp : Nat) (f : Fields)
  /-- VB_BCAST (R76): Broadcasts a scalar to every lane. -/
  | vbBcast (sp : Nat) (f : Fields)
  /-- VB_ACC (R145): Reads 256 accumulator entries into a vector register. -/
  | vbAcc (sp : Nat) (f : Fields)
  /-- VB_PLOG (R76): Logical combination of two predicate registers. -/
  | vbPlog (sp : Nat) (f : Fields)
  /-- TG_GATHER (R177): Gathers source rows named by an index list into consecutive destination rows. -/
  | tgGather (sp : Nat) (f : Fields)
  /-- TG_UNPERM (R183): Adds weighted source rows back into accumulator rows of their tokens in rank order. -/
  | tgUnperm (sp : Nat) (f : Fields)
  /-- TK_SCATTER (R178): Scatters consecutive source rows to destination rows named by an index list. -/
  | tkScatter (sp : Nat) (f : Fields)
  /-- TK_SCATADD (R182): Adds source rows into accumulator rows named by an index list. -/
  | tkScatadd (sp : Nat) (f : Fields)
  /-- TK_PERM (R170): Places each token's row at the destination rows of its K choices. -/
  | tkPerm (sp : Nat) (f : Fields)
  /-- TK_ROWFEED (R186): Queues a row list or block list for later array instructions. -/
  | tkRowfeed (sp : Nat) (f : Fields)
  /-- TK_CLAIM (R191): Sends a claim of the next index to a dome work counter. -/
  | tkClaim (sp : Nat) (f : Fields)
  /-- TK_CLAIM_RESET (R191): Resets a work counter with a new start and count, advancing its epoch. -/
  | tkClaimReset (sp : Nat) (f : Fields)
  /-- TK_CLAIM_QUERY (R191): Queries a work counter's epoch, claimed and completed counts. -/
  | tkClaimQuery (sp : Nat) (f : Fields)
  /-- TK_DONE (R194): Sends a completion of a claimed index to its counter's ledger. -/
  | tkDone (sp : Nat) (f : Fields)
  /-- TACKLE_OPERATION_START (R175): A queued tackle operation starts once the previous one has issued its last access. -/
  | tackleOperationStart (sp : Nat)
  /-- INDEX_BLOCK_VALIDATED (R175): Validation of an index block ends and its accesses may begin. -/
  | indexBlockValidated (sp : Nat)
  /-- CONFLICT_QUEUE_SERVE (R138): An accumulator bank serves the head of its conflict queue with one addition. -/
  | conflictQueueServe (sp : Nat) (bank : Nat)
  /-- WORK_COUNTER_OP (R191): A dome performs one claim, done, reset or query on a work counter in arrival order. -/
  | workCounterOp (sp : Nat)
  /-- COUNTER_RESULT_ARRIVAL (R192): A counter operation's result returns and is written to s[D]. -/
  | counterResultArrival (sp : Nat)
  /-- TX_DLD (R94): Issues a transfer from dome to scratch. -/
  | txDld (sp : Nat) (f : Fields)
  /-- TX_DST (R94): Issues a plain transfer from scratch to dome. -/
  | txDst (sp : Nat) (f : Fields)
  /-- TX_DST_ATOMIC (R311): Issues a near-memory atomic transfer selected by MOD[7:4]. -/
  | txDstAtomic (sp : Nat) (f : Fields)
  /-- TX_SEND (R92): Appends scratch bytes to the stream of a channel entry. -/
  | txSend (sp : Nat) (f : Fields)
  /-- TX_RECV (R92): Consumes bytes from an inbound endpoint into scratch. -/
  | txRecv (sp : Nat) (f : Fields)
  /-- CHANNEL_BYTES_ARRIVE (R92): Channel bytes arrive in an inbound endpoint buffer. -/
  | channelBytesArrive (sp : Nat) (ep : Nat) (n : Nat)
  /-- TX_FQ_WRITE (R348): Sends a remote write of scratch bytes to another device's dome. -/
  | txFqWrite (sp : Nat) (f : Fields)
  /-- TX_FQ_WRITE_ARRIVAL (R349): Sends a remote write that asks for an arrival record. -/
  | txFqWriteArrival (sp : Nat) (f : Fields)
  /-- TX_FQ_READ (R348): Sends a remote read of another device's dome into scratch. -/
  | txFqRead (sp : Nat) (f : Fields)
  /-- TX_IFILL (R87): Starts copying bundles from dome into the instruction store. -/
  | txIfill (sp : Nat) (f : Fields)
  /-- IFILL_COMPLETE (R87): An instruction fill completes, or stops at a line that returned DOME_UE. -/
  | ifillComplete (sp : Nat)
  /-- TX_CHTAB (R91): Loads the channel table from scratch once earlier transfers retire. -/
  | txChtab (sp : Nat) (f : Fields)
  /-- TX_WAIT (R94): Waits until at most a given number of transfers are outstanding. -/
  | txWait (sp : Nat) (f : Fields)
  /-- TRANSFER_RETIRE (R94): A transfer completes and retires in issue order. -/
  | transferRetire (sp : Nat)
  /-- FC_LOCAL (R97): Local fence that waits for every earlier operation, latches the step number and ends the phase. -/
  | fcLocal (sp : Nat) (f : Fields)
  /-- FC_PHASE (R98): Local fence followed by a wait at a barrier group. -/
  | fcPhase (sp : Nat) (f : Fields)
  /-- BARRIER_RELEASE (R98): Every current member of a barrier group has reached its fc.phase, and they proceed. -/
  | barrierRelease (q : Nat) (g : Nat)
  /-- PHASE_TIMEOUT (R100): A bundle has waited longer than the phase wait limit and raises PHASE_TIMEOUT. -/
  | phaseTimeout (sp : Nat)
  /-- START_JOB (R86): Start-job command checks the image table and starts the spars' instruction fills. -/
  | startJob (q : Nat) (val : Nat) (token : Nat)
  /-- JOB_FILL_COMPLETE (R85): Every started spar has filled its store, and first bundles may issue. -/
  | jobFillComplete (q : Nat)
  /-- STOP_JOB (R105): Stop-job command stops every started spar, with job state 3. -/
  | stopJob (q : Nat) (val : Nat) (token : Nat)
  /-- CLEAR_RANGE_COUNTERS (R51): Clears one layer slot's range counters or all of them. -/
  | clearRangeCounters (q : Nat) (val : Nat) (token : Nat)
  /-- CLEAR_ARRAY_COUNTERS (R149): Clears the array counter records of the partition's towers. -/
  | clearArrayCounters (q : Nat) (val : Nat) (token : Nat)
  /-- CLEAR_TACKLE_COUNTERS (R198): Clears the tackle counter records of the partition's towers. -/
  | clearTackleCounters (q : Nat) (val : Nat) (token : Nat)
  /-- START_PRUNING (R199): Starts a pruning request on a tower's pruning unit. -/
  | startPruning (q : Nat) (val : Nat) (token : Nat)
  /-- PRUNING_REQUEST_COMPLETE (R200): A pruning unit finishes writing every tile of a request and reports its status. -/
  | pruningRequestComplete (t : Nat)
  /-- CLEAR_PRUNING_COUNTERS (R205): Clears one pruning counter slot or all of them. -/
  | clearPruningCounters (q : Nat) (val : Nat) (token : Nat)
  /-- EDGE_ARBITRATE (R317): An edge arbiter grants one requester in a slot by rank, weight and lock. -/
  | edgeArbitrate (e : Nat) (asks : BitVec 16) (mark : Bool)
  /-- STARVE (R318): A request's wait passes the edge's starvation limit and a warn fault is raised. -/
  | starve (e : Nat) (r : Nat) (wait : Nat)
  /-- GRANT_OVERHOLD (R320): A locked sequence exceeds the hold limit and its owner is cut off. -/
  | grantOverhold (e : Nat)
  /-- DOME_LINE_READ (R306): A dome reads a codeword and checks it with its error-correcting code. -/
  | domeLineRead (line : Nat) (err : LineErr) (reader : Nat)
  /-- PATROL_SCRUB_READ (R307): Patrol scrub reads the next line of a dome as management traffic. -/
  | patrolScrubRead (d : Nat) (err : LineErr)
  /-- SCRUB_PERIOD_WRITE (R307): A write of the scrub period ends the present period and restarts the patrol pass. -/
  | scrubPeriodWrite (d : Nat) (val : Nat)
  /-- TURN_TABLE_WRITE (R321): A tower's home or remote turn table is replaced whole at the next free slot. -/
  | turnTableWrite (t : Nat) (remote : Bool) (data : List (BitVec 8))
  /-- ARBITER_SETTING_WRITE (R321): A rank, weight or limit of an edge arbiter is applied at the next slot without a lock. -/
  | arbiterSettingWrite (e : Nat) (sub : Nat) (val : Nat)
  /-- RE_ENABLE (R320): Clears a requester's cut-off at an edge. -/
  | reEnable (e : Nat) (val : Nat) (token : Nat)
  /-- WINDOW_SEGMENT_WRITE (R315): Writes an HDM window segment while the decoder is not committed. -/
  | windowSegmentWrite (i : Nat) (val : Nat)
  /-- OPEN (R209): A tower's OPEN command for a batch arrives at Halyard. -/
  | openBatch (t : Nat)
  /-- UNIT_SELECTION_COMPLETE (R214): A Halyard unit finishes selecting its tokens' choices, and demand counts are summed. -/
  | unitSelectionComplete (q : Nat) (tag : Nat) (gen : Nat) (t : Nat)
  /-- COUNTING_FRAME (R220): A counting frame of a scan or totals round arrives and is added exactly. -/
  | countingFrame
  /-- ASSIGNMENT_COMPLETE (R221): Assignment of all tokens ends, index lists and source books are written and CLOSED is sent. -/
  | assignmentComplete (q : Nat) (tag : Nat) (gen : Nat)
  /-- DISPATCH_ROW_ARRIVAL (R225): A dispatch packet arrives and its rows are written to their regular or pool slots. -/
  | dispatchRowArrival
  /-- RETURN (R229): RETURN command sends the results of a range of local experts back to their sources. -/
  | returnRows (t : Nat)
  /-- RETURN_ROW_ARRIVAL (R229): A return packet arrives and its rows are written at RETBASE. -/
  | returnRowArrival
  /-- CANCEL (R233): CANCEL command retires a batch pair and sends cancel frames to the group. -/
  | cancel (t : Nat)
  /-- CANCEL_BATCH (R233): Dictionary command that retires a batch pair as CANCEL does. -/
  | cancelBatch (q : Nat) (val : Nat) (token : Nat)
  /-- CANCEL_FRAME (R233): A cancel frame arrives and the receiver retires the pair. -/
  | cancelFrame
  /-- ACTMASK (R239): ACTMASK command counts predictor hits and misses and updates the block counters. -/
  | actmask (t : Nat)
  /-- FENCE (R237): FENCE command marks the combine fence and sends a TIER event per cold expert. -/
  | fence (t : Nat)
  /-- TIER_FETCH_LINE (R369): A line of a slow-tier fetch arrives and is written to LAND, or stops the fetch on poison. -/
  | tierFetchLine (i : Nat) (data : List (BitVec 8)) (bad : Bool)
  /-- CLEAR_ROUTING_COUNTERS (R243): Clears one routing counter slot or all of them. -/
  | clearRoutingCounters (q : Nat) (val : Nat) (token : Nat)
  /-- REDUCE_SCATTER (R256): Collective command that reduces a tensor and leaves shard k at rank k. -/
  | reduceScatter (q : Nat)
  /-- ALL_GATHER (R257): Collective command that gathers every rank's shard into the whole tensor. -/
  | allGather (q : Nat)
  /-- ALL_REDUCE (R256): Collective command that reduce-scatters and then all-gathers the reduced shards. -/
  | allReduce (q : Nat)
  /-- ALL_TO_ALL (R257): Collective command that exchanges equal parts of a tensor among ranks. -/
  | allToAll (q : Nat)
  /-- LOCAL_PASS (R255): Collective command that encodes a tensor on this device alone. -/
  | localPass (q : Nat)
  /-- NORM_REDUCTION (R269): Collective command that sums gradient norm sums and range-loss counts over the group. -/
  | normReduction (q : Nat)
  /-- COLLECTIVE_DATA_FRAME (R256): A collective data frame arrives, and complete blocks are reduced or copied. -/
  | collectiveDataFrame
  /-- COLLECTIVE_ABORT_FRAME (R258): An abort frame arrives and the member completes with status 3 or 4. -/
  | collectiveAbortFrame
  /-- NORM_CONTRIBUTION_FRAME (R259): A norm contribution frame arrives at a group's rank 0 and is added exactly. -/
  | normContributionFrame
  /-- NORM_TOTALS_FRAME (R269): Norm totals arrive, and the member computes the global norm and clip factor. -/
  | normTotalsFrame
  /-- UPDATE (R277): UPDATE command opens an update of listed parameter groups. -/
  | update (q : Nat)
  /-- START_UPDATE (R277): Dictionary command that opens an update of every enabled group. -/
  | startUpdate (q : Nat) (val : Nat) (token : Nat)
  /-- UPDATE_SCAN_COMPLETE (R278): The update's scan and checks end, and vote frames are sent. -/
  | updateScanComplete (q : Nat)
  /-- VOTE_FRAME (R281): A Boom vote frame arrives; when all votes are held the update proceeds or completes. -/
  | voteFrame
  /-- WALKER_GROUP_COMPLETE (R285): A walker finishes applying one group's update rule. -/
  | walkerGroupComplete (q : Nat)
  /-- MIXDONE (R290): MIXDONE command lets the walker read O and write the group's weights. -/
  | mixdone (q : Nat)
  /-- UPDATE_COMMIT (R278): Every group, mix and pruning request is done, records are written and the step number advances. -/
  | updateCommit (q : Nat)
  /-- ABANDON_UPDATE (R282): Abandons an update in state 1 or 2 with status 5. -/
  | abandonUpdate (q : Nat) (val : Nat) (token : Nat)
  /-- CLEAR_BOOM_COUNTERS (R296): Clears the Boom counters. -/
  | clearBoomCounters (q : Nat) (val : Nat) (token : Nat)
  /-- PACKET_ARRIVAL (R334): A packet's tail flit arrives and the packet is accepted or discarded by CRC and SEQ. -/
  | packetArrival (p : Nat) (errs : List Nat) (data : List (List (BitVec 8))) (ctl : List (BitVec 32)) (crc : List (BitVec 32)) (parity : List (List (BitVec 8)))
  /-- FABRIC_DEADLINE (R334): An accepted packet's ACK misses its 2 us deadline and a warn fault is raised. -/
  | fabricDeadline (p : Nat) (seq : Nat) (delay : Nat)
  /-- LINK_STATUS (R335): A STATUS link control message arrives with ACK, NAK and credit returns. -/
  | linkStatus (p : Nat) (nak : Option Nat) (ack : Nat) (returned : List Nat) (old : Nat)
  /-- ACK_TIMEOUT (R336): No ACK covers a packet within 8 us and the sender resends from the oldest unacknowledged packet. -/
  | ackTimeout (p : Nat) (old : Nat)
  /-- TRAIN (R329): A TRAIN message arrives; when received twice with identical fields, the port comes up. -/
  | train (p : Nat) (msg : TrainMsg) (old : Nat)
  /-- AUDIT_TIMER (R354): A port idle for 4 us sends an AUDIT and holds its packets. -/
  | auditTimer (p : Nat)
  /-- AUDIT (R354): An AUDIT arrives and the port answers with its occupied and returned credits. -/
  | audit (p : Nat)
  /-- AUDIT_ANSWER (R354): An AUDIT ANSWER arrives and each lane's credit balance is checked. -/
  | auditAnswer (p : Nat) (occ : List Nat) (ret : List Nat) (old : Nat)
  /-- LASER_LOSS (R324): A laser input stays dark for 10 us and its three ports go down. -/
  | laserLoss (k : Nat)
  /-- LASER_RESTORE (R324): Light has been back for 1 ms and the three ports begin training. -/
  | laserRestore (k : Nat) (old : Nat)
  /-- PACKET_FORWARD (R340): A good packet with room in its egress queue moves on, is delivered, re-addressed or discarded. -/
  | packetForward (p : Nat) (vl : Nat)
  /-- PORT_ENABLE (R355): Enable command value 1 trains a port, ending a hold-down. -/
  | portEnable (p : Nat) (val : Nat) (token : Nat) (old : Nat)
  /-- PORT_DISABLE (R355): Enable command value 0 disables a port. -/
  | portDisable (p : Nat) (val : Nat) (token : Nat)
  /-- REMOTE_WRITE_REQUEST (R348): A remote write packet arrives, is checked against windows and applied whole or refused. -/
  | remoteWriteRequest
  /-- REMOTE_READ_REQUEST (R348): A remote read request arrives and is answered with data or a status. -/
  | remoteReadRequest
  /-- REMOTE_ANSWER (R349): A remote answer arrives and the fabric transfer retires, or raises FABRIC_DENIED. -/
  | remoteAnswer
  /-- ROUTE_TABLE_WRITE (R355): A rack or slot table entry takes effect whole between two route choices. -/
  | routeTableWrite (slot : Bool) (i : Nat) (mask : Nat)
  /-- PERST_N_ASSERT (R462): PERST_N is asserted and the host port island is reset. -/
  | perstNAssert
  /-- PERST_N_RELEASE (R358): PERST_N is released and the port trains the link. -/
  | perstNRelease
  /-- HOST_LINK (R360): The link leaves L0 unbidden, host requests are discarded and the Q0 job stops. -/
  | hostLink
  /-- CONFIG_REQUEST (R358): A configuration request arrives and is answered or retried until firmware is ready. -/
  | configRequest (id : Nat) (write : Bool) (addr : Nat) (data : BitVec 32)
  /-- CXL_MEM_READ (R365): A host CXL.mem read of the window is decoded and served through the dome port. -/
  | cxlMemRead (id : Nat) (hpa : Nat) (own : Bool)
  /-- CXL_MEM_WRITE (R365): A host CXL.mem write of the window is decoded and applied. -/
  | cxlMemWrite (id : Nat) (hpa : Nat) (data : List (BitVec 8)) (poison : Bool)
  /-- BIRSP (R366): The host's BIRsp arrives, the tracker entry is removed and the waiting device access re-enters. -/
  | birsp (line : Nat)
  /-- HOST_SNOOP (R367): A host snoop arrives and is answered with RspIHitI. -/
  | hostSnoop (hpa : Nat)
  /-- HOST_DEADLINE (R380): An awaited answer at the host port passes its deadline and a warn fault is raised. -/
  | hostDeadline (responder : Nat) (delay : Nat)
  /-- FUNCTION_LEVEL_RESET (R359): A Function Level Reset returns BAR0 host registers, MSI-X and ring configuration to reset values. -/
  | functionLevelReset
  /-- HDM_DECODER_COMMIT (R363): The host commits the HDM decoder, which succeeds only with a consistent window. -/
  | hdmDecoderCommit (base : Nat) (size : Nat) (oneWay : Bool) (bi : Bool)
  /-- IDE_FAIL (R379): An IDE integrity check fails and the stream enters the insecure state. -/
  | ideFail (mem : Bool)
  /-- DOORBELL (R370): A mailbox doorbell submits a request, or is ignored in state 1 or 2. -/
  | doorbell (seq : BitVec 16) (irq : Bool)
  /-- MAILBOX_ANSWER_READY (R370): A deferred mailbox request's answer is ready, state becomes 3 and vector 0 may be signalled. -/
  | mailboxAnswerReady
  /-- MAILBOX_ACK_TIMEOUT (R372): The mailbox state has not left 1 within 1 us and HOST_DEADLINE is raised. -/
  | mailboxAckTimeout (delay : Nat)
  /-- RING_ENABLE (R374): Setting ENABLE starts the notice ring and zeroes its indices. -/
  | ringEnable (log2 : Nat) (mirror : Bool)
  /-- RING_DISABLE (R374): Clearing ENABLE stops the notice ring after the record being written. -/
  | ringDisable (log2 : Nat) (mirror : Bool)
  /-- RING_CONS_WRITE (R376): A consumer index write is applied or refused against the producer index. -/
  | ringConsWrite (val : BitVec 32)
  /-- MSIX_UNMASK (R377): Unmasking a vector with its pending bit set sends one message. -/
  | msixUnmask (vec : Nat)
  /-- REGISTER_WRITE (R362): A write to a BAR0 register that has no behaviour of its own. -/
  | registerWrite (off : Nat) (size : Nat) (val : BitVec 64)
  /-- DOE_REQUEST (R378): A data object arrives on a DOE instance carrying SPDM, IDE_KM or CDAT. -/
  | doeRequest (inst : Nat) (ty : Nat) (data : List (BitVec 8))
  /-- SPDM_REQUEST (R485): An SPDM request arrives on DOE or the Shroud management lane and is answered. -/
  | spdmRequest (src : Option Nat) (data : List (BitVec 8))
  /-- SPDM_CONNECTION_IDLE (R486): A Shroud SPDM source has been idle for 10 s and its connection state is freed. -/
  | spdmConnectionIdle (lid : Nat)
  /-- READ (R390): Merec READ returns an object's value. -/
  | read (rq : Requester) (m : Merec)
  /-- WRITE (R392): Merec WRITE applies a value to an object at one moment. -/
  | write (rq : Requester) (m : Merec)
  /-- READ_SEGMENT (R397): Merec READ SEGMENT returns part of a BLOB with its generation. -/
  | readSegment (rq : Requester) (m : Merec)
  /-- WRITE_SEGMENT (R396): Merec WRITE SEGMENT opens, extends or applies a segmented BLOB write session. -/
  | writeSegment (rq : Requester) (m : Merec)
  /-- READ_RECORD (R398): Merec READ RECORD returns every entry of a record taken at one moment. -/
  | readRecord (rq : Requester) (m : Merec)
  /-- DESCRIBE (R390): Merec DESCRIBE returns an object's type, right and size. -/
  | describe (rq : Requester) (m : Merec)
  /-- DEFERRED_ANSWER (R393): A deferred request's final answer becomes ready and is sent. -/
  | deferredAnswer (rq : Requester)
  /-- DICTIONARY_DEADLINE (R393): A request's first answer misses 2 us and HOST_DEADLINE is raised. -/
  | dictionaryDeadline (delay : Nat)
  /-- SESSION_TIMEOUT (R396): A write session with no segment for 100 ms closes without effect. -/
  | sessionTimeout (rq : Requester) (q : Nat) (obj : Nat)
  /-- APPLY_PLAN (R404): Checks the partition plan and applies it at one moment, zeroing reassigned domes. -/
  | applyPlan (val : Nat) (token : Nat)
  /-- APPLY_PRELOAD (R406): Checks a preload image and its signature and applies its entries in order. -/
  | applyPreload (rq : Requester) (q : Nat) (val : Nat) (token : Nat)
  /-- FAULT_RECORD_ARRIVAL (R416): A fault record reaches the management cores and is counted, delivered and opens or joins a case. -/
  | faultRecordArrival (pathFault : Bool)
  /-- TARGETED_TEST_START (R420): A waiting case's targeted test starts on its unit. -/
  | targetedTestStart (unit : Nat)
  /-- TEST_START_TIMEOUT (R426): A targeted test has not started within 5 ms and NESTED_FAULT is raised. -/
  | testStartTimeout (unit : Nat)
  /-- TARGETED_TEST_END (R421): A targeted test ends and the case is classified, closed or fenced. -/
  | targetedTestEnd (unit : Nat) (res : TestResult) (expired : Nat)
  /-- SLICE_DUE (R428): A tower's next periodic BIST slice falls due on a berth. -/
  | sliceDue (t : Nat)
  /-- SLICE_START (R429): A berth with no outstanding operation pauses and its slice begins. -/
  | sliceStart (t : Nat)
  /-- SLICE_DEFER (R429): No drained cycle came within 100 ms and the slice is deferred. -/
  | sliceDefer (t : Nat)
  /-- SLICE_END (R432): A slice ends, state is restored and its signatures are judged. -/
  | sliceEnd (t : Nat) (res : TestResult)
  /-- RISK_SCORE (R433): Lookout computes the risk score every 100 ms and updates shadow requests. -/
  | riskScore (old : Nat)
  /-- SHADOW_DATA_PIECE (R440): A shadow data piece arrives at the buddy and is written at its offset. -/
  | shadowDataPiece
  /-- SHADOW_END_PIECE (R440): An END piece arrives and the buddy commits the generation or reports a mismatch. -/
  | shadowEndPiece
  /-- SHADOW_COMMIT_PIECE (R441): A COMMIT piece arrives at the sender and completes or fails the generation. -/
  | shadowCommitPiece
  /-- SHADOW_COMPLETION_TIMEOUT (R441): No COMMIT arrives within the completion limit after END and the generation is lost. -/
  | shadowCompletionTimeout (q : Nat)
  /-- START_RESTORE (R442): Start-restore command requests a generation from a buddy. -/
  | startRestore (q : Nat) (val : Nat) (token : Nat)
  /-- RESTORE_REQUEST (R442): A restore request arrives at the buddy, which streams the image or refuses. -/
  | restoreRequest
  /-- RESTORE_DATA_PIECE (R442): A restore data piece arrives and is written to its place. -/
  | restoreDataPiece
  /-- RESTORE_END_PIECE (R442): Restore END arrives, objects and step number are set and working copies rewritten. -/
  | restoreEndPiece
  /-- AVSBUS_POLL (R447): Every millisecond Pasyn reads current, voltage and temperature of each rail group. -/
  | avsbusPoll (g : Nat) (rd : AvsReading)
  /-- VDONE_TIMEOUT (R448): A voltage write has no VDone within 200 us and counts as a regulator fault. -/
  | vdoneTimeout (g : Nat)
  /-- REGULATOR_STATUS_RETRY (R448): Every 100 ms a faulted group's status word is read to clear the fault. -/
  | regulatorStatusRetry (g : Nat) (status : Option Nat)
  /-- VRALERT_ASSERT (R453): An alert input is taken asserted; the part moves to P3 and VR_ALERT is raised. -/
  | vralertAssert (g : Nat) (in10ms : Nat)
  /-- VRALERT_RELEASE (R453): An alert input is taken released and a 10 ms wait begins. -/
  | vralertRelease (g : Nat)
  /-- ALERT_RELEASE_WAIT_EXPIRY (R453): The 10 ms wait ends and the status word decides whether the cause is dropped. -/
  | alertReleaseWaitExpiry (g : Nat) (status : Option Nat)
  /-- ALERT_REMINDER (R453): Every 100 ms while an alert persists a REMINDER notice is sent. -/
  | alertReminder (g : Nat)
  /-- SLOW_N_ASSERT (R450): SLOW_N is taken asserted and forces P3. -/
  | slowNAssert (in10ms : Nat)
  /-- SLOW_N_RELEASE (R450): SLOW_N is taken released and its P3 cause is dropped. -/
  | slowNRelease
  /-- INPUT_UNMASK (R466): A masked input's raw level has been steady for 100 ms and it is unmasked. -/
  | inputUnmask (i : Nat) (asserted : Bool)
  /-- STATE_CAP_WRITE (R450): A write of the performance state cap changes the cap cause. -/
  | stateCapWrite (val : Nat)
  /-- ISLANDS_FREQUENCY_ACK (R451): Every governed island acknowledges a downward change and new voltage targets are written. -/
  | islandsFrequencyAck
  /-- VDONE_READ (R451): VDone is read for both tower groups and an upward frequency change proceeds. -/
  | vdoneRead
  /-- THERMAL_READING (R468): Every millisecond sensors are read and the thermal controller acts on the smallest margin. -/
  | thermalReading (readings : List Int)
  /-- THERMAL_STEP_UP (R468): The margin has stayed at or above the step-up margin for 100 ms and the state rises one step. -/
  | thermalStepUp
  /-- THERMAL_TRIP (R470): A sensor reaches its trip temperature; THERMTRIP_N is asserted and every island stops. -/
  | thermalTrip (sensor : Nat) (temp : Int)
  /-- OSCILLATOR_TRIM (R458): Every 100 ms the reference resonator trims each island oscillator. -/
  | oscillatorTrim
  /-- SUPPLY_DROOP (R459): An island's supply falls below its droop threshold and it stretches its cycles. -/
  | supplyDroop (island : Nat)
  /-- PWRGD_ASSERT (R455): PWRGD is asserted and the thermal trip logic starts. -/
  | pwrgdAssert (orderOk : Bool)
  /-- PWRGD_DEASSERT (R456): PWRGD is deasserted and every island stops within 2 us. -/
  | pwrgdDeassert
  /-- RST_N_ASSERT (R462): RST_N is asserted for 1 us or more and the device is reset. -/
  | rstNAssert
  /-- RST_N_RELEASE (R478): RST_N is released; straps are sampled and the boot ROM verifies policy and firmware. -/
  | rstNRelease (straps : BitVec 8) (flash : List (BitVec 8)) (puf : List (BitVec 8))
  /-- FIRMWARE_START (R480): Firmware starts, verifies the repair record, calibrates V0 and tests and maps the berths. -/
  | firmwareStart (v0a : Nat) (v0b : Nat) (fails : List Nat) (marginal : List Nat)
  /-- DOME_TRAINING_COMPLETE (R478): Dome training and zero fill end and MEMACT becomes 1. -/
  | domeTrainingComplete (failed : List Nat)
  /-- TAP_BYPASS (R492): Test access port BYPASS instruction. -/
  | tapBypass
  /-- TAP_IDCODE (R492): Test access port IDCODE instruction returning 0x10A5_1B5D. -/
  | tapIdcode
  /-- TAP_SAMPLE_PRELOAD (R492): Test access port SAMPLE/PRELOAD instruction. -/
  | tapSamplePreload (cells : List (Nat × Bool))
  /-- TAP_EXTEST (R492): Test access port EXTEST instruction, effective only while RST_N is asserted. -/
  | tapExtest
  /-- TAP_HIGHZ (R492): Test access port HIGHZ instruction, effective only while RST_N is asserted. -/
  | tapHighz
  /-- TAP_CLAMP (R492): Test access port CLAMP instruction, effective only while RST_N is asserted. -/
  | tapClamp
  /-- NO_OPERATION (R71): A bundle whose every slot holds OP 0x00 issues, advancing the program counter and possibly ending a hardware loop. -/
  | noOperation (sp : Nat)
  /-- SUPPLY_RECOVERY (R459): An island's supply recovers above its droop threshold and the island returns to its nominal period over at most 16 cycles, ending the droop event. -/
  | supplyRecovery (island : Nat) (stretched : Nat)
  /-- SCRUB_PERIOD_END (R307): A dome's scrub period runs out, restarting the per-die correction counts toward erasure and the first-correction rule of DOME_CE. -/
  | scrubPeriodEnd (d : Nat)
  /-- CXL_LINK_UP (R358): CXL link training completes and the link reaches L0, in 256-byte flit CXL mode or in PCIe mode. -/
  | cxlLinkUp (cxl : Bool) (rate : Nat) (width : Nat)
  /-- HOT_RESET (R462): An in-band hot reset or link disable from the host resets the host port island and discards the host requests in flight. -/
  | hotReset
  /-- PEER_TRAINING_LOST (R337): A port loses its peer's training, raises LINK_DOWN with cause 3 and handles its replay and egress packets as for a failed link. -/
  | peerTrainingLost (p : Nat) (old : Nat)
  /-- FABRIC_READY_TIMEOUT (R478): 2.5 s after boot, FABRDY stops waiting for enabled ports whose peers are absent. -/
  | fabricReadyTimeout
  /-- PLAN_ZERO_FILL_COMPLETE (R404): The zero fill of every dome that changed partition ends, after which the new partition may reach it and the completion notice is sent. -/
  | planZeroFillComplete
deriving DecidableEq, Repr

end Sys2Proof
end

