-- ==== Sys2Proof/Decode.lean ====
section
/-! DEFINITION. The command a word of the table spells: no row of spec/opcode_table.json gives bits, so none. -/

namespace Sys2Proof

/-- The command that `w` spells by the table's bits; the table gives no row any. -/
def decodeTableWord (_nbits _w : Nat) : Option Instr := none

end Sys2Proof
end

