-- ==== Sys2Proof/Machine/State.lean ====
section
/-! DEFINITION. The state of the device as plain data. Every field's comment names the rule of the spec that gives the
machine that piece of state; its default is its value at reset (notes/assumptions/2.md names the values the spec does
not state). A table keyed by a number is a list of key and value pairs in one canonical form: keys strictly rising, no
entry equal to the value an unlisted key reads as (Machine/Ops.lean). Dictionary objects are held in `State.od` and
`State.blobs` under their index and subindex (13 R384); their defaults are `Machine/OdTable.lean`. -/

namespace Sys2Proof.Machine

open Sys2Proof

/-- Why the block stops. -/
inductive Fault where
  /-- Raised by `PWRGD_ASSERT` with the rails raised out of the order of Sequence 15-1: R455 leaves the behaviour
  undefined and gives no effect. Safe: the model stops where the hardware may do anything. -/
  | wrongPowerOrder
deriving DecidableEq, Repr

/-- Why the model gives a command no meaning. -/
inductive Refusal where
  /-- Raised by an arm of `exec` whose command has no meaning yet. Safe: nothing happens. -/
  | notModelled (mnemonic : String)
deriving DecidableEq, Repr

/-- What a logical spar is doing in its partition's job (R84-R88, R105). -/
inductive RunState where
  | off
  | filling
  | running
  | halting
  | halted
  | stopped
deriving DecidableEq, Repr

/-- An active hardware loop (03 R82, R83). -/
structure Loop where
  /-- loop counter index, 2 bits (R82) -/
  x : Nat := 0
  /-- first bundle of the body (R82) -/
  first : Nat := 0
  /-- end bundle of the body (R82) -/
  last : Nat := 0
deriving DecidableEq, Repr

/-- The kinds of transfer the transfer engine queues (R87, R92, R94, R311, R347). -/
inductive XKind where
  | dld
  | dst
  | send
  | recv
  | fqWrite
  | fqArrival
  | fqRead
  | ifill
deriving DecidableEq, Repr

/-- One outstanding transfer of a spar (03 R92-R94, 10 R300, R311, R319, 11 R347). -/
structure Xfer where
  /-- which transfer -/
  kind : XKind := .dld
  /-- scratch address a[A], or first bundle of tx.ifill -/
  sa : Nat := 0
  /-- device address a[B], or a[D] of tx.fq -/
  da : Nat := 0
  /-- length s[C], or bytes of tx.ifill -/
  len : Nat := 0
  /-- bytes granted or moved so far -/
  moved : Nat := 0
  /-- atomic code of tx.dst, 0 for a plain store (R311) -/
  code : Nat := 0
  /-- place in the spar's issue order (R94) -/
  num : Nat := 0
  /-- LOCK mark (R319) -/
  lock : Bool := false
  /-- the transfer without LOCK that ends a locked sequence (R319) -/
  closes : Bool := false
  /-- channel entry or inbound endpoint (R92) -/
  ep : Nat := 0
  /-- route word s[B] of tx.fq (Table 11-8) -/
  route : BitVec 64 := 0
  /-- the remote request has gone to the fabric queue (R347) -/
  sent : Bool := false
  /-- number of the remote request, its low 16 bits the tag (R348) -/
  tag : Nat := 0
  /-- every byte moved or answered; it may retire (R94) -/
  done : Bool := false
  /-- refused by a cut-off (R320) or failed -/
  refused : Bool := false
  /-- lowest poisoned line met (R309) -/
  ue : Option Nat := none
  /-- STATUS of a remote answer (R348) -/
  status : Nat := 0
  /-- bundle that issued it (R106) -/
  bundle : Nat := 0
deriving DecidableEq, Repr

/-- The instruction fill of a job start (03 R84, R86). -/
structure Fill where
  /-- dome address of the image -/
  da : Nat := 0
  /-- bundles to fill -/
  count : Nat := 0
deriving DecidableEq, Repr

/-- A stationary tile as loaded (04 R118-R121, R124-R131, 05 R157-R162). -/
structure Tile where
  /-- format code of Table 3-6 -/
  fmt : Nat := 0
  /-- sparse-capable descriptor (R124) -/
  sparse : Bool := false
  /-- MODE of the header (R128) -/
  mode : Nat := 0
  /-- TR of the descriptor -/
  tr : Nat := 0
  /-- element and scale code at each contraction position of each output column within the bounds; none where a position is absent or masked (R109, R121, R131) -/
  cols : List (List (Option (Nat × Nat))) := []
  /-- offset of the first invalid metadata byte (R130, R154) -/
  bad : Option Nat := none
  /-- the entry is the second part of a tile that occupies both sets (R113) -/
  part2 : Bool := false
deriving DecidableEq, Repr

/-- A stationary load, from issue to the swap that activates its tile (04 R119). -/
structure Load where
  /-- descriptor t[B] read at issue (R160) -/
  desc : BitVec 512 := 0
  /-- tile address a[A] -/
  addr : Nat := 0
  /-- from dome, MOD[0] -/
  dome : Bool := false
  /-- transposed, MOD[1] -/
  trans : Bool := false
  /-- row extent E read at issue (R159) -/
  e : Nat := 0
  /-- tile origin row (R152) -/
  r0 : Nat := 0
  /-- tile origin column (R152) -/
  c0 : Nat := 0
  /-- element base in effect (R152) -/
  ebase : Nat := 0
  /-- scale base in effect (R152) -/
  sbase : Nat := 0
  /-- the last byte has arrived (R119) -/
  arrived : Bool := false
  /-- it writes straight into the background set (R119) -/
  direct : Bool := false
  /-- write-backs issued before it that have not read yet (R95) -/
  behind : Nat := 0
  /-- its bytes were taken from scratch before a later write-back (R95) -/
  read : Bool := false
  /-- a poisoned line was met: the tile never enters a set (R309) -/
  dead : Bool := false
  /-- the tile's bytes once they arrived -/
  tile : Tile := {}
  /-- place in the spar's issue order (R94) -/
  num : Nat := 0
  /-- bundle that issued it -/
  bundle : Nat := 0
deriving DecidableEq, Repr

/-- Slot-3 instructions that wait for the stream (R110, R134, R141, R144). -/
inductive ArrKind where
  | mmx
  | mew
  | mwb
  | mal
deriving DecidableEq, Repr

/-- One streamed row held in the feeder queues and the scale queue (04 R114): byte q of the row is the row's entry in queue q, bytes from 128 on lie in queue q - 128. -/
structure FeedRow where
  /-- element bytes of the row, at most 256 -/
  elems : List (BitVec 8) := []
  /-- scale bytes of the row, at most 32 -/
  scales : List (BitVec 8) := []
deriving DecidableEq, Repr

/-- A slot-3 instruction issued (04 R110, R134, R141-R146). -/
structure ArrOp where
  /-- which -/
  kind : ArrKind := .mmx
  /-- descriptor t[B] -/
  desc : BitVec 512 := 0
  /-- scratch address a[A], advanced for a block list (R187) -/
  addr : Nat := 0
  /-- accumulator base -/
  base : Nat := 0
  /-- m[C] -/
  rowMask : BitVec 128 := 0
  /-- m[X] -/
  colMask : BitVec 128 := 0
  /-- stationary format, MOD[7:4] -/
  f1 : Nat := 0
  /-- streamed format, MOD[3:0], or f of mwb -/
  f2 : Nat := 0
  /-- IMM[0] SWAP (R110), CLEAR of mwb (R144) -/
  swap : Bool := false
  /-- IMM[1] column order (R116) -/
  colOrder : Bool := false
  /-- IMM[2] FRESH (R143) -/
  fresh : Bool := false
  /-- IMM[4:3] feed (R185) -/
  feed : Nat := 0
  /-- bound row list (R186) -/
  list : List Int := []
  /-- bundle of the tk.rowfeed that wrote it (R186) -/
  lbundle : Nat := 0
  /-- SKIP value of the bound list (R174) -/
  skip : Option Int := none
  /-- mew operation (Table 4-6) -/
  op : Nat := 0
  /-- mew SRC -/
  src : Nat := 0
  /-- rows M (R159, R186), or entries n of mal -/
  m : Nat := 0
  /-- E read at issue -/
  e : Nat := 0
  /-- element base in effect (R152) -/
  ebase : Nat := 0
  /-- scale base in effect (R152) -/
  sbase : Nat := 0
  /-- tile origin row (R152) -/
  r0 : Nat := 0
  /-- tile origin column (R152) -/
  c0 : Nat := 0
  /-- pointer-list entry e (R152) -/
  pe : Nat := 0
  /-- logical depth K of an mmx, the elements of a streamed row (R109, R157) -/
  kk : Nat := 0
  /-- rows of it in the feeder queues and the scale queue, in row order (R114, R115) -/
  queued : List FeedRow := []
  /-- rows the feeder has read for it so far (R115) -/
  fetched : Nat := 0
  /-- bundle that issued it -/
  bundle : Nat := 0
deriving DecidableEq, Repr

/-- A started slot-3 instruction whose rows have not all landed (04 R110). -/
structure ArrRun where
  /-- the instruction -/
  op : ArrOp := {}
  /-- the stationary tile its rows use; none for an empty active set (R111, R118) -/
  tile : Option Tile := none
  /-- next row to land -/
  next : Nat := 0
  /-- rows to land -/
  total : Nat := 0
deriving DecidableEq, Repr

/-- One request in an accumulator bank's conflict queue (04 R138). -/
structure AccReq where
  /-- entry index, 16 bits -/
  entry : Nat := 0
  /-- FP32 contribution (R183) -/
  val : BitVec 32 := 0
deriving DecidableEq, Repr

/-- A slot-6 operation 0x01-0x06 issued (06 R168-R170). -/
structure TkOp where
  /-- OP 1-6 -/
  op : Nat := 0
  /-- index list address a[A] -/
  list : Nat := 0
  /-- source descriptor t[B] -/
  src : BitVec 512 := 0
  /-- destination descriptor t[C] -/
  dst : BitVec 512 := 0
  /-- accumulator base a[D] -/
  base : Nat := 0
  /-- weight list a[C] -/
  wlist : Nat := 0
  /-- list positions, s[X][31:0] -/
  n : Nat := 0
  /-- MOD[0] -/
  srcDome : Bool := false
  /-- MOD[1] -/
  dstDome : Bool := false
  /-- MOD[2] -/
  i16 : Bool := false
  /-- SKIP -/
  skip : BitVec 32 := 0
  /-- SKEN -/
  sken : Bool := false
  /-- K -/
  k : Nat := 1
  /-- RBOUND or BBOUND -/
  rbound : Nat := 0
  /-- FMODE of tk.rowfeed -/
  fmode : Bool := false
  /-- place in the spar's issue order (R94) -/
  num : Nat := 0
  /-- bundle that issued it -/
  bundle : Nat := 0
deriving DecidableEq, Repr

/-- The tackle operation in progress (06 R175). -/
structure TkRun where
  /-- the operation -/
  op : TkOp := {}
  /-- next index block to validate -/
  block : Nat := 0
  /-- additions of the accessed blocks that have not entered a conflict queue, in lane order (R181) -/
  reqs : List AccReq := []
deriving DecidableEq, Repr

/-- Work counter operations (R191). -/
inductive CtrOp where
  | claim
  | done
  | reset
  | query
deriving DecidableEq, Repr

/-- An outstanding work-counter operation of a spar (06 R168, R191, R192). -/
structure Claim where
  /-- which -/
  op : CtrOp := .claim
  /-- 16-bit counter number (R190) -/
  ctr : Nat := 0
  /-- start of a reset, or claim word of a done -/
  a : BitVec 64 := 0
  /-- count of a reset -/
  b : BitVec 64 := 0
  /-- s[D] -/
  dest : Nat := 0
  /-- the dome has performed it (R314) -/
  performed : Bool := false
  /-- refused by a cut-off (R192, R320) -/
  refused : Bool := false
  /-- Table 6-5 result on its way back -/
  result : BitVec 64 := 0
  /-- bundle that issued it -/
  bundle : Nat := 0
deriving DecidableEq, Repr

/-- A pending list of tk.rowfeed (06 R186, R187). -/
structure RowList where
  /-- indices as read -/
  idx : List Int := []
  /-- SKIP when SKEN = 1 -/
  skip : Option Int := none
  /-- bundle of the tk.rowfeed -/
  bundle : Nat := 0
deriving DecidableEq, Repr

/-- One logical spar (03 R66, R75, R85; 04; 06). -/
structure Spar where
  /-- part in the job (R84-R88) -/
  run : RunState := .off
  /-- program counter, bundle index 0-511 (R66, R81) -/
  pc : Nat := 0
  /-- s0-s63, 64 bits (R75) -/
  sreg : List (Nat × BitVec 64) := []
  /-- a0-a31, 64 bits (R75) -/
  areg : List (Nat × BitVec 64) := []
  /-- p0-p15, 256 bits (R75) -/
  preg : List (Nat × BitVec 256) := []
  /-- m0-m7, 128 bits (R75) -/
  mreg : List (Nat × BitVec 128) := []
  /-- v0-v31, 256 x 32 bits (R75) -/
  vreg : List (Nat × BitVec 8192) := []
  /-- l0-l3, 32 bits (R75) -/
  lreg : List (Nat × BitVec 32) := []
  /-- t0-t3, 512 bits (R75) -/
  treg : List (Nat × BitVec 512) := []
  /-- active loops, most recently begun first (R82, R83) -/
  loops : List Loop := []
  /-- instruction store, 64 KiB of bytes (R66) -/
  istore : List Host.Cell := []
  /-- instruction fill of the job start in progress (R84) -/
  fill : Option Fill := none
  /-- scratch memory, 2 MiB of bytes (R66) -/
  scratch : List Host.Cell := []
  /-- accumulator buffer, 65,536 FP32 entries (R136, R140) -/
  acc : List (Nat × BitVec 32) := []
  /-- live accumulator regions (base, size), most recent first (R141) -/
  regions : List (Nat × Nat) := []
  /-- channel table, 32 entries of 64 bits (R91) -/
  chtab : List (Nat × BitVec 64) := []
  /-- outstanding transfers, oldest first, at most 32 (R66, R94) -/
  xfers : List Xfer := []
  /-- open locked sequence: dome and slots counted (R319) -/
  lockSeq : Option (Nat × Nat) := none
  /-- inbound endpoint buffers 0-31, 512 bytes each (R92) -/
  endpoints : List (Nat × List (BitVec 8)) := []
  /-- bytes appended by tx.send to the stream of a KIND 3 entry, key entry (R92) -/
  fqStream : List (Nat × List (BitVec 8)) := []
  /-- channel bytes sent to each inbound endpoint, not yet arrived (R92, R460) -/
  inflight : List (Nat × List (BitVec 8)) := []
  /-- active stationary set (R118) -/
  active : Option Tile := none
  /-- the other set, once it holds the second part of a tile that occupies both (R113) -/
  second : Option Tile := none
  /-- background stationary set (R118) -/
  back : Option Tile := none
  /-- stationary staging buffer (R118) -/
  staging : Option Tile := none
  /-- loads not yet activated, oldest first, at most 2 (R119) -/
  loads : List Load := []
  /-- slot-3 instructions issued and not started, oldest first, at most 2 (R110) -/
  stream : List ArrOp := []
  /-- started slot-3 instructions with rows to land, oldest first (R110) -/
  rows : List ArrRun := []
  /-- conflict queues of the 32 banks, at most 64 requests each (R138) -/
  banks : List (Nat × List AccReq) := []
  /-- tackle operations issued and not started, at most 4 (R168) -/
  tackleQ : List TkOp := []
  /-- tackle operation in progress (R168, R175) -/
  tackle : Option TkRun := none
  /-- counter operations outstanding, at most 16 (R168) -/
  claims : List Claim := []
  /-- pending row lists, at most 2 (R172, R186) -/
  rowLists : List RowList := []
  /-- pending block list, at most 1 (R172, R187) -/
  blockLists : List RowList := []
  /-- operations issued since the job start, which numbers them in issue order (R94) -/
  opNum : Nat := 0
  /-- a bundle waits to issue (R73, R100) -/
  waiting : Bool := false
  /-- barrier group at which the spar waits in fc.phase (R98) -/
  barrier : Option Nat := none
  /-- phase count (R97) -/
  phase : BitVec 32 := 0
  /-- partition step number latched at the last fence (R99) -/
  step : BitVec 64 := 0
  /-- paused for a BIST slice or targeted test (R420, R429) -/
  paused : Bool := false
  /-- gated multiply-accumulates not yet a whole 1,024 (R123, Table 4-9) -/
  gated : Nat := 0
deriving DecidableEq, Repr

/-- One of a dome's 4,096 work counters (06 R190). -/
structure WorkCounter where
  /-- EPOCH, 24 bits, less the job-start resets of its dome, modulo 2^24 -/
  epoch : Nat := 0
  /-- START, 40 bits -/
  start : Nat := 0
  /-- COUNT, 0 to 4,096 -/
  count : Nat := 0
  /-- NEXT -/
  next : Nat := 0
  /-- completed count -/
  completed : Nat := 0
  /-- set ledger bits, ascending -/
  ledger : List Nat := []
deriving DecidableEq, Repr

/-- One edge arbiter (10 R317-R321); limits, weights, cut-offs and counts are objects. -/
structure Edge where
  /-- requester whose locked sequence is open (R317, R319) -/
  lock : Option Nat := none
  /-- spar that owns the lock, for requester 0 -/
  lockSpar : Nat := 0
  /-- slots the lock has held the edge (R317) -/
  held : Nat := 0
  /-- slots in which a request asked and was not granted: key requester, or 16 + spar for a tower's spar (R318) -/
  waits : List (Nat × Nat) := []
  /-- turn of each rank (R317) -/
  turn : List (Nat × Nat) := []
  /-- consecutive grants of the turn, per rank (R317) -/
  run : List (Nat × Nat) := []
  /-- requesters with STARVE raised since their last grant (R318) -/
  starved : List Nat := []
  /-- settings still in use until a slot without a lock: subindex, value (R321) -/
  inUse : List (Nat × Nat) := []
deriving DecidableEq, Repr

/-- A tower's pointer into a turn table (10 R301), and a table write waiting (R321). -/
structure HomePtr where
  /-- entry position 0-255 -/
  pos : Nat := 0
  /-- the table still in use until a write is taken here; none: the object's value (R321) -/
  table : Option (List (BitVec 8)) := none
deriving DecidableEq, Repr

/-- Accesses of host and fabric at a dome port (R300, R348, R365). -/
inductive AccWhat where
  | read
  | write
  | remWrite
  | remRead
  | tier
deriving DecidableEq, Repr

/-- An access of the host or of a remote device waiting at a dome port (10 R300, R305). -/
structure DomeAcc where
  /-- which -/
  what : AccWhat := .read
  /-- requester number of Table 10-6 -/
  req : Nat := 4
  /-- device address -/
  addr : Nat := 0
  /-- bytes -/
  len : Nat := 64
  /-- bytes of a write -/
  data : List (BitVec 8) := []
  /-- a host write that carries poison (R365) -/
  poison : Bool := false
  /-- request label (host tag, or remote tag) -/
  id : Nat := 0
  /-- requesting device for a remote access -/
  lid : Nat := 0
  /-- route word of a remote write with arrival record (R348) -/
  head : BitVec 64 := 0
  /-- partition named -/
  q : Nat := 0
  /-- slots still to be granted (R300) -/
  slots : Nat := 1
  /-- HOST_DEADLINE was raised for its answer (R380) -/
  late : Bool := false
  /-- partition of a remote requester (Table 11-4) -/
  qsrc : Nat := 0
  /-- FLOW of a remote request (Table 11-4) -/
  flow : Nat := 0
deriving DecidableEq, Repr

/-- A device access waiting for the host's BIRsp (10 R316, 12 R366). -/
structure BiWait where
  /-- line address -/
  line : Nat := 0
  /-- unit that waits: spar number, or 4096 + 16k + requester -/
  unit : Nat := 0
  /-- dome -/
  dome : Nat := 0
  /-- the BIRsp has come and the access is not yet served: a host read of the line waits for it (R366) -/
  answered : Bool := false
deriving DecidableEq, Repr

/-- An access of a unit that moves as one event, while its slots are asked for at the dome ports (10 R300, R301, R305, R314, R317). -/
structure PortAsk where
  /-- unit: spar number, or 4096 + 16k + requester of Table 10-6 -/
  unit : Nat := 0
  /-- partition whose context it serves (01 R30), 4 for none -/
  q : Nat := 4
  /-- device ranges: address and bytes -/
  rs : List (Nat × Nat) := []
  /-- slots still to be granted: dome and number, in the order of the ranges -/
  left : List (Nat × Nat) := []
deriving DecidableEq, Repr

/-- The request a pruning unit serves (06 R199, R200). -/
structure PruneReq where
  /-- partition -/
  q : Nat := 0
  /-- record address -/
  addr : Nat := 0
  /-- counter slot -/
  slot : Nat := 0
  /-- posted by Boom -/
  boom : Bool := false
  /-- TOKEN of the command, for the completion notice -/
  token : Nat := 0
deriving DecidableEq, Repr

/-- Progress of a Halyard batch (Sequence 7-1). -/
inductive BPhase where
  | opening
  | scoring
  | exch1
  | exch2
  | assigning
  | closed
deriving DecidableEq, Repr

/-- One served choice (07 R221). -/
structure Served where
  /-- token -/
  tok : Nat := 0
  /-- rank -/
  rank : Nat := 0
  /-- expert -/
  expert : Nat := 0
  /-- pool slot -/
  pool : Bool := false
  /-- regular row or pool slot -/
  slot : Nat := 0
deriving DecidableEq, Repr

/-- Expert map entry (07 Table 7-3). -/
structure EmapEnt where
  /-- LID -/
  lid : Nat := 0
  /-- LOCAL -/
  loc : Nat := 0
  /-- COLD -/
  cold : Bool := false
  /-- MASKED -/
  masked : Bool := false
  /-- TSRC -/
  tsrc : Nat := 0
  /-- TLID -/
  tlid : Nat := 0
  /-- TBYTES -/
  tbytes : Nat := 0
  /-- TADDR -/
  taddr : Nat := 0
  /-- LAND -/
  land : Nat := 0
deriving DecidableEq, Repr

/-- An open Halyard batch (07 R207-R231). -/
structure Batch where
  /-- TAG -/
  tag : Nat := 0
  /-- GEN -/
  gen : Nat := 0
  /-- the batch record, 192 bytes -/
  record : List (BitVec 8) := []
  /-- OPENs that have arrived: tower, record address (R209) -/
  opens : List (Nat × Nat) := []
  /-- progress -/
  phase : BPhase := .opening
  /-- expert map as checked -/
  emap : List EmapEnt := []
  /-- towers whose units have finished selecting (R214) -/
  units : List Nat := []
  /-- choices of each finite token (R214) -/
  choices : List (Nat × List Nat) := []
  /-- gate weights of each finite token (R216) -/
  weights : List (Nat × List (BitVec 32)) := []
  /-- D_s (R218) -/
  demand : List Nat := []
  /-- vector of the running scan (R220) -/
  vec : List Nat := []
  /-- scan round (R220) -/
  round : Nat := 0
  /-- this round's vector has been sent -/
  sent : Bool := false
  /-- entries received: key (exch*256+round)*16384+index; index 16383 marks a totals frame (R220) -/
  parts : List (Nat × Nat) := []
  /-- P_s (R218) -/
  pref : List Nat := []
  /-- T[e] of local experts (R218) -/
  tots : List (Nat × Nat) := []
  /-- O_s (R218) -/
  overflow : List Nat := []
  /-- Q_s (R218) -/
  qpref : List Nat := []
  /-- total overflow to this device (R218) -/
  overTot : Nat := 0
  /-- served choices in position order (R221) -/
  served : List Served := []
  /-- regular rows received (R228) -/
  rxReg : Nat := 0
  /-- pool rows received (R228) -/
  rxPool : Nat := 0
  /-- slots filled: key expert*2^21+pool*2^20+slot -/
  rxKeys : List Nat := []
  /-- a replay's pool slots of each local expert, from LDIR and PLIST, key expert (R231) -/
  plist : List (Nat × List Nat) := []
  /-- source part of the books: CHOICES, ACCEPTED, OVERFLOW, DROPPED (R241) -/
  books : List Nat := []
  /-- ARRIVED sent (R228) -/
  arrived : Bool := false
  /-- local experts already returned (R229) -/
  retExp : List Nat := []
  /-- return rows sent (R230) -/
  retRows : Nat := 0
  /-- returns received (R230) -/
  returns : Nat := 0
  /-- positions returned -/
  retGot : List Nat := []
  /-- RETURNED sent (R230) -/
  returned : Bool := false
deriving DecidableEq, Repr

/-- A slow-tier fetch (07 R236, 12 R367-R369). -/
structure Fetch where
  /-- partition -/
  q : Nat := 0
  /-- TAG -/
  tag : Nat := 0
  /-- GEN -/
  gen : Nat := 0
  /-- local expert -/
  j : Nat := 0
  /-- TSRC -/
  src : Nat := 0
  /-- TLID -/
  lid : Nat := 0
  /-- next tier address -/
  addr : Nat := 0
  /-- next landing address -/
  land : Nat := 0
  /-- bytes left -/
  left : Nat := 0
  /-- lines asked of the host and not yet arrived, after a failure too (R367) -/
  asked : Nat := 0
  /-- reads asked of the tier device and not yet answered: tag, landing address, bytes (R236, R348) -/
  reqs : List (Nat × Nat × Nat) := []
  /-- the fetch started (R368) -/
  started : Bool := true
  /-- stopped on poison or error (R369) -/
  failed : Bool := false
deriving DecidableEq, Repr

/-- An open collective (08 R253-R259). -/
structure ColOp where
  /-- partition -/
  q : Nat := 0
  /-- OP -/
  op : Nat := 0
  /-- IFMT -/
  ifmt : Nat := 0
  /-- OFMT -/
  ofmt : Nat := 0
  /-- GROUP -/
  group : Nat := 0
  /-- LAYER -/
  layer : Nat := 0
  /-- GNORM -/
  gnorm : Bool := false
  /-- UPPER -/
  upper : Nat := 255
  /-- TAG -/
  tag : Nat := 0
  /-- BLOCKS -/
  blocks : Nat := 0
  /-- SRC -/
  src : Nat := 0
  /-- DST -/
  dst : Nat := 0
  /-- STAGE -/
  stage : Nat := 0
  /-- STEP -/
  step : Nat := 0
  /-- EVSPAR -/
  evspar : Nat := 0
  /-- EVEP -/
  evep : Nat := 0
  /-- own rank -/
  rank : Nat := 0
  /-- blocks held: key (part*4096+rank)*2^32+block; the block's 65 or 128 bytes -/
  got : List (Nat × List (BitVec 8)) := []
  /-- output blocks written -/
  wrote : List Nat := []
  /-- norm entries received, 88 bytes as a number: key (level*4096+rank)*256+slot (R259) -/
  entries : List (Nat × Nat) := []
  /-- norm totals received: layer slot, 88 bytes as a number (R259) -/
  totals : List (Nat × Nat) := []
  /-- the group totals went to the upper table's rank 0 (R259) -/
  sentUp : Bool := false
deriving DecidableEq, Repr

/-- A Boom vote held (09 R281). -/
structure Vote where
  /-- partition -/
  q : Nat := 0
  /-- AGROUP -/
  agroup : Nat := 0
  /-- RANK -/
  rank : Nat := 0
  /-- READY -/
  ready : Bool := false
  /-- SHADOW -/
  shadow : Bool := false
  /-- T -/
  t : Nat := 0
  /-- WORD -/
  word : Nat := 0
  /-- sending device -/
  slid : Nat := 0
deriving DecidableEq, Repr

/-- An open update of Boom (09 R277-R290). -/
structure Upd where
  /-- AGROUP -/
  agroup : Nat := 255
  /-- GCOUNT -/
  gcount : Nat := 0
  /-- GLIST -/
  glist : Nat := 0
  /-- listed groups, in order -/
  groups : List Nat := []
  /-- event spar and endpoint -/
  ev : Option (Nat × Nat) := none
  /-- step t -/
  t : Nat := 0
  /-- clip factor c once known (R269) -/
  clip : Option (BitVec 32) := none
  /-- update state, as OD 0x6400:08 -/
  st : Nat := 1
  /-- local readiness (R280) -/
  ready : Bool := false
  /-- agreement word (R280) -/
  word : Nat := 0
  /-- latched shadow request, then the update's (R435) -/
  shadow : Bool := false
  /-- groups not yet applied -/
  next : List Nat := []
  /-- rule-3 groups with a MIX outstanding (R290) -/
  mixOut : List Nat := []
  /-- towers with a pruning request of this update posted or in service (R289) -/
  pruneOut : List Nat := []
  /-- pruning requests that wait for a busy unit: tower, record address, slot (R289) -/
  pruneWait : List (Nat × Nat × Nat) := []
  /-- groups whose pruning request is still to be posted, in list order (R289) -/
  pruneNext : List Nat := []
  /-- groups written -/
  done : List Nat := []
  /-- TOKEN when started by the dictionary -/
  token : Nat := 0
  /-- started by OD 0x6401:00 -/
  cmd : Bool := false
deriving DecidableEq, Repr

/-- A shadow generation being sent (14 R437, R441). -/
structure ShSend where
  /-- generation -/
  gen : Nat := 0
  /-- END sent -/
  ended : Bool := false
  /-- image bytes -/
  size : Nat := 0
  /-- groups whose regions were sent in part 1 -/
  groupsSent : List Nat := []
deriving DecidableEq, Repr

/-- A generation being received (14 R440). -/
structure ShRecv where
  /-- generation -/
  gen : Nat := 0
  /-- 0: image A, 1: image B -/
  image : Nat := 0
  /-- data bytes received -/
  bytes : Nat := 0
  /-- oversized: nothing of it is written -/
  refused : Bool := false
  /-- generations below this are discarded -/
  oldest : Nat := 0
deriving DecidableEq, Repr

/-- A restore in progress (14 R442). -/
structure Restore where
  /-- generation -/
  gen : Nat := 0
  /-- data bytes received -/
  bytes : Nat := 0
  /-- image bytes held until they are placed -/
  data : List (Nat × BitVec 8) := []
  /-- TOKEN of the command -/
  token : Nat := 0
deriving DecidableEq, Repr

/-- A packet kept in a replay buffer (11 R335, R336). -/
structure Replay where
  /-- SEQ -/
  seq : Nat := 0
  /-- times it has been sent again (R336) -/
  retries : Nat := 0
  /-- it is to be sent again and waits for its credits (R335) -/
  due : Bool := false
  /-- the packet -/
  pkt : Packet := {}
deriving DecidableEq, Repr

/-- A packet in an ingress buffer (11 R340). -/
structure Rx where
  /-- SEQ -/
  seq : Nat := 0
  /-- the packet -/
  pkt : Packet := {}
  /-- accepted before the port's last training, so outside its credits (R332) -/
  stale : Bool := false
deriving DecidableEq, Repr

/-- The link layer and buffers of a fabric port (11 R329-R341). -/
structure Port where
  /-- next SEQ to send, 16 bits (R334) -/
  txSeq : Nat := 0
  /-- next SEQ expected, 16 bits (R334) -/
  rxSeq : Nat := 0
  /-- peer's pool of each lane, from training (R332) -/
  pools : List (Nat × Nat) := []
  /-- own pools in effect since training (R332) -/
  myPools : List (Nat × Nat) := []
  /-- credits consumed since training, per lane (R333) -/
  consumed : List (Nat × Nat) := []
  /-- returned credits seen, per lane (R333) -/
  retSeen : List (Nat × Nat) := []
  /-- credits returned to the peer, per lane (R333) -/
  returned : List (Nat × Nat) := []
  /-- ingress buffers, per lane (R341) -/
  ingress : List (Nat × List Rx) := []
  /-- egress queues, per lane (R341) -/
  egress : List (Nat × List Packet) := []
  /-- replay buffer, oldest first (R335, R341) -/
  replay : List Replay := []
  /-- expected SEQ for which a NAK was sent (R335) -/
  nakFor : Option Nat := none
  /-- accepted SEQ values with no ACK sent yet (R334) -/
  ackDue : List Nat := []
  /-- TRAIN received once (R329) -/
  lastTrain : Option TrainMsg := none
  /-- trainings started within the last 1 s (R338) -/
  trains : Nat := 0
  /-- AUDIT sent, packets held (R354) -/
  auditing : Bool := false
  /-- the port is fenced (R423) -/
  fenced : Bool := false
  /-- a STATUS is owed to the peer (R333, R334) -/
  statusDue : Bool := false
deriving DecidableEq, Repr

/-- A notice record (13 Table 13-14). -/
structure Notice where
  /-- TYPE -/
  ty : Nat := 0
  /-- SEVERITY -/
  sev : Nat := 0
  /-- LOSS -/
  loss : Bool := false
  /-- DEVWIDE -/
  devwide : Bool := false
  /-- partition -/
  part : Nat := 0
  /-- SEQ -/
  seq : Nat := 0
  /-- CODE -/
  code : Nat := 0
  /-- MERGED -/
  merged : Nat := 0
  /-- SOURCE -/
  source : Nat := 0
  /-- CYCLES -/
  cycles : Nat := 0
  /-- PAYLOAD, 40 bytes -/
  payload : List (BitVec 8) := []
  /-- the values a rule names for the payload where the spec does not place them in it (log 4) -/
  vals : List Nat := []
  /-- a fabric fault of a port (R339), kept for its destinations -/
  port : Bool := false
deriving DecidableEq, Repr

/-- A notice destination's queue (13 R408-R411). -/
structure Dest where
  /-- next SEQ, 32 bits (R409) -/
  seq : Nat := 0
  /-- a record was discarded since the last one delivered (R410) -/
  lossDue : Bool := false
  /-- records queued -/
  queue : List Notice := []
deriving DecidableEq, Repr

/-- An entry of the fault queue (14 R416, R417); its visible fields are objects. -/
structure Case where
  /-- the case is open -/
  open_ : Bool := false
  /-- case number -/
  num : Nat := 0
  /-- unit ID; a spar's berth (R416) -/
  unit : Nat := 0
  /-- fault code of the opening record -/
  code : Nat := 0
  /-- state of Table 14-3 -/
  st : Nat := 0
  /-- partition of the record, 4 for none -/
  part : Nat := 4
deriving DecidableEq, Repr

/-- A periodic BIST slice of a tower (14 R428-R432). -/
structure Slice where
  /-- berth -/
  berth : Nat := 0
  /-- due, waiting for a drained cycle -/
  due : Bool := false
  /-- running -/
  active : Bool := false
deriving DecidableEq, Repr

/-- A segmented write session (13 R396). -/
structure Session where
  /-- requester -/
  req : Nat := 0
  /-- partition -/
  q : Nat := 0
  /-- object key -/
  obj : Nat := 0
  /-- bytes received -/
  data : List (BitVec 8) := []
  /-- TOKEN -/
  token : Nat := 0
deriving DecidableEq, Repr

/-- A deferred request, executed and not yet answered (13 R393). -/
structure Deferred where
  /-- requester -/
  req : Nat := 0
  /-- partition a Shroud answer goes to (Table 13-9) -/
  qdst : Nat := 0
  /-- partition a Shroud request named -/
  qsrc : Nat := 0
  /-- the final answer -/
  answer : List (BitVec 8) := []
deriving DecidableEq, Repr

/-- A CMD action that still runs (13 R394). -/
structure Running where
  /-- object key, index*256 + sub -/
  obj : Nat := 0
  /-- partition -/
  q : Nat := 0
  /-- TOKEN -/
  token : Nat := 0
  /-- value written -/
  value : Nat := 0
  /-- QSEL as resolved -/
  qsel : Nat := 0
deriving DecidableEq, Repr

/-- A change of performance state in progress (R451). -/
inductive PowerMove where
  | idle
  | down
  | up
deriving DecidableEq, Repr

/-- A message or signal the device has sent to its surroundings (the model's own record of outputs). -/
structure OutMsg where
  /-- 0 host memory write, 1 MSI-X message, 2 BISnpInv, 3 CXL.mem answer, 4 CXL.io answer, 5 MCTP message, 6 CXL.cache RdCurr, 7 snoop answer, 8 DOE object, 9 SPI read, 10 AVSBus frame, 11 Shroud notice frame on the fixed path, 12 link control message, as codewords, 13 Shroud packet, as codewords, 14 mailbox answer -/
  kind : Nat := 0
  /-- address, vector, label or port -/
  addr : Nat := 0
  /-- bytes carried -/
  data : List (BitVec 8) := []
  /-- poison, status or sub-kind -/
  flag : Nat := 0
deriving DecidableEq, Repr

/-- The host port (12); counters are objects of OD 0x1800. -/
structure Cxl where
  /-- link: 0 down, 1 training, 2 PCIe mode, 3 CXL up (Table 12-11 :01, R358) -/
  link : Nat := 0
  /-- power state D3hot (Table 12-3) -/
  d3 : Bool := false
  /-- BAR0 bytes of the CXL component registers, offsets 0-0xFFFF (Table 12-4) -/
  bar : List Host.Cell := []
  /-- writable configuration space bytes (R361) -/
  cfg : List Host.Cell := []
  /-- MBX_LEN (Table 12-4) -/
  mbxLen : BitVec 32 := 0
  /-- MBX_ALEN (Table 12-4) -/
  mbxAlen : BitVec 32 := 0
  /-- MBX_CTRL SEQ (Table 12-5) -/
  mbxSeqCtl : BitVec 16 := 0
  /-- MBX_CTRL IRQ (Table 12-5) -/
  mbxIrq : Bool := false
  /-- MBX_STATUS SEQ (Table 12-6) -/
  mbxSeq : BitVec 16 := 0
  /-- MBX_STATUS IGNORED, 8 bits (Table 12-6) -/
  mbxIgnored : Nat := 0
  /-- MBX_STATUS STATE, 0-3 (Table 12-6) -/
  mbxState : Nat := 0
  /-- request buffer, 4 KiB (Table 12-4) -/
  mbxReqBuf : List Host.Cell := []
  /-- answer buffer, 4 KiB (Table 12-4) -/
  mbxAnsBuf : List Host.Cell := []
  /-- the copied request, until the management mailbox runs it (R370) -/
  mbxJob : Option (List (BitVec 8)) := none
  /-- in state 2 the answer to come, once the request has run (R370) -/
  mbxAns : Option (List (BitVec 8)) := none
  /-- requests accepted before a Function Level Reset, whose answers are discarded (R359) -/
  mbxDropped : List (List (BitVec 8)) := []
  /-- HOST_DEADLINE was raised for the request in state 1 (R372) -/
  mbxLate : Bool := false
  /-- RING_BASE (Table 12-4) -/
  ringBase : BitVec 64 := 0
  /-- RING_CTRL LOG2 (Table 12-7) -/
  ringLog2 : Nat := 6
  /-- RING_CTRL ENABLE (Table 12-7) -/
  ringEnable : Bool := false
  /-- RING_CTRL MIRROR (Table 12-7) -/
  ringMirror : Bool := false
  /-- RING_PROD (Table 12-4) -/
  ringProd : BitVec 32 := 0
  /-- RING_CONS (Table 12-4) -/
  ringCons : BitVec 32 := 0
  /-- RING_PADDR (Table 12-4) -/
  ringPaddr : BitVec 64 := 0
  /-- a run of losses on a full ring has signalled vector 5 (R376) -/
  ringLossRun : Bool := false
  /-- MSI-X table, 64 x 16 bytes (Table 12-4) -/
  msixTable : List Host.Cell := []
  /-- MSI-X pending bits (Table 12-4, R377) -/
  msixPba : BitVec 64 := 0
  /-- MSI-X Enable of the MSI-X capability (R361, R377) -/
  msixOn : Bool := false
  /-- Function Mask of the MSI-X capability (R361, R377) -/
  msixMask : Bool := false
  /-- what waits for the CXL egress arbiter, key requester of Table 10-6: 0 CXL.mem answers, 1 mailbox answers, 2 MSI-X messages beside those of records, 3 CXL.cache requests (R377) -/
  hostOut : List (Nat × List OutMsg) := []
  /-- HDM decoder base (R363) -/
  hdmBase : Nat := 0
  /-- HDM decoder size (R363) -/
  hdmSize : Nat := 0
  /-- decoder committed (R363) -/
  hdmCommitted : Bool := false
  /-- Error Not Committed (R363) -/
  hdmErr : Bool := false
  /-- host line tracker, oldest first, at most 262,144 lines (R366) -/
  tracker : List Nat := []
  /-- lines with a BISnpInv sent or to be sent and no BIRsp yet (R366) -/
  biPending : List Nat := []
  /-- those of biPending whose BISnpInv waits for the link or its stream (R366, R379) -/
  biUnsent : List Nat := []
  /-- those of biPending for which HOST_DEADLINE was raised (R380) -/
  lateBi : List Nat := []
  /-- outstanding RdCurr for which HOST_DEADLINE was raised (R380) -/
  lateRd : Nat := 0
  /-- CXL.io IDE stream secure (R379) -/
  ideIo : Bool := false
  /-- CXL.cachemem IDE stream secure (R379) -/
  ideMem : Bool := false
  /-- the CXL.io stream failed and waits to be keyed again (R379) -/
  ideIoBad : Bool := false
  /-- the CXL.cachemem stream failed and waits to be keyed again (R379) -/
  ideMemBad : Bool := false
  /-- the host port is held in reset (R465) -/
  perst : Bool := true
  /-- host requests in flight: label, device address (R360) -/
  hostReqs : List (Nat × Nat) := []
  /-- keys programmed for the IDE streams, 0 CXL.io, 1 CXL.cachemem (R379) -/
  ideKeys : List (Nat × List (BitVec 8)) := []
  /-- SPDM connection state on DOE: 0 none, 1 version, 2 capabilities, 3 algorithms, 4 key exchange, 5 session (R485, R486) -/
  spdmDoe : Nat := 0
  /-- Shroud SPDM connections: source LID, state; at most 8 (R486) -/
  spdmPeers : List (Nat × Nat) := []
deriving DecidableEq, Repr

/-- Performance states, alerts, thermal control (15 R449-R470). -/
structure Power where
  /-- thermal controller's state, 0-3 (R468) -/
  thermal : Nat := 0
  /-- rail groups whose alert cause stands (R450, R453) -/
  alerts : List Nat := []
  /-- rail groups in the 10 ms wait after release (R453) -/
  alertWait : List Nat := []
  /-- rail groups with a regulator fault standing (R448, R450) -/
  regFaults : List Nat := []
  /-- original VR_ALERT record of each standing cause (R453) -/
  alertRec : List (Nat × Notice) := []
  /-- rail groups with a voltage write not yet followed by VDone (R448) -/
  vdoneWait : List Nat := []
  /-- change of state in progress (R451) -/
  move : PowerMove := .idle
  /-- state being moved to (R451) -/
  target : Nat := 0
  /-- a thermal excursion is open (R468) -/
  excursion : Bool := false
  /-- domes that refresh at twice the rate (R469) -/
  hotDomes : List Nat := []
  /-- thermal trip: THERMTRIP_N asserted (R470) -/
  tripped : Bool := false
  /-- V0 of groups 0 and 1 from boot calibration, mV (R449) -/
  v0 : List (Nat × Nat) := []
  /-- islands that stretch their cycles (R459) -/
  droop : List Nat := []
deriving DecidableEq, Repr

/-- Where the device stands between power-up and service (R427, R455, R456, R470, R478, R479). -/
inductive BootPhase where
  | off
  | reset
  | firmware
  | training
  | ready
  | recovery
  | contained
  | stopped
deriving DecidableEq, Repr

/-- The IEEE 1149.1 test access port (17 R492). -/
structure TapState where
  /-- instruction in force: 0 BYPASS, 1 IDCODE, 2 SAMPLE/PRELOAD, 3 EXTEST, 4 HIGHZ, 5 CLAMP -/
  ir : Nat := 0
  /-- the 32-bit identity register, or the bypass bit -/
  dr : BitVec 32 := 0
  /-- values preloaded into the boundary cells, by signal number -/
  preload : List (Nat × Bool) := []
  /-- pins driven from the boundary cells -/
  driven : List (Nat × Bool) := []
  /-- outputs at high impedance -/
  highz : Bool := false
deriving DecidableEq, Repr

/-- The share of the state each partition has, beside its objects (01 R30; 03; 07; 08; 09; 14). -/
structure Part where
  /-- job number, as written to OD 0x2020:02 (R89) -/
  jobNo : BitVec 32 := 0
  /-- spars started in the job, ascending (R84) -/
  started : List Nat := []
  /-- TOKEN of the start command -/
  jobToken : Nat := 0
  /-- open batches, at most 8 (R207) -/
  batches : List Batch := []
  /-- cancelled pairs, newest first, at most 16 (R234) -/
  cancelled : List (Nat × Nat) := []
  /-- counting frames of pairs not yet open (R219) -/
  held : List Packet := []
  /-- pairs whose STALE_RETURN was raised (R232) -/
  staleSeen : List (Nat × Nat) := []
  /-- open collectives, at most 8 (R253) -/
  cols : List ColOp := []
  /-- collective frames of TAGs not yet open (R258) -/
  colHeld : List Packet := []
  /-- working gradient sums of squares, per layer slot, 640 bits (R263, R264) -/
  gradSum : List (Nat × Nat) := []
  /-- working weight sums of squares, per layer slot, 640 bits (R263, R287) -/
  wSum : List (Nat × Nat) := []
  /-- working update sums of squares, per layer slot, 640 bits (R263, R287) -/
  uSum : List (Nat × Nat) := []
  /-- non-finite bits of the working sums, per layer slot (R266) -/
  nonfin : List (Nat × Nat) := []
  /-- NORM_NONFINITE raised this step: layer slot, quantity (R266) -/
  nfRaised : List (Nat × Nat) := []
  /-- group's exact sum per layer slot, from the last norm reduction (R265 :07) -/
  grpSum : List (Nat × Nat) := []
  /-- layer slots whose group sum holds the non-finite mark (R259) -/
  grpBad : List Nat := []
  /-- group's range-loss counts, from the step's norm reduction (R249) -/
  grpCnt : List (Nat × Nat) := []
  /-- a norm reduction completed in this step (R249) -/
  normDone : Bool := false
  /-- clip factor held for Boom (R269) -/
  clip : Option (BitVec 32) := none
  /-- global norm n held for Boom (R269) -/
  gnorm : Option (BitVec 32) := none
  /-- sums of the range counters at the last commit notice, per layer slot (R247) -/
  rlBase : List (Nat × Nat) := []
  /-- an error was reported since the last commit notice (R280) -/
  errSince : Bool := false
  /-- open update (R277) -/
  upd : Option Upd := none
  /-- votes held (R280, R281) -/
  votes : List Vote := []
  /-- exact dropped magnitude per pruning slot, units of 2^-149 (R205) -/
  pruneDrop : List (Nat × Nat) := []
  /-- exact total magnitude per pruning slot, units of 2^-149 (R205) -/
  pruneTot : List (Nat × Nat) := []
  /-- pruning slots whose magnitudes met NaN or infinity -/
  pruneBad : List (Nat × Nat) := []
  /-- shadow generation being sent (R437) -/
  shSend : Option ShSend := none
  /-- shadow generation being received (R440) -/
  shRecv : Option ShRecv := none
  /-- restore in progress (R442) -/
  restore : Option Restore := none
  /-- shadow request (R434) -/
  shReq : Bool := false
  /-- bytes of the generation each image holds, 0: A, 1: B (R440, R442) -/
  imgBytes : List (Nat × Nat) := []
deriving DecidableEq, Repr

/-- The whole device (block). -/
structure State where
  /-- the commands that wait, first in first out (model: the block's queue) -/
  pending : List Instr := []
  /-- counter of free values drawn (model's own; not the spec's) -/
  fresh : Nat := 0
  /-- cycles every island has run since reset, one per idle step of the block (R457) -/
  cyc : Nat := 0
  /-- cycles an island's counter lags by its stretched cycles, key island number of Table 15-4 (R457, R459) -/
  cycLost : List (Nat × Nat) := []
  /-- the 1,024 logical spars, index 128n + s (R66, R16) -/
  spars : List (Nat × Spar) := []
  /-- the four partitions' contexts (R28, R30) -/
  parts : List (Nat × Part) := []
  /-- scalar dictionary objects, key q*2^24 + index*2^8 + sub (R384) -/
  od : List (Nat × Nat) := []
  /-- BLOB dictionary objects and STR values, same key (R385) -/
  blobs : List (Nat × List (BitVec 8)) := []
  /-- generation of each BLOB, 32 bits (R397) -/
  blobGen : List (Nat × Nat) := []
  /-- dome memory, by device address (R297) -/
  dome : List Host.Cell := []
  /-- poisoned lines, by line address (R309) -/
  poison : List (Nat × Bool) := []
  /-- corrections of each die in the present scrub period, key 16*d + die (R308) -/
  eccCnt : List (Nat × Nat) := []
  /-- DOME_CE raised for the die in the present scrub period, key 16*d + die (R307) -/
  ceSeen : List (Nat × Bool) := []
  /-- next line of each dome's patrol pass (R307) -/
  scrubAt : List (Nat × Nat) := []
  /-- work counters, key 4096*d + c (R190, R314) -/
  counters : List (Nat × WorkCounter) := []
  /-- job-start resets of the counters of each dome (R190) -/
  ctrResets : List (Nat × Nat) := []
  /-- domes fenced (R423) -/
  domeOff : List Nat := []
  /-- domes whose lines a plan writes with zeros before their new partition can reach them (R404) -/
  zeroFill : List Nat := []
  /-- edge arbiters, by edge number (R317) -/
  edges : List (Nat × Edge) := []
  /-- home turn table pointers, key dome (R301) -/
  homePtr : List (Nat × HomePtr) := []
  /-- remote turn table pointers, key tower (R301) -/
  remPtr : List (Nat × HomePtr) := []
  /-- host and fabric accesses waiting at each dome port (R300) -/
  domeQ : List (Nat × List DomeAcc) := []
  /-- device accesses waiting for back-invalidation (R316) -/
  biWaits : List BiWait := []
  /-- accesses whose slots are asked for at the dome ports, oldest first (R300, R317) -/
  asks : List PortAsk := []
  /-- turn of an engine's contexts (01 R30): key 0 Halyard, 1 collective engine, 2 Boom; 8 * partition + slots of its 4 KiB used -/
  turns : List (Nat × Nat) := []
  /-- request each tower's pruning unit serves, key tower (R199) -/
  prune : List (Nat × PruneReq) := []
  /-- towers whose pruning unit serves a request (R199) -/
  pruneBusy : List Nat := []
  /-- command bytes at each tower's Halyard unit, key tower (R208) -/
  halCmd : List (Nat × List (BitVec 8)) := []
  /-- command bytes at the collective engine queue, key partition (R253, R277) -/
  colCmd : List (Nat × List (BitVec 8)) := []
  /-- number of the next remote request (R348) -/
  fqNext : Nat := 0
  /-- slow-tier fetches (R236) -/
  fetches : List Fetch := []
  /-- CXL.cache reads outstanding (R367) -/
  rdCurr : Nat := 0
  /-- fabric ports P00-P35 (R323) -/
  ports : List (Nat × Port) := []
  /-- injection queues of 16 KiB, key 4 * local source + lane: source 1 Halyard, 2 collective engine, 3 Boom, 4 Lookout, 5 management cores, 7 root of trust, 16 + i spar i, 1040 + d dome port d (R341) -/
  inject : List (Nat × List Packet) := []
  /-- packets a local source has made and holds until its injection queue has room, same key (R341) -/
  outbox : List (Nat × List Packet) := []
  /-- packets delivered locally, waiting for their consumer (R341) -/
  delivery : List Packet := []
  /-- packets sent to each destination by Halyard and the collective engine (R344) -/
  flowCnt : List (Nat × Nat) := []
  /-- laser inputs dark (R324) -/
  laserDark : List Nat := []
  /-- the host port -/
  cxl : Cxl := {}
  /-- write sessions (R396) -/
  sessions : List Session := []
  /-- deferred requests (R393) -/
  deferred : List Deferred := []
  /-- CMD actions still running (R394) -/
  running : List Running := []
  /-- requester of the management mailbox edge whose request runs next: 0 mailbox, 1 Shroud, 2 MCTP (R22, R392) -/
  mgmtTurn : Option Nat := none
  /-- endpoint of the most recent MCTP request (Table 13-12) -/
  mctpEid : Nat := 0
  /-- Merec answers sent: requester, bytes -/
  answers : List (Nat × List (BitVec 8)) := []
  /-- notice destinations: 0 CXL, 1 MCTP, 16 + 8q + i Shroud subscriber i of Qq (R408) -/
  dests : List (Nat × Dest) := []
  /-- fault records travelling to the management cores, oldest first (R416) -/
  faultQ : List Notice := []
  /-- the 64 entries of the fault queue (R416) -/
  cases : List (Nat × Case) := []
  /-- units of the transient classifications still within the window (R421) -/
  transients : List Nat := []
  /-- fenced berths, 132n + b (R423) -/
  fencedBerths : List Nat := []
  /-- fenced towers (R423) -/
  fencedTowers : List Nat := []
  /-- fenced edge arbiters (R423) -/
  fencedEdges : List Nat := []
  /-- fenced spire units (R423) -/
  fencedSpire : List Nat := []
  /-- periodic slice of each tower, key tower (R428) -/
  slices : List (Nat × Slice) := []
  /-- next berth of each tower's slice order, key tower (R428) -/
  sliceNext : List (Nat × Nat) := []
  /-- units under a targeted test (R420) -/
  testing : List Nat := []
  /-- power, clocks, thermal -/
  power : Power := {}
  /-- boot progress and the contained, recovery and stopped states -/
  boot : BootPhase := .off
  /-- PWRGD as taken (R455) -/
  pwrgd : Bool := false
  /-- RST_N asserted (R462) -/
  rstN : Bool := true
  /-- FAULT_N asserted (R494) -/
  faultN : Bool := false
  /-- THERMTRIP_N asserted (R494) -/
  tripN : Bool := false
  /-- boot flash contents as read since the release of RST_N (R472) -/
  flash : List (BitVec 8) := []
  /-- Lookout's samples of the window, newest first, at most 36,000: corrected reads, thermal shortfall, droop events, trainings, marginal signatures and erasures (R433) -/
  riskHist : List (List Nat) := []
  /-- largest thermal shortfall read since the last sample, whole degrees (R433) -/
  riskShort : Nat := 0
  /-- SLOT straps sampled at the release of RST_N (R465) -/
  straps : BitVec 8 := 0
  /-- boot faults raised once DICTRDY is 1 (R479) -/
  bootFaults : List Notice := []
  /-- start-up values of the PUF's SRAM, 8 KiB, since the boot ROM first read them after power-up; never written (R483) -/
  puf : Option (List (BitVec 8)) := none
  /-- identity public key, when the unwrap succeeded (R484) -/
  identity : Option (List (BitVec 8)) := none
  /-- platform key of the accepted policy record (R476) -/
  platKey : List (BitVec 8) := []
  /-- test access port -/
  tap : TapState := {}
  /-- messages and signals sent to the surroundings, oldest first (model's record of outputs) -/
  out : List OutMsg := []
deriving DecidableEq, Repr

/-- The device in a device reset, before boot begins (15 R462, R455 step 6): power is good, RST_N is still asserted, and every
other field is at the value its comment names. -/
def State.reset : State := { boot := .reset, pwrgd := true }

end Sys2Proof.Machine
end

