-- ==== Sys2Proof/Machine/Bits.lean ====
section
/-! DEFINITION. Bit fields, byte order (R11: little-endian), and the one sparse map every table of the state uses: a list
of key and value pairs, keys strictly rising, no entry equal to the value an unlisted key reads as. -/

namespace Sys2Proof.Machine

open Sys2Proof

/-- Bits [lo + n - 1 : lo] of a number. -/
def bitsOf (w lo n : Nat) : Nat := (w >>> lo) % 2 ^ n

/-- Bit `i` of a number. -/
def bitAt (w i : Nat) : Bool := w.testBit i

/-- Bits [lo + n - 1 : lo] replaced by `v`. -/
def setBits (w lo n v : Nat) : Nat := (w - bitsOf w lo n * 2 ^ lo) + (v % 2 ^ n) * 2 ^ lo

/-- A number with one bit set to `v`. -/
def setBit (w i : Nat) (v : Bool) : Nat := setBits w i 1 (if v then 1 else 0)

/-- The low `n` bits read as a two's complement number. -/
def toSigned (n v : Nat) : Int :=
  if 2 ^ (n - 1) ≤ v % 2 ^ n then (v % 2 ^ n : Int) - 2 ^ n else (v % 2 ^ n : Int)

/-- A number taken modulo 2^n, two's complement. -/
def ofSigned (n : Nat) (v : Int) : Nat := (v % 2 ^ n).toNat

/-- The `n` little-endian bytes of a number (R11). -/
def leBytes : Nat → Nat → Bytes
  | 0, _ => []
  | n + 1, v => BitVec.ofNat 8 v :: leBytes n (v / 256)

/-- The number a string of little-endian bytes spells (R11). -/
def leNat : Bytes → Nat
  | [] => 0
  | b :: r => b.toNat + 256 * leNat r

/-- `n` bytes from offset `o`, zeros beyond the end. -/
def sliceBytes (bs : Bytes) (o n : Nat) : Bytes :=
  let t := (bs.drop o).take n
  t ++ List.replicate (n - t.length) 0

/-- The little-endian number in `n` bytes from offset `o`. -/
def fieldAt (bs : Bytes) (o n : Nat) : Nat := leNat ((bs.drop o).take n)

/-- `bs` with the bytes `v` placed from offset `o`. -/
def patchBytes (bs : Bytes) (o : Nat) (v : Bytes) : Bytes :=
  sliceBytes bs 0 o ++ v ++ bs.drop (o + v.length)

/-- The bytes padded with zeros, or cut, to `n`. -/
def padTo (n : Nat) (bs : Bytes) : Bytes := sliceBytes bs 0 n

/-- Numbers of the set bits below `n`, ascending. -/
def maskBits (w n : Nat) : List Nat := (List.range n).filter fun i => w.testBit i

/-- ⌈a / b⌉. -/
def ceilDiv (a b : Nat) : Nat := (a + b - 1) / b

/-! The sparse map. -/

/-- What key `a` holds; `d` where it is unlisted. -/
def mapGet {α : Type} (d : α) : List (Nat × α) → Nat → α
  | [], _ => d
  | (k, v) :: r, a => if k = a then v else mapGet d r a

/-- The entry of key `a` taken out. -/
def mapDel {α : Type} (m : List (Nat × α)) (a : Nat) : List (Nat × α) := m.filter fun e => e.1 != a

/-- An entry put in at its place by key. -/
def mapIns {α : Type} (m : List (Nat × α)) (a : Nat) (v : α) : List (Nat × α) :=
  match m with
  | [] => [(a, v)]
  | (k, w) :: r => if a < k then (a, v) :: (k, w) :: r else (k, w) :: mapIns r a v

/-- Key `a` set to `v`; setting it to what an unlisted key reads as removes the entry. -/
def mapSet {α : Type} [DecidableEq α] (d : α) (m : List (Nat × α)) (a : Nat) (v : α) : List (Nat × α) :=
  if v = d then mapDel m a else mapIns (mapDel m a) a v

/-- The canonical form: keys strictly rising and no entry equal to what its unlisted key would read as. -/
abbrev mapWf {α : Type} [DecidableEq α] (d : Nat → α) (m : List (Nat × α)) : Prop :=
  m.Pairwise (fun x y => x.1 < y.1) ∧ ∀ e ∈ m, e.2 ≠ d e.1

/-! Byte-addressed memory: what an unlisted byte reads as is 0 (log 3). -/

/-- One byte of a memory. -/
def memByte (m : List Host.Cell) (a : Nat) : Byte := mapGet 0 m a

/-- One byte written. -/
def memSetByte (m : List Host.Cell) (a : Nat) (v : Byte) : List Host.Cell := mapSet 0 m a v

/-- `n` bytes from address `a`. -/
def memRead (m : List Host.Cell) (a n : Nat) : Bytes := (List.range n).map fun i => memByte m (a + i)

/-- Bytes written from address `a` upward. -/
def memWrite (m : List Host.Cell) (a : Nat) : Bytes → List Host.Cell
  | [] => m
  | b :: r => memWrite (memSetByte m a b) (a + 1) r

/-- The little-endian number in `n` bytes at `a`. -/
def memNat (m : List Host.Cell) (a n : Nat) : Nat := leNat (memRead m a n)

/-- A set of numbers kept ascending without repeats: `a` put in. -/
def setIns (l : List Nat) (a : Nat) : List Nat :=
  match l with
  | [] => [a]
  | k :: r => if a < k then a :: k :: r else if a = k then k :: r else k :: setIns r a

/-- A set of numbers: `a` taken out. -/
def setDel (l : List Nat) (a : Nat) : List Nat := l.filter (· != a)

/-- Ascending list of numbers without repeats. -/
def uniq (l : List Nat) : List Nat := l.foldl setIns []

end Sys2Proof.Machine
end

