-- ==== Sys2Proof/Machine/Num.lean ====
section
/-! DEFINITION. Number formats and arithmetic (02): encodings, exact values, rounding, FP32 and BF16 arithmetic, scale
blocks, conversions, S16, and the stochastic-rounding generator. A finite value is held exactly, as sign, magnitude and
exponent of two; every operation rounds once at its end. -/

namespace Sys2Proof.Machine

open Sys2Proof

/-- An exact value: NaN, an infinity, or (-1)^neg * m * 2^e (R33). The sign of a zero is kept. -/
inductive FVal where
  | nan
  | inf (neg : Bool)
  | fin (neg : Bool) (m : Nat) (e : Int)
deriving DecidableEq, Repr

/-- A floating-point encoding (Table 2-2). `special`: 0 no infinities or NaN, 1 as IEEE 754, 2 one NaN, all ones (e4m3). -/
structure FmtDesc where
  /-- exponent bits -/
  eb : Nat
  /-- fraction bits -/
  fb : Nat
  /-- bias -/
  bias : Nat
  /-- special encodings (Table 2-3) -/
  special : Nat
  /-- the NaN Pasyn produces (Table 2-3) -/
  nanBits : Nat
deriving DecidableEq, Repr

/-- FP32. -/
def fdF32 : FmtDesc := ⟨8, 23, 127, 1, 0x7FC00000⟩
/-- BF16. -/
def fdBf16 : FmtDesc := ⟨8, 7, 127, 1, 0x7FC0⟩
/-- FP16. -/
def fdF16 : FmtDesc := ⟨5, 10, 15, 1, 0x7E00⟩
/-- e4m3. -/
def fdE4m3 : FmtDesc := ⟨4, 3, 7, 2, 0x7F⟩
/-- e5m2. -/
def fdE5m2 : FmtDesc := ⟨5, 2, 15, 1, 0x7E⟩
/-- e3m2. -/
def fdE3m2 : FmtDesc := ⟨3, 2, 3, 0, 0⟩
/-- e2m3. -/
def fdE2m3 : FmtDesc := ⟨2, 3, 1, 0, 0⟩
/-- e2m1. -/
def fdE2m1 : FmtDesc := ⟨2, 1, 1, 0, 0⟩

/-- Exponent of the smallest normal value. -/
def FmtDesc.emin (d : FmtDesc) : Int := 1 - (d.bias : Int)

/-- The value an encoding stands for (R33, R34). -/
def FmtDesc.decode (d : FmtDesc) (w : Nat) : FVal :=
  let neg := w.testBit (d.eb + d.fb)
  let ex := bitsOf w d.fb d.eb
  let fr := bitsOf w 0 d.fb
  if d.special = 1 ∧ ex = 2 ^ d.eb - 1 then (if fr = 0 then .inf neg else .nan)
  else if d.special = 2 ∧ ex = 2 ^ d.eb - 1 ∧ fr = 2 ^ d.fb - 1 then .nan
  else if ex = 0 then .fin neg fr (d.emin - d.fb)
  else .fin neg (fr + 2 ^ d.fb) ((ex : Int) - d.bias - d.fb)

/-- Rounding modes (R53, R54): to nearest even, or stochastic with its 24-bit random number (R55). -/
inductive RMode where
  | rne
  | sr (r : Nat)
deriving DecidableEq, Repr

/-- `round_to` of R53 on a magnitude m * 2^e: the grid has `p` fraction bits and binades from `emin` up. The result is
n * 2^u. -/
def roundMag (m : Nat) (e : Int) (p : Nat) (emin : Int) (mode : RMode) : Nat × Int :=
  if m = 0 then (0, emin - p) else
  let u := max ((Nat.log2 m : Int) + e) emin - p
  if u ≤ e then (m <<< (e - u).toNat, u)
  else
    let k := (u - e).toNat
    let n := m >>> k
    let r := m % 2 ^ k
    let up := match mode with
      | .rne => decide (2 ^ k < 2 * r) || (decide (2 * r = 2 ^ k) && decide (n % 2 = 1))
      | .sr v => decide (v < r * 2 ^ 24 / 2 ^ k)
    (if up then n + 1 else n, u)

/-- Rounding of a magnitude m * 2^e to an integer multiple of 2^g (the grids of INT8 and MXINT8, R53). -/
def roundGrid (m : Nat) (e g : Int) (mode : RMode) : Nat :=
  if m = 0 then 0
  else if g ≤ e then m <<< (e - g).toNat
  else
    let k := (g - e).toNat
    let n := m >>> k
    let r := m % 2 ^ k
    let up := match mode with
      | .rne => decide (2 ^ k < 2 * r) || (decide (2 * r = 2 ^ k) && decide (n % 2 = 1))
      | .sr v => decide (v < r * 2 ^ 24 / 2 ^ k)
    if up then n + 1 else n

/-- Exponent and fraction of a rounded magnitude n * 2^u in format `d`, exponent unbounded above (R49). -/
def FmtDesc.pack (d : FmtDesc) (n : Nat) (u : Int) : Nat × Nat :=
  if n < 2 ^ d.fb then (0, n)
  else
    let k := Nat.log2 n - d.fb
    ((u + k + d.fb + d.bias).toNat, n >>> k - 2 ^ d.fb)

/-- The packed magnitude lies beyond the format's largest finite value (R49). -/
def FmtDesc.beyond (d : FmtDesc) (ef : Nat × Nat) : Bool :=
  match d.special with
  | 1 => 2 ^ d.eb - 1 ≤ ef.1
  | 2 => 2 ^ d.eb ≤ ef.1 || (ef.1 = 2 ^ d.eb - 1 && ef.2 = 2 ^ d.fb - 1)
  | _ => 2 ^ d.eb ≤ ef.1

/-- The encoding of a sign and packed magnitude. -/
def FmtDesc.bits (d : FmtDesc) (neg : Bool) (ef : Nat × Nat) : Nat :=
  (if neg then 2 ^ (d.eb + d.fb) else 0) + ef.1 * 2 ^ d.fb + ef.2

/-- Infinity of a format with infinities. -/
def FmtDesc.infBits (d : FmtDesc) (neg : Bool) : Nat := d.bits neg (2 ^ d.eb - 1, 0)

/-- Largest finite magnitude (Table 2-3). -/
def FmtDesc.largest (d : FmtDesc) : Nat × Nat :=
  match d.special with
  | 1 => (2 ^ d.eb - 2, 2 ^ d.fb - 1)
  | 2 => (2 ^ d.eb - 1, 2 ^ d.fb - 2)
  | _ => (2 ^ d.eb - 1, 2 ^ d.fb - 1)

/-- An exact value rounded to nearest even in a format with infinities (R36, R48, R49): overflow gives infinity. -/
def FmtDesc.encode (d : FmtDesc) : FVal → Nat
  | .nan => d.nanBits
  | .inf neg => d.infBits neg
  | .fin neg m e =>
    let nu := roundMag m e d.fb d.emin .rne
    let ef := d.pack nu.1 nu.2
    if d.beyond ef then d.infBits neg else d.bits neg ef

/-- Value of an FP32 word. -/
def f32Val (w : W32) : FVal := fdF32.decode w.toNat

/-- An exact value rounded once to FP32, nearest even. -/
def toF32 (v : FVal) : W32 := BitVec.ofNat 32 (fdF32.encode v)

/-- An FP32 word that is NaN. -/
def isNanW (w : W32) : Bool := f32Val w = .nan

/-- A finite value of magnitude zero. -/
def FVal.isZero : FVal → Bool
  | .fin _ 0 _ => true
  | _ => false

/-- The value is finite. -/
def FVal.isFin : FVal → Bool
  | .fin _ _ _ => true
  | _ => false

/-- Sign of a value; a NaN counts as positive. -/
def FVal.isNeg : FVal → Bool
  | .nan => false
  | .inf n => n
  | .fin n _ _ => n

/-- The value negated. -/
def FVal.neg : FVal → FVal
  | .nan => .nan
  | .inf n => .inf (!n)
  | .fin n m e => .fin (!n) m e

/-- A signed integer times a power of two as a value; zero is +0. -/
def ofInt (z : Int) (e : Int) : FVal := .fin (decide (z < 0)) z.natAbs e

/-- Exact sum of two finite values as an integer at the lower of the exponents. -/
def addFin (n1 : Bool) (m1 : Nat) (e1 : Int) (n2 : Bool) (m2 : Nat) (e2 : Int) : Int × Int :=
  let e := min e1 e2
  let z (n : Bool) (m : Nat) (x : Int) : Int := (if n then -1 else 1) * ((m <<< (x - e).toNat : Nat) : Int)
  (z n1 m1 e1 + z n2 m2 e2, e)

/-- IEEE 754 addition, exact; a zero sum of unlike signs is +0. -/
def FVal.add : FVal → FVal → FVal
  | .nan, _ => .nan
  | _, .nan => .nan
  | .inf a, .inf b => if a = b then .inf a else .nan
  | .inf a, _ => .inf a
  | _, .inf b => .inf b
  | .fin n1 m1 e1, .fin n2 m2 e2 =>
    let r := addFin n1 m1 e1 n2 m2 e2
    if r.1 = 0 then .fin (n1 && n2) 0 r.2 else ofInt r.1 r.2

/-- IEEE 754 multiplication, exact. -/
def FVal.mul : FVal → FVal → FVal
  | .nan, _ => .nan
  | _, .nan => .nan
  | .inf a, .inf b => .inf (a != b)
  | .inf a, .fin n m _ => if m = 0 then .nan else .inf (a != n)
  | .fin n m _, .inf b => if m = 0 then .nan else .inf (n != b)
  | .fin n1 m1 e1, .fin n2 m2 e2 => .fin (n1 != n2) (m1 * m2) (e1 + e2)

/-- The value times 2^k. -/
def FVal.scale (v : FVal) (k : Int) : FVal :=
  match v with
  | .fin n m e => .fin n m (e + k)
  | v => v

/-- IEEE 754 division, with enough quotient bits and a sticky bit for one later rounding to FP32. -/
def FVal.div : FVal → FVal → FVal
  | .nan, _ => .nan
  | _, .nan => .nan
  | .inf _, .inf _ => .nan
  | .inf a, .fin n _ _ => .inf (a != n)
  | .fin n _ e, .inf b => .fin (n != b) 0 e
  | .fin n1 m1 e1, .fin n2 m2 e2 =>
    if m2 = 0 then (if m1 = 0 then .nan else .inf (n1 != n2))
    else if m1 = 0 then .fin (n1 != n2) 0 0
    else
      let k := 64 + Nat.log2 m2
      let q := (m1 <<< k) / m2
      let r := (m1 <<< k) % m2
      .fin (n1 != n2) (2 * q + if r = 0 then 0 else 1) (e1 - e2 - k - 1)

/-- Integer square root by binary digits, from bit `k` down. -/
def isqrtAux (x : Nat) : Nat → Nat → Nat
  | 0, r => if (r + 1) * (r + 1) ≤ x then r + 1 else r
  | k + 1, r => isqrtAux x k (if (r + 2 ^ (k + 1)) * (r + 2 ^ (k + 1)) ≤ x then r + 2 ^ (k + 1) else r)

/-- ⌊√x⌋. -/
def isqrt (x : Nat) : Nat := isqrtAux x (Nat.log2 x / 2 + 1) 0

/-- IEEE 754 square root, with enough bits and a sticky bit for one later rounding to FP32. -/
def FVal.sqrt : FVal → FVal
  | .nan => .nan
  | .inf n => if n then .nan else .inf false
  | .fin n m e =>
    if m = 0 then .fin n 0 e
    else if n then .nan
    else
      let odd : Int := e % 2
      let x := m <<< (128 + odd.toNat)
      let r := isqrt x
      .fin false (2 * r + if r * r = x then 0 else 1) ((e - odd - 128) / 2 - 1)

/-- FP32 addition, rounded once to nearest even (R48). -/
def f32Add (a b : W32) : W32 := toF32 ((f32Val a).add (f32Val b))
/-- FP32 subtraction. -/
def f32Sub (a b : W32) : W32 := toF32 ((f32Val a).add (f32Val b).neg)
/-- FP32 multiplication. -/
def f32Mul (a b : W32) : W32 := toF32 ((f32Val a).mul (f32Val b))
/-- FP32 fused multiply-add. -/
def f32Fma (a b c : W32) : W32 := toF32 (((f32Val a).mul (f32Val b)).add (f32Val c))
/-- FP32 division. -/
def f32Div (a b : W32) : W32 := toF32 ((f32Val a).div (f32Val b))
/-- FP32 square root. -/
def f32Sqrt (a : W32) : W32 := toF32 (f32Val a).sqrt

/-- a < b, for values neither of which is NaN; -0 equals +0. -/
def FVal.lt : FVal → FVal → Bool
  | .nan, _ => false
  | _, .nan => false
  | .inf a, .inf b => a && !b
  | .inf a, .fin _ _ _ => a
  | .fin _ _ _, .inf b => !b
  | .fin n1 m1 e1, .fin n2 m2 e2 => decide ((addFin n1 m1 e1 (!n2) m2 e2).1 < 0)

/-- a = b as numbers; NaN equals nothing. -/
def FVal.eqv (a b : FVal) : Bool := a ≠ .nan && b ≠ .nan && !a.lt b && !b.lt a

/-- -0 or +0 with a before b in the order of R79: -0 below +0. -/
def FVal.before (a b : FVal) : Bool := a.lt b || (a.eqv b && a.isNeg && !b.isNeg)

/-- Minimum of R79: NaN if either is NaN, -0 below +0. -/
def f32Min (a b : W32) : W32 :=
  if isNanW a || isNanW b then 0x7FC00000 else if (f32Val b).before (f32Val a) then b else a

/-- Maximum of R79. -/
def f32Max (a b : W32) : W32 :=
  if isNanW a || isNanW b then 0x7FC00000 else if (f32Val a).before (f32Val b) then b else a

/-- Magnitude of an FP32 word. -/
def f32Abs (a : W32) : W32 := a &&& 0x7FFFFFFF

/-- An FP32 word negated; a NaN stays the NaN of R36. -/
def f32Neg (a : W32) : W32 := toF32 (f32Val a).neg

/-- The FP32 word nearest to a natural number. -/
def f32OfNat (n : Nat) : W32 := toF32 (.fin false n 0)

/-! Format codes of Table 3-6. -/

/-- Element bits of a format code (Table 2-1). -/
def elemBits (f : Nat) : Nat :=
  match f with
  | 0 => 8 | 1 => 8 | 2 => 8 | 3 => 8 | 4 => 6 | 5 => 6 | 6 => 4 | 7 => 4 | 8 => 8 | 9 => 8
  | 10 => 16 | 11 => 16 | 12 => 32 | 13 => 16 | 14 => 32 | _ => 0

/-- Elements of a scale block of a format code, 0 for an unscaled format (Table 2-1). -/
def blockLen (f : Nat) : Nat :=
  match f with
  | 2 => 32 | 3 => 32 | 4 => 32 | 5 => 32 | 6 => 32 | 7 => 16 | 9 => 32 | 13 => 32 | _ => 0

/-- The format has scale or exponent bytes. -/
def isScaled (f : Nat) : Bool := blockLen f ≠ 0

/-- The floating-point encoding of a format code's elements, if they are floating-point. -/
def elemDesc (f : Nat) : Option FmtDesc :=
  match f with
  | 0 => some fdE4m3 | 1 => some fdE5m2 | 2 => some fdE4m3 | 3 => some fdE5m2 | 4 => some fdE2m3 | 5 => some fdE3m2
  | 6 => some fdE2m1 | 7 => some fdE2m1 | 10 => some fdBf16 | 11 => some fdF16 | 12 => some fdF32 | _ => none

/-- Exact value of an element's bits before its scale (R33): the integer formats have a single zero. -/
def elemVal (f bits : Nat) : FVal :=
  match elemDesc f with
  | some d => d.decode bits
  | none =>
    match f with
    | 8 => ofInt (toSigned 8 bits) 0
    | 9 => ofInt (toSigned 8 bits) (-6)
    | 13 => ofInt (toSigned 16 bits) (-14)
    | _ => ofInt (toSigned 32 bits) 0

/-- Exact value of an element of a block with scale code `c` (R38, R57); an unscaled format ignores the code. S16's
value m * 2^(e - 141) is m * 2^-14 scaled by 2^(e - 127). -/
def scaledVal (f bits c : Nat) : FVal :=
  if isScaled f then (if c = 0xFF then .nan else (elemVal f bits).scale ((c : Int) - 127)) else elemVal f bits

/-- An element widened to FP32 (R49). -/
def widen (f bits c : Nat) : W32 := toF32 (scaledVal f bits c)

/-- What one conversion writes: element codes, scale or exponent codes in block order, and what it counts (Table 2-11):
NaN, infinity, overflow, underflow, non-finite blocks. -/
structure Conv where
  /-- element codes -/
  elems : List Nat := []
  /-- scale codes -/
  scales : List Nat := []
  /-- NaN sources -/
  nNan : Nat := 0
  /-- infinite sources -/
  nInf : Nat := 0
  /-- sources beyond range -/
  nOvf : Nat := 0
  /-- underflows -/
  nUnd : Nat := 0
  /-- non-finite blocks -/
  nBlk : Nat := 0
deriving DecidableEq, Repr

/-- Two conversions one after the other. -/
def Conv.join (a b : Conv) : Conv :=
  { elems := a.elems ++ b.elems, scales := a.scales ++ b.scales, nNan := a.nNan + b.nNan, nInf := a.nInf + b.nInf,
    nOvf := a.nOvf + b.nOvf, nUnd := a.nUnd + b.nUnd, nBlk := a.nBlk + b.nBlk }

/-- One element narrowed to an unscaled floating-point format (Table 2-6). -/
def narrowFloat (d : FmtDesc) (ovf : Bool) (mode : RMode) (v : FVal) : Conv :=
  match v with
  | .nan => { elems := [d.nanBits], nNan := 1 }
  | .inf neg =>
    { elems := [if d.special = 2 then (if ovf then d.nanBits else d.bits neg d.largest) else d.infBits neg], nInf := 1 }
  | .fin neg m e =>
    let nu := roundMag m e d.fb d.emin mode
    let ef := d.pack nu.1 nu.2
    if d.beyond ef then
      { elems := [if d.special = 2 then (if ovf then d.nanBits else d.bits neg d.largest) else d.infBits neg], nOvf := 1 }
    else { elems := [d.bits neg ef], nUnd := if m ≠ 0 ∧ nu.1 = 0 then 1 else 0 }

/-- One element narrowed to INT8 (Table 2-6). -/
def narrowInt8 (mode : RMode) (v : FVal) : Conv :=
  match v with
  | .nan => { elems := [0], nNan := 1 }
  | .inf neg => { elems := [if neg then 0x80 else 0x7F], nInf := 1 }
  | .fin neg m e =>
    let n := roundGrid m e 0 mode
    let z : Int := if neg then -(n : Int) else n
    if z < -128 then { elems := [0x80], nOvf := 1 }
    else if 127 < z then { elems := [0x7F], nOvf := 1 }
    else { elems := [ofSigned 8 z], nUnd := if m ≠ 0 ∧ n = 0 then 1 else 0 }

/-- Largest element exponent of a block format (Table 2-4). -/
def emaxElem (f : Nat) : Int :=
  match f with
  | 2 => 8 | 3 => 15 | 4 => 2 | 5 => 4 | 6 => 2 | 7 => 2 | _ => 0

/-- Largest binade of the finite values of a block, if any is non-zero. -/
def maxBinade (vs : List FVal) : Option Int :=
  vs.foldl (fun acc v => match v with
    | .fin _ m e => if m = 0 then acc else some (match acc with | none => (Nat.log2 m : Int) + e | some x => max x (Nat.log2 m + e))
    | _ => acc) none

/-- One element of a scaled block, its value divided by 2^x, rounded and saturated (R39, R40). -/
def blockElem (f : Nat) (mode : RMode) (x : Int) (v : FVal) : Nat :=
  match elemDesc f with
  | some d =>
    match v with
    | .nan => 0
    | .inf neg => d.bits neg d.largest
    | .fin neg m e =>
      let nu := roundMag m (e - x) d.fb d.emin mode
      let ef := d.pack nu.1 nu.2
      let top := ef.1 * 2 ^ d.fb + ef.2
      let lg := d.largest.1 * 2 ^ d.fb + d.largest.2
      if lg < top then d.bits neg d.largest else d.bits neg ef
  | none =>
    match v with
    | .nan => 0
    | .inf neg => if neg then ofSigned 8 (-127) else 127
    | .fin neg m e =>
      let n := roundGrid m (e - x) (-6) mode
      let z : Int := if neg then -(n : Int) else n
      ofSigned 8 (max (-128) (min 127 z))

/-- An element code that stands for zero. -/
def elemIsZero (f bits : Nat) : Bool := (elemVal f bits).isZero

/-- `block_encode` (R39). `modes` gives each element's rounding. -/
def blockEncode (f : Nat) (ovf : Bool) (modes : List RMode) (vs : List FVal) : Conv :=
  let nNan := vs.countP (· = .nan)
  let nInf := vs.countP fun v => match v with | .inf _ => true | _ => false
  if nNan ≠ 0 ∨ (nInf ≠ 0 ∧ ovf) then
    { elems := vs.map fun _ => 0, scales := [0xFF], nNan := nNan, nInf := nInf, nBlk := 1 }
  else
    let x : Int := match maxBinade vs with
      | none => 0
      | some b => max (-127) (min 127 (b - emaxElem f))
    let q := (vs.zip modes).map fun p => blockElem f p.2 x p.1
    let und := (vs.zip q).countP fun p => p.1.isFin && !p.1.isZero && elemIsZero f p.2
    { elems := q, scales := [(x + 127).toNat], nInf := nInf, nUnd := und }

/-! S16 (2.7). -/

/-- i / 2^k rounded to nearest, ties to even. -/
def shiftRne (i : Int) (k : Nat) : Int :=
  let n := roundGrid i.natAbs 0 (k : Int) .rne
  if i < 0 then -(n : Int) else n

/-- Mantissa of a value at exponent `e`: v * 2^(141 - e) rounded to nearest even. -/
def s16Mant (v : FVal) (e : Nat) : Int :=
  match v with
  | .fin neg m x => let n := roundGrid m x ((e : Int) - 141) .rne; if neg then -(n : Int) else n
  | _ => 0

/-- `s16_encode` (R58) on 32 FP32 values. -/
def s16Encode (vs : List FVal) : Conv :=
  let nNan := vs.countP (· = .nan)
  let nInf := vs.countP fun v => match v with | .inf _ => true | _ => false
  if nNan + nInf ≠ 0 then
    { elems := vs.map fun _ => 0, scales := [0xFF], nNan := nNan, nInf := nInf, nBlk := 1 }
  else
    match maxBinade vs with
    | none => { elems := vs.map fun _ => 0, scales := [0] }
    | some b =>
      let e0 := (max 0 (min 254 (b + 127))).toNat
      let peak (e : Nat) := (vs.map fun v => (s16Mant v e).natAbs).foldl max 0
      let e := if 32767 < peak e0 ∧ e0 ≠ 254 then e0 + 1 else e0
      let raw := vs.map fun v => s16Mant v e
      let m := raw.map fun z => max (-32767) (min 32767 z)
      { elems := m.map (ofSigned 16), scales := [e],
        nOvf := raw.countP fun z => 32767 < z.natAbs
        nUnd := (vs.zip m).countP fun p => !p.1.isZero && p.2 = 0 }

/-- An S16 block: exponent and 32 mantissas. -/
structure S16Block where
  /-- exponent; 0xFF marks a non-finite block -/
  e : Nat
  /-- mantissas -/
  m : List Int
deriving DecidableEq, Repr

/-- The non-finite block. -/
def S16Block.nonfinite : S16Block := ⟨0xFF, List.replicate 32 0⟩

/-- The zero block. -/
def S16Block.zero : S16Block := ⟨0, List.replicate 32 0⟩

/-- The block in 64 mantissa bytes followed by its exponent byte. -/
def S16Block.bytes (b : S16Block) : Bytes := b.m.flatMap (fun z => leBytes 2 (ofSigned 16 z)) ++ leBytes 1 b.e

/-- A block read back from those bytes. -/
def S16Block.ofBytes (bs : Bytes) : S16Block :=
  ⟨fieldAt bs 64 1, (List.range 32).map fun j => toSigned 16 (fieldAt bs (2 * j) 2)⟩

/-- Smallest right shift, from `k` on, that brings every sum within range (R60). -/
def renormUp (s : List Int) : Nat → Nat → Nat
  | 0, k => k
  | fuel + 1, k => if s.any fun z => 32767 < (shiftRne z k).natAbs then renormUp s fuel (k + 1) else k

/-- Largest left shift of R60. -/
def renormDown (peak e : Nat) : Nat → Nat → Nat
  | 0, k => k
  | fuel + 1, k => if peak <<< (k + 1) ≤ 32767 ∧ k + 1 ≤ e then renormDown peak e fuel (k + 1) else k

/-- `s16_renormalise` (R60), with what its write counts (R62): elements beyond range, non-zero sums written as zero, and a
non-finite block. -/
def s16Renorm (s : List Int) (e : Nat) : S16Block × Conv :=
  let peak := (s.map Int.natAbs).foldl max 0
  if peak = 0 then (.zero, {})
  else if 32767 < peak then
    let k := renormUp s 64 1
    if 254 < e + k then (.nonfinite, { nOvf := s.countP fun z => 32767 < (shiftRne z (254 - e)).natAbs, nBlk := 1 })
    else (⟨e + k, s.map fun z => shiftRne z k⟩, { nUnd := s.countP fun z => z ≠ 0 ∧ shiftRne z k = 0 })
  else
    let k := renormDown peak e 16 0
    (⟨e - k, s.map fun z => z * 2 ^ k⟩, {})

/-- `s16_reduce` (R60): exponent pass, data pass, one renormalisation; with what its write counts (R62). -/
def s16Reduce (bs : List S16Block) : S16Block × Conv :=
  if bs.any fun b => b.e = 0xFF then (.nonfinite, { nBlk := 1 })
  else
    let emax := (bs.map (·.e)).foldl max 0
    let s := (List.range 32).map fun j =>
      (bs.map fun b => shiftRne (b.m.getD j 0) (emax - b.e)).foldl (· + ·) 0
    s16Renorm s emax

/-! Stochastic rounding (R55, R56). -/

/-- `mix` (R55). -/
def srMix (z0 : BitVec 64) : BitVec 64 :=
  let z1 := (z0 ^^^ (z0 >>> 30)) * 0xBF58476D1CE4E5B9#64
  let z2 := (z1 ^^^ (z1 >>> 27)) * 0x94D049BB133111EB#64
  z2 ^^^ (z2 >>> 31)

/-- `sr_random` (R55): 24 bits. -/
def srRandom (seed step tensor index : Nat) : Nat :=
  let x := srMix (BitVec.ofNat 64 seed ^^^ (BitVec.ofNat 64 step * 0x9E3779B97F4A7C15#64))
  let x := srMix (x ^^^ BitVec.ofNat 64 tensor)
  let x := srMix (x ^^^ BitVec.ofNat 64 index)
  bitsOf x.toNat 40 24

/-- What a conversion rounds by (R50, R56): OVF, ROUND, and the key without its index. -/
structure RPolicy where
  /-- OVF of the policy entry -/
  ovf : Bool := false
  /-- ROUND of the policy entry -/
  stoch : Bool := false
  /-- seed of the key -/
  seed : Nat := 0
  /-- step of the key -/
  step : Nat := 0
  /-- tensor of the key -/
  tensor : Nat := 0
deriving DecidableEq, Repr

/-- Rounding of the element with logical index `i` (R54, R56). -/
def RPolicy.mode (p : RPolicy) (i : Nat) : RMode :=
  if p.stoch then .sr (srRandom p.seed p.step p.tensor (i % 2 ^ 64)) else .rne

/-- One element narrowed to an unscaled format (Table 2-6). -/
def convElem (f : Nat) (p : RPolicy) (idx : Nat) (x : W32) : Conv :=
  match elemDesc f with
  | some d =>
    if f = 12 then
      match f32Val x with
      | .nan => { elems := [0x7FC00000], nNan := 1 }
      | .inf n => { elems := [fdF32.infBits n], nInf := 1 }
      | _ => { elems := [x.toNat] }
    else narrowFloat d p.ovf (p.mode idx) (f32Val x)
  | none => narrowInt8 (p.mode idx) (f32Val x)

/-- Scale blocks converted one after the other. -/
def convBlocks (f : Nat) (p : RPolicy) : Nat → List (Nat × W32) → Conv
  | 0, _ => {}
  | fuel + 1, xs =>
    if xs.isEmpty then {}
    else
      let b := xs.take (blockLen f)
      let vs := b.map fun e => f32Val e.2
      let c := if f = 13 then s16Encode (vs ++ List.replicate (32 - vs.length) (.fin false 0 0))
               else blockEncode f p.ovf (b.map fun e => p.mode e.1) vs
      c.join (convBlocks f p fuel (xs.drop (blockLen f)))

/-- FP32 values with their logical indices converted to format `f` (R49): unscaled elements one by one, scaled formats
block by block in the order given. -/
def convert (f : Nat) (p : RPolicy) (xs : List (Nat × W32)) : Conv :=
  if isScaled f then convBlocks f p (xs.length + 1) xs
  else xs.foldl (fun c e => c.join (convElem f p e.1 e.2)) {}

/-- Element codes packed into bytes (R37): 4-bit low nibble first, 6-bit four to three bytes, else little-endian. -/
def packElems (f : Nat) (es : List Nat) : Bytes :=
  let w := elemBits f
  let n := es.foldr (fun e acc => acc * 2 ^ w + e % 2 ^ w) 0
  leBytes (ceilDiv (w * es.length) 8) n

/-- Element `i` of packed bytes (R37). -/
def unpackElem (f : Nat) (bs : Bytes) (i : Nat) : Nat :=
  let w := elemBits f
  let o := i * w / 8
  bitsOf (fieldAt bs o (w / 8 + 2)) (i * w % 8) w

/-! BF16 lane arithmetic (R48): exact, rounded once to BF16. -/

/-- Value of a BF16 element. -/
def bf16Val (w : Nat) : FVal := fdBf16.decode w

/-- An exact value rounded once to BF16. -/
def toBf16 (v : FVal) : Nat := fdBf16.encode v

/-! Products of a group (R43, R45). -/

/-- Exact sum of products with the special-value rules of R45; a zero sum is +0. -/
def groupSum (ps : List FVal) : FVal :=
  if ps.any (· = .nan) then .nan
  else
    let pos := ps.any (· = .inf false)
    let neg := ps.any (· = .inf true)
    if pos && neg then .nan
    else if pos then .inf false
    else if neg then .inf true
    else
      let r := ps.foldl (fun acc v => match v with
        | .fin n m e => addFin (decide (acc.1 < 0)) acc.1.natAbs acc.2 n m e
        | _ => acc) ((0 : Int), (0 : Int))
      ofInt r.1 r.2

/-! Range counters (R62, Table 2-11). -/

/-- The five counts of a conversion in subindex order. -/
def Conv.counts (c : Conv) : List Nat := [c.nNan, c.nInf, c.nOvf, c.nUnd, c.nBlk]

end Sys2Proof.Machine
end

