-- ==== Sys2Proof/Config.lean ====
section
/-! DEFINITION. What the spec leaves open: values without a body, so that no proof can see one. -/

namespace Sys2Proof

/-- The n-th value the spec leaves open, of width w (notes/assumptions/4.md). -/
opaque Config.freeValue : Nat → (w : Nat) → BitVec w

/-- The 40 payload bytes of a fault `code` that carries the values `vals`, which the spec names and does not place
(notes/assumptions/4.md). -/
opaque Config.payload : (code : Nat) → (vals : List Nat) → BitVec 320

/-- Offset in configuration space of capability `k` of 12 Table 12-3 (notes/assumptions/23.md). -/
opaque Config.capOffset : (k : Nat) → BitVec 12

/-- A configuration word that the spec does not lay out (notes/assumptions/23.md). -/
opaque Config.cfgWord : (addr : Nat) → BitVec 32

/-- What a read of the CXL component register at `off` returns, `stored` being the value last written there
(notes/assumptions/23.md). -/
opaque Config.componentWord : (off : Nat) → (stored : BitVec 32) → BitVec 32

/-- The key that the PUF's values and the helper data reconstruct (16 R483; notes/assumptions/30.md). -/
opaque Config.pufKey : (puf : List Byte) → (helper : List Byte) → BitVec 256

/-- The public key of an RSA-4096 private key (16 R484; notes/assumptions/30.md). -/
opaque Config.publicKey : (priv : List Byte) → List Byte

/-- The return position that the device `src` gave the choice which its packet for the pair (`tag`, `gen`) names by the
destination word `dest` (07 R221, R225): the packet carries no field for it (notes/assumptions/24.md). -/
opaque Config.returnPos : (src tag gen dest : Nat) → BitVec 32

/-- An AVSBus status word has its status alert set (15 R448): the spec names the bit and does not place it
(notes/assumptions/29.md). -/
opaque Config.statusAlert : Nat → Bool

/-- Public modulus of the root key whose hash the mask ROM holds (16 R475; notes/assumptions/30.md). -/
opaque Config.rootKey : BitVec 4096

/-- SHA-512 of the mask ROM (16 Table 16-5; notes/assumptions/30.md). -/
opaque Config.romDigest : BitVec 512

/-- Partition `q`'s generation `g` goes to image B where neither image holds a committed generation (14 R440;
notes/assumptions/28.md). -/
opaque Config.firstImage : Nat → Nat → Bool

end Sys2Proof
end

