-- ==== Sys2Proof/Machine/OdTable.lean ====
section
/-! DEFINITION. The object dictionary's rows (13 R384-R386, R400, Table 13-10, and the object tables of every chapter):
for each range of indices and subindices its type, access right, scope, default and, for BLOB and STR, its largest size.
The default an unlisted object reads as is `odDefault` for scalars and `blobDefault` for BLOB and STR (R387). -/

namespace Sys2Proof.Machine

open Sys2Proof

/-- Object types (13 Table 13-1). -/
inductive OdTy where
  | bool | u8 | u16 | u32 | u64 | i32 | i64 | f32 | str | blob
deriving DecidableEq, Repr

/-- Access rights (13 Table 13-2). -/
inductive OdRight where
  | ro | rw | wo | rwp | rwa | cmd
deriving DecidableEq, Repr

/-- Whose objects these are (13 Table 13-10): the device's, one per partition (QSEL), or one per partition, tower, dome,
edge or port where the index names it. -/
inductive OdScope where
  | dev | part | perQ | tower | dome | edge | port
deriving DecidableEq, Repr

/-- A range of dictionary objects. -/
structure OdRow where
  /-- first index -/
  lo : Nat
  /-- last index -/
  hi : Nat
  /-- first subindex -/
  slo : Nat
  /-- last subindex -/
  shi : Nat
  /-- type -/
  ty : OdTy
  /-- access right -/
  right : OdRight
  /-- scope -/
  scope : OdScope
  /-- default of a scalar; `odDefault` refines it -/
  dflt : Nat
  /-- largest size of a BLOB or STR, bytes -/
  size : Nat
  /-- a BLOB of variable size -/
  var : Bool
deriving DecidableEq, Repr

/-- 13 Table 13-11 identity. -/
def odRows0 : List OdRow :=
  [⟨1, 1, 0, 0, .u8, .ro, .dev, 8, 0, false⟩,
   ⟨1, 1, 1, 3, .str, .ro, .dev, 0, 255, false⟩,
   ⟨1, 1, 4, 4, .u16, .ro, .dev, 0xA1, 0, false⟩,
   ⟨1, 1, 5, 5, .u32, .ro, .dev, 0x20000, 0, false⟩,
   ⟨1, 1, 6, 6, .u16, .ro, .dev, 0x100, 0, false⟩,
   ⟨1, 1, 7, 7, .u32, .ro, .dev, 0, 0, false⟩,
   ⟨1, 1, 8, 8, .blob, .ro, .dev, 0, 64, false⟩,
   ⟨0x10, 0x10, 0, 0, .u8, .ro, .dev, 0x13, 0, false⟩,
   ⟨0x10, 0x10, 1, 0x13, .u32, .ro, .dev, 0, 0, false⟩,
   ⟨0x11, 0x11, 0, 0, .u32, .ro, .dev, 0, 0, false⟩,
   ⟨0x20, 0x20, 0, 0, .u8, .ro, .dev, 7, 0, false⟩,
   ⟨0x20, 0x20, 1, 1, .u16, .ro, .dev, 4064, 0, false⟩,
   ⟨0x20, 0x20, 2, 2, .u16, .ro, .dev, 16320, 0, false⟩,
   ⟨0x20, 0x20, 3, 3, .u16, .ro, .dev, 992, 0, false⟩,
   ⟨0x20, 0x20, 4, 4, .u8, .ro, .dev, 8, 0, false⟩,
   ⟨0x20, 0x20, 5, 5, .u8, .ro, .dev, 4, 0, false⟩,
   ⟨0x20, 0x20, 6, 6, .u16, .ro, .dev, 100, 0, false⟩,
   ⟨0x20, 0x20, 7, 7, .u32, .ro, .dev, 262144, 0, false⟩]

/-- 13 Table 13-12 partitions. -/
def odRows1 : List OdRow :=
  [⟨0x1000, 0x1000, 0, 0, .u8, .ro, .dev, 1, 0, false⟩,
   ⟨0x1001, 0x1001, 0, 0, .u8, .ro, .dev, 2, 0, false⟩,
   ⟨0x1001, 0x1001, 1, 1, .blob, .rwa, .dev, 0, 64, false⟩,
   ⟨0x1001, 0x1001, 2, 2, .u8, .cmd, .dev, 0, 0, false⟩,
   ⟨0x1010, 0x1013, 0, 0, .u8, .ro, .perQ, 8, 0, false⟩,
   ⟨0x1010, 0x1013, 1, 1, .bool, .ro, .perQ, 0, 0, false⟩,
   ⟨0x1010, 0x1013, 2, 2, .u8, .ro, .perQ, 0, 0, false⟩,
   ⟨0x1010, 0x1013, 3, 3, .u64, .ro, .perQ, 0, 0, false⟩,
   ⟨0x1010, 0x1013, 4, 5, .u16, .ro, .perQ, 0, 0, false⟩,
   ⟨0x1010, 0x1013, 6, 6, .blob, .rwa, .perQ, 0, 16, true⟩,
   ⟨0x1010, 0x1013, 7, 7, .blob, .rwp, .perQ, 0, 32, false⟩,
   ⟨0x1010, 0x1013, 8, 8, .u64, .ro, .perQ, 0, 0, false⟩,
   ⟨0x1020, 0x1020, 0, 0, .u8, .ro, .dev, 4, 0, false⟩,
   ⟨0x1020, 0x1020, 1, 1, .blob, .rwa, .dev, 0, 8, true⟩,
   ⟨0x1020, 0x1020, 2, 2, .u8, .rwa, .dev, 1, 0, false⟩,
   ⟨0x1020, 0x1020, 3, 3, .u8, .rwa, .dev, 0, 0, false⟩,
   ⟨0x1020, 0x1020, 4, 4, .u64, .ro, .dev, 0, 0, false⟩]

/-- 13.7 preload. -/
def odRows2 : List OdRow :=
  [⟨0x1100, 0x1100, 0, 0, .u8, .ro, .part, 2, 0, false⟩,
   ⟨0x1100, 0x1100, 1, 1, .blob, .rwp, .part, 0, 262144, true⟩,
   ⟨0x1100, 0x1100, 2, 2, .u8, .cmd, .part, 0, 0, false⟩]

/-- 12 Table 12-11 CXL port. -/
def odRows3 : List OdRow :=
  [⟨0x1800, 0x1800, 0, 0, .u8, .ro, .dev, 0xE, 0, false⟩,
   ⟨0x1800, 0x1800, 1, 4, .u8, .ro, .dev, 0, 0, false⟩,
   ⟨0x1800, 0x1800, 5, 0xB, .u64, .ro, .dev, 0, 0, false⟩,
   ⟨0x1800, 0x1800, 0xC, 0xC, .u8, .rwa, .dev, 1, 0, false⟩,
   ⟨0x1800, 0x1800, 0xD, 0xE, .u64, .ro, .dev, 0, 0, false⟩]

/-- 03 Table 3-7 jobs. -/
def odRows4 : List OdRow :=
  [⟨0x2010, 0x2010, 0, 0, .u8, .ro, .part, 16, 0, false⟩,
   ⟨0x2010, 0x2010, 1, 0x10, .blob, .rwp, .part, 0, 128, false⟩,
   ⟨0x2011, 0x2011, 0, 0, .u32, .rwp, .part, 700000000, 0, false⟩,
   ⟨0x2020, 0x2020, 0, 0, .u8, .ro, .part, 4, 0, false⟩,
   ⟨0x2020, 0x2020, 1, 1, .u64, .rwp, .part, 0, 0, false⟩,
   ⟨0x2020, 0x2020, 2, 2, .u32, .cmd, .part, 0, 0, false⟩,
   ⟨0x2020, 0x2020, 3, 3, .u8, .cmd, .part, 0, 0, false⟩,
   ⟨0x2020, 0x2020, 4, 4, .u8, .ro, .part, 0, 0, false⟩]

/-- 02 Table 2-8 number formats. -/
def odRows5 : List OdRow :=
  [⟨0x2100, 0x2100, 0, 0, .u8, .ro, .part, 64, 0, false⟩,
   ⟨0x2100, 0x2100, 1, 0x40, .u32, .rwp, .part, 0, 0, false⟩,
   ⟨0x2101, 0x2101, 0, 0, .u64, .rwp, .part, 0, 0, false⟩,
   ⟨0x2120, 0x2120, 0, 0, .u16, .cmd, .part, 0, 0, false⟩,
   ⟨0x2200, 0x22FF, 0, 0, .u8, .ro, .part, 5, 0, false⟩,
   ⟨0x2200, 0x22FF, 1, 5, .u64, .ro, .part, 0, 0, false⟩]

/-- 04 Tables 4-5, 4-9. -/
def odRows6 : List OdRow :=
  [⟨0x2300, 0x2300, 0, 0, .u8, .ro, .part, 2, 0, false⟩,
   ⟨0x2300, 0x2300, 1, 2, .u16, .rwp, .part, 0, 0, false⟩,
   ⟨0x2301, 0x2301, 0, 0, .u8, .cmd, .part, 0, 0, false⟩,
   ⟨0x2310, 0x2317, 0, 0, .u8, .ro, .tower, 9, 0, false⟩,
   ⟨0x2310, 0x2317, 1, 9, .u64, .ro, .tower, 0, 0, false⟩]

/-- 06 Tables 6-7 to 6-9. -/
def odRows7 : List OdRow :=
  [⟨0x2401, 0x2401, 0, 0, .u8, .cmd, .part, 0, 0, false⟩,
   ⟨0x2410, 0x2417, 0, 0, .u8, .ro, .tower, 11, 0, false⟩,
   ⟨0x2410, 0x2417, 1, 11, .u64, .ro, .tower, 0, 0, false⟩,
   ⟨0x2500, 0x2500, 0, 0, .u8, .ro, .part, 2, 0, false⟩,
   ⟨0x2500, 0x2500, 1, 1, .u64, .rwp, .part, 0, 0, false⟩,
   ⟨0x2500, 0x2500, 2, 2, .u16, .cmd, .part, 0, 0, false⟩,
   ⟨0x2501, 0x2501, 0, 0, .u16, .cmd, .part, 0, 0, false⟩,
   ⟨0x2600, 0x26FF, 0, 0, .u8, .ro, .part, 10, 0, false⟩,
   ⟨0x2600, 0x26FF, 1, 7, .u64, .ro, .part, 0, 0, false⟩,
   ⟨0x2600, 0x26FF, 8, 9, .f32, .ro, .part, 0, 0, false⟩,
   ⟨0x2600, 0x26FF, 10, 10, .u64, .ro, .part, 0, 0, false⟩]

/-- 10 Table 10-8 memory and arbiters. -/
def odRows8 : List OdRow :=
  [⟨0x3000, 0x3000, 0, 0, .u8, .ro, .dev, 5, 0, false⟩,
   ⟨0x3000, 0x3000, 1, 1, .u8, .ro, .dev, 16, 0, false⟩,
   ⟨0x3000, 0x3000, 2, 2, .u64, .ro, .dev, 103079215104, 0, false⟩,
   ⟨0x3000, 0x3000, 3, 3, .u16, .ro, .dev, 4096, 0, false⟩,
   ⟨0x3000, 0x3000, 4, 4, .u16, .ro, .dev, 1024, 0, false⟩,
   ⟨0x3000, 0x3000, 5, 5, .u16, .ro, .dev, 512, 0, false⟩,
   ⟨0x3010, 0x3017, 0, 0, .blob, .rwp, .tower, 0, 256, false⟩,
   ⟨0x3018, 0x301F, 0, 0, .blob, .rwp, .tower, 0, 256, false⟩,
   ⟨0x3020, 0x302F, 0, 0, .u8, .ro, .dome, 9, 0, false⟩,
   ⟨0x3020, 0x302F, 1, 2, .u64, .ro, .dome, 0, 0, false⟩,
   ⟨0x3020, 0x302F, 3, 3, .u8, .ro, .dome, 0xFF, 0, false⟩,
   ⟨0x3020, 0x302F, 4, 4, .u16, .rwa, .dome, 16, 0, false⟩,
   ⟨0x3020, 0x302F, 5, 5, .u32, .rwa, .dome, 86400, 0, false⟩,
   ⟨0x3020, 0x302F, 6, 8, .u64, .ro, .dome, 0, 0, false⟩,
   ⟨0x3020, 0x302F, 9, 9, .blob, .ro, .dome, 0, 128, false⟩,
   ⟨0x3100, 0x3100, 0, 0, .u8, .ro, .dev, 16, 0, false⟩,
   ⟨0x3100, 0x3100, 1, 0x10, .u32, .rwa, .dev, 0, 0, false⟩,
   ⟨0x3200, 0x320F, 0, 0, .u8, .ro, .edge, 0x1F, 0, false⟩,
   ⟨0x3200, 0x320F, 1, 1, .u16, .rwp, .edge, 4096, 0, false⟩,
   ⟨0x3200, 0x320F, 2, 2, .u16, .rwp, .edge, 2048, 0, false⟩,
   ⟨0x3200, 0x320F, 3, 3, .u8, .cmd, .edge, 0, 0, false⟩,
   ⟨0x3200, 0x320F, 4, 4, .u16, .ro, .edge, 0, 0, false⟩,
   ⟨0x3200, 0x320F, 5, 7, .u64, .ro, .edge, 0, 0, false⟩,
   ⟨0x3200, 0x320F, 0x10, 0x1F, .u16, .rwp, .edge, 0, 0, false⟩,
   ⟨0x3210, 0x3210, 0, 0, .u8, .ro, .edge, 0x1F, 0, false⟩,
   ⟨0x3210, 0x3210, 1, 1, .u16, .rwa, .edge, 4096, 0, false⟩,
   ⟨0x3210, 0x3210, 2, 2, .u16, .rwa, .edge, 2048, 0, false⟩,
   ⟨0x3210, 0x3210, 3, 3, .u8, .cmd, .edge, 0, 0, false⟩,
   ⟨0x3210, 0x3210, 4, 4, .u16, .ro, .edge, 0, 0, false⟩,
   ⟨0x3210, 0x3210, 5, 7, .u64, .ro, .edge, 0, 0, false⟩,
   ⟨0x3210, 0x3210, 0x10, 0x1F, .u16, .rwa, .edge, 0, 0, false⟩,
   ⟨0x3220, 0x3243, 0, 0, .u8, .ro, .edge, 0x1F, 0, false⟩,
   ⟨0x3220, 0x3243, 1, 1, .u16, .rwp, .edge, 4096, 0, false⟩,
   ⟨0x3220, 0x3243, 2, 2, .u16, .rwp, .edge, 2048, 0, false⟩,
   ⟨0x3220, 0x3243, 3, 3, .u8, .cmd, .edge, 0, 0, false⟩,
   ⟨0x3220, 0x3243, 4, 4, .u16, .ro, .edge, 0, 0, false⟩,
   ⟨0x3220, 0x3243, 5, 7, .u64, .ro, .edge, 0, 0, false⟩,
   ⟨0x3220, 0x3243, 0x10, 0x1F, .u16, .rwp, .edge, 0, 0, false⟩,
   ⟨0x3250, 0x3250, 0, 0, .u8, .ro, .edge, 0x1F, 0, false⟩,
   ⟨0x3250, 0x3250, 1, 1, .u16, .rwa, .edge, 4096, 0, false⟩,
   ⟨0x3250, 0x3250, 2, 2, .u16, .rwa, .edge, 2048, 0, false⟩,
   ⟨0x3250, 0x3250, 3, 3, .u8, .cmd, .edge, 0, 0, false⟩,
   ⟨0x3250, 0x3250, 4, 4, .u16, .ro, .edge, 0, 0, false⟩,
   ⟨0x3250, 0x3250, 5, 7, .u64, .ro, .edge, 0, 0, false⟩,
   ⟨0x3250, 0x3250, 0x10, 0x1F, .u16, .rwa, .edge, 0, 0, false⟩]

/-- 11 Table 11-10 fabric. -/
def odRows9 : List OdRow :=
  [⟨0x4000, 0x4000, 0, 0, .u8, .ro, .dev, 4, 0, false⟩,
   ⟨0x4000, 0x4000, 1, 1, .u8, .ro, .dev, 36, 0, false⟩,
   ⟨0x4000, 0x4000, 2, 2, .u8, .ro, .dev, 4, 0, false⟩,
   ⟨0x4000, 0x4000, 3, 3, .u16, .ro, .dev, 16384, 0, false⟩,
   ⟨0x4000, 0x4000, 4, 4, .u32, .ro, .dev, 65536, 0, false⟩,
   ⟨0x4001, 0x4001, 0, 0, .u16, .rwa, .dev, 0, 0, false⟩,
   ⟨0x4002, 0x4002, 0, 0, .u8, .rwa, .dev, 0, 0, false⟩,
   ⟨0x4003, 0x4003, 0, 0, .u8, .rwa, .dev, 8, 0, false⟩,
   ⟨0x4010, 0x4033, 0, 0, .u8, .ro, .port, 0x10, 0, false⟩,
   ⟨0x4010, 0x4033, 1, 1, .u8, .ro, .port, 0, 0, false⟩,
   ⟨0x4010, 0x4033, 2, 2, .u8, .cmd, .port, 0, 0, false⟩,
   ⟨0x4010, 0x4033, 3, 3, .u16, .ro, .port, 0, 0, false⟩,
   ⟨0x4010, 0x4033, 4, 4, .u8, .ro, .port, 0, 0, false⟩,
   ⟨0x4010, 0x4033, 5, 5, .u32, .rwa, .port, 0, 0, false⟩,
   ⟨0x4010, 0x4033, 6, 6, .blob, .rwa, .port, 0, 16, false⟩,
   ⟨0x4010, 0x4033, 7, 0x10, .u64, .ro, .port, 0, 0, false⟩,
   ⟨0x4100, 0x4101, 0, 0, .blob, .rwa, .dev, 0, 2048, false⟩,
   ⟨0x4102, 0x4102, 0, 0, .u8, .ro, .dev, 6, 0, false⟩,
   ⟨0x4102, 0x4102, 1, 6, .u64, .ro, .dev, 0, 0, false⟩,
   ⟨0x4200, 0x420F, 0, 0, .u8, .ro, .part, 5, 0, false⟩,
   ⟨0x4200, 0x420F, 1, 2, .u64, .rwp, .part, 0, 0, false⟩,
   ⟨0x4200, 0x420F, 3, 3, .u16, .rwp, .part, 0, 0, false⟩,
   ⟨0x4200, 0x420F, 4, 4, .u16, .rwp, .part, 0xFFFF, 0, false⟩,
   ⟨0x4200, 0x420F, 5, 5, .u8, .rwp, .part, 0, 0, false⟩,
   ⟨0x4210, 0x4210, 0, 0, .u64, .ro, .part, 0, 0, false⟩]

/-- 07 Table 7-7 Halyard. -/
def odRows10 : List OdRow :=
  [⟨0x5000, 0x5000, 0, 0, .u8, .ro, .part, 5, 0, false⟩,
   ⟨0x5000, 0x5000, 1, 1, .u8, .ro, .part, 8, 0, false⟩,
   ⟨0x5000, 0x5000, 2, 2, .u16, .ro, .part, 4096, 0, false⟩,
   ⟨0x5000, 0x5000, 3, 3, .u16, .ro, .part, 8192, 0, false⟩,
   ⟨0x5000, 0x5000, 4, 4, .u8, .ro, .part, 16, 0, false⟩,
   ⟨0x5000, 0x5000, 5, 5, .u16, .ro, .part, 1024, 0, false⟩,
   ⟨0x5001, 0x5001, 0, 0, .u32, .cmd, .part, 0, 0, false⟩,
   ⟨0x5002, 0x5002, 0, 0, .u8, .rwp, .part, 8, 0, false⟩,
   ⟨0x5003, 0x5003, 0, 0, .u16, .cmd, .part, 0, 0, false⟩,
   ⟨0x5010, 0x501F, 0, 0, .blob, .rwp, .part, 0, 8192, true⟩,
   ⟨0x5020, 0x5020, 0, 0, .blob, .rwa, .dev, 0, 256, false⟩,
   ⟨0x5100, 0x51FF, 0, 0, .u8, .ro, .part, 16, 0, false⟩,
   ⟨0x5100, 0x51FF, 1, 16, .u64, .ro, .part, 0, 0, false⟩]

/-- 08 Tables 8-2, 8-6, 8-7. -/
def odRows11 : List OdRow :=
  [⟨0x6000, 0x6000, 0, 0, .u8, .ro, .part, 3, 0, false⟩,
   ⟨0x6000, 0x6000, 1, 1, .u16, .ro, .part, 4096, 0, false⟩,
   ⟨0x6000, 0x6000, 2, 2, .u8, .ro, .part, 8, 0, false⟩,
   ⟨0x6000, 0x6000, 3, 3, .u8, .ro, .part, 64, 0, false⟩,
   ⟨0x6001, 0x6001, 0, 0, .u8, .ro, .part, 3, 0, false⟩,
   ⟨0x6001, 0x6001, 1, 3, .u64, .ro, .part, 0, 0, false⟩,
   ⟨0x6010, 0x601F, 0, 0, .blob, .rwp, .part, 0, 8192, true⟩,
   ⟨0x6100, 0x61FF, 0, 0, .u8, .ro, .part, 8, 0, false⟩,
   ⟨0x6100, 0x61FF, 1, 2, .u8, .rwp, .part, 0, 0, false⟩,
   ⟨0x6100, 0x61FF, 3, 3, .u32, .rwp, .part, 0, 0, false⟩,
   ⟨0x6100, 0x61FF, 4, 4, .u32, .rwp, .part, 1000, 0, false⟩,
   ⟨0x6100, 0x61FF, 5, 5, .u8, .rwp, .part, 0, 0, false⟩,
   ⟨0x6100, 0x61FF, 6, 6, .u32, .rwp, .part, 0, 0, false⟩,
   ⟨0x6100, 0x61FF, 7, 7, .u64, .rwp, .part, 0, 0, false⟩,
   ⟨0x6100, 0x61FF, 8, 8, .u64, .ro, .part, 0, 0, false⟩,
   ⟨0x6200, 0x62FF, 0, 0, .u8, .ro, .part, 8, 0, false⟩,
   ⟨0x6200, 0x62FF, 1, 7, .f32, .ro, .part, 0, 0, false⟩,
   ⟨0x6200, 0x62FF, 8, 8, .u8, .ro, .part, 0, 0, false⟩,
   ⟨0x6300, 0x6300, 0, 0, .u8, .ro, .part, 6, 0, false⟩,
   ⟨0x6300, 0x6300, 1, 1, .u8, .rwp, .part, 0, 0, false⟩,
   ⟨0x6300, 0x6300, 2, 2, .f32, .rwp, .part, 0, 0, false⟩,
   ⟨0x6300, 0x6300, 3, 3, .f32, .rwp, .part, 0x358637BD, 0, false⟩,
   ⟨0x6300, 0x6300, 4, 4, .f32, .rwp, .part, 0x3F800000, 0, false⟩,
   ⟨0x6300, 0x6300, 5, 5, .f32, .ro, .part, 0, 0, false⟩,
   ⟨0x6300, 0x6300, 6, 6, .f32, .ro, .part, 0x3F800000, 0, false⟩]

/-- 09 Tables 9-5 to 9-7. -/
def odRows12 : List OdRow :=
  [⟨0x6400, 0x6400, 0, 0, .u8, .ro, .part, 8, 0, false⟩,
   ⟨0x6400, 0x6400, 1, 1, .u16, .ro, .part, 4096, 0, false⟩,
   ⟨0x6400, 0x6400, 2, 2, .u8, .ro, .part, 16, 0, false⟩,
   ⟨0x6400, 0x6400, 3, 3, .u64, .rwp, .part, 0, 0, false⟩,
   ⟨0x6400, 0x6400, 4, 4, .u64, .rwp, .part, 0, 0, false⟩,
   ⟨0x6400, 0x6400, 5, 5, .u16, .ro, .part, 0, 0, false⟩,
   ⟨0x6400, 0x6400, 6, 6, .u16, .ro, .part, 4096, 0, false⟩,
   ⟨0x6400, 0x6400, 7, 7, .u32, .rwp, .part, 4096, 0, false⟩,
   ⟨0x6400, 0x6400, 8, 8, .u8, .ro, .part, 0, 0, false⟩,
   ⟨0x6401, 0x6403, 0, 0, .u8, .cmd, .part, 0, 0, false⟩,
   ⟨0x6404, 0x6404, 0, 0, .u8, .ro, .part, 9, 0, false⟩,
   ⟨0x6404, 0x6404, 1, 9, .u64, .ro, .part, 0, 0, false⟩,
   ⟨0x6500, 0x650F, 0, 0, .u8, .ro, .part, 10, 0, false⟩,
   ⟨0x6500, 0x650F, 1, 1, .u8, .rwp, .part, 0, 0, false⟩,
   ⟨0x6500, 0x650F, 2, 3, .f32, .rwp, .part, 0, 0, false⟩,
   ⟨0x6500, 0x650F, 4, 6, .u32, .rwp, .part, 0, 0, false⟩,
   ⟨0x6500, 0x650F, 7, 7, .f32, .rwp, .part, 0, 0, false⟩,
   ⟨0x6500, 0x650F, 8, 8, .u32, .rwp, .part, 0, 0, false⟩,
   ⟨0x6500, 0x650F, 9, 9, .f32, .rwp, .part, 0x3F800000, 0, false⟩,
   ⟨0x6500, 0x650F, 10, 10, .u64, .rwp, .part, 0, 0, false⟩]

/-- 14 Table 14-10 Lookout. -/
def odRows13 : List OdRow :=
  [⟨0x7000, 0x7000, 0, 0, .u8, .ro, .dev, 7, 0, false⟩,
   ⟨0x7000, 0x7000, 1, 1, .u8, .ro, .dev, 0, 0, false⟩,
   ⟨0x7000, 0x7000, 2, 2, .u8, .rwa, .dev, 160, 0, false⟩,
   ⟨0x7000, 0x7000, 3, 3, .u8, .rwa, .dev, 32, 0, false⟩,
   ⟨0x7000, 0x7000, 4, 4, .u16, .rwa, .dev, 60, 0, false⟩,
   ⟨0x7000, 0x7000, 5, 5, .blob, .ro, .dev, 0, 5, false⟩,
   ⟨0x7000, 0x7000, 6, 6, .blob, .rwa, .dev, 0, 20, false⟩,
   ⟨0x7000, 0x7000, 7, 7, .blob, .rwa, .dev, 0, 10, false⟩,
   ⟨0x7100, 0x7103, 0, 0, .u8, .ro, .perQ, 10, 0, false⟩,
   ⟨0x7100, 0x7103, 1, 1, .u8, .rwp, .perQ, 0, 0, false⟩,
   ⟨0x7100, 0x7103, 2, 2, .u16, .rwp, .perQ, 0xFFFF, 0, false⟩,
   ⟨0x7100, 0x7103, 3, 3, .u8, .rwp, .perQ, 0, 0, false⟩,
   ⟨0x7100, 0x7103, 4, 4, .u64, .ro, .perQ, 0, 0, false⟩,
   ⟨0x7100, 0x7103, 5, 5, .u8, .ro, .perQ, 0, 0, false⟩,
   ⟨0x7100, 0x7103, 6, 6, .u64, .ro, .perQ, 0, 0, false⟩,
   ⟨0x7100, 0x7103, 7, 7, .u16, .rwp, .perQ, 1000, 0, false⟩,
   ⟨0x7100, 0x7103, 8, 9, .u64, .ro, .perQ, 0, 0, false⟩,
   ⟨0x7100, 0x7103, 10, 10, .u8, .ro, .perQ, 0, 0, false⟩,
   ⟨0x7110, 0x7113, 0, 0, .u8, .ro, .perQ, 8, 0, false⟩,
   ⟨0x7110, 0x7113, 1, 3, .u64, .rwp, .perQ, 0, 0, false⟩,
   ⟨0x7110, 0x7113, 4, 4, .u16, .rwp, .perQ, 0xFFFF, 0, false⟩,
   ⟨0x7110, 0x7113, 5, 5, .u8, .rwp, .perQ, 0, 0, false⟩,
   ⟨0x7110, 0x7113, 6, 8, .u64, .ro, .perQ, 0, 0, false⟩,
   ⟨0x7120, 0x7123, 0, 0, .u8, .ro, .perQ, 4, 0, false⟩,
   ⟨0x7120, 0x7123, 1, 1, .u16, .rwp, .perQ, 0xFFFF, 0, false⟩,
   ⟨0x7120, 0x7123, 2, 2, .u64, .rwp, .perQ, 0, 0, false⟩,
   ⟨0x7120, 0x7123, 3, 3, .u8, .cmd, .perQ, 0, 0, false⟩,
   ⟨0x7120, 0x7123, 4, 4, .u8, .ro, .perQ, 0xFF, 0, false⟩]

/-- 14 Table 14-12 faults and self-test. -/
def odRows14 : List OdRow :=
  [⟨0x8000, 0x8000, 0, 0, .u8, .ro, .dev, 3, 0, false⟩,
   ⟨0x8000, 0x8000, 1, 1, .u8, .ro, .dev, 64, 0, false⟩,
   ⟨0x8000, 0x8000, 2, 2, .u8, .ro, .dev, 4, 0, false⟩,
   ⟨0x8000, 0x8000, 3, 3, .blob, .ro, .dev, 0, 328, false⟩,
   ⟨0x8001, 0x8001, 0, 0, .u8, .ro, .dev, 4, 0, false⟩,
   ⟨0x8001, 0x8001, 1, 1, .u8, .ro, .dev, 0, 0, false⟩,
   ⟨0x8001, 0x8001, 2, 2, .u32, .ro, .dev, 1, 0, false⟩,
   ⟨0x8001, 0x8001, 3, 3, .u32, .rwa, .dev, 86400, 0, false⟩,
   ⟨0x8001, 0x8001, 4, 4, .u8, .rwa, .dev, 2, 0, false⟩,
   ⟨0x8010, 0x804F, 0, 0, .u8, .ro, .dev, 5, 0, false⟩,
   ⟨0x8010, 0x804F, 1, 1, .blob, .ro, .dev, 0, 64, false⟩,
   ⟨0x8010, 0x804F, 2, 2, .u8, .ro, .dev, 0, 0, false⟩,
   ⟨0x8010, 0x804F, 3, 3, .u32, .ro, .dev, 0, 0, false⟩,
   ⟨0x8010, 0x804F, 4, 5, .u8, .ro, .dev, 0, 0, false⟩,
   ⟨0x8100, 0x8107, 0, 0, .u8, .ro, .tower, 8, 0, false⟩,
   ⟨0x8100, 0x8107, 1, 1, .blob, .ro, .tower, 0, 132, false⟩,
   ⟨0x8100, 0x8107, 2, 2, .u8, .ro, .tower, 4, 0, false⟩,
   ⟨0x8100, 0x8107, 3, 5, .u64, .ro, .tower, 0, 0, false⟩,
   ⟨0x8100, 0x8107, 6, 6, .u64, .rwp, .tower, 0, 0, false⟩,
   ⟨0x8100, 0x8107, 7, 7, .u32, .rwa, .tower, 600, 0, false⟩,
   ⟨0x8100, 0x8107, 8, 8, .u64, .ro, .tower, 0, 0, false⟩]

/-- 15 Table 15-8 power, clocks, thermal. -/
def odRows15 : List OdRow :=
  [⟨0x9000, 0x9000, 0, 0, .u8, .ro, .dev, 5, 0, false⟩,
   ⟨0x9000, 0x9000, 1, 1, .u16, .ro, .dev, 1104, 0, false⟩,
   ⟨0x9000, 0x9000, 2, 2, .u8, .ro, .dev, 4, 0, false⟩,
   ⟨0x9000, 0x9000, 3, 3, .u8, .ro, .dev, 4, 0, false⟩,
   ⟨0x9000, 0x9000, 4, 4, .u8, .ro, .dev, 88, 0, false⟩,
   ⟨0x9000, 0x9000, 5, 5, .u8, .ro, .dev, 5, 0, false⟩,
   ⟨0x9001, 0x9001, 0, 0, .u8, .ro, .dev, 4, 0, false⟩,
   ⟨0x9001, 0x9001, 1, 1, .u8, .ro, .dev, 0, 0, false⟩,
   ⟨0x9001, 0x9001, 2, 2, .u8, .rwa, .dev, 0, 0, false⟩,
   ⟨0x9001, 0x9001, 3, 3, .u8, .ro, .dev, 0, 0, false⟩,
   ⟨0x9001, 0x9001, 4, 4, .u64, .ro, .dev, 0, 0, false⟩,
   ⟨0x9010, 0x9013, 0, 0, .u8, .ro, .dev, 8, 0, false⟩,
   ⟨0x9010, 0x9012, 1, 1, .u16, .ro, .dev, 750, 0, false⟩,
   ⟨0x9013, 0x9013, 1, 1, .u16, .ro, .dev, 900, 0, false⟩,
   ⟨0x9010, 0x9013, 2, 4, .u16, .ro, .dev, 0, 0, false⟩,
   ⟨0x9010, 0x9013, 5, 5, .u8, .ro, .dev, 0, 0, false⟩,
   ⟨0x9010, 0x9013, 6, 6, .u16, .ro, .dev, 0, 0, false⟩,
   ⟨0x9010, 0x9013, 7, 8, .u64, .ro, .dev, 0, 0, false⟩,
   ⟨0x9020, 0x9028, 0, 0, .u8, .ro, .dev, 3, 0, false⟩,
   ⟨0x9020, 0x9028, 1, 3, .u64, .ro, .dev, 0, 0, false⟩,
   ⟨0x9030, 0x9030, 0, 0, .u8, .ro, .dev, 6, 0, false⟩,
   ⟨0x9030, 0x9030, 1, 1, .blob, .ro, .dev, 0, 176, false⟩,
   ⟨0x9030, 0x9030, 2, 2, .i32, .ro, .dev, 0, 0, false⟩,
   ⟨0x9030, 0x9030, 3, 4, .u64, .ro, .dev, 0, 0, false⟩,
   ⟨0x9030, 0x9030, 5, 5, .u8, .rwa, .dev, 5, 0, false⟩,
   ⟨0x9030, 0x9030, 6, 6, .u8, .rwa, .dev, 10, 0, false⟩,
   ⟨0x9040, 0x9044, 0, 0, .u8, .ro, .dev, 4, 0, false⟩,
   ⟨0x9040, 0x9044, 1, 1, .u8, .ro, .dev, 0, 0, false⟩,
   ⟨0x9040, 0x9044, 2, 2, .bool, .ro, .dev, 0, 0, false⟩,
   ⟨0x9040, 0x9044, 3, 4, .u64, .ro, .dev, 0, 0, false⟩]

/-- 16 Table 16-6 security. -/
def odRows16 : List OdRow :=
  [⟨0xA000, 0xA000, 0, 0, .u8, .ro, .dev, 7, 0, false⟩,
   ⟨0xA000, 0xA000, 1, 1, .u8, .ro, .dev, 0xFF, 0, false⟩,
   ⟨0xA000, 0xA000, 2, 2, .u16, .ro, .dev, 0, 0, false⟩,
   ⟨0xA000, 0xA000, 3, 4, .u32, .ro, .dev, 0, 0, false⟩,
   ⟨0xA000, 0xA000, 5, 5, .u8, .ro, .dev, 0, 0, false⟩,
   ⟨0xA000, 0xA000, 6, 6, .blob, .ro, .dev, 0, 128, false⟩,
   ⟨0xA000, 0xA000, 7, 7, .u64, .ro, .dev, 0, 0, false⟩,
   ⟨0xA010, 0xA010, 0, 0, .u8, .ro, .dev, 7, 0, false⟩,
   ⟨0xA010, 0xA010, 1, 7, .blob, .ro, .dev, 0, 64, false⟩]

/-- Every object of the dictionary. -/
def odRows : List OdRow :=
  odRows0 ++ odRows1 ++ odRows2 ++ odRows3 ++ odRows4 ++ odRows5 ++
  odRows6 ++ odRows7 ++ odRows8 ++ odRows9 ++ odRows10 ++ odRows11 ++
  odRows12 ++ odRows13 ++ odRows14 ++ odRows15 ++ odRows16

/-- The row of an object, if the address names one (13 R384). -/
def odFind (i sub : Nat) : Option OdRow :=
  odRows.find? fun r => r.lo ≤ i && i ≤ r.hi && r.slo ≤ sub && sub ≤ r.shi

/-- Size in bytes of a scalar type (13 Table 13-1). -/
def OdTy.size : OdTy → Nat
  | .bool => 1 | .u8 => 1 | .u16 => 2 | .u32 => 4 | .u64 => 8 | .i32 => 4 | .i64 => 8 | .f32 => 4 | .str => 0 | .blob => 0

/-- Type code (13 Table 13-1). -/
def OdTy.code : OdTy → Nat
  | .bool => 1 | .u8 => 2 | .u16 => 3 | .u32 => 4 | .u64 => 5 | .i32 => 6 | .i64 => 7 | .f32 => 8 | .str => 9 | .blob => 10

/-- Right code of DESCRIBE, in the order of Table 13-2 (13 Table 13-7). -/
def OdRight.code : OdRight → Nat
  | .ro => 1 | .rw => 2 | .wo => 3 | .rwp => 4 | .rwa => 5 | .cmd => 6

/-- A scalar held as bytes rather than as a number. -/
def OdTy.isBytes : OdTy → Bool
  | .str => true | .blob => true | _ => false

/-- Items 0x0000 to 0x0012 of Table 3-12 (03 R107). -/
def aelayCounts : List Nat :=
  [0x00020000, 8, 128, 32, 128, 2097152, 65536, 32, 64, 256, 512, 32, 32, 16, 16, 2, 36, 4, 32]

/-- Default requester word of an edge (10 Table 10-6): rank in [9:8], weight in [7:0]; 0 where no requester has the number. -/
def edgeWordDefault (e r : Nat) : Nat :=
  let w (rank weight : Nat) := rank * 256 + weight
  if e < 16 then
    match r with
    | 0 => w 2 32 | 1 => w 2 16 | 2 => w 2 4 | 3 => w 1 8 | 4 => w 3 8 | 5 => w 3 8 | 6 => w 0 1 | 7 => 0
    | r => if r - 8 = e / 2 then 0 else w 2 4
  else if e = 0x10 then
    match r with
    | 0 => w 1 4 | 1 => w 1 1 | 2 => w 2 1 | 3 => w 2 4 | _ => 0
  else if 0x20 ≤ e ∧ e < 0x44 then (if r < 4 then w 2 1 else 0)
  else if e = 0x50 then (if r < 3 then w 2 1 else 0)
  else 0

/-- Default of a scalar object of instance `q` (13 R387). -/
def odDefault (q i sub : Nat) : Nat :=
  if i = 0x10 ∧ 1 ≤ sub then aelayCounts.getD (sub - 1) 0
  else if i = 0x1010 then
    (match sub with | 0 => 8 | 1 => 1 | 2 => 0xFF | 3 => 2 ^ 36 - 1 | 5 => 4096 | _ => 0)
  else if 0x3200 ≤ i ∧ i ≤ 0x3250 ∧ 0x10 ≤ sub ∧ sub ≤ 0x1F then edgeWordDefault (i - 0x3200) (sub - 0x10)
  else if i = 0x6400 ∧ sub = 6 then (if q = 0 then 4096 else 0)
  else match odFind i sub with
    | some r => r.dflt
    | none => 0

/-- The turn tables' default: entry i = i mod 128 (10 Table 10-8). -/
def turnDefault : Bytes := (List.range 256).map fun i => BitVec.ofNat 8 (i % 128)

/-- Default of a BLOB or STR object (13 R387). A BLOB of fixed size without a stated default is zeros. -/
def blobDefault (i sub : Nat) : Bytes :=
  if i = 1 ∧ sub = 1 then [0x4F, 0x74, 0x61, 0x73, 0x74, 0x69, 0x64]
  else if i = 1 ∧ sub = 2 then [0x4F, 0x54, 0x2D, 0x50, 0x53, 0x31, 0x2D, 0x41, 0x31]
  else if i = 1 ∧ sub = 3 then [0x41, 0x31]
  else if i = 0x1001 then
    [0xFF, 1, 0, 0, 0, 0x10, 0, 0, 0xFF, 0xFF, 0xFF, 0xFF, 0x0F, 0, 0, 0] ++ List.replicate 48 0
  else if i = 0x2010 ∧ sub = 1 then List.replicate 128 0xFF
  else if 0x3010 ≤ i ∧ i ≤ 0x301F then turnDefault
  else if 0x4010 ≤ i ∧ i ≤ 0x4033 then leBytes 4 512 ++ leBytes 4 512 ++ leBytes 4 2560 ++ leBytes 4 512
  else if i = 0x7000 ∧ sub = 6 then
    leBytes 4 60000 ++ leBytes 4 20 ++ leBytes 4 600000 ++ leBytes 4 20 ++ leBytes 4 4
  else if i = 0x7000 ∧ sub = 7 then leBytes 2 64 ++ leBytes 2 48 ++ leBytes 2 32 ++ leBytes 2 48 ++ leBytes 2 64
  else if 0x8100 ≤ i ∧ i ≤ 0x8107 then
    (List.range 132).map fun b => if b < 128 then BitVec.ofNat 8 b else 0xFE
  else match odFind i sub with
    | some r => if r.var then [] else List.replicate r.size 0
    | none => []

end Sys2Proof.Machine
end

