-- ==== Sys2Proof/Machine/Ops.lean ====
section
/-! DEFINITION. The named operations over the state: spars, partitions, dictionary objects, unit numbers, islands, the
outputs, and raising a fault (14 R414): every meaning reads and writes the state through these. -/

namespace Sys2Proof.Machine

open Sys2Proof

/-- What a command answers. -/
abbrev Res := Host.Outcome State Fault Refusal

/-- A memory is in its canonical form (log 3). -/
abbrev Memory.wf (m : List Host.Cell) : Prop := mapWf (fun _ => (0 : Byte)) m

/-! Spars, partitions, ports, edges. -/

/-- Logical spar `i` = 128n + s (R16). -/
def State.spar (s : State) (i : Nat) : Spar := mapGet {} s.spars i

/-- Logical spar `i` replaced. -/
def State.setSpar (s : State) (i : Nat) (x : Spar) : State := { s with spars := mapSet {} s.spars i x }

/-- Logical spar `i` changed. -/
def State.modSpar (s : State) (i : Nat) (f : Spar → Spar) : State := s.setSpar i (f (s.spar i))

/-- Partition `q`'s context (R30). -/
def State.part (s : State) (q : Nat) : Part := mapGet {} s.parts q

/-- Partition `q`'s context replaced. -/
def State.setPart (s : State) (q : Nat) (x : Part) : State := { s with parts := mapSet {} s.parts q x }

/-- Partition `q`'s context changed. -/
def State.modPart (s : State) (q : Nat) (f : Part → Part) : State := s.setPart q (f (s.part q))

/-- Fabric port `p` (R323). -/
def State.port (s : State) (p : Nat) : Port := mapGet {} s.ports p

/-- Fabric port `p` replaced. -/
def State.setPort (s : State) (p : Nat) (x : Port) : State := { s with ports := mapSet {} s.ports p x }

/-- Fabric port `p` changed. -/
def State.modPort (s : State) (p : Nat) (f : Port → Port) : State := s.setPort p (f (s.port p))

/-- Edge arbiter `e` (R317). -/
def State.edge (s : State) (e : Nat) : Edge := mapGet {} s.edges e

/-- Edge arbiter `e` replaced. -/
def State.setEdge (s : State) (e : Nat) (x : Edge) : State := { s with edges := mapSet {} s.edges e x }

/-! Dictionary objects (13 R384). -/

/-- Key of object `i`:`sub` of instance `q`. -/
def odKey (q i sub : Nat) : Nat := q * 2 ^ 24 + i * 2 ^ 8 + sub

/-- Value of a scalar object. -/
def State.odGet (s : State) (q i sub : Nat) : Nat := mapGet (odDefault q i sub) s.od (odKey q i sub)

/-- A scalar object set. -/
def State.odSet (s : State) (q i sub v : Nat) : State :=
  { s with od := mapSet (odDefault q i sub) s.od (odKey q i sub) v }

/-- A U64 counter object increased by `n`, modulo 2^64 (R461: no event is missed). -/
def State.odAdd (s : State) (q i sub n : Nat) : State := s.odSet q i sub ((s.odGet q i sub + n) % 2 ^ 64)

/-- Value of a BLOB or STR object. -/
def State.blobGet (s : State) (q i sub : Nat) : Bytes := mapGet (blobDefault i sub) s.blobs (odKey q i sub)

/-- Generation of a BLOB (R397). -/
def State.blobGenOf (s : State) (q i sub : Nat) : Nat := mapGet 0 s.blobGen (odKey q i sub)

/-- A BLOB set; its generation goes up by one, modulo 2^32 (R397). -/
def State.blobSet (s : State) (q i sub : Nat) (v : Bytes) : State :=
  { s with
    blobs := mapSet (blobDefault i sub) s.blobs (odKey q i sub) v
    blobGen := mapSet 0 s.blobGen (odKey q i sub) ((s.blobGenOf q i sub + 1) % 2 ^ 32) }

/-! Partitions and units (R28, R407). -/

/-- Partition `q` is present (Table 13-12). -/
def State.present (s : State) (q : Nat) : Bool := s.odGet 0 (0x1010 + q) 1 = 1

/-- Tower mask of partition `q` (Table 13-12). -/
def State.towerMask (s : State) (q : Nat) : Nat := s.odGet 0 (0x1010 + q) 2

/-- Towers of partition `q`, ascending. -/
def State.towersOf (s : State) (q : Nat) : List Nat := maskBits (s.towerMask q) 8

/-- The partition that holds tower `t`; 4 for none. -/
def State.towerPart (s : State) (t : Nat) : Nat :=
  ((List.range 4).find? fun q => s.present q && (s.towerMask q).testBit t).getD 4

/-- The partition that holds port `p`; 4 for none. -/
def State.portPart (s : State) (p : Nat) : Nat :=
  ((List.range 4).find? fun q => s.present q && (s.odGet 0 (0x1010 + q) 3).testBit p).getD 4

/-- The partition that holds dome `d`: that of its home tower (R28). -/
def State.domePart (s : State) (d : Nat) : Nat := s.towerPart (d / 2)

/-- Tower of a logical spar. -/
def sparTower (i : Nat) : Nat := i / 128

/-- Partition of a logical spar. -/
def State.sparPart (s : State) (i : Nat) : Nat := s.towerPart (sparTower i)

/-- The logical spars of the towers of partition `q`, ascending. -/
def State.sparsOf (s : State) (q : Nat) : List Nat :=
  (s.towersOf q).flatMap fun t => (List.range 128).map fun k => 128 * t + k

/-- Unit ID: class in [31:24], number in [23:0] (Table 13-15). -/
def unitId (cls n : Nat) : Nat := cls * 2 ^ 24 + n

/-- Unit ID of a logical spar. -/
def sparUnit (i : Nat) : Nat := unitId 2 i

/-- Unit ID of spire unit `n`. -/
def spireUnit (n : Nat) : Nat := unitId 8 n

/-- Berth map of a tower (Table 14-12): the logical spar of each berth, 0xFE spare, 0xFF fenced. -/
def State.berthMap (s : State) (t : Nat) : Bytes := s.blobGet 0 (0x8100 + t) 1

/-- The berth, 0 to 131, that holds logical spar `i`; none when the spar is absent (R425). -/
def State.berthOf (s : State) (i : Nat) : Option Nat :=
  (List.range 132).find? fun b => (s.berthMap (sparTower i)).getD b 0xFF = BitVec.ofNat 8 (i % 128)

/-- The logical spar holds no berth (R425). -/
def State.absent (s : State) (i : Nat) : Bool := (s.berthOf i).isNone

/-- Job state of a partition (Table 3-7). -/
def State.jobState (s : State) (q : Nat) : Nat := s.odGet q 0x2020 4

/-- Partition `q` has job state 1: a job fills or runs. -/
def State.jobRuns (s : State) (q : Nat) : Bool := s.jobState q = 1

/-- A unit is out of service: under a targeted test, or a spire unit or tower fenced (Tables 14-4, 14-5). -/
def State.unitOut (s : State) (u : Nat) : Bool :=
  s.testing.contains u || (u / 2 ^ 24 = 8 && s.fencedSpire.contains (u % 2 ^ 24)) ||
  (u / 2 ^ 24 = 1 && s.fencedTowers.contains (u % 2 ^ 24))

/-- Tower `t` or one of its units of class `cls` is out of service. -/
def State.towerOut (s : State) (cls t : Nat) : Bool := s.unitOut (unitId 1 t) || s.unitOut (unitId cls t)

/-- Dome `d` grants nothing: it or its walker is fenced or tested (Tables 14-4, 14-5), or a plan fills it with zeros (13
R404). -/
def State.domeHeld (s : State) (d : Nat) : Bool :=
  s.domeOff.contains d || s.zeroFill.contains d || s.testing.contains (unitId 4 d) || s.testing.contains (unitId 0xB d)

/-! Islands (Table 15-4): number of each island in table order. -/

/-- Island of berth `b` of tower `t`. -/
def islBerth (t b : Nat) : Nat := 132 * t + b

/-- Island of tower network `t`. -/
def islTower (t : Nat) : Nat := 1056 + t

/-- Island of Halyard unit `t`. -/
def islHalyard (t : Nat) : Nat := 1064 + t

/-- Island of pruning unit `t`. -/
def islPrune (t : Nat) : Nat := 1072 + t

/-- Island of dome base die `d`. -/
def islDome (d : Nat) : Nat := 1080 + d

/-- Island of spire unit: 0 management cores, 1 host port, 2 fabric, 3 collective engine, 4 Boom coordinator,
5 Halyard coordinator, 6 Lookout, 7 root of trust. -/
def islSpire (k : Nat) : Nat := 1096 + k

/-- Cycle count of an island (R457; log 5). -/
def State.cycles (s : State) (isl : Nat) : Nat := (s.cyc - mapGet 0 s.cycLost isl) % 2 ^ 64

/-- Island of a logical spar: that of its berth (R66). -/
def State.sparIsland (s : State) (i : Nat) : Nat := islBerth (sparTower i) ((s.berthOf i).getD 0)

/-! Free values: the model's own counter (log 4). -/

/-- A value the spec leaves open: the next of the stream `Config.freeValue`, and the counter advanced. -/
def State.draw (s : State) (w : Nat) : BitVec w × State :=
  (Config.freeValue s.fresh w, { s with fresh := s.fresh + 1 })

/-- A message the device sends to its surroundings, recorded. -/
def State.emit (s : State) (kind addr : Nat) (data : Bytes) (flag : Nat) : State :=
  { s with out := s.out ++ [{ kind := kind, addr := addr, data := data, flag := flag }] }

/-! Faults (14 R412-R414). -/

/-- The fault catalogue in table order: code, severity (0 info to 3 fatal), class (0 P, 1 H, 2 X, 3 none) (Table 14-1). -/
def faultTable : List (Nat × Nat × Nat) :=
  [(0x0101, 2, 0), (0x0102, 2, 0), (0x0103, 2, 0), (0x0104, 2, 0), (0x0105, 2, 0), (0x0106, 2, 0), (0x0107, 2, 0),
   (0x0108, 2, 1), (0x0111, 1, 0), (0x0121, 0, 3), (0x0122, 2, 1), (0x0131, 0, 3), (0x0141, 2, 2), (0x0201, 2, 0),
   (0x0202, 0, 3), (0x0203, 2, 0), (0x0204, 2, 0), (0x0301, 2, 1), (0x0302, 0, 3), (0x0311, 1, 3), (0x0312, 2, 0)] ++
  [(0x0401, 2, 1), (0x0402, 2, 1), (0x0403, 1, 3), (0x0404, 1, 3), (0x0405, 2, 0), (0x0501, 1, 3), (0x0502, 2, 2),
   (0x0503, 2, 2), (0x0601, 2, 1), (0x0602, 2, 1), (0x0603, 3, 1), (0x0604, 3, 1), (0x0605, 2, 1), (0x0606, 2, 1),
   (0x0607, 1, 3), (0x0701, 2, 2), (0x0702, 2, 2), (0x0801, 1, 3), (0x0802, 2, 2), (0x0803, 1, 3)]

/-- Severity of a fault code (R412). -/
def faultSev (code : Nat) : Nat := ((faultTable.find? fun r => r.1 = code).map fun r => r.2.1).getD 0

/-- Class of a fault code (R412). -/
def faultClass (code : Nat) : Nat := ((faultTable.find? fun r => r.1 = code).map fun r => r.2.2).getD 3

/-- Row number of a fault code in Table 14-1. -/
def faultRow (code : Nat) : Nat := faultTable.findIdx fun r => r.1 = code

/-- A fault record (R414): TYPE 0x0001, its severity from the catalogue. -/
def faultRecord (s : State) (code source part isl : Nat) (payload : Bytes) : Notice :=
  { ty := 1, sev := faultSev code, devwide := decide (part ≥ 4), part := if part ≥ 4 then 0 else part, code := code,
    source := source, cycles := s.cycles isl, payload := padTo 40 payload }

/-- A unit raises a fault: its record travels to the management cores, behind those raised before (R416). `part` is the
partition the fault belongs to, 4 for none. -/
def State.raise (s : State) (code source part isl : Nat) (payload : Bytes) : State :=
  { s with faultQ := s.faultQ ++ [faultRecord s code source part isl payload] }

/-- A fault record that carries values the spec names and does not place in the payload (log 4). -/
def openRecord (s : State) (code source part isl : Nat) (vals : List Nat) : Notice :=
  { faultRecord s code source part isl (leBytes 40 (Config.payload code vals).toNat) with vals := vals }

/-- A unit raises a fault that carries values the spec names and does not place in the payload (log 4). -/
def State.raiseOpen (s : State) (code source part isl : Nat) (vals : List Nat) : State :=
  { s with faultQ := s.faultQ ++ [openRecord s code source part isl vals] }

/-- A unit raises a fabric fault of a port with the values of Table 11-6 (R339): to the port's partition and to the
administrator. -/
def State.raisePort (s : State) (code p : Nat) (vals : List Nat) : State :=
  { s with faultQ := s.faultQ ++
      [{ openRecord s code (unitId 5 p) (s.portPart p) (islSpire 2) vals with port := true }] }

/-! Dome memory (10 R297). -/

/-- Bytes of one dome: 96 GiB. -/
def domeBytes : Nat := 0x1800000000

/-- Dome of a device address, bits [40:37] (R297). -/
def domeOf (a : Nat) : Nat := a / 2 ^ 37 % 16

/-- Offset in the dome, bits [36:0] (R297). -/
def domeOff (a : Nat) : Nat := a % 2 ^ 37

/-- The device address exists (R297). -/
def addrExists (a : Nat) : Bool := a / 2 ^ 41 = 0 && domeOff a < domeBytes

/-- The address lies in the address map of partition `q` (R298). -/
def State.inMap (s : State) (q a : Nat) : Bool :=
  addrExists a && (s.towerMask q).testBit (domeOf a / 2) && s.present q

/-- Every byte of [a, a + n) lies in the address map of partition `q` (R298); an empty range asks nothing of it. -/
def State.rangeInMap (s : State) (q a n : Nat) : Bool :=
  n = 0 || (s.inMap q a && s.inMap q (a + n - 1) && a / 2 ^ 37 = (a + n - 1) / 2 ^ 37)

/-- Line number of a device address. -/
def lineOf (a : Nat) : Nat := a / 64

/-- The line of the address is poisoned (R309). -/
def State.poisoned (s : State) (a : Nat) : Bool := mapGet false s.poison (lineOf a)

/-- The lowest poisoned line address of [a, a + n), if any. -/
def State.poisonIn (s : State) (a n : Nat) : Option Nat :=
  ((s.poison.filter fun e => e.2 && lineOf a ≤ e.1 && e.1 ≤ lineOf (a + n - 1) && 0 < n).map fun e => e.1 * 64).head?

/-- Dome bytes read. -/
def State.domeRead (s : State) (a n : Nat) : Bytes := memRead s.dome a n

/-- Little-endian number read from dome. -/
def State.domeNat (s : State) (a n : Nat) : Nat := memNat s.dome a n

/-- A line's poison set or cleared. -/
def State.setPoison (s : State) (line : Nat) (v : Bool) : State := { s with poison := mapSet false s.poison line v }

/-- One byte stored to dome. -/
def State.domePut (s : State) (a : Nat) (bs : Bytes) : State := { s with dome := memWrite s.dome a bs }

end Sys2Proof.Machine
end

