-- ==== Sys2Proof/Machine/Operands.lean ====
section
/-! DEFINITION. A spar's registers, the decoding of its bundles, and the operand forms of the slots (03 R66-R77). -/

namespace Sys2Proof.Machine

open Sys2Proof

/-! Slots and bundles (R69, R70). -/

/-- A slot's 128 bits as a number, decoded by Table 3-3. -/
def decodeSlotNat (w : Nat) : SlotWord :=
  { op := BitVec.ofNat 8 (bitsOf w 120 8)
    f := { gen := bitAt w 119, gneg := bitAt w 118, greg := BitVec.ofNat 6 (bitsOf w 112 6)
           mod := BitVec.ofNat 8 (bitsOf w 104 8), d := BitVec.ofNat 8 (bitsOf w 96 8)
           a := BitVec.ofNat 8 (bitsOf w 88 8), b := BitVec.ofNat 8 (bitsOf w 80 8)
           c := BitVec.ofNat 8 (bitsOf w 72 8), x := BitVec.ofNat 8 (bitsOf w 64 8)
           imm := BitVec.ofNat 64 (bitsOf w 0 64) } }

/-- The 128 bits of a slot (Table 3-3). -/
def encodeSlotNat (v : SlotWord) : Nat :=
  v.op.toNat * 2 ^ 120 + (if v.f.gen then 2 ^ 119 else 0) + (if v.f.gneg then 2 ^ 118 else 0) +
  v.f.greg.toNat * 2 ^ 112 + v.f.mod.toNat * 2 ^ 104 + v.f.d.toNat * 2 ^ 96 + v.f.a.toNat * 2 ^ 88 +
  v.f.b.toNat * 2 ^ 80 + v.f.c.toNat * 2 ^ 72 + v.f.x.toNat * 2 ^ 64 + v.f.imm.toNat

/-- The 16 little-endian bytes of a slot (R69). -/
def encodeSlot (v : SlotWord) : Bytes := leBytes 16 (encodeSlotNat v)

/-- The 128 bytes of a bundle (R69). -/
def encodeBundle (b : List SlotWord) : Bytes := b.flatMap encodeSlot

/-- Slot `k` of the bundle with index `pc` in the spar's instruction store (R69). -/
def Spar.slotAt (x : Spar) (pc k : Nat) : SlotWord := decodeSlotNat (memNat x.istore (128 * pc + 16 * k) 16)

/-- The bundle at the spar's program counter, slot 0 first. -/
def Spar.bundle (x : Spar) : List SlotWord := (List.range 8).map fun k => x.slotAt x.pc k

/-- The bundle whose slot `k` is `w` and whose other slots are no-operations (R71). -/
def soloBundle (k : Nat) (w : SlotWord) : List SlotWord := (List.range 8).map fun j => if j = k then w else {}

/-! Registers (R75): s0 reads zero and discards writes. -/

/-- s[i]. -/
def Spar.sget (x : Spar) (i : Nat) : W64 := if i = 0 then 0 else mapGet 0 x.sreg i
/-- s[i] written. -/
def Spar.sset (x : Spar) (i : Nat) (v : W64) : Spar := if i = 0 then x else { x with sreg := mapSet 0 x.sreg i v }
/-- a[i]. -/
def Spar.aget (x : Spar) (i : Nat) : W64 := mapGet 0 x.areg i
/-- a[i] written. -/
def Spar.aset (x : Spar) (i : Nat) (v : W64) : Spar := { x with areg := mapSet 0 x.areg i v }
/-- p[i]. -/
def Spar.pget (x : Spar) (i : Nat) : BitVec 256 := mapGet 0 x.preg i
/-- p[i] written. -/
def Spar.pset (x : Spar) (i : Nat) (v : BitVec 256) : Spar := { x with preg := mapSet 0 x.preg i v }
/-- m[i]. -/
def Spar.mget (x : Spar) (i : Nat) : BitVec 128 := mapGet 0 x.mreg i
/-- m[i] written. -/
def Spar.mset (x : Spar) (i : Nat) (v : BitVec 128) : Spar := { x with mreg := mapSet 0 x.mreg i v }
/-- v[i]. -/
def Spar.vget (x : Spar) (i : Nat) : BitVec 8192 := mapGet 0 x.vreg i
/-- v[i] written. -/
def Spar.vset (x : Spar) (i : Nat) (v : BitVec 8192) : Spar := { x with vreg := mapSet 0 x.vreg i v }
/-- l[i]. -/
def Spar.lget (x : Spar) (i : Nat) : W32 := mapGet 0 x.lreg i
/-- l[i] written. -/
def Spar.lset (x : Spar) (i : Nat) (v : W32) : Spar := { x with lreg := mapSet 0 x.lreg i v }
/-- t[i]. -/
def Spar.tget (x : Spar) (i : Nat) : BitVec 512 := mapGet 0 x.treg i
/-- t[i] written. -/
def Spar.tset (x : Spar) (i : Nat) (v : BitVec 512) : Spar := { x with treg := mapSet 0 x.treg i v }

/-- The 256 lanes of a vector register, lane 0 first (Table 3-4). -/
def lanesOf (v : BitVec 8192) : List W32 := (List.range 256).map fun i => v.extractLsb' (32 * i) 32

/-- A vector register from its lanes. -/
def ofLanes (ls : List W32) : BitVec 8192 :=
  BitVec.ofNat 8192 (ls.foldr (fun l acc => acc * 2 ^ 32 + l.toNat) 0)

/-- Lane `i` of a vector register. -/
def lane (v : BitVec 8192) (i : Nat) : W32 := v.extractLsb' (32 * i) 32

/-- A vector register as 1,024 bytes. -/
def vecBytes (v : BitVec 8192) : Bytes := leBytes 1024 v.toNat

/-- A vector register from bytes. -/
def vecOfBytes (b : Bytes) : BitVec 8192 := BitVec.ofNat 8192 (leNat b)

/-- Register files (Table 3-4). -/
inductive RFile where
  | s | a | p | m | v | l | t
deriving DecidableEq, Repr

/-- Registers of a file (Table 3-4). -/
def RFile.size : RFile → Nat
  | .s => 64 | .a => 32 | .p => 16 | .m => 8 | .v => 32 | .l => 4 | .t => 4

/-- A register. -/
abbrev Reg := RFile × Nat

end Sys2Proof.Machine

/-! Field forms. -/

namespace Sys2Proof

/-- MOD bit. -/
def Fields.modBit (f : Fields) (i : Nat) : Bool := f.mod.getLsbD i

/-- Format code MOD[7:4] (R77). -/
def Fields.fmt (f : Fields) : Nat := f.mod.toNat / 16

/-- MOD[3:0]. -/
def Fields.low (f : Fields) : Nat := f.mod.toNat % 16

/-- IMM bits [lo + n - 1 : lo]. -/
def Fields.immBits (f : Fields) (lo n : Nat) : Nat := Machine.bitsOf f.imm.toNat lo n

/-- IMM[31:0] sign-extended to 64 bits. -/
def Fields.immLow (f : Fields) : W64 := (f.imm.truncate 32).signExtend 64

/-- IMM[63:32] sign-extended to 64 bits. -/
def Fields.immHigh (f : Fields) : W64 := ((f.imm >>> 32).truncate 32).signExtend 64

end Sys2Proof

namespace Sys2Proof.Machine

open Sys2Proof

/-- The slot's guard holds (R72). -/
def guardOn (x : Spar) (f : Fields) : Bool := !f.gen || ((x.sget f.greg.toNat != 0) != f.gneg)

/-- Second operand of slot-0 OP 0x01 to 0x08 and of `ad.add` (R76, Table 3-5): s[B], or IMM when MOD[0] = 1. -/
def srcB (x : Spar) (f : Fields) : W64 := if f.modBit 0 then f.imm else x.sget f.b.toNat

/-- A slot-2 address: a[A] plus IMM[31:0] sign-extended. -/
def slot2Addr (x : Spar) (f : Fields) : Nat := (x.aget f.a.toNat + f.immLow).toNat

/-- Bytes of scratch memory: 2 MiB (R66). -/
def scratchBytes : Nat := 0x200000

/-- Registers a slot reads and writes, of the opcodes of Table 3-5 and Tables 4-6 and 6-1; none for an undefined opcode.
The guard register is not among them. -/
def slotRegs (k : Nat) (w : SlotWord) : Option (List Reg × List Reg) :=
  let f := w.f
  let d := f.d.toNat
  let a := f.a.toNat
  let b := f.b.toNat
  let c := f.c.toNat
  let x := f.x.toNat
  let i0 : Bool := f.modBit 0
  let m2 : Bool := f.modBit 2
  let bOrImm : List Reg := if i0 then [] else [(.s, b)]
  let tgt : List Reg := if m2 then [(.s, a)] else []
  let post : List Reg := if f.modBit 1 then [(.a, a)] else []
  let op := w.op.toNat
  match k with
  | 0 =>
    if 0x01 ≤ op ∧ op ≤ 0x08 then some ((.s, a) :: bOrImm, [(.s, d)])
    else if 0x09 ≤ op ∧ op ≤ 0x0F then some ([(.s, a), (.s, b)], [(.s, d)])
    else if op = 0x10 ∨ op = 0x30 ∨ op = 0x31 then some ([], [(.s, d)])
    else if op = 0x20 then some (tgt, [])
    else if op = 0x21 ∨ op = 0x22 then some (tgt ++ [(.s, c)], [])
    else if op = 0x23 then some (tgt, [(.s, d)])
    else if op = 0x3F then some ([], [])
    else none
  | 1 =>
    if op = 0x01 then some ((.a, a) :: bOrImm, [(.a, d)])
    else if op = 0x02 then some ([(.a, a), (.a, b)], [(.a, d)])
    else if op = 0x03 then some ([], [(.a, d)])
    else if op = 0x04 then some ([(.s, a)], [(.a, d)])
    else if op = 0x05 then some ([(.a, a)], [(.s, d)])
    else if op = 0x10 then some (tgt, [(.l, x)])
    else if op = 0x11 then some ([], [(.l, x)])
    else if op = 0x12 then some ([(.l, x)], [(.s, d)])
    else none
  | 2 =>
    if op = 0x01 then some ([(.a, a)], (.s, d) :: post)
    else if op = 0x02 then some ([(.a, a), (.s, b)], post)
    else if op = 0x03 then some ([(.a, a)], (.v, d) :: post)
    else if op = 0x04 then some ([(.a, a), (.v, b)], post)
    else if op = 0x05 then some ([(.v, b), (.t, c), (.s, x)], [])
    else if op = 0x06 then some ([(.a, a)], (.p, d) :: post)
    else if op = 0x07 then some ([(.a, a), (.p, b)], post)
    else if op = 0x08 then some ([(.a, a)], (.m, d) :: post)
    else if op = 0x09 then some ([(.a, a), (.m, b)], post)
    else if op = 0x0A then some ([(.a, a)], (.t, d) :: post)
    else none
  | 3 =>
    if op = 0x01 then some ([(.a, a), (.t, b)], [])
    else if op = 0x02 then some ([(.a, d), (.a, a), (.t, b), (.m, c), (.m, x)], [])
    else if op = 0x03 then
      some ((.a, d) :: (.m, x) :: (if f.imm.getLsbD 4 then [(.a, a), (.t, b)] else []), [])
    else if op = 0x04 then some ([(.a, a), (.t, b), (.a, c), (.m, x)], [])
    else if op = 0x05 then some (tgt, [(.a, d)])
    else if op = 0x06 then some ([], [])
    else none
  | 4 =>
    if op = 0x04 then some ([(.v, a), (.v, b), (.v, c)], [(.v, d)])
    else if op = 0x07 then some ([(.v, a), (.v, b)], [(.p, d)])
    else if op = 0x08 then some ([(.p, x), (.v, a), (.v, b)], [(.v, d)])
    else if op = 0x0C then some ([(.v, a)], [(.v, d)])
    else if 0x01 ≤ op ∧ op ≤ 0x0B then some ([(.v, a), (.v, b)], [(.v, d)])
    else none
  | 5 =>
    if op = 0x01 ∨ op = 0x03 then some ([(.v, a)], [(.v, d)])
    else if op = 0x02 then some ([(.v, a), (.s, b), (.s, c)], [(.v, d)])
    else if op = 0x04 then some ([(.v, a)], [(.s, d)])
    else if op = 0x05 then some ([(.v, a), (.v, b)], [(.v, d)])
    else if op = 0x06 then some ([(.s, a)], [(.v, d)])
    else if op = 0x07 then some ([(.a, b)], [(.v, d)])
    else if op = 0x08 then some ([(.p, a), (.p, b)], [(.p, d)])
    else none
  | 6 =>
    if op = 0x01 ∨ op = 0x03 ∨ op = 0x05 then some ([(.a, a), (.t, b), (.t, c), (.s, x)], [])
    else if op = 0x02 then some ([(.a, d), (.a, a), (.t, b), (.a, c), (.s, x)], [])
    else if op = 0x04 then some ([(.a, d), (.a, a), (.t, b), (.s, x)], [])
    else if op = 0x06 then some ([(.a, a), (.s, x)], [])
    else if op = 0x07 then some ((.s, a) :: (if f.mod.toNat % 4 = 1 then [(.s, b), (.s, c)] else []), [(.s, d)])
    else if op = 0x08 then some ([(.s, a), (.s, b)], [(.s, d)])
    else none
  | _ =>
    if op = 0x01 ∨ op = 0x02 then some ([(.a, a), (.a, b), (.s, c)], [])
    else if op = 0x03 ∨ op = 0x04 then some ([(.a, a), (.s, c)], [])
    else if op = 0x05 then some ([(.a, d), (.a, a), (.s, b), (.s, c)], [])
    else if op = 0x06 then some ([(.a, b)], [])
    else if op = 0x07 then some ([(.a, a)], [])
    else if op = 0x08 ∨ op = 0x10 ∨ op = 0x11 then some ([], [])
    else none

/-- A fault found when a bundle is checked at issue (R104): code, cause and VALUE. -/
structure IFault where
  /-- fault code of Table 3-9 -/
  code : Nat
  /-- cause code of Table 3-11 -/
  cause : Nat
  /-- VALUE -/
  value : Nat
deriving DecidableEq, Repr

/-- Rank of a fault within a slot (R104): lower is recorded first. -/
def IFault.rank (x : IFault) : Nat :=
  match x.code with
  | 0x0106 => 0 | 0x0104 => 1 | 0x0105 => 2 | 0x0101 => 3 | _ => 4

/-- `a` is recorded before `b` (R104). -/
def IFault.before (a b : IFault) : Bool := a.rank < b.rank || (a.rank = b.rank && a.cause < b.cause)

/-- The fault a slot records among those that apply (R104). -/
def worstFault : List IFault → Option IFault
  | [] => none
  | a :: r => match worstFault r with
    | none => some a
    | some b => if b.before a then some b else some a

/-- BUNDLE_INVALID with a cause and the failing index (Tables 3-10, 3-11). -/
def badBundle (cause value : Nat) : IFault := ⟨0x0106, cause, value⟩

/-- ADDR_FAULT with a cause. -/
def badAddr (cause value : Nat) : IFault := ⟨0x0104, cause, value⟩

/-- Payload of a spar fault record (Table 3-10). -/
def sparPayload (bundle slot cause block value : Nat) (phase : W32) : Bytes :=
  leBytes 2 bundle ++ leBytes 1 slot ++ leBytes 1 cause ++ leBytes 4 block ++ leBytes 8 value ++ leBytes 4 phase.toNat

/-- A spar raises a fault (R102, R106). After an error or fatal fault it issues no further bundle. -/
def State.sparFault (s : State) (i code bundle slot cause block value : Nat) (phase : W32) : State :=
  let s1 := s.raise code (sparUnit i) (s.sparPart i) (s.sparIsland i) (sparPayload bundle slot cause block value phase)
  if 2 ≤ faultSev code then
    s1.modSpar i fun x => { x with run := if x.run = .running ∨ x.run = .filling ∨ x.run = .halting then .stopped else x.run, waiting := false, barrier := none }
  else s1

/-- Scratch bytes of a spar read. -/
def Spar.scr (x : Spar) (a n : Nat) : Bytes := memRead x.scratch a n

/-- Scratch bytes of a spar written. -/
def Spar.scrPut (x : Spar) (a : Nat) (b : Bytes) : Spar := { x with scratch := memWrite x.scratch a b }

/-- Accumulator entry (R136). -/
def Spar.accGet (x : Spar) (e : Nat) : W32 := mapGet 0 x.acc e

/-- Accumulator entry written. -/
def Spar.accSet (x : Spar) (e : Nat) (v : W32) : Spar := { x with acc := mapSet 0 x.acc e v }

end Sys2Proof.Machine
end

