-- ==== Sys2Proof/Machine/DomeOps.lean ====
section
/-! DEFINITION. Reads and writes of dome memory: lines, poison (10 R309, R310), the host line tracker (10 R316, 12 R366),
requester numbers and cut-offs of a dome port (10 R320, Table 10-6). -/

namespace Sys2Proof.Machine

open Sys2Proof

/-- Requester number of logical spar `i` at the port of dome `d` (Table 10-6). -/
def sparRequester (i d : Nat) : Nat := if sparTower i = d / 2 then 0 else 8 + sparTower i

/-- Requester `r` is cut off at edge `e` (R320, Table 10-8 :04). -/
def State.cutOff (s : State) (e r : Nat) : Bool := (s.odGet 0 (0x3200 + e) 4).testBit r

/-- Logical spar `i` is cut off at the port of the dome of device address `a`. -/
def State.sparCutOff (s : State) (i a : Nat) : Bool := s.cutOff (domeOf a) (sparRequester i (domeOf a))

/-- Line numbers of the bytes [a, a + n). -/
def linesOf (a n : Nat) : List Nat :=
  if n = 0 then [] else (List.range (lineOf (a + n - 1) - lineOf a + 1)).map fun k => lineOf a + k

/-- Lines of a list that are poisoned. -/
def State.poisonedOf (s : State) (ls : List Nat) : List Nat := ls.filter fun l => mapGet false s.poison l

/-- Unit number of a spire engine, requester 3 of Table 10-6: 0 the Halyard coordinator, 1 the collective engine, 2 the Boom
coordinator, 3 Lookout. -/
def engineUnit (k : Nat) : Nat := 4096 + 16 * k + 3

/-- Unit number of the walker of dome `d`, requester 1. -/
def walkerUnit (d : Nat) : Nat := 4096 + 16 * d + 1

/-- Unit number of tower `t`'s pruning unit, requester 2. -/
def pruneUnit (t : Nat) : Nat := 4096 + 16 * t + 2

/-- Unit number of the management cores, requester 6. -/
def manageUnit : Nat := 4096 + 6

/-- Requester number at the port of dome `d` of a unit: a logical spar, or 4096 + 16k + requester (Table 10-6). -/
def unitRequester (u d : Nat) : Nat := if u < 1024 then sparRequester u d else u % 16

/-- Lines of [a, a + n) that the host may hold (R366). -/
def State.hostLines (s : State) (a n : Nat) : List Nat :=
  s.cxl.tracker.filter fun l => 0 < n && lineOf a ≤ l && l ≤ lineOf (a + n - 1)

/-- The CXL.mem and CXL.cache stream is up and secure as far as it must be (R356, R379). -/
def State.memLink (s : State) : Bool := s.cxl.link = 3 && !s.cxl.ideMemBad

/-- CXL.mem and CXL.cache traffic passes (R356, R379). -/
def State.memOk (s : State) : Bool := s.memLink && s.boot != .stopped && !s.unitOut (spireUnit 0)

/-- BISnpInv put on the link (R366, Table 12-11 :06). -/
def State.emitBi (s : State) (line : Nat) : State := (s.odAdd 0 0x1800 6 1).emit 2 (line * 64) [] 0

/-- BISnpInv for a line, once (R366); it waits for the link and its stream (R379). -/
def State.sendBi (s : State) (line : Nat) : State :=
  let c := s.cxl
  if c.biPending.contains line then s
  else if s.memLink then ({ s with cxl := { c with biPending := c.biPending ++ [line] } } : State).emitBi line
  else { s with cxl := { c with biPending := c.biPending ++ [line], biUnsent := c.biUnsent ++ [line] } }

/-- The link carries CXL.mem again: the BISnpInv that waited are sent. -/
def State.flushBi (s : State) : State :=
  if s.memLink then s.cxl.biUnsent.foldl State.emitBi { s with cxl := { s.cxl with biUnsent := [] } } else s

/-- A unit's access to lines the host may hold leaves the arbiter and waits for their back-invalidation (R316). -/
def State.backInvalidate (s : State) (unit : Nat) (ls : List Nat) : State :=
  ls.foldl (fun t l =>
    let w : BiWait := { line := l, unit := unit, dome := domeOf (l * 64) }
    let mine := fun (b : BiWait) => b.line = l && b.unit = unit
    ({ t with biWaits := if t.biWaits.any mine then t.biWaits.map fun b => if mine b then w else b
        else t.biWaits ++ [w] } : State).sendBi l) s

/-! Slots of a unit's access at the dome ports (R300, R317). -/

/-- Slots of 512 bytes that the bytes [a, a + n) take: they are divided at 512-byte boundaries (R300). -/
def portSlots (a n : Nat) : Nat := if n = 0 then 0 else (a + n - 1) / 512 - a / 512 + 1

/-- Ranges with adjoining ones made one and empty ones left out: each is one transfer of its requester. -/
def joinRanges : List (Nat × Nat) → List (Nat × Nat)
  | [] => []
  | r :: rs =>
    if r.2 = 0 then joinRanges rs
    else match joinRanges rs with
      | [] => [r]
      | t :: ts => if r.1 + r.2 = t.1 then (r.1, r.2 + t.2) :: ts else r :: t :: ts

/-- Slots an access to ranges of dome needs: dome and number, in order (R300). -/
def portNeed (rs : List (Nat × Nat)) : List (Nat × Nat) := (joinRanges rs).map fun r => (domeOf r.1, portSlots r.1 r.2)

/-- A line lies in one of the ranges. -/
def inRanges (rs : List (Nat × Nat)) (l : Nat) : Bool :=
  rs.any fun r => 0 < r.2 && decide (lineOf r.1 ≤ l) && decide (l ≤ lineOf (r.1 + r.2 - 1))

/-- A unit's access to the ranges as it is asked for. -/
def State.askFor (s : State) (unit : Nat) (rs : List (Nat × Nat)) : Option PortAsk :=
  s.asks.find? fun a => a.unit = unit && a.rs = rs

/-- Every slot of the unit's access has been granted (R317). -/
def State.granted (s : State) (unit : Nat) (rs : List (Nat × Nat)) : Bool :=
  (portNeed rs).isEmpty || (s.askFor unit rs).any fun a => a.left.isEmpty

/-- The unit's access is asked for from now on. -/
def State.fileAsk (s : State) (unit q : Nat) (rs : List (Nat × Nat)) : State :=
  if (s.askFor unit rs).isSome then s
  else { s with asks := s.asks ++ [{ unit := unit, q := q, rs := rs, left := portNeed rs }] }

/-- The unit's access has been made: its ask and its waits for back-invalidation are over. One that needs no slot had none. -/
def State.takeAsk (s : State) (unit : Nat) (rs : List (Nat × Nat)) : State :=
  if (portNeed rs).isEmpty then s
  else { s with asks := match s.askFor unit rs with
                  | some a => s.asks.erase a
                  | none => s.asks
                biWaits := s.biWaits.filter fun w => !(w.unit = unit && inRanges rs w.line) }

/-- A unit's accesses for partition `q` will not be made: its asks and what it waited for are over. -/
def State.dropAsks (s : State) (unit q : Nat) : State :=
  let mine := s.asks.filter fun a => a.unit = unit && a.q = q
  { s with asks := s.asks.filter fun a => !(a.unit = unit && a.q = q)
           biWaits := s.biWaits.filter fun w => !(w.unit = unit && mine.any fun a => inRanges a.rs w.line) }

/-- The unit is cut off at the port of a dome the ranges lie in (R320). -/
def State.unitCut (s : State) (unit : Nat) (rs : List (Nat × Nat)) : Bool :=
  rs.any fun r => 0 < r.2 && s.cutOff (domeOf r.1) (unitRequester unit (domeOf r.1))

/-- The access to the ranges can be made, or turned away, now: its domes grant, and either its unit is cut off or its slots
are all granted and no line of it is tracked. -/
def State.portReady (s : State) (unit : Nat) (rs : List (Nat × Nat)) : Bool :=
  (portNeed rs).isEmpty || (!(rs.any fun r => 0 < r.2 && s.domeHeld (domeOf r.1)) &&
    (s.unitCut unit rs || ((rs.flatMap fun r => s.hostLines r.1 r.2).isEmpty && s.granted unit rs)))

/-- A unit's access to ranges of dome that moves as one event `k`. It waits for a dome that grants nothing (Tables 14-4,
14-5). A cut-off unit's completes without effect, as `no` says (R320). It is served once no line of the ranges is tracked
(R316, R366) and every slot of it has been granted at its ports (R300, R317); until then it is asked for. -/
def State.portGate (s : State) (unit q : Nat) (rs : List (Nat × Nat)) (no k : State → State) : State :=
  if (portNeed rs).isEmpty then k s
  else if rs.any fun r => 0 < r.2 && s.domeHeld (domeOf r.1) then s
  else if s.unitCut unit rs then no (s.takeAsk unit rs)
  else
    let ls := uniq (rs.flatMap fun r => s.hostLines r.1 r.2)
    if ls ≠ [] then (s.fileAsk unit q rs).backInvalidate unit ls
    else if s.granted unit rs then k (s.takeAsk unit rs)
    else s.fileAsk unit q rs

/-- Accesses of several units that one event needs, each a unit and its ranges: as `portGate`, for all of them at once. -/
def State.portGates (s : State) (l : List (Nat × List (Nat × Nat))) (q : Nat) (no k : State → State) : State :=
  let l := l.filter fun a => !(portNeed a.2).isEmpty
  let held := fun (a : Nat × List (Nat × Nat)) => uniq (a.2.flatMap fun r => s.hostLines r.1 r.2)
  if l.any fun a => a.2.any fun r => 0 < r.2 && s.domeHeld (domeOf r.1) then s
  else if l.any fun a => s.unitCut a.1 a.2 then no (l.foldl (fun t a => t.takeAsk a.1 a.2) s)
  else if l.all fun a => held a = [] && s.granted a.1 a.2 then k (l.foldl (fun t a => t.takeAsk a.1 a.2) s)
  else l.foldl (fun t a => (t.fileAsk a.1 q a.2).backInvalidate a.1 (held a)) s

/-- Each read that meets a poisoned line counts in its dome's record (R309, Table 10-8 :02). -/
def State.countUe (s : State) (ls : List Nat) : State :=
  ls.foldl (fun t l => t.odAdd 0 (0x3020 + domeOf (l * 64)) 2 1) s

/-- The bytes `bs` written to line `l` from offset `o` of it: a whole line replaces it and clears its poison; a part of a
poisoned line is not applied, and the read that met the poison counts (R309, R310). Answers the line where it was not
applied. -/
def State.putLine (s : State) (l o : Nat) (bs : Bytes) : State × Option Nat :=
  if bs.length = 64 then ((s.domePut (l * 64) bs).setPoison l false, none)
  else if mapGet false s.poison l then (s.countUe [l], some l)
  else (s.domePut (l * 64 + o) bs, none)

/-- The bytes written line by line, `k` lines at most; the poisoned lines not written, ascending. -/
def State.putLines : Nat → State → Nat → Bytes → State × List Nat
  | 0, s, _, _ => (s, [])
  | k + 1, s, a, bs =>
    if bs = [] then (s, [])
    else
      let n := 64 - a % 64
      let r := s.putLine (lineOf a) (a % 64) (bs.take n)
      let t := State.putLines k r.1 (a + n) (bs.drop n)
      (t.1, (match r.2 with | some l => [l] | none => []) ++ t.2)

/-- Bytes written to dome from address `a` (R310): the state, and the lines not written because they are poisoned. -/
def State.domeWrite (s : State) (a : Nat) (bs : Bytes) : State × List Nat := s.putLines (bs.length / 64 + 2) a bs

/-- A read of [a, a + n) by a consumer that drops poisoned data: the lines it met poisoned, counted. -/
def State.domeMeet (s : State) (a n : Nat) : List Nat × State :=
  let ls := s.poisonedOf (linesOf a n)
  (ls, s.countUe ls)

/-- DOME_UE of a spar's operation (R309): VALUE is the lowest poisoned address met. -/
def State.sparUe (s : State) (i bundle slot block : Nat) (phase : W32) (ls : List Nat) : State :=
  match ls with
  | [] => s
  | l :: r => s.sparFault i 0x0301 bundle slot 0 block (64 * r.foldl min l) phase

/-- Bytes at listed device addresses stored, line by line (R310): the state, and the lines not written because they are
poisoned and not replaced whole, each counted. -/
def State.domePutCells (s : State) (cells : List (Nat × Byte)) : State × List Nat :=
  (uniq (cells.map fun c => lineOf c.1)).foldl (fun r l =>
    let cs := cells.filter fun c => lineOf c.1 = l
    if mapGet false r.1.poison l ∧ (uniq (cs.map (·.1))).length < 64 then (r.1.countUe [l], r.2 ++ [l])
    else (({ r.1 with dome := cs.foldl (fun (m : List Host.Cell) (c : Nat × Byte) => memSetByte m c.1 c.2) r.1.dome }
      : State).setPoison l false, r.2)) (s, [])

end Sys2Proof.Machine
end

