-- ==== Sys2Proof/Machine/Notices.lean ====
section
/-! DEFINITION. Notices (13.8, 12.7): the 64-byte record, its destinations, their queues and sequence numbers, merging and
loss, and MSI-X. -/

namespace Sys2Proof.Machine

open Sys2Proof

/-- The 64 bytes of a notice record (Table 13-14). -/
def Notice.bytes (n : Notice) : Bytes :=
  leBytes 2 n.ty ++ leBytes 1 n.sev ++
  leBytes 1 ((if n.loss then 0x80 else 0) + (if n.devwide then 0x40 else n.part % 4)) ++
  leBytes 4 n.seq ++ leBytes 2 n.code ++ leBytes 2 n.merged ++ leBytes 4 n.source ++ leBytes 8 n.cycles ++
  padTo 40 n.payload

/-- An MCTP message with `b` behind its body byte 0: 0x01 request, 0x02 answer, 0x03 notice. Message type 0x7E and Otastid's PCI
vendor ID, 0x2B1E, most significant byte first as MCTP has it (Table 13-9, log 79). -/
def mctpFrame (body : Byte) (b : Bytes) : Bytes := [0x7E, 0x2B, 0x1E, body] ++ b

/-- Byte at offset `o` of the MSI-X table; the vector control of an unlisted entry has its mask bit set, as PCIe
requires (R377). -/
def State.msixByte (s : State) (o : Nat) : Byte := mapGet (if o % 16 = 12 then 1 else 0) s.cxl.msixTable o

/-- Vector `v` is masked, by its own mask bit (R377). -/
def State.msixMasked (s : State) (v : Nat) : Bool := (s.msixByte (16 * v + 12)).getLsbD 0

/-- A message of vector `v` must wait: MSI-X is not enabled, or the function or the vector is masked (R377). -/
def State.msixHeld (s : State) (v : Nat) : Bool := !s.cxl.msixOn || s.cxl.msixMask || s.msixMasked v

/-- The MSI-X message of vector `v`. -/
def State.msixMsg (s : State) (v : Nat) : OutMsg := { kind := 1, addr := v, data := (List.range 12).map fun k => s.msixByte (16 * v + k) }

/-- Vector `v` left pending (R377). -/
def State.msixPend (s : State) (v : Nat) : State :=
  { s with cxl := { s.cxl with msixPba := s.cxl.msixPba ||| BitVec.ofNat 64 (2 ^ v) } }

/-- A message for the host waits for the CXL egress arbiter as requester `r` of Table 10-6 (R377). -/
def State.toHost (s : State) (r : Nat) (m : OutMsg) : State :=
  { s with cxl := { s.cxl with hostOut := mapSet [] s.cxl.hostOut r (mapGet [] s.cxl.hostOut r ++ [m]) } }

/-- Vector `v` is signalled: its message goes to the egress arbiter, or is left pending (R377). -/
def State.msix (s : State) (v : Nat) : State := if s.msixHeld v then s.msixPend v else s.toHost 2 (s.msixMsg v)

/-- Vector `v` is signalled with the record whose grant this is (R375). -/
def State.msixNow (s : State) (v : Nat) : State :=
  if s.msixHeld v then s.msixPend v else { s with out := s.out ++ [s.msixMsg v] }

/-- Entries of the notice ring: 2^LOG2 (Table 12-7). -/
def State.ringEntries (s : State) : Nat := 2 ^ s.cxl.ringLog2

/-- Records the ring holds that the host has not consumed (R376). -/
def State.ringUsed (s : State) : Nat := (s.cxl.ringProd.toNat + 2 ^ 32 - s.cxl.ringCons.toNat) % 2 ^ 32

/-- A notice destination (R408). -/
def State.dest (s : State) (k : Nat) : Dest := mapGet {} s.dests k

/-- A notice destination replaced. -/
def State.setDest (s : State) (k : Nat) (d : Dest) : State := { s with dests := mapSet {} s.dests k d }

/-- Key of Shroud subscriber `i` of partition `q`. -/
def subscriberKey (q i : Nat) : Nat := 16 + 8 * q + i

/-- The queue of destination `k` is full (R410, R376). -/
def State.destFull (s : State) (k : Nat) : Bool :=
  let n := (s.dest k).queue.length
  if k = 0 then s.ringEntries ≤ s.ringUsed + n || !s.cxl.ringEnable
  else if k = 1 then 32 ≤ n else 64 ≤ n

/-- The lost counter of destination `k` grows by one (R410). -/
def State.countLost (s : State) (k : Nat) : State :=
  if k = 0 then s.odAdd 0 0x1800 0xA 1
  else if k = 1 then s.odAdd 0 0x1020 4 1
  else s.odAdd 0 (0x1010 + (k - 16) / 8) 8 1

/-- A record equal in TYPE, CODE and SOURCE, of TYPE FAULT or REMINDER (R411). -/
def sameEvent (a b : Notice) : Bool := (a.ty = 1 || a.ty = 6) && a.ty = b.ty && a.code = b.code && a.source = b.source

/-- The first queued record of the same event takes the merge (R411). -/
def mergeInto (n : Notice) : List Notice → Option (List Notice)
  | [] => none
  | m :: r =>
    if sameEvent n m then some ({ m with merged := min 65535 (m.merged + 1) } :: r)
    else (mergeInto n r).map (m :: ·)

/-- A notice generated for destination `k` (R409-R411): merged, queued under the next SEQ, or lost. -/
def State.deliverTo (s : State) (n : Notice) (k : Nat) : State :=
  let d := s.dest k
  match mergeInto n d.queue with
  | some q => s.setDest k { d with queue := q }
  | none =>
    let seq' := (d.seq + 1) % 2 ^ 32
    if s.destFull k then
      let s1 := (s.setDest k { d with seq := seq', lossDue := true }).countLost k
      if k = 0 && s.cxl.ringEnable && !s.cxl.ringLossRun then
        ({ s1 with cxl := { s1.cxl with ringLossRun := true } }).msix 5
      else s1
    else
      let s1 := s.setDest k { seq := seq', lossDue := false, queue := d.queue ++ [{ n with seq := d.seq, loss := d.lossDue }] }
      if k = 0 then { s1 with cxl := { s1.cxl with ringLossRun := false } } else s1

/-- Valid subscribers of partition `q` whose FLOOR lets severity `sev` through (Table 13-12 :07). -/
def State.subscribers (s : State) (q sev : Nat) : List Nat :=
  let b := s.blobGet 0 (0x1010 + q) 7
  ((List.range 8).filter fun i => bitAt (fieldAt b (4 * i + 3) 1) 0 && fieldAt b (4 * i + 2) 1 ≤ sev).map (subscriberKey q)

/-- The MCTP endpoint notices go to; 0 while none is known (Table 13-12). -/
def State.mctpDest (s : State) : Nat := if s.odGet 0 0x1020 3 ≠ 0 then s.odGet 0 0x1020 3 else s.mctpEid

/-- Destinations of a notice (Table 13-17, R339). -/
def State.destsOf (s : State) (n : Notice) : List Nat :=
  let cxl := if n.devwide || n.part = 0 || n.port then [0] else []
  let mctp := if s.mctpDest ≠ 0 && (n.devwide || ((n.ty = 1 || n.ty = 6) && s.odGet 0 0x1020 2 ≤ n.sev)) then [1] else []
  let q0 := if n.devwide || n.port || n.part = 0 then s.subscribers 0 n.sev else []
  let own := if !n.devwide && n.part ≠ 0 && n.part < 4 then s.subscribers n.part n.sev else []
  cxl ++ mctp ++ q0 ++ own

/-- A notice generated: one record for each of its destinations (R408). -/
def State.deliver (s : State) (n : Notice) : State := (s.destsOf n).foldl (fun t k => t.deliverTo n k) s

/-- A notice that is no fault, from the management cores. -/
def State.notify (s : State) (ty sev part source : Nat) (payload : Bytes) : State :=
  s.deliver { ty := ty, sev := sev, devwide := decide (part ≥ 4), part := if part ≥ 4 then 0 else part, source := source,
              cycles := s.cycles (islSpire 0), payload := padTo 40 payload }

/-- Completion notice of a CMD write (TYPE 0x0002): object, instance, status, TOKEN, value written, and what the object
states from byte 16 on (Table 13-16). -/
def State.completion (s : State) (part source i sub qsel status token value : Nat) (more : Bytes) : State :=
  s.notify 2 0 part source
    (leBytes 2 i ++ leBytes 1 sub ++ leBytes 1 qsel ++ leBytes 1 status ++ [0] ++ leBytes 2 token ++ leBytes 8 value ++ more)

/-- QSEL as resolved for instance `q` (Table 13-6). -/
def qselOf (q : Nat) : Nat := 0x80 + q

/-- JOB notice of partition `q` (TYPE 0x0003). -/
def State.jobNotice (s : State) (q : Nat) : State :=
  s.notify 3 0 q (unitId 6 q) (leBytes 4 (s.part q).jobNo.toNat ++ leBytes 1 (s.jobState q))

end Sys2Proof.Machine
end

