-- ==== Sys2Proof/Machine/Cmd.lean ====
section
/-! DEFINITION. What the commands of the dictionary share (13 R391, R394): the status they are answered with, whether the
dictionary is served, completion notices, and the clearing of counter records. -/

namespace Sys2Proof.Machine

open Sys2Proof

/-- What a command write is answered with (Table 13-8), and the state after it. -/
abbrev CmdRes := Nat × State

/-- Status codes of Table 13-8. -/
def stDone : Nat := 0
/-- Deferred. -/
def stDeferred : Nat := 1
/-- Busy. -/
def stBusy : Nat := 2
/-- No object. -/
def stNoObject : Nat := 3
/-- Denied. -/
def stDenied : Nat := 4
/-- Malformed. -/
def stMalformed : Nat := 5
/-- Mismatch. -/
def stMismatch : Nat := 6
/-- Refused. -/
def stRefused : Nat := 7
/-- Segment. -/
def stSegment : Nat := 8
/-- Signature. -/
def stSignature : Nat := 9

/-- The dictionary is served: DICTRDY (Table 12-4, R478); not by a contained or stopped device (R427, R470), nor while its
unit is tested or fenced (Tables 14-4, 14-5). -/
def State.served (s : State) : Bool :=
  bitAt (s.odGet 0 0x0011 0) 1 && s.boot != .contained && s.boot != .stopped && !s.unitOut (spireUnit 2)

/-- The device runs: its islands are not stopped and boot is over. -/
def State.live (s : State) : Bool := s.boot = .ready

/-- A readiness bit set or cleared; each change sends a READY notice (Table 12-4, Table 13-16). -/
def State.setReady (s : State) (k : Nat) (v : Bool) : State :=
  let w := s.odGet 0 0x0011 0
  if bitAt w k = v then s
  else (s.odSet 0 0x0011 0 (setBit w k v)).notify 5 0 4 (unitId 0 0) (leBytes 4 (setBit w k v))

/-- Completion notice of a command of partition `q` (R394, Table 13-16), from the dictionary, spire unit 2. -/
def State.complete (s : State) (q i sub status token value : Nat) (more : Bytes) : State :=
  s.completion q (spireUnit 2) i sub (qselOf q) status token value more

/-- Completion notice of a device-wide command. -/
def State.completeDev (s : State) (i sub status token value : Nat) (more : Bytes) : State :=
  s.completion 4 (spireUnit 2) i sub 0x80 status token value more

/-- Completion notice of a command about a unit of partition `part` (4 for none) that is no per-partition object: QSEL is
0x80 (Table 13-6). -/
def State.completeUnit (s : State) (part i sub status token value : Nat) (more : Bytes) : State :=
  s.completion part (spireUnit 2) i sub 0x80 status token value more

/-- The scalar objects :`lo` to :`lo` + n - 1 of an index set to zero at one moment (R63). -/
def State.clearSubs (s : State) (q i lo n : Nat) : State :=
  (List.range n).foldl (fun t k => t.odSet q i (lo + k) 0) s

/-- A CMD action of object `obj` and partition `q` still runs (R394). -/
def State.stillRuns (s : State) (obj q : Nat) : Bool := s.running.any fun r => r.obj = obj && r.q = q

/-- A CMD action noted as running. -/
def State.startRunning (s : State) (r : Running) : State := { s with running := s.running ++ [r] }

/-- The running action of object `obj` and partition `q`, if there is one. -/
def State.runningOf (s : State) (obj q : Nat) : Option Running := s.running.find? fun r => r.obj = obj && r.q = q

/-- The action of object `obj` and partition `q` no longer runs. -/
def State.endRunning (s : State) (obj q : Nat) : State :=
  { s with running := s.running.filter fun r => !(r.obj = obj && r.q = q) }

/-- A command of a partition's object, when the partition is present and the dictionary is served. -/
def runCmd (q : Nat) (s : State) (r : CmdRes) : Res := .next (if s.served && s.present q then r.2 else s)

/-- A command of a device-wide object, when the dictionary is served. -/
def runDevCmd (s : State) (r : CmdRes) : Res := .next (if s.served then r.2 else s)

end Sys2Proof.Machine
end

