-- ==== Sys2Proof/Machine/Flags.lean ====
section
/-! DEFINITION. Comparison conditions (03 R76, R77, R500): the codes 0 eq, 1 ne, 2 lt, 3 le, 4 ltu, 5 leu, on scalars, on
I32 lanes and on floating-point values. The device keeps no flags register: a comparison writes 1 or 0, or a predicate
bit. -/

namespace Sys2Proof.Machine

open Sys2Proof

/-- A condition on two integer words (R76): lt and le signed, ltu and leu unsigned. -/
def intCond {w : Nat} (c : Nat) (a b : BitVec w) : Bool :=
  match c with
  | 0 => a == b
  | 1 => a != b
  | 2 => a.slt b
  | 3 => a.sle b
  | 4 => a.ult b
  | _ => a.ule b

/-- A condition on two floating-point values (R500): -0 equals +0; eq, lt, le fail on NaN; ne, ltu, leu hold on NaN. -/
def floatCond (c : Nat) (a b : FVal) : Bool :=
  let un := a = .nan || b = .nan
  match c with
  | 0 => a.eqv b
  | 1 => !a.eqv b
  | 2 => a.lt b
  | 3 => a.lt b || a.eqv b
  | 4 => un || a.lt b
  | _ => un || a.lt b || a.eqv b

end Sys2Proof.Machine
end

