-- ==== Sys2Proof/Machine/Scalar.lean ====
section
/-! DEFINITION. Slots 0, 1 and 2: scalar and address arithmetic, branches, hardware loops, self-description, and the loads
and stores of scratch (03 R76-R83, R107). `x` is the spar before the bundle, whose registers a slot reads (R73). -/

namespace Sys2Proof.Machine

open Sys2Proof

/-- A slot's effect on the state: `x` the spar before the bundle, `i` its number. -/
abbrev SlotEff := Spar → Nat → Fields → State → State

/-- A slot that writes one scalar register. -/
def writeS (i : Nat) (f : Fields) (v : W64) (s : State) : State := s.modSpar i fun y => y.sset f.d.toNat v

/-- A slot that writes one address register. -/
def writeA (i : Nat) (f : Fields) (v : W64) (s : State) : State := s.modSpar i fun y => y.aset f.d.toNat v

/-! Slot 0 (R76, R78). -/

/-- `sc.add`. -/
def effScAdd : SlotEff := fun x i f s => writeS i f (x.sget f.a.toNat + srcB x f) s
/-- `sc.sub`. -/
def effScSub : SlotEff := fun x i f s => writeS i f (x.sget f.a.toNat - srcB x f) s
/-- `sc.and`. -/
def effScAnd : SlotEff := fun x i f s => writeS i f (x.sget f.a.toNat &&& srcB x f) s
/-- `sc.or`. -/
def effScOr : SlotEff := fun x i f s => writeS i f (x.sget f.a.toNat ||| srcB x f) s
/-- `sc.xor`. -/
def effScXor : SlotEff := fun x i f s => writeS i f (x.sget f.a.toNat ^^^ srcB x f) s
/-- `sc.shl`: by bits [5:0] of the second operand. -/
def effScShl : SlotEff := fun x i f s => writeS i f (x.sget f.a.toNat <<< ((srcB x f).toNat % 64)) s
/-- `sc.shr`. -/
def effScShr : SlotEff := fun x i f s => writeS i f (x.sget f.a.toNat >>> ((srcB x f).toNat % 64)) s
/-- `sc.sar`. -/
def effScSar : SlotEff := fun x i f s => writeS i f ((x.sget f.a.toNat).sshiftRight ((srcB x f).toNat % 64)) s

/-- a < b, unsigned when MOD[1] = 1. -/
def lessBy (f : Fields) (a b : W64) : Bool := if f.modBit 1 then a.ult b else a.slt b

/-- `sc.min`. -/
def effScMin : SlotEff := fun x i f s =>
  writeS i f (if lessBy f (x.sget f.b.toNat) (x.sget f.a.toNat) then x.sget f.b.toNat else x.sget f.a.toNat) s
/-- `sc.max`. -/
def effScMax : SlotEff := fun x i f s =>
  writeS i f (if lessBy f (x.sget f.a.toNat) (x.sget f.b.toNat) then x.sget f.b.toNat else x.sget f.a.toNat) s
/-- `sc.cmp.<c>`: the condition is MOD[7:4]. -/
def effScCmp : SlotEff := fun x i f s =>
  writeS i f (if intCond f.fmt (x.sget f.a.toNat) (x.sget f.b.toNat) then 1 else 0) s
/-- `sc.mul`: the low 64 bits of the product. -/
def effScMul : SlotEff := fun x i f s => writeS i f (x.sget f.a.toNat * x.sget f.b.toNat) s

/-- High 64 bits of the 128-bit product, unsigned when MOD[1] = 1. -/
def mulHigh (f : Fields) (a b : W64) : W64 :=
  if f.modBit 1 then BitVec.ofNat 64 (a.toNat * b.toNat / 2 ^ 64) else BitVec.ofInt 64 (a.toInt * b.toInt / 2 ^ 64)

/-- `sc.mulh`. -/
def effScMulh : SlotEff := fun x i f s => writeS i f (mulHigh f (x.sget f.a.toNat) (x.sget f.b.toNat)) s

/-- Quotient of R78: every bit set for a zero divisor, toward zero when signed. -/
def divide (f : Fields) (a b : W64) : W64 :=
  if b = 0 then BitVec.allOnes 64 else if f.modBit 1 then a.udiv b else a.sdiv b

/-- Remainder of R78: the dividend for a zero divisor, the sign of the dividend when signed. -/
def remain (f : Fields) (a b : W64) : W64 :=
  if b = 0 then a else if f.modBit 1 then a.umod b else a.srem b

/-- `sc.div`. -/
def effScDiv : SlotEff := fun x i f s => writeS i f (divide f (x.sget f.a.toNat) (x.sget f.b.toNat)) s
/-- `sc.rem`. -/
def effScRem : SlotEff := fun x i f s => writeS i f (remain f (x.sget f.a.toNat) (x.sget f.b.toNat)) s
/-- `sc.li`. -/
def effScLi : SlotEff := fun _ i f s => writeS i f f.imm s

/-- `br`: the sequencer takes the branch (`nextPc`). -/
def effBr : SlotEff := fun _ _ _ s => s
/-- `br.nz`. -/
def effBrNz : SlotEff := fun _ _ _ s => s
/-- `br.z`. -/
def effBrZ : SlotEff := fun _ _ _ s => s
/-- `br.link`: the index of the next bundle goes to s[D]. -/
def effBrLink : SlotEff := fun x i f s => writeS i f (BitVec.ofNat 64 (x.pc + 1)) s

/-- Mask of the absent logical spars of tower `t`, 64 from `lo` (Table 3-12). -/
def State.absentMask (s : State) (t lo : Nat) : Nat :=
  (List.range 64).foldl (fun acc k => if s.absent (128 * t + lo + k) then acc + 2 ^ k else acc) 0

/-- Self-description item (R107, Table 3-12); none for an undefined item. -/
def State.cfgItem (s : State) (i item : Nat) : Option Nat :=
  let q := s.sparPart i
  if item ≤ 0x12 then some (aelayCounts.getD item 0)
  else if item = 0x100 then some (i % 128)
  else if item = 0x101 then some (sparTower i)
  else if item = 0x102 then some q
  else if item = 0x103 then some (s.towerMask q)
  else if item = 0x104 then some (s.odGet 0 0x4001 0)
  else if item = 0x105 then some (s.part q).jobNo.toNat
  else if 0x110 ≤ item ∧ item ≤ 0x11F then
    let t := (item - 0x110) / 2
    some (if s.towerPart t = q then s.absentMask t (64 * ((item - 0x110) % 2)) else 0)
  else none

/-- `sc.cfg`. -/
def effScCfg : SlotEff := fun _ i f s => writeS i f (BitVec.ofNat 64 ((s.cfgItem i (f.immBits 0 16)).getD 0)) s
/-- `sc.cyc`: the cycle count of the spar's island. -/
def effScCyc : SlotEff := fun _ i f s => writeS i f (BitVec.ofNat 64 (s.cycles (s.sparIsland i))) s
/-- `sc.halt`: the spar stops once its operations are complete (R88). -/
def effScHalt : SlotEff := fun _ i _ s => s.modSpar i fun y => { y with run := .halting }

/-! Slot 1 (R76, R82). -/

/-- `ad.add`. -/
def effAdAdd : SlotEff := fun x i f s => writeA i f (x.aget f.a.toNat + srcB x f) s

/-- Result of `ad.incm`: the sum, less IMM[63:32] when the sum reaches a[B] unsigned. -/
def incm (a bound : W64) (f : Fields) : W64 :=
  let sum := a + f.immLow
  if bound.ule sum then sum - BitVec.ofNat 64 (f.immBits 32 32) else sum

/-- `ad.incm`. -/
def effAdIncm : SlotEff := fun x i f s => writeA i f (incm (x.aget f.a.toNat) (x.aget f.b.toNat) f) s
/-- `ad.li`. -/
def effAdLi : SlotEff := fun _ i f s => writeA i f f.imm s
/-- `ad.froms`. -/
def effAdFroms : SlotEff := fun x i f s => writeA i f (x.sget f.a.toNat) s
/-- `ad.tos`. -/
def effAdTos : SlotEff := fun x i f s => writeS i f (x.aget f.a.toNat) s

/-- Count of `lp.begin` (R82). -/
def loopCount (x : Spar) (f : Fields) : Nat :=
  if f.modBit 2 then (x.sget f.a.toNat).toNat % 2 ^ 32 else f.immBits 0 32

/-- End bundle of the body of `lp.begin` (R82). -/
def loopEnd (x : Spar) (f : Fields) : Nat := x.pc + 1 + f.immBits 32 16

/-- `lp.begin`: the counter holds the count; a loop with a non-zero count becomes the most recent active one (R82). -/
def effLpBegin : SlotEff := fun x i f s => s.modSpar i fun y =>
  let k := f.x.toNat
  let rest := y.loops.filter fun l => l.x != k
  let n := loopCount x f
  { y.lset k (BitVec.ofNat 32 n) with
    loops := if n = 0 then rest else { x := k, first := x.pc + 1, last := loopEnd x f } :: rest }

/-- `lp.break`. -/
def effLpBreak : SlotEff := fun _ i f s => s.modSpar i fun y => { y with loops := y.loops.filter fun l => l.x != f.x.toNat }
/-- `lp.get`. -/
def effLpGet : SlotEff := fun x i f s => writeS i f ((x.lget f.x.toNat).setWidth 64) s

/-! Slot 2 (R76). -/

/-- The post-increment of slot 2: a[A] grows by IMM[63:32] when MOD[1] = 1. -/
def postInc (x : Spar) (f : Fields) (y : Spar) : Spar :=
  if f.modBit 1 then y.aset f.a.toNat (x.aget f.a.toNat + f.immHigh) else y

/-- Bytes of `ld.s` and `st.s`: MOD[3:2]. -/
def scalarSize (f : Fields) : Nat := 2 ^ (f.mod.toNat / 4 % 4)

/-- The value `ld.s` loads. -/
def loadScalar (x : Spar) (f : Fields) : W64 :=
  let n := scalarSize f
  let v := leNat (x.scr (slot2Addr x f) n)
  if f.modBit 0 then BitVec.ofInt 64 (toSigned (8 * n) v) else BitVec.ofNat 64 v

/-- `ld.s`. -/
def effLdS : SlotEff := fun x i f s => s.modSpar i fun y => postInc x f (y.sset f.d.toNat (loadScalar x f))
/-- `st.s`. -/
def effStS : SlotEff := fun x i f s => s.modSpar i fun y =>
  postInc x f (y.scrPut (slot2Addr x f) (leBytes (scalarSize f) (x.sget f.b.toNat).toNat))
/-- `ld.v`. -/
def effLdV : SlotEff := fun x i f s => s.modSpar i fun y =>
  postInc x f (y.vset f.d.toNat (vecOfBytes (x.scr (slot2Addr x f) 1024)))
/-- `st.v`. -/
def effStV : SlotEff := fun x i f s => s.modSpar i fun y =>
  postInc x f (y.scrPut (slot2Addr x f) (vecBytes (x.vget f.b.toNat)))
/-- `ld.p`. -/
def effLdP : SlotEff := fun x i f s => s.modSpar i fun y =>
  postInc x f (y.pset f.d.toNat (BitVec.ofNat 256 (leNat (x.scr (slot2Addr x f) 32))))
/-- `st.p`. -/
def effStP : SlotEff := fun x i f s => s.modSpar i fun y =>
  postInc x f (y.scrPut (slot2Addr x f) (leBytes 32 (x.pget f.b.toNat).toNat))
/-- `ld.m`. -/
def effLdM : SlotEff := fun x i f s => s.modSpar i fun y =>
  postInc x f (y.mset f.d.toNat (BitVec.ofNat 128 (leNat (x.scr (slot2Addr x f) 16))))
/-- `st.m`. -/
def effStM : SlotEff := fun x i f s => s.modSpar i fun y =>
  postInc x f (y.scrPut (slot2Addr x f) (leBytes 16 (x.mget f.b.toNat).toNat))
/-- `ld.t` (R151). -/
def effLdT : SlotEff := fun x i f s => s.modSpar i fun y =>
  postInc x f (y.tset f.d.toNat (BitVec.ofNat 512 (leNat (x.scr (slot2Addr x f) 64))))

/-! Checks of slots 0 to 2 (R77, R81, R82, Table 3-11). `enc…` are checks of the encoding, made of a guarded-off slot as
well (R72); the others need the guard. -/

/-- Encoding checks of slot 0. -/
def encSlot0 (s : State) (i : Nat) (w : SlotWord) : List IFault :=
  (if w.op = 0x0B ∧ 5 < w.f.fmt then [badBundle 1 0] else []) ++
  (if w.op = 0x30 ∧ s.cfgItem i (w.f.immBits 0 16) = none then [badBundle 8 (w.f.immBits 0 16)] else [])

/-- The slot's opcode is a branch. -/
def isBranch (w : SlotWord) : Bool := w.op = 0x20 || w.op = 0x21 || w.op = 0x22 || w.op = 0x23

/-- Branch target: IMM[8:0], or s[A] when MOD[2] = 1. -/
def branchTarget (x : Spar) (f : Fields) : Nat := if f.modBit 2 then (x.sget f.a.toNat).toNat else f.immBits 0 9

/-- Checks of slot 0 at issue: a branch target beyond bundle 511. -/
def chkSlot0 (x : Spar) (w : SlotWord) : List IFault :=
  if isBranch w ∧ 511 < branchTarget x w.f then [badBundle 5 (branchTarget x w.f)] else []

/-- Encoding checks of slot 1: a loop body beyond bundle 511. -/
def encSlot1 (x : Spar) (w : SlotWord) : List IFault :=
  if w.op = 0x10 ∧ 511 < loopEnd x w.f then [badBundle 5 (loopEnd x w.f)] else []

/-- Range and alignment of a slot-2 access of `n` bytes. -/
def rangeFaults (a n al : Nat) : List IFault :=
  (if scratchBytes < a + n then [badAddr 1 a] else []) ++ (if a % al ≠ 0 then [badAddr 2 a] else [])

/-- Checks of slot 2 at issue, `st.vt` apart. -/
def chkSlot2 (x : Spar) (w : SlotWord) : List IFault :=
  let a := slot2Addr x w.f
  if w.op = 0x01 ∨ w.op = 0x02 then rangeFaults a (scalarSize w.f) (scalarSize w.f)
  else if w.op = 0x03 ∨ w.op = 0x04 then rangeFaults a 1024 64
  else if w.op = 0x06 ∨ w.op = 0x07 then rangeFaults a 32 32
  else if w.op = 0x08 ∨ w.op = 0x09 then rangeFaults a 16 16
  else if w.op = 0x0A then rangeFaults a 64 64
  else []

end Sys2Proof.Machine
end

