-- ==== Sys2Proof/Machine/Tensor.lean ====
section
/-! DEFINITION. Tensor descriptors, tile origins and bounds, stored addresses, presence, and conversion through a
descriptor (05 R151-R165). -/

namespace Sys2Proof.Machine

open Sys2Proof

/-- The fields of a tensor descriptor (Table 5-1), TR and TC after the legacy menu (R158). -/
structure Desc where
  /-- TID -/
  tid : Nat
  /-- LAYER -/
  layer : Nat
  /-- POLICY -/
  policy : Nat
  /-- FMT -/
  fmt : Nat
  /-- LAYOUT -/
  layout : Nat
  /-- SDIR -/
  sdir : Nat
  /-- SWZ -/
  swz : Bool
  /-- PLIST -/
  plist : Bool
  /-- SHAPE -/
  shape : Nat
  /-- BSRC -/
  bsrc : Nat
  /-- BREG -/
  breg : Nat
  /-- BADDR -/
  baddr : Nat
  /-- LCOUNT -/
  lcount : Nat
  /-- MDSTRIDE -/
  mdstride : Nat
  /-- TSTRIDE -/
  tstride : Nat
  /-- TR field as stored -/
  rawTr : Nat
  /-- TC field as stored -/
  rawTc : Nat
  /-- SSTRIDE -/
  sstride : Nat
  /-- RSTRIDE -/
  rstride : Nat
  /-- COLS -/
  cols : Nat
  /-- ROWS -/
  rows : Nat
  /-- MDBASE -/
  mdbase : Nat
  /-- SBASE -/
  sbase : Nat
  /-- BASE -/
  base : Nat
deriving DecidableEq, Repr

/-- A descriptor's fields (R151). -/
def Desc.of (w : BitVec 512) : Desc :=
  let v := w.toNat
  { tid := bitsOf v 480 32, layer := bitsOf v 472 8, policy := bitsOf v 466 6, fmt := bitsOf v 462 4
    layout := bitsOf v 460 2, sdir := bitsOf v 459 1, swz := bitAt v 458, plist := bitAt v 457, shape := bitsOf v 454 3
    bsrc := bitsOf v 446 2, breg := bitsOf v 440 6, baddr := bitsOf v 416 24, lcount := bitsOf v 400 16
    mdstride := bitsOf v 384 16, tstride := bitsOf v 352 32, rawTr := bitsOf v 342 10, rawTc := bitsOf v 332 10
    sstride := bitsOf v 288 32, rstride := bitsOf v 256 32, cols := bitsOf v 224 32, rows := bitsOf v 192 32
    mdbase := bitsOf v 128 64, sbase := bitsOf v 64 64, base := bitsOf v 0 64 }

/-- A descriptor read from 64 bytes. -/
def Desc.ofBytes (b : Bytes) : Desc := Desc.of (BitVec.ofNat 512 (leNat b))

/-- Legacy shape menu (Table 5-4): TR and TC of SHAPE 1 to 7. -/
def shapeMenu (k : Nat) : Nat × Nat :=
  match k with
  | 1 => (128, 128) | 2 => (128, 64) | 3 => (64, 128) | 4 => (64, 64) | 5 => (32, 128) | 6 => (256, 128) | _ => (128, 256)

/-- TR after the menu (R158). -/
def Desc.tr (d : Desc) : Nat := if d.shape = 0 then d.rawTr else (shapeMenu d.shape).1
/-- TC after the menu (R158). -/
def Desc.tc (d : Desc) : Nat := if d.shape = 0 then d.rawTc else (shapeMenu d.shape).2
/-- Element width in bits (R152). -/
def Desc.bits (d : Desc) : Nat := elemBits d.fmt
/-- Elements of a scale block; 0 for an unscaled format (R153). -/
def Desc.g (d : Desc) : Nat := blockLen d.fmt
/-- The descriptor is sparse-capable (R124). -/
def Desc.sparse (d : Desc) : Bool := d.mdbase ≠ 0
/-- Tiles of one column of tiles: max(1, ⌈ROWS / TR⌉) (R152). -/
def Desc.nr (d : Desc) : Nat := max 1 (ceilDiv d.rows d.tr)

/-- A descriptor's format is a storage format of Table 2-1: not i32 and not the reserved code. -/
def storageFmt (f : Nat) : Bool := f < 14

/-- A tile's place (R152): origin, pointer-list entry, bases in effect. -/
structure Origin where
  /-- pointer-list entry e -/
  e : Nat := 0
  /-- origin row -/
  r0 : Nat := 0
  /-- origin column -/
  c0 : Nat := 0
  /-- element base in effect -/
  ebase : Nat := 0
  /-- scale base in effect -/
  sbase : Nat := 0
deriving DecidableEq, Repr

/-- The whole tensor as one tile, for accesses that name rows or elements. -/
def Desc.whole (d : Desc) : Origin := { ebase := d.base, sbase := d.sbase }

/-- Byte address of an element row of the tensor, before swizzling (Table 5-2). -/
def rowAddr (d : Desc) (o : Origin) (r : Nat) : Nat := o.ebase + r * d.rstride

/-- Bit address of element (r, c), before swizzling (Table 5-2). -/
def elemBit (d : Desc) (o : Origin) (r c : Nat) : Nat :=
  if d.layout = 0 then 8 * rowAddr d o r + c * d.bits
  else
    let t := c / d.tc * d.nr + r / d.tr
    8 * (o.ebase + t * d.tstride + (r % d.tr) * d.tc * d.bits / 8) + c % d.tc * d.bits

/-- The stored byte address of the byte of tensor row `r` whose unswizzled address is `x` (R155). -/
def swizzle (d : Desc) (r x : Nat) : Nat :=
  if d.swz then setBits x 6 4 (bitsOf x 6 4 ^^^ (r % 16)) else x

/-- Byte addresses of element (r, c), lowest bits first. -/
def elemAddrs (d : Desc) (o : Origin) (r c : Nat) : List Nat :=
  let b := elemBit d o r c
  (List.range (ceilDiv (b % 8 + d.bits) 8)).map fun k => swizzle d r (b / 8 + k)

/-- Address of the scale byte of element (r, c) (Table 5-2). -/
def scaleAddr (d : Desc) (o : Origin) (r c : Nat) : Nat :=
  if d.layout = 0 then
    if d.sdir = 0 then o.sbase + r * d.sstride + c / d.g else o.sbase + r / d.g * d.sstride + c
  else
    let t := c / d.tc * d.nr + r / d.tr
    let T := o.ebase + t * d.tstride + d.tr * d.tc * d.bits / 8
    let ri := r % d.tr
    let ci := c % d.tc
    if d.sdir = 0 then T + ri * d.tc / d.g + ci / d.g else T + ri / d.g * d.tc + ci

/-- Byte addresses of element (r, c) and of its scale byte. -/
def posAddrs (d : Desc) (o : Origin) (r c : Nat) : List Nat :=
  elemAddrs d o r c ++ if d.g = 0 then [] else [scaleAddr d o r c]

/-- Code of element (r, c) read through `rd`. -/
def readElem (rd : Nat → Byte) (d : Desc) (o : Origin) (r c : Nat) : Nat :=
  bitsOf (leNat ((elemAddrs d o r c).map rd)) (elemBit d o r c % 8) d.bits

/-- Scale code of element (r, c); 0 in an unscaled format. -/
def readScale (rd : Nat → Byte) (d : Desc) (o : Origin) (r c : Nat) : Nat :=
  if d.g = 0 then 0 else (rd (scaleAddr d o r c)).toNat

/-- Element (r, c) widened to FP32 (R49). -/
def readWide (rd : Nat → Byte) (d : Desc) (o : Origin) (r c : Nat) : W32 :=
  widen d.fmt (readElem rd d o r c) (readScale rd d o r c)

/-- Logical index of element (r, c) (R153). -/
def logicalIndex (d : Desc) (e r c : Nat) : Nat := (e * d.rows + r) * d.cols + c

/-- A change of memory: address and byte, in order. -/
abbrev Writes := List (Nat × Byte)

/-- Byte writes made by storing element code `v` at (r, c): a part of a byte keeps its other bits (R37). -/
def elemWrites (rd : Nat → Byte) (d : Desc) (o : Origin) (r c v : Nat) : Writes :=
  let as := elemAddrs d o r c
  let old := leNat (as.map rd)
  as.zip (leBytes as.length (setBits old (elemBit d o r c % 8) d.bits v))

/-- Writes made to a byte-addressed memory, in order. -/
def applyWrites (m : List Host.Cell) (ws : Writes) : List Host.Cell := ws.foldl (fun m w => memSetByte m w.1 w.2) m

/-- Range counts of one layer slot (Table 2-11). -/
abbrev Counts := List Nat

/-- A value to store: tensor row, tensor column, FP32 value. -/
abbrev Item := (Nat × Nat) × W32

/-- The blocks of a scaled destination that the items touch: keys in row and column order. -/
def blockKeys (d : Desc) (its : List Item) : List (Nat × Nat) :=
  (its.foldl (fun acc it =>
    let k := if d.sdir = 0 then (it.1.1, it.1.2 / d.g) else (it.1.1 / d.g, it.1.2)
    if acc.contains k then acc else k :: acc) []).reverse

/-- Positions of a block. -/
def blockCells (d : Desc) (k : Nat × Nat) : List (Nat × Nat) :=
  (List.range d.g).map fun j => if d.sdir = 0 then (k.1, k.2 * d.g + j) else (k.1 * d.g + j, k.2)

/-- The value of an item, if present. -/
def itemAt (its : List Item) (p : Nat × Nat) : Option W32 := (its.find? fun it => it.1 = p).map (·.2)

/-- One unscaled element stored. -/
def storeOne (p : RPolicy) (d : Desc) (o : Origin) (acc : List Host.Cell × Conv) (it : Item) : List Host.Cell × Conv :=
  let c := convElem d.fmt p (logicalIndex d o.e it.1.1 it.1.2) it.2
  (applyWrites acc.1 (elemWrites (memByte acc.1) d o it.1.1 it.1.2 (c.elems.getD 0 0)), acc.2.join { c with elems := [], scales := [] })

/-- One block of a scaled destination stored (R162): written only when, for SDIR = 0, every column of it below COLS is
present; its absent elements enter as +0 and are not written. -/
def storeBlock (p : RPolicy) (d : Desc) (o : Origin) (its : List Item) (acc : List Host.Cell × Conv) (k : Nat × Nat) :
    List Host.Cell × Conv :=
  let cells := blockCells d k
  if d.sdir = 0 ∧ cells.any fun q => q.2 < d.cols && (itemAt its q).isNone then acc
  else
    let vs := cells.map fun q => (logicalIndex d o.e q.1 q.2, (itemAt its q).getD 0)
    let c := convert d.fmt p vs
    let m := (cells.zip c.elems).foldl (fun m qe =>
      if (itemAt its qe.1).isSome then applyWrites m (elemWrites (memByte m) d o qe.1.1 qe.1.2 qe.2) else m) acc.1
    let q0 := cells.getD 0 (0, 0)
    (memSetByte m (scaleAddr d o q0.1 q0.2) (BitVec.ofNat 8 (c.scales.getD 0 0)), acc.2.join { c with elems := [], scales := [] })

/-- Present values converted and stored through a descriptor, with what the range counters count (R49, R62, R162). -/
def storeItems (p : RPolicy) (d : Desc) (o : Origin) (its : List Item) (m : List Host.Cell) : List Host.Cell × Conv :=
  if d.g = 0 then its.foldl (storeOne p d o) (m, {})
  else (blockKeys d its).foldl (storeBlock p d o its) (m, {})

/-- The rounding policy of a conversion (R50, R56): partition's entry and seed, and the latched step. -/
def State.policy (s : State) (q entry step tensor : Nat) : RPolicy :=
  let w := s.odGet q 0x2100 (1 + entry % 64)
  { ovf := bitAt w 0, stoch := bitAt w 1, seed := s.odGet q 0x2101 0, step := step, tensor := tensor }

/-- The range counters of partition `q`, layer slot `slot`, grow by a conversion's counts (R62). -/
def State.countRange (s : State) (q slot : Nat) (c : Conv) : State :=
  ((List.range 5).zip c.counts).foldl (fun s e => if e.2 = 0 then s else s.odAdd q (0x2200 + slot) (e.1 + 1) e.2) s

/-! The tile of an instruction at issue (R152-R161). -/

/-- How an instruction uses its tile (Table 5-3). -/
inductive TileUse where
  | stream | loadDirect | loadTrans | accRows
deriving DecidableEq, Repr

/-- A tile as evaluated at issue: the descriptor, its place if it could be formed, the row extent E if a bound was read,
and the faults found (R160, R161). -/
structure TileEv where
  /-- the descriptor -/
  d : Desc
  /-- the origin, when every value of `tile_origin` could be formed -/
  o : Option Origin
  /-- E, when a bound was read -/
  e : Option Nat
  /-- the faults -/
  faults : List IFault
deriving DecidableEq, Repr

/-- E of a descriptor (R159): none when no bound is read (R161), or when its word does not lie in scratch (R160). -/
def boundOf (x : Spar) (d : Desc) : Option Nat :=
  if d.bsrc = 0 then some d.tr
  else if d.bsrc = 1 then some ((x.sget d.breg).toNat % 2 ^ 32)
  else if d.bsrc = 2 ∧ d.baddr % 4 = 0 ∧ d.baddr + 4 ≤ scratchBytes then some (leNat (x.scr d.baddr 4))
  else none

/-- `tile_origin` (R152): none when a value cannot be formed. -/
def originOf (x : Spar) (d : Desc) (a : Nat) : Option Origin :=
  let ent := a / 2 ^ 48
  let o := if d.plist then a % 2 ^ 48 else a - d.base
  if d.plist ∧ (d.lcount ≤ ent ∨ d.base % 16 ≠ 0 ∨ scratchBytes < d.base + 16 * ent + 16) then none
  else if ¬ d.plist ∧ a < d.base then none
  else
    let eb := if d.plist then leNat (x.scr (d.base + 16 * ent) 8) else d.base
    let sb := if d.plist then leNat (x.scr (d.base + 16 * ent + 8) 8) else d.sbase
    let e := if d.plist then ent else 0
    if d.layout = 0 then
      if d.rstride = 0 ∨ d.bits = 0 ∨ (o % d.rstride * 8) % d.bits ≠ 0 then none
      else some { e := e, r0 := o / d.rstride, c0 := o % d.rstride * 8 / d.bits, ebase := eb, sbase := sb }
    else if d.layout = 1 then
      if d.tstride = 0 ∨ d.tr = 0 ∨ o % d.tstride ≠ 0 then none
      else
        let t := o / d.tstride
        some { e := e, r0 := t % d.nr * d.tr, c0 := t / d.nr * d.tc, ebase := eb, sbase := sb }
    else none

/-- Largest TR and TC for a use with contraction depth `k` (Table 5-3), in either order of streaming (log 15). -/
def extentLimits (u : TileUse) (k : Nat) : Nat × Nat :=
  match u with
  | .stream => (512, k)
  | .loadDirect => (k, 128)
  | .loadTrans => (128, k)
  | .accRows => (512, 128)

/-- The conditions of Table 5-5 that need no origin. `ignoreBound`: a row list replaces the bound source (R186). -/
def shapeBad (u : TileUse) (d : Desc) (k : Nat) (e : Option Nat) (kl : List Nat) (ignoreBound : Bool) : Bool :=
  let lim := extentLimits u k
  let tr := d.tr
  let tc := d.tc
  d.shape ≠ 0 && (d.rawTr ≠ 0 || d.rawTc ≠ 0) ||
  tr = 0 || tc = 0 || (!d.sparse && lim.1 < tr) || lim.2 < tc ||
  (match e with | some v => tr < v | none => true) ||
  2 ≤ d.layout || (!ignoreBound && (d.bsrc = 3 || (d.bsrc = 2 && d.baddr % 4 ≠ 0))) ||
  (d.layout = 0 && d.rstride = 0) || (d.layout = 1 && d.tstride = 0) ||
  (d.layout = 1 && !d.sparse && d.tstride < tr * tc * d.bits / 8 + (if d.g = 0 then 0 else tr * tc / d.g)) ||
  (tc * d.bits) % 8 ≠ 0 ||
  (d.g ≠ 0 && d.layout = 1 && (if d.sdir = 0 then tc else tr) % d.g ≠ 0) ||
  (d.swz && (d.layout = 1 || d.rstride % 1024 ≠ 0)) ||
  (d.sparse && (d.layout = 0 || !kl.contains tr || tc ≠ 128))

/-- The conditions of Table 5-5 on the origin. -/
def originBad (d : Desc) (o : Origin) : Bool :=
  d.rows < o.r0 || d.cols ≤ o.c0 ||
  (d.g ≠ 0 && (if d.sdir = 0 then o.c0 else o.r0) % d.g ≠ 0) || (d.swz && o.ebase % 1024 ≠ 0)

/-- A tile evaluated at issue. `k`: contraction depth for Table 5-3; `kl`: row extents a sparse-capable descriptor may
have; `ignoreBound`: a row list replaces the bound (R186); `wb`: a write-back. A bound word or pointer-list entry not wholly
in scratch is ADDR_FAULT, whatever else is wrong with it (R160). -/
def evalTile (x : Spar) (d : Desc) (a : Nat) (u : TileUse) (k : Nat) (kl : List Nat) (ignoreBound wb : Bool) : TileEv :=
  let e := if ignoreBound then some d.tr else boundOf x d
  let o := originOf x d a
  let ent := a / 2 ^ 48
  let boundFault :=
    if ¬ ignoreBound ∧ d.bsrc = 2 ∧ scratchBytes < d.baddr + 4 then [badAddr 1 d.baddr] else []
  let entryFault :=
    if d.plist ∧ scratchBytes < d.base + 16 * ent + 16 then [badAddr 1 (d.base + 16 * ent)] else []
  let wbBad := match o, e with
    | some o, some e => wb && d.g ≠ 0 && d.sdir = 1 && o.r0 + e < d.rows && e % d.g ≠ 0
    | _, _ => false
  let bad := shapeBad u d k (if boundFault = [] then e else some 0) kl ignoreBound || wbBad ||
    (match o with | some o => originBad d o | none => entryFault = [])
  { d := d, o := o, e := e,
    faults := boundFault ++ entryFault ++ if bad then [⟨0x0105, 0, if ignoreBound then 0 else e.getD 0⟩] else [] }

/-- Rows of a tile whose addresses are checked: min(E, TR), within ROWS (R104, R162). -/
def rowsChecked (t : TileEv) : Nat := match t.o, t.e with
  | some o, some e => min (min e t.d.tr) (t.d.rows - o.r0)
  | _, _ => 0

/-- The lowest byte address of the tile's present positions for which `ok` fails. `cols`: the tile columns to check. -/
def tileOutside (t : TileEv) (cols : List Nat) (ok : Nat → Bool) : Option Nat :=
  match t.o with
  | none => none
  | some o =>
    let as := (List.range (rowsChecked t)).flatMap fun i => cols.flatMap fun j =>
      if o.c0 + j < t.d.cols then (posAddrs t.d o (o.r0 + i) (o.c0 + j)).filter fun a => !ok a else []
    as.foldl (fun m a => match m with | none => some a | some b => some (min a b)) none

/-- An address lies in scratch. -/
def inScratch (a : Nat) : Bool := a < scratchBytes

/-! `st.vt` (R164). -/

/-- The elements `st.vt` stores: lane and logical element. -/
def vtItems (x : Spar) (f : Fields) (d : Desc) : List Item :=
  let e0 := (x.sget f.x.toNat).toNat
  (List.range 256).filterMap fun k =>
    if e0 + k < d.rows * d.cols then some (((e0 + k) / d.cols, (e0 + k) % d.cols), lane (x.vget f.b.toNat) k) else none

/-- Checks of `st.vt` (R164): both causes are found where both apply, and R104 records the lower. The range check needs the
addresses of Table 5-2, so it is made for LAYOUT 0 and a storage format. -/
def chkStVt (x : Spar) (f : Fields) : List IFault :=
  let d := Desc.of (x.tget f.c.toNat)
  let bad := d.layout ≠ 0 || (d.swz && (d.base % 1024 ≠ 0 || d.rstride % 1024 ≠ 0)) || !storageFmt d.fmt ||
    (d.g ≠ 0 && (d.sdir = 1 || d.cols % d.g ≠ 0 || (x.sget f.x.toNat).toNat % d.g ≠ 0))
  let as := if d.layout = 0 ∧ storageFmt d.fmt then
      (vtItems x f d).flatMap fun it => (posAddrs d d.whole it.1.1 it.1.2).filter fun a => !inScratch a
    else []
  (match as.foldl (fun m a => match m with | none => some a | some b => some (min a b)) (none : Option Nat) with
    | some a => [badAddr 1 a]
    | none => []) ++ (if bad then [badAddr 2 d.base] else [])

/-- `st.vt`: the lanes are converted by the descriptor's policy entry and counted against its layer slot. -/
def effStVt : SlotEff := fun x i f s =>
  let d := Desc.of (x.tget f.c.toNat)
  let q := s.sparPart i
  let r := storeItems (s.policy q d.policy x.step.toNat d.tid) d d.whole (vtItems x f d) x.scratch
  (s.modSpar i fun y => { y with scratch := r.1 }).countRange q d.layer r.2

end Sys2Proof.Machine
end

