-- ==== Sys2Proof/Machine/Array.lean ====
section
/-! DEFINITION. The cell array and the accumulator buffer (04, 05): format pairs, checks and effects of slot 3, stationary
loads and sets, the start of an array instruction, the landing of a row, allocation clears, and write-back. The row
arithmetic is that of 02 R43-R47; a contraction position absent or masked in either operand contributes +0 (log 17). -/

namespace Sys2Proof.Machine

open Sys2Proof

/-! Format pairs (Table 2-5, Table 4-1). -/

/-- Geometry of a format pair (Table 4-1). -/
structure Pair where
  /-- K_t -/
  kt : Nat
  /-- group size -/
  g : Nat
  /-- stream cycles of a row -/
  c : Nat
deriving DecidableEq, Repr

/-- MXFP4 or PX16. -/
def isFp4 (f : Nat) : Bool := f = 6 || f = 7

/-- Any FP8, MXFP8 or MXFP6. -/
def isF86 (f : Nat) : Bool := f ≤ 5

/-- The pair of stationary format `f1` and streamed format `f2`; none for a pair outside Table 2-5. -/
def pairOf (f1 f2 : Nat) : Option Pair :=
  if isFp4 f1 ∧ isFp4 f2 then some ⟨256, if f1 = 7 ∨ f2 = 7 then 16 else 32, 1⟩
  else if isFp4 f1 ∧ isF86 f2 then some ⟨128, if f1 = 7 then 16 else 32, 1⟩
  else if isF86 f1 ∧ (isFp4 f2 ∨ isF86 f2) then some ⟨128, if f2 = 7 then 16 else 32, 1⟩
  else if (f1 = 8 ∨ f1 = 9) ∧ (f2 = 8 ∨ f2 = 9) then some ⟨128, 32, 1⟩
  else if (f1 = 10 ∨ f1 = 11) ∧ (f2 = 10 ∨ f2 = 11) then some ⟨64, 8, 1⟩
  else if f1 = 12 ∧ f2 = 12 then some ⟨64, 8, 3⟩
  else none

/-- K_t of a loaded format (R157). -/
def loadDepth (f : Nat) : Nat := if isFp4 f then 256 else if f ≤ 9 then 128 else 64

/-- Row extents a sparse-capable descriptor of a format may have (R157). -/
def sparseDepths (f : Nat) : List Nat := if isFp4 f then [512, 256] else [2 * loadDepth f]

/-- A tile that occupies both stationary sets (R113). -/
def Tile.two (t : Tile) : Bool := t.fmt = 12 || (t.sparse && t.mode = 0)

/-! The tile an instruction will use, as the sequencer knows it at issue (R119). -/

/-- What is known at issue of a tile: format, sparse-capable, TR. -/
structure TileInfo where
  /-- format -/
  fmt : Nat
  /-- sparse-capable -/
  sparse : Bool
  /-- TR -/
  tr : Nat
deriving DecidableEq, Repr

/-- A load's tile. -/
def Load.info (l : Load) : TileInfo :=
  let d := Desc.of l.desc
  ⟨d.fmt, d.sparse, d.tr⟩

/-- An array instruction that swaps (R110). -/
def ArrOp.swaps (o : ArrOp) : Bool := o.kind = .mmx && o.swap

/-- Instructions with SWAP issued and not started. -/
def Spar.swapsAhead (x : Spar) : Nat := x.stream.countP ArrOp.swaps

/-- Loads that no issued instruction will activate, oldest first (R119, R120). -/
def Spar.pendingLoads (x : Spar) : List Load := x.loads.drop x.swapsAhead

/-- The active tile as the stream queue will have it. -/
def Spar.tileAtIssue (x : Spar) : Option TileInfo :=
  if x.swapsAhead = 0 then x.active.map fun t => ⟨t.fmt, t.sparse, t.tr⟩
  else (x.loads.drop (x.swapsAhead - 1)).head?.map Load.info

/-- A footprint of `n` entries from `base` lies inside one live region (R142). -/
def Spar.inRegion (x : Spar) (base n : Nat) : Bool :=
  n = 0 || x.regions.any fun r => r.1 ≤ base && base + n ≤ r.1 + r.2

/-- Free entries of the accumulator buffer (R141). -/
def Spar.accFree (x : Spar) : Nat := 65536 - (x.regions.map (·.2)).sum

/-- Bit of the row mask that covers contraction row `k` of a tile of depth `kk` (R109). -/
def rowMaskBit (m : BitVec 128) (kk k : Nat) : Bool :=
  m.getLsbD (if 128 ≤ kk then k / (kk / 128) else k)

/-! Address checks at issue (Table 4-8). -/

/-- The lowest scratch byte of [b, b + n) beyond scratch. -/
def lowOutScratch (b n : Nat) : Option Nat :=
  if n = 0 then none else if scratchBytes ≤ b then some b else if scratchBytes < b + n then some scratchBytes else none

/-- The lowest device byte of [b, b + n) outside partition `q`'s map. -/
def State.lowOutMap (s : State) (q b n : Nat) : Option Nat :=
  let e := b / 2 ^ 37 * 2 ^ 37 + domeBytes
  if n = 0 then none else if ¬ s.inMap q b then some b else if e < b + n then some e else none

/-- The smaller of two addresses found. -/
def lowest (a b : Option Nat) : Option Nat :=
  match a, b with
  | none, b => b
  | a, none => a
  | some a, some b => some (min a b)

/-- The lowest address of a list of positions that fails `ok`. -/
def lowestBad (ok : Nat → Bool) (d : Desc) (o : Origin) (ps : List (Nat × Nat)) : Option Nat :=
  ps.foldl (fun m p => lowest m (((posAddrs d o p.1 p.2).filter fun a => !ok a).foldl
    (fun m a => lowest m (some a)) none)) none

/-- ADDR_FAULT with the address found. -/
def addrFault (cause : Nat) (a : Option Nat) : List IFault :=
  match a with
  | some v => [badAddr cause v]
  | none => []

/-- Tile number of an origin (R154). -/
def tileNo (d : Desc) (o : Origin) : Nat := o.c0 / d.tc * d.nr + o.r0 / d.tr

/-- Present positions of a stored tile: its rows below E, TR and ROWS, its columns below TC and COLS (R162). -/
def storedCells (t : TileEv) : List (Nat × Nat) :=
  match t.o with
  | some o => (List.range (rowsChecked t)).flatMap fun i =>
      (List.range (min t.d.tc (t.d.cols - o.c0))).map fun j => (o.r0 + i, o.c0 + j)
  | none => []

/-- Stored rows of a sparse-capable tile of K_L logical rows (Table 4-2). -/
def storedRows (mode kl : Nat) : Nat :=
  match mode with
  | 0 => kl | 1 => kl / 2 | 2 => kl / 4 | _ => 0

/-- Metadata bytes of a tile (Table 4-2). -/
def metaBytes (mode kl : Nat) : Nat := if mode = 1 ∨ mode = 2 then 8 + 16 * kl else 8

/-- Bytes of a sparse-capable tile's elements, and of its scales (R154). -/
def imageBytes (d : Desc) (mode : Nat) : Nat × Nat :=
  let sr := storedRows mode d.tr
  (sr * 128 * d.bits / 8, if d.g = 0 then 0 else sr / d.g * 128)

/-- Stored slot of logical position `k` of column `n`, if the tile stores one (Table 4-4). -/
def slotOf (rd : Nat → Byte) (md mode kl n k : Nat) : Option Nat :=
  if mode = 0 then some k
  else if mode = 1 then
    let g := k / 4
    let e := (rd (md + 8 + n * (kl / 8) + g / 2)).toNat / (if g % 2 = 0 then 1 else 16) % 16
    if k % 4 = e % 4 then some (2 * g) else if k % 4 = e / 4 then some (2 * g + 1) else none
  else if mode = 2 then
    let g := k / 8
    let b := (rd (md + 8 + n * (kl / 8) + g)).toNat
    if 1 ≤ b % 4 ∧ k % 8 = b / 4 % 8 then some (2 * g)
    else if 2 ≤ b % 4 ∧ k % 8 = b / 32 % 8 then some (2 * g + 1) else none
  else none

/-- The bytes of stored slot `i` of column `n` of a sparse-capable tile at `tb`: its element's and its scale's (R154). -/
def slotBytes (d : Desc) (mode tb i n : Nat) : List Nat :=
  let b := 8 * tb + (i * 128 + n) * d.bits
  ((List.range (ceilDiv (b % 8 + d.bits) 8)).map fun j => b / 8 + j) ++
    if d.g = 0 then [] else [tb + (imageBytes d mode).1 + i / d.g * 128 + n]

/-- The element and scale bytes that a load of a sparse-capable tile takes: those of the stored slots of its present
positions (R154, R162). `md`, `tb`: where the tile's metadata and elements lie; `nr`, `nc`: rows and columns present. -/
def sparseBytes (rd : Nat → Byte) (d : Desc) (md tb nr nc : Nat) : List Nat :=
  let mode := (rd md).toNat
  (List.range nc).flatMap fun n => (List.range nr).flatMap fun k =>
    match slotOf rd md mode d.tr n k with
    | some i => slotBytes d mode tb i n
    | none => []

/-- The lowest address outside its space of a stationary load. Of a sparse-capable tile the bytes of the tile's own mode are
checked (R154, R162): its header, the metadata of the mode the header holds at issue, and the stored slots of the present
positions (log 18). -/
def State.loadOutside (s : State) (x : Spar) (q : Nat) (dome : Bool) (t : TileEv) : Option Nat :=
  match t.o with
  | none => none
  | some o =>
    if t.d.sparse then
      let md := t.d.mdbase + tileNo t.d o * t.d.mdstride
      let tb := o.ebase + tileNo t.d o * t.d.tstride
      let out := fun b n => if dome then s.lowOutMap q b n else lowOutScratch b n
      let rd := if dome then memByte s.dome else memByte x.scratch
      match out md 8 with
      | some a => some a
      | none =>
        let mode := (rd md).toNat
        let im := imageBytes t.d mode
        let whole := lowest (out md (metaBytes mode t.d.tr)) (out tb (im.1 + im.2))
        if whole = none then none
        else lowest (out md (metaBytes mode t.d.tr))
          (((sparseBytes rd t.d md tb (rowsChecked t) (min 128 (t.d.cols - o.c0))).filter fun a =>
            !(if dome then s.inMap q a else inScratch a)).foldl (fun m a => lowest m (some a)) none)
    else lowestBad (if dome then s.inMap q else inScratch) t.d o (storedCells t)

/-- The use of an `mld` (Table 5-3). -/
def mldUse (f : Fields) : TileUse := if f.modBit 1 then .loadTrans else .loadDirect

/-- The tile of an `mld` at issue. -/
def mldTile (x : Spar) (f : Fields) : TileEv :=
  let d := Desc.of (x.tget f.b.toNat)
  evalTile x d (x.aget f.a.toNat).toNat (mldUse f) (loadDepth f.fmt) (sparseDepths f.fmt) false false

/-- Checks of `mld` (Table 4-8). -/
def chkMld (s : State) (x : Spar) (i : Nat) (f : Fields) : List IFault :=
  let d := Desc.of (x.tget f.b.toNat)
  let t := mldTile x f
  let tr := f.modBit 1
  let bad := 12 < f.fmt || d.fmt ≠ f.fmt || (d.g ≠ 0 && d.sdir ≠ (if tr then 0 else 1)) ||
    (d.sparse && (tr || f.fmt = 12))
  if bad then [badBundle 4 0]
  else t.faults ++ addrFault (if f.modBit 0 then 3 else 1) (s.loadOutside x (s.sparPart i) (f.modBit 0) t)

/-- Feed of an `mmx`: IMM[4:3] (R185). -/
def Fields.feed (f : Fields) : Nat := f.immBits 3 2

/-- SWAP: IMM[0]. -/
def Fields.swap (f : Fields) : Bool := f.imm.getLsbD 0

/-- Column-order streaming: IMM[1]. A row list streams whole tensor rows (R186), so it has no column order (log 15). -/
def Fields.colOrder (f : Fields) : Bool := f.imm.getLsbD 1 && Fields.feed f != 1

/-- The tile an `mmx` runs on, as known at issue. -/
def mmxInfo (x : Spar) (f : Fields) : Option TileInfo :=
  if Fields.swap f then x.pendingLoads.head?.map Load.info else x.tileAtIssue

/-- K of an `mmx` (R157). -/
def mmxDepth (x : Spar) (f : Fields) (p : Pair) : Nat :=
  if (mmxInfo x f).any (·.sparse) then 2 * p.kt else p.kt

/-- Tile address of an `mmx`: advanced by the next block-list entry when feed = 2 (R187). -/
def mmxAddr (x : Spar) (f : Fields) (k : Nat) : Nat :=
  let d := Desc.of (x.tget f.b.toNat)
  let a := (x.aget f.a.toNat).toNat
  if Fields.feed f = 2 then
    match x.blockLists.head? with
    | some l => (a + (l.idx.headD 0).toNat * k * d.bits / 8) % 2 ^ 64
    | none => a
  else a

/-- The streamed tile of an `mmx` at issue. -/
def mmxTile (x : Spar) (f : Fields) (p : Pair) : TileEv :=
  let d := Desc.of (x.tget f.b.toNat)
  let k := mmxDepth x f p
  evalTile x d (mmxAddr x f k) .stream k (sparseDepths f.low)
    (Fields.feed f = 1) false

/-- Rows M of an `mmx`: E, or the entries of its row list (R159, R186). -/
def mmxRows (x : Spar) (f : Fields) (t : TileEv) : Nat :=
  if Fields.feed f = 1 then (x.rowLists.head?.map (·.idx.length)).getD 0 else t.e.getD 0

/-- A listed index is a skip (R174). -/
def isSkip (skip : Option Int) (v : Int) : Bool := skip = some v

/-- A listed index is within its bound (R174). -/
def idxIn (bound : Nat) (v : Int) : Bool := 0 ≤ v && v < bound

/-- Tensor positions the streamed tile's address check covers: streamed row i below min(E, TR), contraction position k below
TC and K and unmasked, within ROWS and COLS (R104, R162); they are checked for an empty active set too (log 68). In column
order row i is tensor column c0 + i, and position k tensor row r0 + k (log 15). -/
def mmxCells (x : Spar) (f : Fields) (t : TileEv) (k : Nat) : List (Nat × Nat) :=
  match t.o with
  | none => []
  | some o =>
    let m := x.mget f.c.toNat
    let cols := (List.range (min (min t.d.tc k) (t.d.cols - o.c0))).filter fun j => rowMaskBit m k j
    if Fields.colOrder f then
      ((List.range (min (min t.d.tc k) (t.d.rows - o.r0))).filter fun j => rowMaskBit m k j).flatMap fun j =>
        (List.range (min (min (t.e.getD 0) t.d.tr) (t.d.cols - o.c0))).map fun i => (o.r0 + j, o.c0 + i)
    else if Fields.feed f = 1 then
      (x.rowLists.head?.map fun l => (l.idx.filter fun v => idxIn t.d.rows v && !isSkip l.skip v).flatMap fun v =>
        cols.map fun j => (v.toNat, o.c0 + j)).getD []
    else (List.range (rowsChecked t)).flatMap fun i => cols.map fun j => (o.r0 + i, o.c0 + j)

/-- Accumulator checks of a footprint (R142). -/
def accFaults (x : Spar) (base n : Nat) : List IFault :=
  (if base % 128 ≠ 0 then [badAddr 2 base] else []) ++ (if x.inRegion base n then [] else [⟨0x0101, 0, base⟩])

/-- Checks of `mmx` (Table 4-8). -/
def chkMmx (x : Spar) (f : Fields) : List IFault :=
  match pairOf f.fmt f.low with
  | none => [badBundle 4 0]
  | some p =>
    let d := Desc.of (x.tget f.b.toNat)
    let k := mmxDepth x f p
    let info := mmxInfo x f
    let t := mmxTile x f p
    let b4 := d.fmt ≠ f.low || (d.sparse && d.fmt = 12) || info.any (fun j => j.fmt ≠ f.fmt || (j.sparse && j.tr ≠ 2 * p.kt)) ||
      (d.g ≠ 0 && d.sdir ≠ (if Fields.colOrder f then 1 else 0)) || Fields.feed f = 3
    let b9 := Fields.swap f && x.pendingLoads.isEmpty
    if b4 || b9 then (if b4 then [badBundle 4 0] else []) ++ (if b9 then [badBundle 9 0] else [])
    else
      let out := match t.o with
        | some o => lowestBad inScratch d o (mmxCells x f t k)
        | none => none
      t.faults ++ addrFault 1 out ++
        (match t.o with
         | some o => if Fields.feed f = 1 ∧ o.r0 ≠ 0 then [⟨0x0105, 0, 0⟩] else []
         | none => []) ++
        accFaults x (x.aget f.d.toNat).toNat (mmxRows x f t * 128)

/-- `mew` operation: IMM[3:0]. -/
def Fields.mewOp (f : Fields) : Nat := f.immBits 0 4

/-- `mew` SRC: IMM[4]. -/
def Fields.mewSrc (f : Fields) : Bool := f.imm.getLsbD 4

/-- The tile of `mew` with SRC = 1, and of `mwb`, at issue. -/
def accTile (x : Spar) (f : Fields) (wb : Bool) : TileEv :=
  let d := Desc.of (x.tget f.b.toNat)
  evalTile x d (x.aget f.a.toNat).toNat .accRows 128 (sparseDepths d.fmt) false wb

/-- Output columns of a tile that are present and unmasked (R109, R162). -/
def accCols (d : Desc) (o : Origin) (m : BitVec 128) : List Nat :=
  (List.range (min (min d.tc 128) (d.cols - o.c0))).filter fun j => m.getLsbD j

/-- The lowest scratch address outside scratch of an accumulator tile. -/
def accOutside (t : TileEv) (m : BitVec 128) : Option Nat :=
  match t.o with
  | some o => lowestBad inScratch t.d o ((List.range (rowsChecked t)).flatMap fun i =>
      (accCols t.d o m).map fun j => (o.r0 + i, o.c0 + j))
  | none => none

/-- Checks of `mew` (Table 4-8, R134). -/
def chkMew (x : Spar) (f : Fields) : List IFault :=
  let base := (x.aget f.d.toNat).toNat
  if 4 < Fields.mewOp f then [badBundle 4 0]
  else if Fields.mewSrc f then
    let t := accTile x f false
    if t.d.fmt ≠ 12 ∨ t.d.sparse then [badBundle 4 0]
    else t.faults ++ addrFault 1 (accOutside t (x.mget f.x.toNat)) ++
      (match t.e with
       | some e => accFaults x base (e * 128)
       | none => if base % 128 ≠ 0 then [badAddr 2 base] else [])
  else match x.tileAtIssue with
    | none => []
    | some j => if j.sparse || j.fmt = 12 then [badBundle 4 0] else accFaults x base (loadDepth j.fmt * 128)

/-- Checks of `mwb` (Table 4-8). -/
def chkMwb (x : Spar) (f : Fields) : List IFault :=
  let base := (x.aget f.c.toNat).toNat
  let t := accTile x f true
  if 12 < f.fmt || t.d.fmt ≠ f.fmt || (t.d.sparse && t.d.fmt = 12) then [badBundle 4 0]
  else t.faults ++ addrFault 1 (accOutside t (x.mget f.x.toNat)) ++
    (match t.e with
     | some e => accFaults x base (e * 128)
     | none => if base % 128 ≠ 0 then [badAddr 2 base] else [])

/-- Size of a `mal`: IMM[31:0], or s[A] when MOD[2] = 1. -/
def malSize (x : Spar) (f : Fields) : Nat := if f.modBit 2 then (x.sget f.a.toNat).toNat else f.immBits 0 32

/-- Checks of `mal` (Table 4-8). -/
def chkMal (x : Spar) (f : Fields) : List IFault :=
  let n := malSize x f
  if n = 0 ∨ n % 128 ≠ 0 ∨ x.accFree < n ∨ 16 ≤ x.regions.length then [⟨0x0101, 0, n⟩] else []

/-- Checks of `mfr` (Table 4-8). -/
def chkMfr (x : Spar) : List IFault := if x.regions = [] then [⟨0x0101, 0, 2 ^ 64 - 1⟩] else []

/-! Effects of slot 3 at issue. -/

/-- A two-part tile is active. -/
def Spar.twoActive (x : Spar) : Bool := x.active.any Tile.two

/-- `mld` at issue: it takes a load-queue entry (R119). -/
def effMld : SlotEff := fun x i f s =>
  let t := mldTile x f
  let o := t.o.getD {}
  s.modSpar i fun y =>
    { y with loads := y.loads ++ [{
        desc := x.tget f.b.toNat, addr := (x.aget f.a.toNat).toNat, dome := f.modBit 0, trans := f.modBit 1,
        e := t.e.getD 0, r0 := o.r0, c0 := o.c0, ebase := o.ebase, sbase := o.sbase,
        direct := y.loads.isEmpty && !y.twoActive, behind := y.stream.countP (fun a => a.kind = .mwb),
        num := y.opNum, bundle := x.pc }], opNum := y.opNum + 1 }

/-- A slot-3 instruction joins the stream queue (R110). -/
def pushOp (i : Nat) (o : ArrOp) (s : State) : State := s.modSpar i fun y => { y with stream := y.stream ++ [o] }

/-- The fields an instruction takes from its tile at issue (R160). -/
def ArrOp.ofTile (o : ArrOp) (t : TileEv) : ArrOp :=
  let g := t.o.getD {}
  { o with e := t.e.getD 0, r0 := g.r0, c0 := g.c0, ebase := g.ebase, sbase := g.sbase, pe := g.e }

/-! The feeder queues (R114-R117). -/

/-- A place of a tile's origin, of an instruction. -/
def ArrOp.origin (o : ArrOp) : Origin := { e := o.pe, r0 := o.r0, c0 := o.c0, ebase := o.ebase, sbase := o.sbase }

/-- Tensor position of element `k` of streamed row `i`; none where it is masked or not present (R109, R116, R162, R186). In
column order element k of row i is stored at tensor row r0 + k, column c0 + i (log 15). -/
def ArrOp.cell (o : ArrOp) (i k : Nat) : Option (Nat × Nat) :=
  let d := Desc.of o.desc
  if ¬ rowMaskBit o.rowMask o.kk k ∨ d.tc ≤ k then none
  else if o.colOrder then
    if k < d.rows - o.r0 ∧ i < min (min o.e d.tr) (d.cols - o.c0) then some (o.r0 + k, o.c0 + i) else none
  else if d.cols - o.c0 ≤ k then none
  else if o.feed = 1 then
    match o.list[i]? with
    | some v => if isSkip o.skip v then none else some (v.toNat, o.c0 + k)
    | none => none
  else if o.r0 + i < d.rows then some (o.r0 + i, o.c0 + k) else none

/-- Element bytes of a streamed row. -/
def ArrOp.rowBytes (o : ArrOp) : Nat := ceilDiv (o.kk * (Desc.of o.desc).bits) 8

/-- Entries a streamed row takes in a feeder queue: two when it has more than 128 bytes (R114). -/
def ArrOp.rowRoom (o : ArrOp) : Nat := if o.rowBytes ≤ 128 then 1 else 2

/-- Streamed row `i` as the feeder reads it from scratch: its element codes packed from bit 0, and one scale byte a group. A
position that is masked or not present is not read and its bits are 0 (R162). -/
def Spar.fetchRow (x : Spar) (o : ArrOp) (i : Nat) : FeedRow :=
  let d := Desc.of o.desc
  let rd := memByte x.scratch
  let code := fun k => match o.cell i k with
    | some p => readElem rd d o.origin p.1 p.2
    | none => 0
  { elems := leBytes o.rowBytes (((List.range o.kk).map code).foldr (fun c v => v * 2 ^ d.bits + c) 0)
    scales := if d.g = 0 then [] else (List.range (o.kk / d.g)).map fun b =>
      match (List.range d.g).findSome? fun j => o.cell i (b * d.g + j) with
      | some p => BitVec.ofNat 8 (readScale rd d o.origin p.1 p.2)
      | none => 0 }

/-- The first listed index that is neither a skip nor within the tensor (R186). -/
def ArrOp.listBad (o : ArrOp) : Option Int :=
  if o.feed = 1 then o.list.find? fun v => !(isSkip o.skip v || idxIn (Desc.of o.desc).rows v) else none

/-- The instruction with the next of its rows, up to `want` in all, read into `room` free entries of the queues. -/
def Spar.fetch (x : Spar) (o : ArrOp) (want room : Nat) : ArrOp :=
  let n := min (want - o.fetched) (room / o.rowRoom)
  { o with queued := o.queued ++ (List.range n).map (fun j => x.fetchRow o ((o.fetched + j) % o.m)), fetched := o.fetched + n }

/-- Entries of the queues an instruction's rows take. -/
def ArrOp.room (o : ArrOp) : Nat := o.queued.length * o.rowRoom

/-- Rows the feeder reads for a started instruction: those of both passes of a MODE 0 tile (log 69), none for a MODE 3 tile
(R126, R127). -/
def ArrRun.wants (r : ArrRun) : Nat :=
  if r.op.kind ≠ .mmx ∨ r.tile.any (fun t => t.sparse && t.mode = 3) then 0 else r.total

/-- The feeder reads for the started instructions (R115). -/
def Spar.fillRuns (x : Spar) : Nat → List ArrRun → Nat × List ArrRun
  | room, [] => (room, [])
  | room, r :: rs =>
    let o := x.fetch r.op r.wants room
    let t := x.fillRuns (room - (o.room - r.op.room)) rs
    (t.1, { r with op := o } :: t.2)

/-- The feeder reads for the waiting instructions, none of them behind a write-back (R115) nor with a row list that is not
valid (R186). -/
def Spar.fillOps (x : Spar) : Nat → List ArrOp → List ArrOp
  | _, [] => []
  | room, o :: os =>
    if o.kind = .mwb then o :: os
    else if o.kind = .mmx ∧ o.listBad = none then
      let p := x.fetch o o.m room
      p :: x.fillOps (room - (p.room - o.room)) os
    else o :: x.fillOps room os

/-- The feeder queues filled as far as they have room: 1,024 entries each, the rows of the active instruction first, then
those of the waiting one, in row order (R114, R115, log 69). -/
def Spar.fillFeeder (x : Spar) : Spar :=
  let used := (x.rows.map (·.op.room)).sum + (x.stream.map ArrOp.room).sum
  let a := x.fillRuns (1024 - used) x.rows
  { x with rows := a.2, stream := x.fillOps a.1 x.stream }

/-- The feeder of spar `i` reads. -/
def State.feed (s : State) (i : Nat) : State := s.modSpar i Spar.fillFeeder

/-- `mmx` at issue: it binds its list if it has one (R186, R187), and the feeder begins to read its rows (R115). -/
def effMmx : SlotEff := fun x i f s =>
  match pairOf f.fmt f.low with
  | none => s
  | some p =>
    let t := mmxTile x f p
    let rl := if Fields.feed f = 1 then x.rowLists.head?.getD {} else {}
    let o : ArrOp := {
      kind := .mmx, desc := x.tget f.b.toNat, addr := mmxAddr x f (mmxDepth x f p), base := (x.aget f.d.toNat).toNat,
      rowMask := x.mget f.c.toNat, colMask := x.mget f.x.toNat, f1 := f.fmt, f2 := f.low, swap := Fields.swap f,
      colOrder := Fields.colOrder f, fresh := f.imm.getLsbD 2, feed := Fields.feed f, list := rl.idx, skip := rl.skip,
      lbundle := rl.bundle, m := mmxRows x f t, kk := mmxDepth x f p, bundle := x.pc }
    let s1 := (pushOp i (o.ofTile t) s).feed i
    if Fields.feed f = 1 then s1.modSpar i fun y => { y with rowLists := y.rowLists.drop 1 }
    else if Fields.feed f = 2 then s1.modSpar i fun y =>
      { y with blockLists := match y.blockLists with
          | l :: r => if l.idx.length ≤ 1 then r else { l with idx := l.idx.drop 1 } :: r
          | [] => [] }
    else s1

/-- `mew` at issue. -/
def effMew : SlotEff := fun x i f s =>
  let src := Fields.mewSrc f
  let o : ArrOp := { kind := .mew, base := (x.aget f.d.toNat).toNat, colMask := x.mget f.x.toNat,
                     op := Fields.mewOp f, src := if src then 1 else 0, bundle := x.pc }
  if src then
    let t := accTile x f false
    pushOp i ({ o with desc := x.tget f.b.toNat, addr := (x.aget f.a.toNat).toNat, m := t.e.getD 0 }.ofTile t) s
  else pushOp i o s

/-- `mwb` at issue. -/
def effMwb : SlotEff := fun x i f s =>
  let t := accTile x f true
  let o : ArrOp := {
    kind := .mwb, desc := x.tget f.b.toNat, addr := (x.aget f.a.toNat).toNat, base := (x.aget f.c.toNat).toNat,
    colMask := x.mget f.x.toNat, f2 := f.fmt, swap := Fields.swap f, m := t.e.getD 0, bundle := x.pc }
  pushOp i (o.ofTile t) s

/-- `mal` at issue: the region is allocated on top of the stack and its base goes to a[D]; its clear waits for its turn
(R141). -/
def effMal : SlotEff := fun x i f s =>
  let n := malSize x f
  let base := 65536 - x.accFree
  pushOp i { kind := .mal, base := base, m := n, bundle := x.pc }
    (s.modSpar i fun y => { y.aset f.d.toNat (BitVec.ofNat 64 base) with regions := (base, n) :: y.regions })

/-- `mfr` at issue: the most recent region is freed (R141). -/
def effMfr : SlotEff := fun _ i _ s => s.modSpar i fun y => { y with regions := y.regions.drop 1 }

/-! Stationary loads (R118-R121, R128-R131, R154). -/

/-- A place of a tile's origin, of a load. -/
def Load.origin (l : Load) : Origin := { r0 := l.r0, c0 := l.c0, ebase := l.ebase, sbase := l.sbase }

/-- A plain tile read through `rd` (R121). -/
def readPlain (rd : Nat → Byte) (l : Load) : Tile :=
  let d := Desc.of l.desc
  let o := l.origin
  let nr := min (min l.e d.tr) (d.rows - l.r0)
  let nc := min d.tc (d.cols - l.c0)
  let at_ := fun r c => some (readElem rd d o (l.r0 + r) (l.c0 + c), readScale rd d o (l.r0 + r) (l.c0 + c))
  { fmt := d.fmt, tr := d.tr
    cols :=
      if l.trans then (List.range nr).map fun n => (List.range (loadDepth d.fmt)).map fun k => if k < nc then at_ n k else none
      else (List.range nc).map fun n => (List.range (loadDepth d.fmt)).map fun k => if k < nr then at_ k n else none }

/-- A byte of group entries is valid (R129). -/
def groupByteOk (mode b : Nat) : Bool :=
  if mode = 1 then decide (b % 4 < b / 4 % 4) && decide (b / 16 % 4 < b / 64 % 4)
  else decide (b % 4 ≤ 2) && (b % 4 ≠ 2 || decide (b / 4 % 8 < b / 32 % 8))

/-- The first invalid byte of a tile's metadata (R129, R130, R154). -/
def metaBad (rd : Nat → Byte) (d : Desc) (md : Nat) : Option Nat :=
  let mode := (rd md).toNat
  let im := imageBytes d mode
  if 3 < mode ∨ d.tstride < im.1 + im.2 ∨ d.mdstride < metaBytes mode d.tr then some 0
  else if mode = 1 ∨ mode = 2 then
    ((List.range (16 * d.tr)).find? fun j => !groupByteOk mode (rd (md + 8 + j)).toNat).map (· + 8)
  else none

/-- A sparse-capable tile read through `rd` (R124-R131, R154). -/
def readSparse (rd : Nat → Byte) (l : Load) : Tile :=
  let d := Desc.of l.desc
  let t := tileNo d l.origin
  let md := d.mdbase + t * d.mdstride
  let tb := l.ebase + t * d.tstride
  let mode := (rd md).toNat
  let im := imageBytes d mode
  let code := fun i n =>
    let b := 8 * tb + (i * 128 + n) * d.bits
    bitsOf (leNat ((List.range (ceilDiv (b % 8 + d.bits) 8)).map fun j => rd (b / 8 + j))) (b % 8) d.bits
  let nr := min (min l.e d.tr) (d.rows - l.r0)
  { fmt := d.fmt, sparse := true, mode := mode, tr := d.tr, bad := metaBad rd d md
    cols := if mode = 3 then (List.range (min 128 (d.cols - l.c0))).map fun _ => []
      else (List.range (min 128 (d.cols - l.c0))).map fun n => (List.range d.tr).map fun k =>
        if k < nr then (slotOf rd md mode d.tr n k).map fun i =>
          (code i n, if d.g = 0 then 0 else (rd (tb + im.1 + i / d.g * 128 + n)).toNat)
        else none }

/-- The tile of a load, read through `rd`. -/
def readTile (rd : Nat → Byte) (l : Load) : Tile :=
  if (Desc.of l.desc).sparse then readSparse rd l else readPlain rd l

/-- Device ranges a load from dome reads: the bytes of present positions, and a sparse-capable tile's metadata (R162,
R163). -/
def loadRanges (rd : Nat → Byte) (l : Load) : List (Nat × Nat) :=
  let d := Desc.of l.desc
  if d.sparse then
    let t := tileNo d l.origin
    let md := d.mdbase + t * d.mdstride
    (md, metaBytes (rd md).toNat d.tr) ::
      (sparseBytes rd d md (l.ebase + t * d.tstride) (min (min l.e d.tr) (d.rows - l.r0)) (min 128 (d.cols - l.c0))).map
        fun a => (a, 1)
  else
    let nr := min (min l.e d.tr) (d.rows - l.r0)
    let nc := min d.tc (d.cols - l.c0)
    (List.range nr).flatMap fun i => (List.range nc).flatMap fun j =>
      (posAddrs d l.origin (l.r0 + i) (l.c0 + j)).map fun a => (a, 1)

/-- Lines of a list of ranges. -/
def rangeLines (rs : List (Nat × Nat)) : List Nat := uniq (rs.flatMap fun r => linesOf r.1 r.2)

/-- The sets and the staging buffer after the arrival of the oldest load's tile `t` (`first`), or of the one behind it; none
while there is no room for it (R113, R119). -/
def Spar.place (x : Spar) (t : Tile) (first direct : Bool) : Option Spar :=
  if first then
    if x.twoActive then (if x.staging.isNone then some { x with staging := some t } else none)
    else if x.back.isSome ∨ x.staging.isSome then none
    else if t.two then some { x with back := some t, staging := some { t with part2 := true } }
    else if direct then some { x with back := some t }
    else some { x with staging := some t }
  else if x.back.isSome ∧ x.staging.isNone ∧ ¬ t.two then some { x with staging := some t }
  else none

/-- An operation of the spar issued before the one numbered `n` still has bytes of the ranges to write in dome: a `tx.dst`, or
a tackle operation, whose destination is taken whole (R94). -/
def Spar.writesAhead (x : Spar) (n : Nat) (rs : List (Nat × Nat)) : Bool :=
  let meets := fun a m => rs.any fun r => 0 < r.2 && decide (r.1 < a + m) && decide (a < r.1 + r.2)
  let tk := fun (o : TkOp) =>
    let d := Desc.of o.dst
    o.dstDome && decide (o.num < n) && (meets d.base (d.rows * d.rstride) || (d.g != 0 && meets d.sbase (d.rows * d.sstride)))
  x.xfers.any (fun t => t.kind = .dst && !t.done && decide (t.num < n) && meets t.da t.len) ||
  x.tackleQ.any tk || x.tackle.any fun r => tk r.op

/-- The arrival of the last byte of a load: `k` its place in the load queue (R119). A load whose requester is cut off
completes and brings no element (R320, log 70). -/
def State.landLoad (s : State) (i k : Nat) (l : Load) : State :=
  let x := s.spar i
  let rd := if l.dome then memByte s.dome else memByte x.scratch
  let t := if l.read then l.tile else readTile rd l
  match x.place t (k = 0) l.direct with
  | none => s
  | some y =>
    if ¬ l.dome then
      (if l.behind = 0 then s.setSpar i { y with loads := y.loads.set k { l with arrived := true, tile := t } } else s)
    else
      let rs := loadRanges rd l
      let land := fun (s : State) t => match (s.spar i).place t (k = 0) l.direct with
        | none => s
        | some y => s.setSpar i { y with loads := y.loads.set k { l with arrived := true, tile := t } }
      if x.writesAhead l.num rs then s
      else s.portGate i (s.sparPart i) rs (fun s => land s { t with cols := t.cols.map (·.map fun _ => none) }) fun s =>
        match s.poisonedOf (rangeLines rs) with
        | [] => land s t
        | ls => ((s.modSpar i fun z => { z with loads := z.loads.set k { l with dead := true } }).countUe ls).sparUe i
            l.bundle 3 0 x.phase ls

/-- STATIONARY_LOAD_COMPLETE: the oldest load whose bytes have not arrived (R95, R119). -/
def loadComplete (i : Nat) (s : State) : State :=
  let x := s.spar i
  match x.loads with
  | [] => s
  | l :: r =>
    if ¬ l.arrived then (if l.dead then s else s.landLoad i 0 l)
    else match r with
      | m :: _ => if m.arrived ∨ m.dead then s else s.landLoad i 1 m
      | [] => s

/-- The second part of the active tile has not moved into the freed set yet (R113). -/
def Spar.partWaits (x : Spar) : Bool := x.twoActive && x.second.isNone

/-- STAGED_TILE_MOVE: a staged tile moves into the freed background set, or the second part of the active tile into the
freed set (R113, R119). -/
def stagedMove (i : Nat) (s : State) : State :=
  let x := s.spar i
  match x.staging with
  | none => s
  | some t =>
    if t.part2 then
      if x.partWaits then s.setSpar i { x with second := some t, staging := none } else s
    else if x.twoActive ∨ x.back.isSome then s
    else s.setSpar i { x with back := some t, staging := none }

/-! Start of an array instruction (R110-R113, R126, R130). -/

/-- The swap of R111 and R113: the oldest load's tile becomes active; none while it is not complete. -/
def Spar.swapIn (x : Spar) : Option Spar :=
  match x.loads with
  | [] => none
  | l :: r =>
    if ¬ l.arrived then none
    else if x.twoActive then
      match x.staging with
      | some t => if t.part2 then none
        else some { x with
          active := some t, second := (if t.two then some { t with part2 := true } else none), staging := none, loads := r }
      | none => none
    else match x.back with
      | some t => some { x with active := some t, second := none, back := none, loads := r }
      | none => none

/-- Rows an array instruction lands: a MODE 0 tile streams its rows twice (R126). -/
def ArrOp.passes (o : ArrOp) (t : Option Tile) : Nat :=
  if t.any (fun t => t.sparse && t.mode = 0) then 2 * o.m else o.m

/-- Array counter :`sub` of the spar's tower grows by `n` (Table 4-9). -/
def State.arrayCount (s : State) (i sub n : Nat) : State := s.odAdd 0 (0x2310 + sparTower i) sub n

/-- Stream cycles of one row of a started instruction (Table 4-1). -/
def ArrRun.rowCycles (r : ArrRun) : Nat := ((pairOf r.op.f1 r.op.f2).map (·.c)).getD 1

/-- Stream cycles of the rows of a started instruction that have not landed: a MODE 3 tile and `mew` with SRC = 0 take eight
rows a cycle (R127, R135). -/
def ArrRun.cyclesLeft (r : ArrRun) : Nat :=
  let n := r.total - r.next
  if r.op.kind = .mmx then (if r.tile.any (fun t => t.sparse && t.mode = 3) then ceilDiv n 8 else r.rowCycles * n)
  else if r.op.src = 1 then n else ceilDiv n 8

/-- The previous slot-3 instruction can have streamed its last row (R110): the rows that have not landed are at most those
that the c + 39 cycles between a row's stream cycle and its landing hold (log 69), and each is in the queues (R117). -/
def Spar.streamedOut (x : Spar) : Bool :=
  match x.rows with
  | [] => true
  | r :: _ => decide ((x.rows.map ArrRun.cyclesLeft).sum ≤ r.rowCycles + 39) &&
      x.rows.all fun r => r.wants = 0 || r.op.queued.length = r.total - r.next

/-- The head of the stream queue has left it. -/
def Spar.popStream (x : Spar) : Spar := { x with stream := x.stream.drop 1 }

/-- ARRAY_INSTRUCTION_START of an `mmx`; a start with an empty active set counts among the plain tiles (log 68). -/
def startMmx (i : Nat) (o : ArrOp) (s : State) : State :=
  let x := s.spar i
  if x.partWaits then s
  else match o.listBad with
  | some v => (s.setSpar i x.popStream).sparFault i 0x0103 o.lbundle 6 0 0 (ofSigned 64 v) x.phase
  | none =>
    match (if o.swap then x.swapIn else some x) with
    | none => s
    | some y =>
      let z := y.popStream
      let bad := z.active.any fun t => t.sparse && t.bad.isSome
      if bad then (s.setSpar i z).sparFault i 0x0102 o.bundle 3 0 0 (z.active.bind (·.bad) |>.getD 0) x.phase
      else
        let n := o.passes z.active
        let mode := (z.active.map fun t => if t.sparse then t.mode else 0).getD 0
        let o := if mode = 3 then { o with queued := [] } else o
        ((s.setSpar i (if n = 0 then z else { z with rows := z.rows ++ [{ op := o, tile := z.active, total := n }] })
          ).feed i).arrayCount i (4 + mode) 1

/-- ARRAY_INSTRUCTION_START of a `mew` (R134). -/
def startMew (i : Nat) (o : ArrOp) (s : State) : State :=
  let x := s.spar i
  if x.partWaits then s
  else
    let n := if o.src = 1 then o.m else (x.active.map fun t => loadDepth t.fmt).getD 0
    let z := x.popStream
    s.setSpar i (if n = 0 then z else { z with rows := z.rows ++ [{ op := o, tile := x.active, total := n }] })

/-- ARRAY_INSTRUCTION_START: the head of the stream queue, once the previous instruction has streamed its last row (R110). -/
def arrayStart (i : Nat) (s : State) : State :=
  match (s.spar i).stream with
  | o :: _ => if ¬ (s.spar i).streamedOut then s else match o.kind with
    | .mmx => startMmx i o s
    | .mew => startMew i o s
    | .mwb => s
    | .mal => s
  | [] => s

/-! The arithmetic of one row (02 R43-R47, 04 R123). -/

/-- One operand of a product: whether its element is zero, and its value with its scale. -/
structure Opnd where
  /-- the element is zero -/
  z : Bool
  /-- its value, scale included; NaN for an element of a non-finite block -/
  v : FVal
deriving DecidableEq, Repr

/-- An operand from its element and scale codes. -/
def opnd (f : Nat) (e : Nat × Nat) : Opnd := ⟨elemIsZero f e.1, scaledVal f e.1 e.2⟩

/-- The list cut into pieces of `g`. -/
def chunks {α : Type} (g : Nat) : Nat → List α → List (List α)
  | 0, _ => []
  | n + 1, l => if l.isEmpty then [] else l.take g :: chunks g n (l.drop g)

/-- Positions where both operands are present (R46, log 17). -/
def both (ab : List (Option Opnd × Option Opnd)) : List (Opnd × Opnd) :=
  ab.filterMap fun p => match p.1, p.2 with
    | some a, some b => some (a, b)
    | _, _ => none

/-- Value of one group (R43, R45). -/
def groupValue (ab : List (Option Opnd × Option Opnd)) : W32 :=
  toF32 (groupSum ((both ab).map fun p => p.1.v.mul p.2.v))

/-- One output column of a row: the groups added in ascending order (R44). -/
def colUpdate (g : Nat) (acc : W32) (col row : List (Option Opnd)) : W32 :=
  (chunks g (col.length + 1) (col.zip row)).foldl (fun a ab => f32Add a (groupValue ab)) acc

/-- Multipliers that switch in one stream cycle of a column (R123). -/
def switching (col row : List (Option Opnd)) : Nat :=
  (both (col.zip row)).countP fun p => !((p.1.z || p.2.z) && p.1.v.isFin && p.2.v.isFin)

/-- A_hi of R47. -/
def splitHi (v : FVal) : FVal :=
  if v.isFin then
    match bf16Val (toBf16 v) with
    | .inf n => bf16Val (if n then 0xFF7F else 0x7F7F)
    | w => w
  else v

/-- A_lo of R47. -/
def splitLo (v : FVal) : FVal :=
  if v.isFin then bf16Val (toBf16 (v.add (splitHi v).neg)) else .fin false 0 0

/-- An operand's part. -/
def Opnd.part (p : FVal → FVal) (a : Opnd) : Opnd := ⟨(p a.v).isZero, p a.v⟩

/-- The three passes of R47: the parts of stationary and streamed operands. A is the stationary operand and B the streamed
one; the spec names no side (DESIGN CHOICE, log 68). -/
def splitPasses : List ((FVal → FVal) × (FVal → FVal)) :=
  [(splitLo, splitHi), (splitHi, splitLo), (splitHi, splitHi)]

/-- A group in which any present stationary or streamed FP32 operand is NaN or infinite is not split (R47). -/
def wholeGroup (ab : List (Option Opnd × Option Opnd)) : Bool :=
  ab.any fun p => p.1.any (fun a => !a.v.isFin) || p.2.any fun b => !b.v.isFin

/-- Group value in pass `j` of an FP32 row (R47). -/
def splitValue (j : Nat) (p : (FVal → FVal) × (FVal → FVal)) (ab : List (Option Opnd × Option Opnd)) : W32 :=
  if wholeGroup ab then (if j = 0 then groupValue ab else 0)
  else groupValue (ab.map fun c => (c.1.map (Opnd.part p.1), c.2.map (Opnd.part p.2)))

/-- One output column of an FP32 row (R47, R112). -/
def colUpdate32 (g : Nat) (acc : W32) (col row : List (Option Opnd)) : W32 :=
  let cs := chunks g (col.length + 1) (col.zip row)
  (splitPasses.zipIdx).foldl (fun a pj => cs.foldl (fun a ab => f32Add a (splitValue pj.2 pj.1 ab)) a) acc

/-- Multipliers of a column that switch in the three passes of an FP32 row; the elements of a group that is not split are
judged as they are (R47, R123). -/
def switching32 (g : Nat) (col row : List (Option Opnd)) : Nat :=
  ((chunks g (col.length + 1) (col.zip row)).map fun ab =>
    if wholeGroup ab then 3 * switching (ab.map (·.1)) (ab.map (·.2))
    else (splitPasses.map fun p =>
      switching (ab.map fun c => c.1.map (Opnd.part p.1)) (ab.map fun c => c.2.map (Opnd.part p.2))).sum).sum

/-- The operands of positions `lo` to `lo + n - 1` of streamed row `i`, from its entry in the queues. -/
def ArrOp.rowOperands (o : ArrOp) (w : FeedRow) (i lo n : Nat) : List (Option Opnd) :=
  let d := Desc.of o.desc
  let v := leNat w.elems
  (List.range n).map fun j =>
    let k := lo + j
    (o.cell i k).map fun _ =>
      opnd d.fmt (bitsOf v (k * d.bits) d.bits, if d.g = 0 then 0 else (w.scales.getD (k / d.g) 0).toNat)

/-- What landing row `next` of an `mmx` does: the accumulator entries after it, and the multiply-accumulates gated. -/
def landMmx (x : Spar) (r : ArrRun) (p : Pair) : Spar × Nat :=
  let o := r.op
  let sparse := r.tile.any (·.sparse)
  let mode0 := r.tile.any fun t => t.sparse && t.mode = 0
  let mode3 := r.tile.any fun t => t.sparse && t.mode = 3
  let kk := if sparse then 2 * p.kt else p.kt
  let half := if mode0 ∧ o.m ≤ r.next then 1 else 0
  let i := if half = 1 then r.next - o.m else r.next
  let lo := half * p.kt
  let n := if sparse ∧ ¬ mode0 then kk else p.kt
  let row := if mode3 then [] else o.rowOperands (o.queued.headD {}) i lo n
  let cols : Nat → Option (List (Option Opnd)) := fun c => match r.tile with
    | none => some []
    | some t => (t.cols[c]?).map fun col => ((col.drop lo).take n).map fun e => e.map (opnd t.fmt)
  let live := (List.range 128).filterMap fun c => if o.colMask.getLsbD c then (cols c).map fun col => (c, col) else none
  let fresh := o.fresh && half = 0
  let y := live.foldl (fun y cc =>
    let e := o.base + 128 * i + cc.1
    let acc := if fresh then 0 else x.accGet e
    let v := if mode3 ∨ r.tile.isNone then f32Add acc 0
      else if p.c = 3 then colUpdate32 p.g acc cc.2 row else colUpdate p.g acc cc.2 row
    y.accSet e v) x
  let sw := if mode3 then 0 else (live.map fun cc => if p.c = 3 then switching32 p.g cc.2 row else switching cc.2 row).sum
  let macs := if mode3 then (if i % 8 = 0 then p.kt * 128 else 0) else p.c * p.kt * 128
  (y, macs - sw)

/-- A `mew` operation (R134). -/
def mewFn (op : Nat) (e w : W32) : W32 :=
  match op with
  | 0 => f32Add e w | 1 => f32Mul e w | 2 => f32Max e w | 3 => f32Min e w | _ => w

/-- Landing row `next` of a `mew` (R134, log 17). -/
def landMew (x : Spar) (r : ArrRun) : Spar :=
  let o := r.op
  let d := Desc.of o.desc
  let ws : List (Nat × W32) :=
    if o.src = 1 then (accCols d o.origin o.colMask).map fun j =>
      (j, if o.r0 + r.next < d.rows then readWide (memByte x.scratch) d o.origin (o.r0 + r.next) (o.c0 + j) else 0)
    else match r.tile with
      | none => []
      | some t => (t.cols.zipIdx.filter fun c => o.colMask.getLsbD c.2).map fun c =>
          (c.2, match (c.1[r.next]?).join with
            | some e => widen t.fmt e.1 e.2
            | none => 0)
  ws.foldl (fun y w =>
    let e := o.base + 128 * r.next + w.1
    y.accSet e (mewFn o.op (y.accGet e) w.2)) x

/-- Gated multiply-accumulates counted in units of 1,024 (Table 4-9). -/
def State.countGated (s : State) (i n : Nat) : State :=
  let g := (s.spar i).gated + n
  (s.modSpar i fun y => { y with gated := g % 1024 }).arrayCount i 8 (g / 1024)

/-- The oldest started instruction has landed one row more; the row has left the queues, and the feeder reads on. -/
def Spar.rowDone (x : Spar) : Spar :=
  match x.rows with
  | r :: rs =>
    ({ x with rows := if r.total ≤ r.next + 1 then rs
        else { r with next := r.next + 1, op := { r.op with queued := r.op.queued.drop 1 } } :: rs } : Spar).fillFeeder
  | [] => x

/-- The row's bytes are not all in the queues (R117), or it needs a part of the tile that has not moved into its set yet
(R113, R126). -/
def Spar.rowWaits (x : Spar) (r : ArrRun) : Bool :=
  (r.wants != 0 && r.op.queued.isEmpty) || x.partWaits && r.op.kind = .mmx && r.tile.any (fun t => t.two && (t.fmt = 12 || decide (r.op.m ≤ r.next)))

/-- ARRAY_ROW_LANDS: the next row of the oldest started instruction (R110, R111). -/
def rowLands (i : Nat) (s : State) : State :=
  let x := s.spar i
  match x.rows with
  | [] => s
  | r :: _ =>
    if x.rowWaits r then s
    else match r.op.kind with
      | .mmx =>
        match pairOf r.op.f1 r.op.f2 with
        | none => s
        | some p =>
          let z := landMmx x r p
          let mode3 := r.tile.any fun t => t.sparse && t.mode = 3
          let cyc := if mode3 then (if r.next % 8 = 0 then 1 else 0) else p.c
          ((s.setSpar i z.1.rowDone).countGated i z.2).arrayCount i 1 cyc
      | .mew => s.setSpar i (landMew x r).rowDone
      | .mwb => s
      | .mal => s

/-- MAL_CLEAR: the region of the `mal` at the head of the stream queue is cleared once every earlier row has landed (R141). -/
def malClear (i : Nat) (s : State) : State :=
  let x := s.spar i
  match x.stream with
  | o :: _ =>
    if o.kind = .mal ∧ x.rows = [] then
      s.setSpar i { x.popStream with acc := x.acc.filter fun e => !(o.base ≤ e.1 && e.1 < o.base + o.m) }
    else s
  | [] => s

/-- The rows an `mwb` reads, as values to store (R144, R162). -/
def mwbItems (x : Spar) (o : ArrOp) : List Item :=
  let d := Desc.of o.desc
  (List.range o.m).flatMap fun i =>
    if o.r0 + i < d.rows then
      (accCols d o.origin o.colMask).map fun j => ((o.r0 + i, o.c0 + j), x.accGet (o.base + 128 * i + j))
    else []

/-- A scratch load issued before a write-back takes its bytes before the write-back writes (R95); the loads issued behind it
have one write-back less to wait for. -/
def Load.passWriteback (rd : Nat → Byte) (l : Load) : Load :=
  if l.behind = 0 then
    if l.dome ∨ l.arrived ∨ l.read then l else { l with tile := readTile rd l, read := true }
  else { l with behind := l.behind - 1 }

/-- MWB_READ_START: the write-back at the head of the stream queue reads its rows and writes them (R144). Its CLEAR sets every
entry of its rows, masked columns with them: each row is read whole (log 68). -/
def mwbStart (i : Nat) (s : State) : State :=
  let x := s.spar i
  match x.stream with
  | o :: _ =>
    if o.kind = .mwb ∧ x.rows = [] then
      let d := Desc.of o.desc
      let q := s.sparPart i
      let r := storeItems (s.policy q d.policy x.step.toNat d.tid) d o.origin (mwbItems x o) x.scratch
      let acc := if o.swap then x.acc.filter fun e => !(o.base ≤ e.1 && e.1 < o.base + 128 * o.m) else x.acc
      ((s.setSpar i { x.popStream with
        loads := x.loads.map (Load.passWriteback (memByte x.scratch)), scratch := r.1, acc := acc }).feed i).countRange q d.layer r.2
    else s
  | [] => s

/-- Every array operation of the spar is complete (R97). -/
def Spar.arrayIdle (x : Spar) : Bool := x.stream.isEmpty && x.rows.isEmpty && x.loads.all (·.arrived)

end Sys2Proof.Machine
end

