-- ==== Sys2Proof/Machine/Tackle.lean ====
section
/-! DEFINITION. The tackle engine (06.1-06.7): checks and effects of slot 6, index lists, row moves, additions through the
conflict queues, list feeds of the array, and the domes' work counters. -/

namespace Sys2Proof.Machine

open Sys2Proof

/-! Operands (Table 6-1). -/

/-- n of a list operation: s[X][31:0] (R169). -/
def listN (x : Spar) (f : Fields) : Nat := (x.sget f.x.toNat).toNat % 2 ^ 32

/-- K of `tg.unperm` and `tk.perm`; 1 of the other operations. -/
def listK (w : SlotWord) : Nat := if w.op = 0x02 ∨ w.op = 0x05 then w.f.immBits 33 4 + 1 else 1

/-- Bytes of an index (R173). -/
def idxBytes (i16 : Bool) : Nat := if i16 then 2 else 4

/-- The operation a slot-6 word 0x01 to 0x06 issues. -/
def tkOpOf (x : Spar) (w : SlotWord) : TkOp :=
  let f := w.f
  let op := w.op.toNat
  { op := op, list := (x.aget f.a.toNat).toNat, src := x.tget f.b.toNat,
    dst := if op = 1 ∨ op = 3 ∨ op = 5 then x.tget f.c.toNat else 0,
    base := (x.aget f.d.toNat).toNat, wlist := (x.aget f.c.toNat).toNat, n := listN x f,
    srcDome := f.modBit 0 && op ≠ 4 && op ≠ 6, dstDome := f.modBit 1 && (op = 1 || op = 3 || op = 5),
    i16 := f.modBit 2, skip := BitVec.ofNat 32 (f.immBits 0 32), sken := f.imm.getLsbD 32, k := listK w,
    rbound := f.immBits 48 16, fmode := f.imm.getLsbD 40 && op = 6, bundle := x.pc }

/-! Checks at issue (Table 6-6). -/

/-- A tensor's rows and scales lie wholly in scratch, or in the partition's map when in dome. -/
def State.tensorFits (s : State) (q : Nat) (dome : Bool) (d : Desc) : Bool :=
  let ok := fun a n => n = 0 || (if dome then s.rangeInMap q a n else decide (a + n ≤ scratchBytes))
  ok d.base (d.rows * d.rstride) && (d.g = 0 || ok d.sbase (d.rows * d.sstride))

/-- A descriptor breaks the rules of row operations (Table 6-6). -/
def rowDescBad (d : Desc) : Bool :=
  d.layout ≠ 0 || d.plist || d.mdbase ≠ 0 || (d.g ≠ 0 && (d.sdir = 1 || d.cols % d.g ≠ 0)) ||
  (d.swz && (d.base % 1024 ≠ 0 || d.rstride % 1024 ≠ 0))

/-- TILE_BOUNDS with a value. -/
def badTile (v : Nat) : IFault := ⟨0x0105, 0, v⟩

/-- Checks of the list operations 0x01 to 0x06. -/
def chkList (s : State) (x : Spar) (i : Nat) (w : SlotWord) : List IFault :=
  let o := tkOpOf x w
  let src := Desc.of o.src
  let dst := Desc.of o.dst
  let two := o.op = 1 ∨ o.op = 3 ∨ o.op = 5
  let n := o.n
  let isz := idxBytes o.i16
  let q := s.sparPart i
  let listBad := o.list % isz ≠ 0 || scratchBytes < o.list + n * isz
  if o.op = 6 then
    (if 16777216 < n ∨ n = 0 ∨ (if o.fmode then 4096 else 512) < n ∨ (o.fmode ∧ o.sken) then [badTile n] else []) ++
    (if listBad then [badTile o.list] else [])
  else
    let b4 := !storageFmt src.fmt || (two && (!storageFmt dst.fmt || dst.fmt ≠ src.fmt)) ||
      (o.op = 4 && src.fmt ≠ 12 && src.fmt ≠ 10)
    let nBad := 16777216 < n || rowDescBad src || (two && (rowDescBad dst || dst.cols ≠ src.cols)) ||
      (o.op = 1 && dst.rows < n) || ((o.op = 3 || o.op = 4) && src.rows < n) || (o.op = 5 && src.rows < ceilDiv n o.k)
    let aBad := listBad || (o.op = 2 && (o.wlist % 4 ≠ 0 || scratchBytes < o.wlist + 4 * n)) ||
      !s.tensorFits q o.srcDome src || (two && !s.tensorFits q o.dstDome dst)
    let rows := if o.op = 4 then o.rbound else ceilDiv n o.k
    let dBad := (o.op = 2 || o.op = 4) &&
      (src.cols = 0 || 1024 < src.cols || (o.op = 4 && o.rbound = 0) || !x.inRegion o.base (rows * src.cols))
    (if b4 then [badBundle 4 0] else []) ++ (if nBad then [badTile n] else []) ++
    (if aBad then [badTile o.list] else []) ++ (if dBad then [badTile o.base] else [])

/-- Counter number of `tk.claim` and `tk.done`: s[A][15:0] (R190). -/
def ctrOf (x : Spar) (f : Fields) : Nat := (x.sget f.a.toNat).toNat % 65536

/-- Checks of `tk.claim` and `tk.done`. -/
def chkClaim (s : State) (x : Spar) (i : Nat) (w : SlotWord) : List IFault :=
  let f := w.f
  let c := (x.sget f.c.toNat).toNat
  let sel := f.mod.toNat % 4
  (if w.op = 0x07 ∧ sel = 1 ∧ (c = 0 ∨ 4096 < c ∨ 0xFFFFFFFFFF < (x.sget f.b.toNat).toNat + c) then [badTile c] else []) ++
  (if s.domePart (ctrOf x f / 4096) ≠ s.sparPart i then [⟨0x0103, 0, ctrOf x f⟩] else [])

/-- Encoding checks of slot 6: `tk.claim` with MOD[1:0] = 3. -/
def encSlot6 (w : SlotWord) : List IFault :=
  if w.op = 0x07 ∧ w.f.mod.toNat % 4 = 3 then [badBundle 1 0] else []

/-! Effects at issue. -/

/-- A list operation joins the engine's queue (R168). -/
def pushTk (op : Nat) : SlotEff := fun x i f s =>
  s.modSpar i fun y =>
    { y with tackleQ := y.tackleQ ++ [{ tkOpOf x ⟨BitVec.ofNat 8 op, f⟩ with num := y.opNum }], opNum := y.opNum + 1 }

/-- `tg.gather`. -/
def effTgGather : SlotEff := pushTk 0x01
/-- `tg.unperm`. -/
def effTgUnperm : SlotEff := pushTk 0x02
/-- `tk.scatter`. -/
def effTkScatter : SlotEff := pushTk 0x03
/-- `tk.scatadd`. -/
def effTkScatadd : SlotEff := pushTk 0x04
/-- `tk.perm`. -/
def effTkPerm : SlotEff := pushTk 0x05
/-- `tk.rowfeed`. -/
def effTkRowfeed : SlotEff := pushTk 0x06

/-- A counter operation goes to its dome (R168, R191). -/
def pushClaim (op : CtrOp) (a b : W64) : SlotEff := fun x i f s =>
  s.modSpar i fun y => { y with claims := y.claims ++ [
    { op := op, ctr := ctrOf x f, a := a, b := b, dest := f.d.toNat, bundle := x.pc }] }

/-- `tk.claim` by its selector MOD[1:0]. -/
def effTkClaim : SlotEff := fun x i f s =>
  match f.mod.toNat % 4 with
  | 1 => pushClaim .reset (x.sget f.b.toNat) (x.sget f.c.toNat) x i f s
  | 2 => pushClaim .query 0 0 x i f s
  | _ => pushClaim .claim 0 0 x i f s
/-- `tk.done`. -/
def effTkDone : SlotEff := fun x i f s => pushClaim .done (x.sget f.b.toNat) 0 x i f s

/-! Index lists (R173, R174). -/

/-- Index at list position `p`, sign-extended. -/
def listIdx (x : Spar) (o : TkOp) (p : Nat) : Int :=
  let b := idxBytes o.i16
  toSigned (8 * b) (leNat (x.scr (o.list + p * b) b))

/-- SKIP as an index: bits [15:0] for an I16 list; none when SKEN = 0. -/
def TkOp.skipVal (o : TkOp) : Option Int :=
  if o.sken then some (toSigned (8 * idxBytes o.i16) o.skip.toNat) else none

/-- Index bound of an operation (Table 6-2). -/
def TkOp.bound (o : TkOp) : Nat :=
  if o.op = 1 ∨ o.op = 2 then (Desc.of o.src).rows
  else if o.op = 3 ∨ o.op = 5 then (Desc.of o.dst).rows
  else o.rbound

/-- Blocks of the list (R175). -/
def TkOp.blocks (o : TkOp) : Nat := ceilDiv o.n 4096

/-- Positions of block `b`. -/
def TkOp.blockPos (o : TkOp) (b : Nat) : List Nat := (List.range (min 4096 (o.n - 4096 * b))).map fun j => 4096 * b + j

/-- Positions of a block with their indices; none for a skip. -/
def blockIdx (x : Spar) (o : TkOp) (b : Nat) : List (Nat × Option Int) :=
  (o.blockPos b).map fun p => (p, let v := listIdx x o p; if isSkip o.skipVal v then none else some v)

/-- The first index of a block out of bounds (R176). -/
def firstBad (bound : Nat) (l : List (Nat × Option Int)) : Option Int :=
  l.findSome? fun e => match e.2 with
    | some v => if idxIn bound v then none else some v
    | none => none

/-! Rows (R170, R171). -/

/-- Addresses of the bytes of tensor row `r`: elements, then scales. -/
def rowBytes (d : Desc) (r : Nat) : List Nat :=
  ((List.range (ceilDiv (d.cols * d.bits) 8)).map fun j => swizzle d r (d.base + r * d.rstride + j)) ++
  (if d.g = 0 then [] else (List.range (d.cols / d.g)).map fun j => d.sbase + r * d.sstride + j)

/-- Row moves of a block in list order: source row, none for a gather's skip, and destination row (Table 6-2, R177, R178). -/
def rowMoves (o : TkOp) (l : List (Nat × Option Int)) : List (Option Nat × Nat) :=
  l.filterMap fun e =>
    if o.op = 1 then some (e.2.map Int.toNat, e.1)
    else match e.2 with
      | some v => some (some (if o.op = 5 then e.1 / o.k else e.1), v.toNat)
      | none => none

/-- Reads a gather coalesces: a position whose index equals the one before it in its window of 16 (R177). -/
def coalesced (l : List (Nat × Option Int)) : Nat :=
  (l.zip (l.drop 1)).countP fun p => p.2.2.isSome && p.1.2 = p.2.2 && p.2.1 % 16 ≠ 0

/-- One row moved; the lines met poisoned are gathered (R309, R310, R320, Table 10-4). -/
def moveRow (i : Nat) (o : TkOp) (acc : State × List Nat) (m : Option Nat × Nat) : State × List Nat :=
  let s := acc.1
  let x := s.spar i
  let src := Desc.of o.src
  let dst := Desc.of o.dst
  let orig := match m.1 with
    | some r => rowBytes src r
    | none => []
  let dest := rowBytes dst m.2
  let bad := if o.srcDome then s.poisonedOf (uniq (orig.map lineOf)) else []
  if bad ≠ [] then (s.countUe bad, acc.2 ++ bad)
  else
    let rd := if o.srcDome then memByte s.dome else memByte x.scratch
    let bs : Bytes := match m.1 with
      | some _ => orig.map rd
      | none => dest.map fun _ => 0
    let cells := dest.zip bs
    if o.dstDome then
      let r := s.domePutCells cells
      (r.1, acc.2 ++ r.2)
    else (s.setSpar i { x with scratch := applyWrites x.scratch cells }, acc.2)

/-- Device ranges the row moves of a block touch. -/
def moveRanges (o : TkOp) (ms : List (Option Nat × Nat)) : List (Nat × Nat) :=
  (if o.srcDome then ms.flatMap fun m => match m.1 with
    | some r => (rowBytes (Desc.of o.src) r).map fun a => (a, 1)
    | none => [] else []) ++
  (if o.dstDome then ms.flatMap fun m => (rowBytes (Desc.of o.dst) m.2).map fun a => (a, 1) else [])

/-! Additions (R181-R183). -/

/-- Contributions of list position `p`, one per column: entry and value. -/
def posAdds (rd : Nat → Byte) (x : Spar) (o : TkOp) (p : Nat) (v : Int) : List AccReq :=
  let d := Desc.of o.src
  let sr := if o.op = 2 then v.toNat else p
  let ar := if o.op = 2 then p / o.k else v.toNat
  let wt : W32 := BitVec.ofNat 32 (leNat (x.scr (o.wlist + 4 * p) 4))
  (List.range d.cols).map fun j =>
    let e := readWide rd d d.whole sr j
    { entry := o.base + ar * d.cols + j, val := if o.op = 2 then f32Mul e wt else e }

/-- The additions of a block in the order they reach the queues: windows of 16 positions, column by column, lane by lane. -/
def blockAdds (adds : List (List AccReq)) (w : Nat) : List AccReq :=
  (chunks 16 (adds.length + 1) adds).flatMap fun win =>
    (List.range w).flatMap fun j => win.filterMap fun l => l[j]?

/-- Bank of an accumulator entry (R136). -/
def bankOf (e : Nat) : Nat := e / 32 % 32

/-- Requests enter the conflict queues in order until one meets a full queue (R138). -/
def enterQueues : List AccReq → List (Nat × List AccReq) → List (Nat × List AccReq) × List AccReq
  | [], banks => (banks, [])
  | r :: rs, banks =>
    let q := mapGet [] banks (bankOf r.entry)
    if 64 ≤ q.length then (banks, r :: rs)
    else enterQueues rs (mapSet [] banks (bankOf r.entry) (q ++ [r]))

/-- Waiting additions enter the queues; the operation ends once its last block's have (R175). -/
def Spar.pumpAdds (x : Spar) : Spar :=
  match x.tackle with
  | none => x
  | some r =>
    let e := enterQueues r.reqs x.banks
    { x with banks := e.1,
             tackle := if e.2 = [] ∧ r.op.blocks ≤ r.block then none else some { r with reqs := e.2 } }

/-! The engine's events (R175, R176). -/

/-- Tackle counter :`sub` of the spar's tower grows by `n` (Table 6-7). -/
def State.tackleCount (s : State) (i sub n : Nat) : State := s.odAdd 0 (0x2410 + sparTower i) sub n

/-- TACKLE_OPERATION_START (R168, R175). -/
def tackleStart (i : Nat) (s : State) : State :=
  let x := s.spar i
  match x.tackle, x.tackleQ with
  | none, o :: r =>
    (s.setSpar i { x with tackleQ := r, tackle := if o.n = 0 then none else some { op := o } }).tackleCount i 1 1
  | _, _ => s

/-- The operation goes on with its next block, or ends. -/
def Spar.nextBlock (x : Spar) : Spar :=
  match x.tackle with
  | some r => { x with tackle := if r.op.blocks ≤ r.block + 1 then none else some { r with block := r.block + 1 } }
  | none => x

/-- The operation stops at its present block. -/
def Spar.endTackle (x : Spar) : Spar := { x with tackle := none }

/-- A block of a row-moving operation (R177, R178, R309). BLOCK of its DOME_UE is the block number, as Table 10-4 says and
against Table 3-10 (log 12). -/
def blockRows (i : Nat) (o : TkOp) (b : Nat) (l : List (Nat × Option Int)) (s : State) : State :=
  let r := (rowMoves o l).foldl (moveRow i o) (s, [])
  let s1 := if o.op = 1 then r.1.tackleCount i 4 (coalesced l) else r.1
  if r.2 = [] then s1.modSpar i Spar.nextBlock
  else (s1.modSpar i Spar.endTackle).sparUe i o.bundle 6 b (s1.spar i).phase r.2

/-- A block of an accumulating operation (R181-R183, R309). -/
def blockAccum (i : Nat) (o : TkOp) (b : Nat) (l : List (Nat × Option Int)) (s : State) : State :=
  let x := s.spar i
  let d := Desc.of o.src
  let rd := if o.srcDome then memByte s.dome else memByte x.scratch
  let rowOf := fun (e : Nat × Option Int) => if o.op = 2 then (e.2.getD 0).toNat else e.1
  let as := fun e => rowBytes d (rowOf e)
  let live := l.filter fun e => e.2.isSome
  let bad := if o.srcDome then s.poisonedOf (uniq (live.flatMap fun e => (as e).map lineOf)) else []
  let lost := fun e => o.srcDome && ((as e).any fun a => bad.contains (lineOf a))
  let adds := l.map fun e => match e.2 with
    | some v => if lost e then [] else posAdds rd x o e.1 v
    | none => []
  let reqs := blockAdds adds d.cols
  let s1 := s.setSpar i
    { x with tackle := some { op := if bad = [] then o else { o with n := min o.n (4096 * (b + 1)) }, block := b + 1, reqs := reqs } }
  let s2 := s1.modSpar i Spar.pumpAdds
  if bad = [] then s2 else (s2.countUe bad).sparUe i o.bundle 6 b x.phase bad

/-- A `tk.rowfeed` queues its list (R186, R187). -/
def blockFeed (i : Nat) (o : TkOp) (s : State) : State :=
  s.modSpar i fun x =>
    let l : RowList := { idx := (o.blockPos 0).map (listIdx x o), skip := o.skipVal, bundle := o.bundle }
    if o.fmode then { x with blockLists := x.blockLists ++ [l], tackle := none }
    else { x with rowLists := x.rowLists ++ [l], tackle := none }

/-- INDEX_BLOCK_VALIDATED: the next block of the operation in progress is validated and, once the dome ports have granted its
slots, accessed (R175, R176, R300). A block whose requester is cut off completes without effect (R320). -/
def blockValidated (i : Nat) (s : State) : State :=
  let x := s.spar i
  match x.tackle with
  | none => s
  | some r =>
    let o := r.op
    let b := r.block
    if r.reqs ≠ [] ∨ o.blocks ≤ b then s
    else
      let l := blockIdx x o b
      match (if o.op = 6 ∧ ¬ o.fmode then none else firstBad o.bound l) with
      | some v => (s.modSpar i Spar.endTackle).sparFault i 0x0103 o.bundle 6 0 b (ofSigned 64 v) x.phase
      | none =>
        let rs := if o.op = 6 then [] else if o.op = 2 ∨ o.op = 4 then
            (if o.srcDome then l.flatMap fun e => match e.2 with
              | some v => (rowBytes (Desc.of o.src) (if o.op = 2 then v.toNat else e.1)).map fun a => (a, 1)
              | none => [] else [])
          else moveRanges o (rowMoves o l)
        let reads := if o.srcDome then rs else []
        if x.writesAhead o.num reads then s
        else s.portGate i (s.sparPart i) rs (fun s => s.modSpar i Spar.nextBlock) fun s =>
          let s1 := (s.tackleCount i 2 l.length).tackleCount i 3 (l.countP fun e => e.2.isNone)
          if o.op = 6 then blockFeed i o s1
          else if o.op = 2 ∨ o.op = 4 then blockAccum i o b l s1
          else blockRows i o b l s1

/-- CONFLICT_QUEUE_SERVE: the head of a bank's conflict queue is added to its entry (R137, R138). -/
def serveBank (i bank : Nat) (s : State) : State :=
  let x := s.spar i
  match mapGet [] x.banks bank with
  | [] => s
  | r :: rs =>
    let y := { x with banks := mapSet [] x.banks bank rs }
    s.setSpar i (y.accSet r.entry (f32Add (x.accGet r.entry) r.val)).pumpAdds

/-- Every tackle operation and counter operation of the spar is complete (R97). -/
def Spar.tackleIdle (x : Spar) : Bool :=
  x.tackleQ.isEmpty && x.tackle.isNone && x.banks.isEmpty && x.claims.isEmpty

/-! Work counters (R190-R196). -/

/-- Job-start resets of dome `d`'s counters (R190). -/
def State.resetsOf (s : State) (d : Nat) : Nat := mapGet 0 s.ctrResets d

/-- Work counter with a 16-bit number. -/
def State.counter (s : State) (n : Nat) : WorkCounter :=
  let k := mapGet {} s.counters n
  { k with epoch := (k.epoch + s.resetsOf (n / 4096)) % 2 ^ 24 }

/-- Work counter `n` replaced. -/
def State.setCounter (s : State) (n : Nat) (k : WorkCounter) : State :=
  let e := (k.epoch + 2 ^ 24 - s.resetsOf (n / 4096) % 2 ^ 24) % 2 ^ 24
  { s with counters := mapSet {} s.counters n { k with epoch := e } }

/-- Word of a counter result: EPOCH in [63:40]. -/
def epochWord (e low : Nat) : W64 := BitVec.ofNat 64 (e * 2 ^ 40 + low)

/-- `counter_op` of R191: the counter after it, and its result (Table 6-5). -/
def counterOp (k : WorkCounter) (c : Claim) : WorkCounter × W64 :=
  match c.op with
  | .claim =>
    if k.next = k.count then (k, epochWord k.epoch 0xFFFFFFFFFF)
    else ({ k with next := k.next + 1 }, epochWord k.epoch ((k.start + k.next) % 2 ^ 40))
  | .done =>
    let ix := bitsOf c.a.toNat 0 40
    if bitsOf c.a.toNat 40 24 ≠ k.epoch then (k, 2)
    else if ix < k.start ∨ k.next ≤ ix - k.start then (k, 3)
    else if k.ledger.contains (ix - k.start) then (k, 1)
    else ({ k with ledger := setIns k.ledger (ix - k.start), completed := k.completed + 1 }, 0)
  | .reset =>
    let e := (k.epoch + 1) % 2 ^ 24
    ({ epoch := e, start := c.a.toNat, count := c.b.toNat }, epochWord e (k.next - k.completed))
  | .query => (k, epochWord k.epoch (k.completed * 2 ^ 16 + k.next))

/-- Tower counters of a performed operation (Table 6-7). -/
def State.countClaim (s : State) (i : Nat) (op : CtrOp) (r : W64) : State :=
  match op with
  | .claim => s.tackleCount i (if bitsOf r.toNat 0 40 = 0xFFFFFFFFFF then 7 else 6) 1
  | .done => s.tackleCount i (if r = 0 then 8 else if r = 1 then 9 else 10) 1
  | .reset => s.tackleCount i 11 (bitsOf r.toNat 0 13)
  | .query => s

/-- WORK_COUNTER_OP: the dome performs the oldest counter operation of the spar that it has not performed, once its port has
granted the operation's one transfer, or the port refuses it (R191, R192, R194, R314, R320). The counters lie beside the
DRAM, so the transfer names the dome by the address after its last byte. -/
def workCounterOp (i : Nat) (s : State) : State :=
  match (s.spar i).claims.findIdx? fun c => !c.performed with
  | none => s
  | some k =>
    match (s.spar i).claims[k]? with
    | none => s
    | some c =>
      let d := c.ctr / 4096
      s.portGate i (s.sparPart i) [(d * 2 ^ 37 + domeBytes, 1)] (fun s => s.modSpar i fun x =>
          { x with claims := x.claims.set k { c with performed := true, refused := true } }) fun s =>
        let x := s.spar i
        let r := counterOp (s.counter c.ctr) c
        let s1 := (s.setSpar i { x with claims := x.claims.set k { c with performed := true, result := r.2 } })
        let s2 := ((s1.setCounter c.ctr r.1).odAdd 0 (0x3020 + d) 8 1).countClaim i c.op r.2
        if c.op = .done ∧ r.2 = 1 then s2.sparFault i 0x0111 c.bundle 6 0 0 (bitsOf c.a.toNat 0 40) x.phase else s2

/-- COUNTER_RESULT_ARRIVAL: the oldest counter result reaches s[D] (R192). -/
def counterResult (i : Nat) (s : State) : State :=
  let x := s.spar i
  match x.claims with
  | [] => s
  | c :: r =>
    if ¬ c.performed then s
    else
      let y := { x with claims := r }
      s.setSpar i (if c.refused then y else y.sset c.dest c.result)

/-- The job-start reset of every counter of the partition's domes (R190): EPOCH advances, all else is cleared. -/
def State.resetCounters (s : State) (q : Nat) : State :=
  let mine := fun d => (s.towerMask q).testBit (d / 2)
  { s with
    counters := s.counters.filterMap fun e =>
      if mine (e.1 / 4096) then (if e.2.epoch = 0 then none else some (e.1, { epoch := e.2.epoch })) else some e
    ctrResets := ((List.range 16).filter mine).foldl (fun m d => mapSet 0 m d (mapGet 0 m d + 1)) s.ctrResets }

end Sys2Proof.Machine
end

