-- ==== Sys2Proof/Machine/Crypto.lean ====
section
/-! DEFINITION. The cryptography the spec names and does not itself define (16 R474, R475, 13 R405): SHA-512, AES-256-GCM, and the check of an
RSASSA-PSS signature with a 4,096-bit modulus, exponent 65,537, SHA-512, MGF1 over SHA-512 and a 64-byte salt, as their
published standards give them (log 30). -/

namespace Sys2Proof.Machine

open Sys2Proof

/-- Round constants 0 to 19. -/
def shaK0 : List W64 :=
  [0x428A2F98D728AE22, 0x7137449123EF65CD, 0xB5C0FBCFEC4D3B2F, 0xE9B5DBA58189DBBC,
   0x3956C25BF348B538, 0x59F111F1B605D019, 0x923F82A4AF194F9B, 0xAB1C5ED5DA6D8118,
   0xD807AA98A3030242, 0x12835B0145706FBE, 0x243185BE4EE4B28C, 0x550C7DC3D5FFB4E2,
   0x72BE5D74F27B896F, 0x80DEB1FE3B1696B1, 0x9BDC06A725C71235, 0xC19BF174CF692694,
   0xE49B69C19EF14AD2, 0xEFBE4786384F25E3, 0x0FC19DC68B8CD5B5, 0x240CA1CC77AC9C65]

/-- Round constants 20 to 39. -/
def shaK1 : List W64 :=
  [0x2DE92C6F592B0275, 0x4A7484AA6EA6E483, 0x5CB0A9DCBD41FBD4, 0x76F988DA831153B5,
   0x983E5152EE66DFAB, 0xA831C66D2DB43210, 0xB00327C898FB213F, 0xBF597FC7BEEF0EE4,
   0xC6E00BF33DA88FC2, 0xD5A79147930AA725, 0x06CA6351E003826F, 0x142929670A0E6E70,
   0x27B70A8546D22FFC, 0x2E1B21385C26C926, 0x4D2C6DFC5AC42AED, 0x53380D139D95B3DF,
   0x650A73548BAF63DE, 0x766A0ABB3C77B2A8, 0x81C2C92E47EDAEE6, 0x92722C851482353B]

/-- Round constants 40 to 59. -/
def shaK2 : List W64 :=
  [0xA2BFE8A14CF10364, 0xA81A664BBC423001, 0xC24B8B70D0F89791, 0xC76C51A30654BE30,
   0xD192E819D6EF5218, 0xD69906245565A910, 0xF40E35855771202A, 0x106AA07032BBD1B8,
   0x19A4C116B8D2D0C8, 0x1E376C085141AB53, 0x2748774CDF8EEB99, 0x34B0BCB5E19B48A8,
   0x391C0CB3C5C95A63, 0x4ED8AA4AE3418ACB, 0x5B9CCA4F7763E373, 0x682E6FF3D6B2B8A3,
   0x748F82EE5DEFB2FC, 0x78A5636F43172F60, 0x84C87814A1F0AB72, 0x8CC702081A6439EC]

/-- Round constants 60 to 79. -/
def shaK3 : List W64 :=
  [0x90BEFFFA23631E28, 0xA4506CEBDE82BDE9, 0xBEF9A3F7B2C67915, 0xC67178F2E372532B,
   0xCA273ECEEA26619C, 0xD186B8C721C0C207, 0xEADA7DD6CDE0EB1E, 0xF57D4F7FEE6ED178,
   0x06F067AA72176FBA, 0x0A637DC5A2C898A6, 0x113F9804BEF90DAE, 0x1B710B35131C471B,
   0x28DB77F523047D84, 0x32CAAB7B40C72493, 0x3C9EBE0A15C9BEBC, 0x431D67C49C100D4C,
   0x4CC5D4BECB3E42B6, 0x597F299CFC657E2A, 0x5FCB6FAB3AD6FAEC, 0x6C44198C4A475817]

/-- Initial hash value. -/
def shaH : List W64 :=
  [0x6A09E667F3BCC908, 0xBB67AE8584CAA73B, 0x3C6EF372FE94F82B, 0xA54FF53A5F1D36F1,
   0x510E527FADE682D1, 0x9B05688C2B3E6C1F, 0x1F83D9ABFB41BD6B, 0x5BE0CD19137E2179]

/-- The number a string of bytes spells, most significant first. -/
def beNat (bs : Bytes) : Nat := bs.foldl (fun n b => n * 256 + b.toNat) 0

/-- `n` bytes of a number, most significant first. -/
def beBytes (n v : Nat) : Bytes := (leBytes n v).reverse

/-- Rotate right. -/
def rotr (w : W64) (n : Nat) : W64 := w.rotateRight n

/-- One step of the message schedule; the list holds the last 16 words, oldest first. -/
def shaNext (l : List W64) : W64 :=
  let a := l.getD 14 0
  let b := l.getD 1 0
  (rotr a 19 ^^^ rotr a 61 ^^^ (a >>> 6)) + l.getD 9 0 + (rotr b 1 ^^^ rotr b 8 ^^^ (b >>> 7)) + l.getD 0 0

/-- One round on the eight working variables. -/
def shaRound (v : List W64) (k w : W64) : List W64 :=
  let a := v.getD 0 0
  let b := v.getD 1 0
  let c := v.getD 2 0
  let e := v.getD 4 0
  let f := v.getD 5 0
  let g := v.getD 6 0
  let t1 := v.getD 7 0 + (rotr e 14 ^^^ rotr e 18 ^^^ rotr e 41) + ((e &&& f) ^^^ (~~~e &&& g)) + k + w
  let t2 := (rotr a 28 ^^^ rotr a 34 ^^^ rotr a 39) + ((a &&& b) ^^^ (a &&& c) ^^^ (b &&& c))
  [t1 + t2, a, b, c, v.getD 3 0 + t1, e, f, g]

/-- The 80 rounds of one block. -/
def shaRounds : List W64 → List W64 → List W64 → List W64
  | [], _, v => v
  | k :: ks, l, v => shaRounds ks (l.drop 1 ++ [shaNext l]) (shaRound v k (l.getD 0 0))

/-- One 128-byte block. -/
def shaBlock (h : List W64) (b : Bytes) : List W64 :=
  let l := (List.range 16).map fun i => BitVec.ofNat 64 (beNat ((b.drop (8 * i)).take 8))
  (h.zip (shaRounds (shaK0 ++ shaK1 ++ shaK2 ++ shaK3) l h)).map fun x => x.1 + x.2

/-- Whole blocks in order. -/
def shaBlocks : Nat → List W64 → Bytes → List W64
  | 0, h, _ => h
  | n + 1, h, b => shaBlocks n (shaBlock h (b.take 128)) (b.drop 128)

/-- SHA-512. -/
def sha512 (m : Bytes) : Bytes :=
  let z := (128 - (m.length + 17) % 128) % 128
  let p := m ++ [0x80] ++ List.replicate z 0 ++ beBytes 16 (8 * m.length)
  (shaBlocks (p.length / 128) shaH p).flatMap fun w => beBytes 8 w.toNat

/-- x squared `n` times modulo `m`. -/
def sqMod (m : Nat) : Nat → Nat → Nat
  | 0, x => x
  | n + 1, x => sqMod m n (x * x % m)

/-- MGF1 over SHA-512, `n` bytes. -/
def mgf1 (seed : Bytes) (n : Nat) : Bytes :=
  ((List.range (ceilDiv n 64)).flatMap fun i => sha512 (seed ++ beBytes 4 i)).take n

/-- The RSASSA-PSS signature `sig` of the message whose SHA-512 is `hash` verifies under the modulus `key`. -/
def pssVerify (key hash sig : Bytes) : Bool :=
  let n := beNat key
  let s := beNat sig
  let em := beBytes 512 (sqMod n 16 s * s % n)
  let db := em.take 447
  let h := (em.drop 447).take 64
  let x := (db.zip (mgf1 h 447)).map fun y => y.1 ^^^ y.2
  let d := (x.headD 0 &&& 0x7F) :: x.drop 1
  key.length = 512 && sig.length = 512 && decide (s < n) && em.getLast? = some 0xBC && decide ((db.headD 0).toNat < 128) &&
  (d.take 382).all (· = 0) && d.getD 382 0 = 1 && sha512 (List.replicate 8 0 ++ hash ++ d.drop 383) = h

/-! AES-256-GCM (R483). -/

/-- A byte times x in the field of AES. -/
def aesX (b : Byte) : Byte := (b <<< 1) ^^^ (if b.getLsbD 7 then 0x1B else 0)

/-- Product of two bytes in the field of AES, `n` bits of the first. -/
def aesMul : Nat → Byte → Byte → Byte
  | 0, _, _ => 0
  | n + 1, a, b => (if a.getLsbD 0 then b else 0) ^^^ aesMul n (a >>> 1) (aesX b)

/-- x to the power 2^(n+1) - 2 in the field of AES: with n = 7, the inverse. -/
def aesInv : Nat → Byte → Byte
  | 0, _ => 1
  | n + 1, x => let y := aesMul 8 x x; aesMul 8 y (aesInv n y)

/-- The substitution of AES. -/
def aesSub (x : Byte) : Byte :=
  let y := aesInv 7 x
  y ^^^ y.rotateLeft 1 ^^^ y.rotateLeft 2 ^^^ y.rotateLeft 3 ^^^ y.rotateLeft 4 ^^^ 0x63

/-- Bytes added one by one. -/
def xorBytes (a b : Bytes) : Bytes := (a.zip b).map fun x => x.1 ^^^ x.2

/-- Words `i` to `i + n - 1` of the key schedule follow the words `ws` before them; `rc`: the round constant. -/
def aesExpand : Nat → Nat → Byte → List Bytes → List Bytes
  | 0, _, _, ws => ws
  | n + 1, i, rc, ws =>
    let l := ws.getD (i - 1) []
    let t := if i % 8 = 0 then xorBytes ((l.drop 1 ++ l.take 1).map aesSub) [rc, 0, 0, 0]
      else if i % 8 = 4 then l.map aesSub else l
    aesExpand n (i + 1) (if i % 8 = 0 then aesX rc else rc) (ws ++ [xorBytes (ws.getD (i - 8) []) t])

/-- The 15 round keys of a 256-bit key. -/
def aesKeys (key : Bytes) : List Bytes :=
  let ws := aesExpand 52 8 1 ((List.range 8).map fun i => (key.drop (4 * i)).take 4)
  (List.range 15).map fun r => ((ws.drop (4 * r)).take 4).flatten

/-- Bytes substituted and rows shifted. -/
def aesShift (b : Bytes) : Bytes := (List.range 16).map fun i => aesSub (b.getD (4 * ((i / 4 + i % 4) % 4) + i % 4) 0)

/-- Columns mixed. -/
def aesMix (b : Bytes) : Bytes := (List.range 16).map fun i =>
  let at' := fun k => b.getD (4 * (i / 4) + (i + k) % 4) 0
  aesX (at' 0) ^^^ aesX (at' 1) ^^^ at' 1 ^^^ at' 2 ^^^ at' 3

/-- One 16-byte block enciphered under the round keys. -/
def aesBlock (ks : List Bytes) (b : Bytes) : Bytes :=
  let m := ((List.range 13).foldl (fun x r => xorBytes (aesMix (aesShift x)) (ks.getD (r + 1) [])) (xorBytes b (ks.getD 0 [])))
  xorBytes (aesShift m) (ks.getD 14 [])

/-- Product in the field of GHASH, the leading `n` bits of the first factor left to take. -/
def ghMul : Nat → BitVec 128 → BitVec 128 → BitVec 128
  | 0, _, _ => 0
  | n + 1, x, v =>
    (if x.getLsbD 127 then v else 0) ^^^
      ghMul n (x <<< 1) ((v >>> 1) ^^^ (if v.getLsbD 0 then 0xE1000000000000000000000000000000 else 0))

/-- Blocks of 16 bytes, the last filled with zeros. -/
def blocks16 (m : Bytes) : List Bytes := (List.range (ceilDiv m.length 16)).map fun i => sliceBytes m (16 * i) 16

/-- GHASH of a ciphertext without associated data. -/
def ghash (h : BitVec 128) (c : Bytes) : BitVec 128 :=
  (blocks16 c ++ [beBytes 16 (8 * c.length)]).foldl (fun y b => ghMul 128 (y ^^^ BitVec.ofNat 128 (beNat b)) h) 0

/-- AES-256-GCM opened: the plaintext where the tag is right. -/
def gcmOpen (key nonce c tag : Bytes) : Option Bytes :=
  let ks := aesKeys key
  let ctr := fun n => aesBlock ks (nonce ++ beBytes 4 n)
  let y := ghash (BitVec.ofNat 128 (beNat (aesBlock ks (List.replicate 16 0)))) c
  if xorBytes (beBytes 16 y.toNat) (ctr 1) = tag then
    some (xorBytes c ((List.range (ceilDiv c.length 16)).flatMap fun i => ctr (i + 2)))
  else none

end Sys2Proof.Machine
end

