-- ==== Sys2Proof/Machine/Line.lean ====
section
/-! DEFINITION. The line of a Shroud port (11.1, 11.2): packets as bytes (R328, R330), flits and their control words (R326),
codewords (R325), and what arrives of a packet (R327). -/

namespace Sys2Proof.Machine

open Sys2Proof

/-! Flits (R326). -/

/-- CRC-32C after one more bit position. -/
def crcStep (c : W32) : W32 := if c.getLsbD 0 then (c >>> 1) ^^^ 0x82F63B78 else c >>> 1

/-- CRC-32C after one more byte. -/
def crcByte (c : W32) (b : Byte) : W32 := (List.range 8).foldl (fun c _ => crcStep c) (c ^^^ b.zeroExtend 32)

/-- CRC-32C, initial value all ones, result complemented. -/
def crc32c (bs : Bytes) : W32 := ~~~ (bs.foldl crcByte 0xFFFFFFFF)

/-- A flit: 64 data bytes and the control word of Table 11-2, most significant byte first (R328). `ty`: 0 idle, 1 packet, 2 link
control. -/
def flit (ty vl : Nat) (head tail : Bool) (seq : Nat) (data : Bytes) : Bytes :=
  let d := padTo 64 data ++
    beBytes 4 (ty % 4 * 2 ^ 30 + vl % 4 * 2 ^ 28 + (if head then 2 ^ 27 else 0) + (if tail then 2 ^ 26 else 0) + seq % 2 ^ 16)
  d ++ beBytes 4 (crc32c d).toNat

/-- Bits [63:32] of a flit's control word. -/
def flitTop (f : Bytes) : Nat := beNat ((f.drop 64).take 4)

/-- TYPE. -/
def flitType (f : Bytes) : Nat := bitsOf (flitTop f) 30 2
/-- VL. -/
def flitLane (f : Bytes) : Nat := bitsOf (flitTop f) 28 2
/-- HEAD. -/
def flitHead (f : Bytes) : Bool := bitAt (flitTop f) 27
/-- TAIL. -/
def flitTail (f : Bytes) : Bool := bitAt (flitTop f) 26
/-- SEQ. -/
def flitSeq (f : Bytes) : Nat := bitsOf (flitTop f) 0 16
/-- The flit passes its CRC. -/
def flitGood (f : Bytes) : Bool := f.length = 72 && beNat (f.drop 68) = (crc32c (f.take 68)).toNat

/-- An idle flit. -/
def idleFlit : Bytes := flit 0 0 false false 0 []

/-- A link control flit with its message's bytes (R329). -/
def controlFlit (msg : Bytes) : Bytes := flit 2 0 false false 0 msg

/-! Packets (R330). -/

/-- Flits of a packet (R330). -/
def packetFlits (p : Packet) : Nat := ceilDiv (16 + p.payload.length) 64

/-- Bytes of a packet: its header (Table 11-4), then its payload. -/
def packetBytes (p : Packet) : Bytes :=
  beBytes 2 p.dlid ++ beBytes 2 p.slid ++ leBytes 1 p.kind ++ leBytes 1 p.hops ++ leBytes 1 (p.qdst % 4 * 64 + p.qsrc % 4 * 16) ++
  leBytes 1 p.flow ++ beBytes 2 p.payload.length ++ List.replicate 6 0 ++ p.payload

/-- The packet with the header bytes `b` begin with, and its payload. -/
def parsePacket (vl : Nat) (b : Bytes) : Packet :=
  { dlid := beNat (b.take 2), slid := beNat ((b.drop 2).take 2), kind := fieldAt b 4 1, hops := fieldAt b 5 1,
    qdst := bitsOf (fieldAt b 6 1) 6 2, qsrc := bitsOf (fieldAt b 6 1) 4 2, flow := fieldAt b 7 1, vl := vl,
    payload := (b.drop 16).take (beNat ((b.drop 8).take 2)) }

/-- The flits of a packet sent under `seq`: the tail flit is padded with zero bytes (R330), each repeats the SEQ (R326). -/
def packetLine (p : Packet) (seq : Nat) : List Bytes :=
  let n := packetFlits p
  (List.range n).map fun i => flit 1 p.vl (i = 0) (i + 1 = n) seq ((packetBytes p).drop (64 * i))

/-! Codewords (R325). -/

/-- x times the field element, modulo x^8 + x^4 + x^3 + x^2 + 1. -/
def gfTwice (a : Byte) : Byte := if a.getLsbD 7 then (a <<< 1) ^^^ 0x1D else a <<< 1

/-- Product in GF(2^8), `k` bits of `b` from the least on. -/
def gfMulBits : Nat → Byte → Byte → Byte
  | 0, _, _ => 0
  | k + 1, a, b => (if b.getLsbD 0 then a else 0) ^^^ gfMulBits k (gfTwice a) (b >>> 1)

/-- Product in GF(2^8). -/
def gfMul (a b : Byte) : Byte := gfMulBits 8 a b

/-- The generator times (x - r): coefficients from the highest power on. -/
def genTimes (g : Bytes) (r : Byte) : Bytes := ((g ++ [0]).zip (0 :: g)).map fun (x : Byte × Byte) => x.1 ^^^ gfMul r x.2

/-- The generator with the roots r, 2r, 4r, …, `k` of them. -/
def rsGenFrom : Nat → Byte → Bytes → Bytes
  | 0, _, g => g
  | k + 1, r, g => rsGenFrom k (gfTwice r) (genTimes g r)

/-- The generator of the code, roots α⁰ to α¹⁵: its 16 coefficients below x^16. -/
def rsGen : Bytes := (rsGenFrom 16 1 [1]).drop 1

/-- The parity register after one more data byte. -/
def rsShift (reg : Bytes) (b : Byte) : Bytes :=
  let f := b ^^^ reg.headD 0
  ((reg.drop 1 ++ [0]).zip rsGen).map fun (x : Byte × Byte) => x.1 ^^^ gfMul f x.2

/-- The 16 parity bytes of a codeword's data bytes. -/
def rsParity (data : Bytes) : Bytes := data.foldl rsShift (List.replicate 16 0)

/-- A codeword of two flits (Table 11-1). -/
def codeword (f g : Bytes) : Bytes := f ++ g ++ rsParity (f ++ g)

/-- The codewords that carry flits in order; an idle flit fills the last (log 72). -/
def lineBytes : List Bytes → Bytes
  | [] => []
  | [f] => codeword f idleFlit
  | f :: g :: r => codeword f g ++ lineBytes r

/-- The bytes of a codeword on wavelength `w` (Table 11-1). -/
def onWavelength (w : Nat) (c : Bytes) : Bytes := (List.range 20).map fun k => c.getD (8 * k + w) 0

/-- The PAM4 levels of a byte, bits [7:6] first, Gray-coded (Table 11-1, log 72). -/
def pamLevels (b : Byte) : List Nat :=
  [3, 2, 1, 0].map fun k => let v := bitsOf b.toNat (2 * k) 2; if v = 2 then 3 else if v = 3 then 2 else v

/-! What arrives (R325-R327). A line word is a codeword's byte errors and its two flits. -/

/-- The line words of codewords that arrive: `errs` byte errors and `parity` of each, `data`, `ctl` (bits [63:32] of the control
word) and `crc` of each flit, all after correction. Bytes that are no codeword of the code had more errors than it
corrects (R325). -/
def lineWords (errs : List Nat) (data : List Bytes) (ctl crc : List W32) (parity : List Bytes) : List (Nat × Bytes) :=
  let f := fun i => data.getD i [] ++ beBytes 4 (ctl.getD i 0).toNat ++ beBytes 4 (crc.getD i 0).toNat
  errs.zipIdx.map fun x =>
    let b := f (2 * x.2) ++ f (2 * x.2 + 1)
    (if parity.getD x.2 [] = rsParity b then x.1 else max 9 x.1, b)

/-- A codeword's errors exceed 8 bytes: its flits fail their CRC (R325). -/
def wordLost (w : Nat × Bytes) : Bool := decide (8 < w.1)

/-- The flits of a line word, each with whether it is good. -/
def wordFlits (w : Nat × Bytes) : List (Bool × Bytes) :=
  [w.2.take 72, (w.2.drop 72).take 72].map fun f => (!wordLost w && flitGood f, f)

/-- The flits of line words of type `ty`. -/
def flitsOf (ty : Nat) (ws : List (Nat × Bytes)) : List (Bool × Bytes) :=
  (ws.flatMap wordFlits).filter fun x => flitType x.2 = ty

/-- Codewords corrected. -/
def wordsCorrected (ws : List (Nat × Bytes)) : Nat := ws.countP fun w => decide (1 ≤ w.1) && !wordLost w

/-- Codewords that are uncorrectable, and flits of the reserved type (R326, Table 11-10 :0B). -/
def wordsBad (ws : List (Nat × Bytes)) : Nat := ws.countP wordLost + ((flitsOf 3 ws).countP fun x => x.1)

/-- The packet whose flits arrived is good: each flit passes its CRC, they are one packet's from head to tail, and as many as
its header states (R326, R327, R330). -/
def arrivalGood (ws : List (Nat × Bytes)) : Bool :=
  match flitsOf 1 ws with
  | [] => false
  | h :: r =>
    let l := h :: r
    let p := parsePacket (flitLane h.2) (l.flatMap fun x => x.2.take 64)
    (l.all fun x => x.1 && flitSeq x.2 = flitSeq h.2 && flitLane x.2 = flitLane h.2) &&
    l.zipIdx.all (fun x => flitHead x.1.2 = (x.2 = 0) && flitTail x.1.2 = (x.2 + 1 = l.length)) && packetFlits p = l.length

/-- The packet that arrived. -/
def arrivalPacket (ws : List (Nat × Bytes)) : Packet :=
  let l := flitsOf 1 ws
  parsePacket ((l.head?.map fun x => flitLane x.2).getD 0) (l.flatMap fun x => x.2.take 64)

/-- SEQ of the packet that arrived. -/
def arrivalSeq (ws : List (Nat × Bytes)) : Nat := ((flitsOf 1 ws).head?.map fun x => flitSeq x.2).getD 0

/-- The line words that carry a packet sent under `seq`, with `errs` byte errors in the first. -/
def arrivalOf (p : Packet) (seq errs : Nat) : List (Nat × Bytes) :=
  let fs := packetLine p seq
  (List.range (ceilDiv fs.length 2)).map fun k =>
    (if k = 0 then errs else 0, fs.getD (2 * k) idleFlit ++ fs.getD (2 * k + 1) idleFlit)

end Sys2Proof.Machine
end

