-- ==== Sys2Proof/Machine/FabricOps.lean ====
section
/-! DEFINITION. Shared operations of the Shroud fabric (11): lanes, flits, routes, egress and injection queues, and how a
unit of the device sends a packet. -/

namespace Sys2Proof.Machine

open Sys2Proof

/-- Virtual lane of a packet kind (Table 11-5); none for an undefined kind. -/
def laneOf (kind : Nat) : Option Nat :=
  if kind = 0x01 ∨ kind = 0x02 ∨ kind = 0x03 ∨ kind = 0x04 then some 0
  else if kind = 0x11 ∨ kind = 0x19 ∨ kind = 0x1A ∨ kind = 0x21 then some 1
  else if kind = 0x10 ∨ kind = 0x18 ∨ kind = 0x1B ∨ kind = 0x20 then some 2
  else if kind = 0x22 then some 3
  else none

/-- Own logical ID (R343). -/
def State.ownLid (s : State) : Nat := s.odGet 0 0x4001 0

/-- The device has the role standby (R345). -/
def State.standby (s : State) : Bool := s.odGet 0 0x4002 0 = 1

/-- Initial HOPS (R340). -/
def State.hops0 (s : State) : Nat := s.odGet 0 0x4003 0

/-- Port state, OD 0x4010 + p :01. -/
def State.portState (s : State) (p : Nat) : Nat := s.odGet 0 (0x4010 + p) 1

/-- The port is up (R323). -/
def State.portUp (s : State) (p : Nat) : Bool := s.portState p = 2

/-- Router counter :`sub` grows by one (Table 11-10, OD 0x4102). -/
def State.routerCount (s : State) (sub : Nat) : State := s.odAdd 0 0x4102 sub 1

/-- The port mask of R343 step 2. -/
def State.routeMask (s : State) (dlid : Nat) : Nat :=
  if dlid / 256 = s.ownLid / 256 then fieldAt (s.blobGet 0 0x4101 0) (8 * (dlid % 256)) 8
  else fieldAt (s.blobGet 0 0x4100 0) (8 * (dlid / 256)) 8

/-- The port a packet takes (R343 steps 2 to 5). `part`: the sending partition of a packet the device originates. -/
def State.routePort (s : State) (p : Packet) (part : Option Nat) : Option Nat :=
  let ports := (maskBits (s.routeMask p.dlid) 36).filter fun k =>
    s.portUp k && (match part with | some q => s.portPart k = q | none => true)
  let h := (p.slid * 0x9E37 + p.dlid * 0x7F4B + p.flow * 0x0101 + p.vl) % 65536
  ports[h % ports.length]?

/-- Bytes in an egress or injection queue: 16 KiB at most (Table 11-7). -/
def queueBytes (l : List Packet) : Nat := (l.map fun p => 64 * packetFlits p).sum

/-- The egress queue of port `k` has room for the packet (R340). -/
def State.egressRoom (s : State) (k : Nat) (p : Packet) : Bool :=
  queueBytes (mapGet [] (s.port k).egress p.vl) + 64 * packetFlits p ≤ 16384

/-- The packet enters an egress queue. -/
def State.egressPush (s : State) (k : Nat) (p : Packet) : State :=
  s.modPort k fun t => { t with egress := mapSet [] t.egress p.vl (mapGet [] t.egress p.vl ++ [p]) }

/-! Local delivery (R341, Table 11-5). -/

/-- Unit that consumes a kind (Table 11-5): 0 management, 1 root of trust, 2 Halyard, 3 collective engine, 4 Boom, 5 Lookout,
6 dome ports, 7 transfer engines. -/
def consumerOf (kind : Nat) : Nat :=
  if kind = 0x04 then 1 else if kind < 0x10 then 0 else if kind < 0x18 then 2 else if kind < 0x1A then 3
  else if kind = 0x1A then 4 else if kind = 0x1B then 5 else if kind < 0x22 then 6 else 7

/-- Outstanding remote requests: spar, place, transfer. -/
def State.remotes (s : State) : List (Nat × Nat × Xfer) :=
  s.spars.flatMap fun e => (e.2.xfers.zipIdx.filter fun x =>
    x.1.sent && !x.1.done && (x.1.kind = .fqRead || x.1.kind = .fqWrite || x.1.kind = .fqArrival)).map fun x => (e.1, x.2, x.1)

/-- The slow-tier fetch that a remote answer from `lid` with tag `tag` belongs to (07 R236). -/
def State.fetchFor (s : State) (q lid tag : Nat) : Option Nat :=
  s.fetches.findIdx? fun f => f.q = q && f.src != 0 && f.lid = lid && f.reqs.any fun r => r.1 = tag

/-- The packet answers a read of a slow-tier fetch (07 R236). -/
def State.tierAnswer (s : State) (k : Packet) : Bool := k.kind = 0x22 && (s.fetchFor k.qdst k.slid (fieldAt k.payload 0 2)).isSome

/-- The request an answer from `lid` with tag `tag` belongs to: an outstanding read of that tag, else the oldest outstanding
write to that device (log 22). -/
def State.matchAnswer (s : State) (q lid tag : Nat) : Option (Nat × Nat × Xfer) :=
  let mine := s.remotes.filter fun x => s.sparPart x.1 = q && bitsOf x.2.2.route.toNat 0 16 = lid
  match mine.find? fun x => x.2.2.kind = .fqRead && x.2.2.tag % 65536 = tag with
  | some x => some x
  | none => (mine.filter fun x => x.2.2.kind != .fqRead).foldl (fun (b : Option (Nat × Nat × Xfer)) x =>
      match b with
      | none => some x
      | some y => if x.2.2.tag < y.2.2.tag then some x else some y) none

/-- The unit whose delivery buffer takes the packet: a dome port is that of the address's dome, a transfer engine that of the
requesting spar (Tables 11-5, 11-7). -/
def State.consumer (s : State) (k : Packet) : Nat :=
  let u := consumerOf k.kind
  if u = 6 then 1040 + domeOf (fieldAt k.payload 0 8)
  else if s.tierAnswer k then 2
  else if u = 7 then match s.matchAnswer k.qdst k.slid (fieldAt k.payload 0 2) with
    | some x => 16 + x.1
    | none => 7
  else u

/-- The delivery buffer of the packet's consumer and lane, 32 KiB, has room (Table 11-7). -/
def State.deliveryRoom (s : State) (k : Packet) : Bool :=
  queueBytes ((s.delivery.filter fun m => s.consumer m = s.consumer k && m.vl = k.vl) ++ [k]) ≤ 32768

/-- The packet is delivered locally (R343 step 1). -/
def State.deliverLocal (s : State) (p : Packet) : State :=
  { s with delivery := s.delivery ++ [p] }.routerCount 5

/-! Local sources (R341). -/

/-- The head of an injection queue enters its egress queue, is delivered here, or has no route; none where it must wait
(R340, R343). -/
def State.injectHead (s : State) (key : Nat) : Option State :=
  match mapGet [] s.inject key with
  | [] => none
  | p :: r =>
    let s1 : State := { s with inject := mapSet [] s.inject key r }
    if p.dlid = s.ownLid then (if s.deliveryRoom p then some (s1.deliverLocal p) else none)
    else match s.routePort p (some p.qsrc) with
      | none => some (s1.routerCount 3)
      | some k => if s.egressRoom k p then some (s1.egressPush k p) else none

/-- The oldest packet its source holds enters the injection queue, 16 KiB, when it has room (Table 11-7). -/
def State.injectNext (s : State) (key : Nat) : Option State :=
  match mapGet [] s.outbox key with
  | [] => none
  | p :: r =>
    if queueBytes (mapGet [] s.inject key ++ [p]) ≤ 16384 then
      some { s with outbox := mapSet [] s.outbox key r, inject := mapSet [] s.inject key (mapGet [] s.inject key ++ [p]) }
    else none

/-- The packets of a local source and lane move on while there is room, `n` moves at most. -/
def State.pumpKey : Nat → State → Nat → State
  | 0, s, _ => s
  | n + 1, s, key =>
    match s.injectHead key with
    | some t => State.pumpKey n t key
    | none => match s.injectNext key with
      | some t => State.pumpKey n t key
      | none => s

/-- The packets of a local source and lane move on while there is room. -/
def State.pumpOne (s : State) (key : Nat) : State :=
  State.pumpKey (2 * (mapGet [] s.outbox key).length + (mapGet [] s.inject key).length) s key

/-- A packet of local source `src` enters its egress queue, or waits behind those of its source and lane (R341, R343). -/
def State.launch (s : State) (src : Nat) (p : Packet) : State :=
  let key := 4 * src + p.vl
  ({ s with outbox := mapSet [] s.outbox key (mapGet [] s.outbox key ++ [p]) } : State).pumpOne key

/-- A unit of partition `q` sends a packet of kind `kind` (R340, R343, R345). A standby device sends only lane 0. -/
def State.sendPacket (s : State) (src q kind dlid qdst flow : Nat) (payload : Bytes) : State :=
  match laneOf kind with
  | none => s
  | some vl =>
    if s.standby ∧ vl ≠ 0 then s
    else s.launch src { dlid := dlid, slid := s.ownLid, kind := kind, hops := s.hops0, qdst := qdst, qsrc := q,
                        flow := flow, vl := vl, payload := payload }

/-- The label Halyard and the collective engine give a packet: the low 8 bits of their count to its destination (R344). -/
def State.nextFlow (s : State) (dlid : Nat) : Nat × State :=
  let n := mapGet 0 s.flowCnt dlid
  (n % 256, { s with flowCnt := mapSet 0 s.flowCnt dlid ((n + 1) % 256) })

/-- A packet of Halyard or the collective engine sent under its next label. -/
def State.sendFlow (s : State) (src q kind dlid qdst : Nat) (payload : Bytes) : State :=
  let f := s.nextFlow dlid
  f.2.sendPacket src q kind dlid qdst f.1 payload

/-- The packets of egress queue `v` of a port that is down are routed again, in queue order, over the ports that remain up;
one without a route is discarded and counted, one without room waits (R337, R340); `n` packets at most. -/
def State.reroute : Nat → State → Nat → Nat → State
  | 0, s, _, _ => s
  | n + 1, s, p, v =>
    match mapGet [] (s.port p).egress v with
    | [] => s
    | k :: r =>
      let s1 := s.modPort p fun t => { t with egress := mapSet [] t.egress v r }
      match s.routePort k (if k.slid = s.ownLid then some k.qsrc else none) with
      | none => State.reroute n (s1.routerCount 3) p v
      | some e => if s.egressRoom e k then State.reroute n (s1.egressPush e k) p v else s

/-- Every egress queue of a port that is down, routed again. -/
def State.reroutePort (s : State) (p : Nat) : State :=
  (List.range 4).foldl (fun u v => State.reroute (mapGet [] (u.port p).egress v).length u p v) s

/-- Room in a queue lets the packets that wait for it move: those of ports that are down, then those of local sources, in
source order (R337, R341). -/
def State.pumpInject (s : State) : State :=
  let s1 := ((s.ports.filter fun e => !s.portUp e.1 && !e.2.egress.isEmpty).map (·.1)).foldl State.reroutePort s
  (uniq (s1.inject.map (·.1) ++ s1.outbox.map (·.1))).foldl State.pumpOne s1

/-- The first delivered packet for which `p` holds, taken out of its delivery buffer. -/
def State.takeDelivered (s : State) (p : Packet → Bool) : Option (Packet × State) :=
  match s.delivery.findIdx? p with
  | none => none
  | some k => (s.delivery[k]?).map fun m => (m, { s with delivery := s.delivery.eraseIdx k })

end Sys2Proof.Machine
end

