-- ==== Sys2Proof/Machine/Transfer.lean ====
section
/-! DEFINITION. The transfer engine (03 R87, R91-R99, 10 R311, R319, 11 R347-R349): checks and effects of slot 7, the
queue of outstanding transfers, channels and their endpoints, fills, and fences. -/

namespace Sys2Proof.Machine

open Sys2Proof

/-! Channel table (Table 3-8). -/

/-- Entry `k` of the channel table. -/
def Spar.chan (x : Spar) (k : Nat) : Nat := (mapGet 0 x.chtab k).toNat

/-- VALID. -/
def chanValid (w : Nat) : Bool := w.testBit 63
/-- KIND. -/
def chanKind (w : Nat) : Nat := bitsOf w 60 3
/-- Destination logical spar, as 128n + s. -/
def chanSpar (w : Nat) : Nat := 128 * bitsOf w 53 3 + bitsOf w 41 7
/-- ENDPOINT. -/
def chanEp (w : Nat) : Nat := bitsOf w 32 5

/-- Started in the job of partition `q` (R84). -/
def State.isStarted (s : State) (q i : Nat) : Bool := (s.part q).started.contains i

/-- The entry may not be sent to (R91). -/
def State.chanBad (s : State) (i w : Nat) : Bool :=
  let q := s.sparPart i
  let d := chanSpar w
  !chanValid w || 4 ≤ chanKind w ||
  (chanKind w = 0 && (s.sparPart d ≠ q || !s.isStarted q d || s.absent d))

/-! Checks at issue (R94, R102, Table 3-11). -/

/-- Slots of a locked sequence with this transfer (R313, R319). -/
def lockTotal (x : Spar) (atomic : Bool) (da n : Nat) : Nat :=
  (x.lockSeq.map (·.2)).getD 0 + (if atomic then 2 else 1) * portSlots da n

/-- Scratch range and length checks of a transfer. -/
def xferScratch (sa n : Nat) : List IFault :=
  (if scratchBytes < sa + n then [badAddr 1 sa] else []) ++ (if sa % 64 ≠ 0 then [badAddr 2 sa] else []) ++
  (if n % 64 ≠ 0 then [badAddr 5 n] else [])

/-- First bundle and count of `tx.ifill` (R87). -/
def fillRange (f : Fields) : Nat × Nat := (f.immBits 0 9, f.immBits 16 10)

/-- Encoding checks of slot 7; VALUE of cause 6 is the last bundle index of the range (log 12). -/
def encSlot7 (w : SlotWord) : List IFault :=
  (if (w.op = 0x01 ∧ w.f.fmt ≠ 0) ∨ (w.op = 0x02 ∧ 14 ≤ w.f.fmt) ∨ (w.op = 0x05 ∧ w.f.mod.toNat % 4 = 3)
   then [badBundle 4 0] else []) ++
  (if w.op = 0x06 ∧ 512 < (fillRange w.f).1 + (fillRange w.f).2 then
    [badBundle 6 ((fillRange w.f).1 + (fillRange w.f).2 - 1)] else [])

/-- Spar `i` is a member of barrier group `g` (R98, Table 3-7). -/
def State.isMember (s : State) (i g : Nat) : Bool :=
  bitAt (fieldAt (s.blobGet (s.sparPart i) 0x2010 (g + 1)) (i / 8) 1) (i % 8)

/-- Checks of slot 7 at issue. -/
def chkSlot7 (s : State) (x : Spar) (i : Nat) (w : SlotWord) : List IFault :=
  let f := w.f
  let q := s.sparPart i
  let sa := (x.aget f.a.toNat).toNat
  let da := (x.aget f.b.toNat).toNat
  let n := (x.sget f.c.toNat).toNat
  let ent := f.immBits 0 5
  match w.op.toNat with
  | 0x01 | 0x02 =>
    xferScratch sa n ++ (if da % 64 ≠ 0 then [badAddr 2 da] else []) ++
    (if s.rangeInMap q da n then [] else [badAddr 3 da]) ++
    (if (f.modBit 0 || x.lockSeq.isSome) ∧ (64 < lockTotal x (w.op = 0x02 && f.fmt ≠ 0) da n ∨
        x.lockSeq.any (fun l => l.1 ≠ domeOf da)) then [badAddr 6 da] else [])
  | 0x03 => xferScratch sa n ++ (if s.chanBad i (x.chan ent) then [badAddr 4 ent] else [])
  | 0x04 => xferScratch sa n
  | 0x05 =>
    let dd := (x.aget f.d.toNat).toNat
    (if scratchBytes < sa + n then [badAddr 1 sa] else []) ++ (if sa % 64 ≠ 0 then [badAddr 2 sa] else []) ++
    (if dd % 64 ≠ 0 then [badAddr 2 dd] else []) ++
    (if chanValid (x.chan ent) ∧ chanKind (x.chan ent) = 3 then [] else [badAddr 4 ent]) ++
    (if n % 64 ≠ 0 ∨ n < 64 ∨ 16320 < n then [badAddr 5 n] else [])
  | 0x06 =>
    (if da % 128 ≠ 0 then [badAddr 2 da] else []) ++
    (if s.rangeInMap q da (128 * (fillRange f).2) then [] else [badAddr 3 da])
  | 0x07 => xferScratch sa 256
  | 0x11 => if s.isMember i (f.immBits 0 4) then [] else [badBundle 7 (f.immBits 0 4)]
  | _ => []

/-! Effects at issue. -/

/-- A transfer joins the queue. -/
def pushXfer (i : Nat) (t : Xfer) (s : State) : State := s.modSpar i fun y =>
  { y with xfers := y.xfers ++ [{ t with num := y.opNum }], opNum := y.opNum + 1 }

/-- A transfer between scratch and dome, with its place in a locked sequence (R319). -/
def domeXfer (kind : XKind) : SlotEff := fun x i f s =>
  let da := (x.aget f.b.toNat).toNat
  let n := (x.sget f.c.toNat).toNat
  let lk := f.modBit 0
  let code := if kind = .dst then f.fmt else 0
  (pushXfer i { kind := kind, sa := (x.aget f.a.toNat).toNat, da := da, len := n, code := code, lock := lk,
                closes := !lk && x.lockSeq.isSome, bundle := x.pc } s).modSpar i fun y =>
    { y with lockSeq := if lk then some (domeOf da, lockTotal x (code ≠ 0) da n) else none }

/-- `tx.dld`. -/
def effTxDld : SlotEff := domeXfer .dld
/-- `tx.dst`, plain or atomic. -/
def effTxDst : SlotEff := domeXfer .dst
/-- `tx.send`. -/
def effTxSend : SlotEff := fun x i f s =>
  pushXfer i { kind := .send, sa := (x.aget f.a.toNat).toNat, len := (x.sget f.c.toNat).toNat, ep := f.immBits 0 5,
               bundle := x.pc } s
/-- `tx.recv`. -/
def effTxRecv : SlotEff := fun x i f s =>
  pushXfer i { kind := .recv, sa := (x.aget f.a.toNat).toNat, len := (x.sget f.c.toNat).toNat, ep := f.immBits 0 5,
               bundle := x.pc } s
/-- `tx.fq` by its selector MOD[1:0] (Table 11-8). -/
def effTxFq : SlotEff := fun x i f s =>
  let kind : XKind := match f.mod.toNat % 4 with
    | 0 => .fqWrite | 1 => .fqArrival | _ => .fqRead
  pushXfer i { kind := kind, sa := (x.aget f.a.toNat).toNat, da := (x.aget f.d.toNat).toNat,
               len := (x.sget f.c.toNat).toNat, ep := f.immBits 0 5, route := x.sget f.b.toNat, bundle := x.pc } s
/-- `tx.ifill`. -/
def effTxIfill : SlotEff := fun x i f s =>
  pushXfer i { kind := .ifill, sa := (fillRange f).1, da := (x.aget f.b.toNat).toNat, len := 128 * (fillRange f).2,
               bundle := x.pc } s
/-- `tx.chtab`: the channel table is loaded from 256 bytes of scratch (3.7). -/
def effTxChtab : SlotEff := fun x i f s => s.modSpar i fun y =>
  let a := (x.aget f.a.toNat).toNat
  { y with chtab := (List.range 32).foldl (fun m k => mapSet 0 m k (BitVec.ofNat 64 (leNat (x.scr (a + 8 * k) 8)))) [] }
/-- `tx.wait`: it only waits. -/
def effTxWait : SlotEff := fun _ _ _ s => s

/-- A fence completes: the phase ends, and the partition's step number is latched (R97, R99). -/
def effFence : SlotEff := fun _ i _ s =>
  let t := s.odGet (s.sparPart i) 0x6400 3
  s.modSpar i fun y => { y with phase := y.phase + 1, step := BitVec.ofNat 64 t, barrier := none }
/-- `fc.local`. -/
def effFcLocal : SlotEff := effFence
/-- `fc.phase`, once its barrier has released. -/
def effFcPhase : SlotEff := effFence

/-! The queue (R92, R94, R95). -/

/-- A transfer that has no scratch access left to make. -/
def Xfer.settled (t : Xfer) : Bool :=
  t.done || match t.kind with
    | .fqWrite => t.sent
    | .fqArrival => t.sent
    | _ => false

/-- Place of the transfer whose turn it is: the oldest not settled (R95). -/
def Spar.turnXfer (x : Spar) : Option Nat := x.xfers.findIdx? fun t => !t.settled

/-- Bytes in endpoint `e`, arrived or on their way (R92, R460). -/
def Spar.epUsed (x : Spar) (e : Nat) : Nat := (mapGet [] x.endpoints e).length + (mapGet [] x.inflight e).length

/-- Channel bytes sent to an endpoint of spar `d`. -/
def State.channelPut (s : State) (d e : Nat) (bs : Bytes) : State := s.modSpar d fun y =>
  { y with inflight := mapSet [] y.inflight e (mapGet [] y.inflight e ++ bs) }

/-- Command bytes of a spar for the collective queue, STEP of each collective command replaced (R253, Table 8-3). -/
def stampSteps (step : W64) : Nat → Bytes → Bytes
  | 0, bs => bs
  | k + 1, bs =>
    if bs.length < 64 then bs
    else
      let r := bs.take 64
      (if r.headD 0 = 1 then patchBytes r 40 (leBytes 8 step.toNat) else r) ++ stampSteps step k (bs.drop 64)

/-- One transfer of the spar makes what progress it can; `k` its place. -/
def xferStep (i k : Nat) (t : Xfer) (s : State) : State :=
  let x := s.spar i
  let put := fun (s : State) (t : Xfer) => s.modSpar i fun y => { y with xfers := y.xfers.set k t }
  let left := t.len - t.moved
  match t.kind with
  | .send =>
    let w := x.chan t.ep
    if chanKind w = 0 then
      let d := chanSpar w
      let n := min left ((512 - (s.spar d).epUsed (chanEp w)) / 64 * 64)
      let m := t.moved + n
      let s1 := if n = 0 then s else s.channelPut d (chanEp w) (x.scr (t.sa + t.moved) n)
      put s1 { t with moved := m, done := m = t.len }
    else
      let bs := x.scr t.sa t.len
      let s1 : State :=
        if chanKind w = 1 then
          { s with halCmd := mapSet [] s.halCmd (sparTower i) (mapGet [] s.halCmd (sparTower i) ++ bs) }
        else if chanKind w = 2 then
          let q := s.sparPart i
          { s with colCmd := mapSet [] s.colCmd q (mapGet [] s.colCmd q ++ stampSteps x.step (t.len / 64) bs) }
        else s.modSpar i fun y => { y with fqStream := mapSet [] y.fqStream t.ep (mapGet [] y.fqStream t.ep ++ bs) }
      put s1 { t with moved := t.len, done := true }
  | .recv =>
    let b := mapGet [] x.endpoints t.ep
    let n := min left b.length
    let y := { x with scratch := memWrite x.scratch (t.sa + t.moved) (b.take n),
                      endpoints := mapSet [] x.endpoints t.ep (b.drop n) }
    put (if n = 0 then s else s.setSpar i y) { t with moved := t.moved + n, done := t.moved + n = t.len }
  | .dld =>
    if left = 0 then put s { t with done := true }
    else if s.sparCutOff i t.da then put s { t with done := true, refused := true } else s
  | .dst =>
    if left = 0 then put s { t with done := true }
    else if s.sparCutOff i t.da then put s { t with done := true, refused := true } else s
  | .ifill => s
  | .fqRead =>
    if t.sent then s
    else
      let r := t.route.toNat
      let s1 := s.sendPacket (16 + i) (s.sparPart i) 0x21 (bitsOf r 0 16) (bitsOf r 24 2) (bitsOf r 16 8)
        (padTo 16 (leBytes 8 t.da ++ leBytes 2 t.len ++ leBytes 2 s.fqNext))
      put { s1 with fqNext := s1.fqNext + 1 } { t with sent := true, tag := s.fqNext }
  | _ =>
    let r := t.route.toNat
    let mark := if t.kind = .fqArrival then 2 ^ 63 else 0
    let s1 := s.sendPacket (16 + i) (s.sparPart i) 0x20 (bitsOf r 0 16) (bitsOf r 24 2) (bitsOf r 16 8)
      (leBytes 8 t.da ++ leBytes 8 (r % 2 ^ 63 + mark) ++ x.scr t.sa t.len)
    put { s1 with fqNext := s1.fqNext + 1 } { t with sent := true, moved := t.len, tag := s.fqNext }

/-- The transfers of a spar make what progress they can, in issue order (R95). -/
def pumpXfers (i : Nat) : Nat → State → State
  | 0, s => s
  | n + 1, s =>
    let x := s.spar i
    match x.turnXfer with
    | none => s
    | some k =>
      match x.xfers[k]? with
      | none => s
      | some t =>
        let s1 := xferStep i k t s
        if (((s1.spar i).xfers[k]?).map Xfer.settled).getD false then pumpXfers i n s1 else s1

/-- The transfers of spar `i` make what progress they can. -/
def State.pump (s : State) (i : Nat) : State := pumpXfers i 33 s

/-- TRANSFER_RETIRE: the oldest transfer makes its progress and, once complete, retires, with its fault if it met one (R94,
R309, R349). -/
def transferRetire (i : Nat) (s : State) : State :=
  let s1 := s.pump i
  let x := s1.spar i
  match x.xfers with
  | [] => s1
  | t :: r =>
    if ¬ t.done then s1
    else
      let s2 := s1.setSpar i { x with xfers := r }
      match t.ue with
      | some a => s2.sparFault i 0x0301 t.bundle 7 0 0 a x.phase
      | none => if t.status ≠ 0 then s2.sparFault i 0x0405 t.bundle 7 t.status 0 t.da x.phase else s2

/-- CHANNEL_BYTES_ARRIVE: up to `n` bytes on their way reach endpoint `e`, in the order sent (R92). -/
def bytesArrive (i e n : Nat) (s : State) : State :=
  if (s.spar i).paused then s else (s.modSpar i fun y =>
    let b := mapGet [] y.inflight e
    { y with inflight := mapSet [] y.inflight e (b.drop n),
             endpoints := mapSet [] y.endpoints e (mapGet [] y.endpoints e ++ b.take n) }).pump i

/-! One slot of a transfer at a dome port (R300, R309-R313). -/

/-- An atomic operation on one element (Table 10-5). -/
def atomicOp (code m d : Nat) : Nat :=
  let s32 := fun v => toSigned 32 v
  let s64 := fun v => toSigned 64 v
  match code with
  | 0x1 => (m + d) % 2 ^ 32
  | 0x2 => (m + d) % 2 ^ 64
  | 0x3 => if s32 d < s32 m then d else m
  | 0x4 => if s32 m < s32 d then d else m
  | 0x5 => min m d
  | 0x6 => max m d
  | 0x7 => if s64 d < s64 m then d else m
  | 0x8 => if s64 m < s64 d then d else m
  | 0x9 => m &&& d
  | 0xA => m ||| d
  | 0xB => m ^^^ d
  | 0xC => (f32Max (BitVec.ofNat 32 m) (BitVec.ofNat 32 d)).toNat
  | 0xD => (f32Min (BitVec.ofNat 32 m) (BitVec.ofNat 32 d)).toNat
  | _ => d

/-- Bytes of an element of an atomic code (Table 10-5). -/
def atomicBytes (code : Nat) : Nat := if code = 2 ∨ (7 ≤ code ∧ code ≤ 0xB) then 8 else 4

/-- A line's bytes after an atomic with the data `bs`. -/
def atomicLine (code : Nat) (m bs : Bytes) : Bytes :=
  let w := atomicBytes code
  (List.range (64 / w)).flatMap fun j => leBytes w (atomicOp code (fieldAt m (w * j) w) (fieldAt bs (w * j) w))

/-- The lowest of the poisoned addresses met so far and a line's. -/
def meetUe (u : Option Nat) (l : Nat) : Option Nat := some (min (u.getD (64 * l)) (64 * l))

/-- One line of a transfer: the state after it, and the transfer. -/
def xferLine (i : Nat) (acc : State × Xfer) (j : Nat) : State × Xfer :=
  let s := acc.1
  let t := acc.2
  let l := lineOf (t.da + j)
  let bad := mapGet false s.poison l
  match t.kind with
  | .dld =>
    if bad then (s.countUe [l], { t with ue := meetUe t.ue l })
    else (s.modSpar i fun y => y.scrPut (t.sa + j) (s.domeRead (t.da + j) 64), t)
  | _ =>
    let bs := (s.spar i).scr (t.sa + j) 64
    if t.code = 0 then ((s.domePut (t.da + j) bs).setPoison l false, t)
    else if bad then (s.countUe [l], { t with ue := meetUe t.ue l })
    else (s.domePut (t.da + j) (atomicLine t.code (s.domeRead (t.da + j) 64) bs), t)

/-- Bytes of the next slot of a transfer: up to the next 512-byte boundary (R300). -/
def Xfer.slotBytes (t : Xfer) : Nat := min (t.len - t.moved) (512 - (t.da + t.moved) % 512)

/-- One granted slot of the transfer whose turn it is. -/
def xferSlot (i : Nat) (s : State) : State :=
  let x := s.spar i
  match x.turnXfer.bind fun k => (x.xfers[k]?).map fun t => (k, t) with
  | none => s
  | some (k, t) =>
    let n := t.slotBytes
    let r := (List.range (n / 64)).foldl (fun a j => xferLine i a (t.moved + 64 * j)) (s, t)
    let m := t.moved + n
    let s1 := r.1.modSpar i fun y => { y with xfers := y.xfers.set k { r.2 with moved := m, done := m = t.len } }
    (if t.code ≠ 0 then s1.odAdd 0 (0x3020 + domeOf t.da) 7 1 else s1).pump i

/-! Fills (R86, R87). -/

/-- Bundles copied from dome into the instruction store, up to the first poisoned line; that line, if met. -/
def fillBundles : Nat → State → Nat → Nat → Nat → State × Option Nat
  | 0, s, _, _, _ => (s, none)
  | n + 1, s, i, b, a =>
    match (linesOf a 128).find? fun l => mapGet false s.poison l with
    | some l => (s.countUe [l], some l)
    | none =>
      fillBundles n (s.modSpar i fun y => { y with istore := memWrite y.istore (128 * b) (s.domeRead a 128) }) i (b + 1) (a + 128)

/-- IFILL_COMPLETE: the fill of a job start, or the `tx.ifill` whose turn it is, completes or stops at a poisoned line. A fill
whose requester is cut off completes and writes no bundle (R320). -/
def ifillComplete (i : Nat) (s : State) : State :=
  let x := s.spar i
  match x.fill with
  | some f =>
    s.portGate i (s.sparPart i) [(f.da, 128 * f.count)] (fun s => s.modSpar i fun y => { y with fill := none }) fun s =>
      let r := fillBundles f.count s i 0 f.da
      let s1 := r.1.modSpar i fun y => { y with fill := none }
      match r.2 with
      | none => s1
      | some l =>
        let d := s1.draw 24
        d.2.sparFault i 0x0301 (bitsOf d.1.toNat 0 16) (bitsOf d.1.toNat 16 8) 0 0 (64 * l) x.phase
  | none =>
    match x.turnXfer.bind fun k => (x.xfers[k]?).map fun t => (k, t) with
    | none => s
    | some (k, t) =>
      if t.kind ≠ .ifill then s
      else if x.writesAhead t.num [(t.da, t.len)] then s
      else s.portGate i (s.sparPart i) [(t.da, t.len)] (fun s =>
          (s.modSpar i fun y => { y with xfers := y.xfers.set k { t with done := true, refused := true } }).pump i) fun s =>
        let r := fillBundles (t.len / 128) s i t.sa t.da
        (r.1.modSpar i fun y => { y with xfers := y.xfers.set k { t with done := true, moved := t.len, ue := r.2.map (64 * ·) } }).pump i

/-- A pending fill covers bundle `b`: its fetch waits (R85, R87). A fill that met a poisoned line holds its bundles back until
its fault stops the spar (R309). -/
def Spar.fillWaits (x : Spar) (b : Nat) : Bool :=
  x.fill.isSome || x.xfers.any fun t => t.kind = .ifill && (!t.done || t.ue.isSome) && t.sa ≤ b && b < t.sa + t.len / 128

/-- Every transfer of the spar is complete and retired (R97). -/
def Spar.transferIdle (x : Spar) : Bool := x.xfers.isEmpty && x.fill.isNone

end Sys2Proof.Machine
end

