-- ==== Sys2Proof/Machine/Sfu.lean ====
section
/-! DEFINITION. The special functions (R48, R80): each is evaluated in fixed point far beyond FP32, with a sticky bit for
the discarded part, and rounded once to FP32 (log 6). -/

namespace Sys2Proof.Machine

open Sys2Proof

/-- Fraction bits of the fixed-point evaluation. -/
def sfuP : Nat := 640

/-- Product of two fixed-point numbers. -/
def fxMul (a b : Int) : Int := a * b / 2 ^ sfuP

/-- Σ t_k / 2^P of the exponential series of `r`, from term `t` with index `k`. -/
def expSeries (r : Int) : Nat → Int → Nat → Int
  | 0, _, _ => 0
  | fuel + 1, t, k => if t = 0 then 0 else t + expSeries r fuel (fxMul t r / (k + 1 : Nat)) (k + 1)

/-- e^r for a fixed-point r of magnitude at most 1. -/
def fxExp (r : Int) : Int := expSeries r 400 (2 ^ sfuP) 0

/-- Σ z^(2k+1) / (2k+1), from power `t`. -/
def atanhSeries (z2 : Int) : Nat → Int → Nat → Int
  | 0, _, _ => 0
  | fuel + 1, t, k => if t = 0 then 0 else t / (2 * k + 1 : Nat) + atanhSeries z2 fuel (fxMul t z2) (k + 1)

/-- ln y for y = a / b with 1 ≤ a / b ≤ 2. -/
def fxLnRatio (a b : Nat) : Int :=
  let z : Int := ((a - b : Nat) * 2 ^ sfuP : Nat) / ((a + b : Nat) : Int)
  2 * atanhSeries (fxMul z z) 700 z 0

/-- ln 2. -/
def fxLn2 : Int := fxLnRatio 2 1

/-- Σ (-1)^k / ((2k+1) n^(2k+1)), from power `t`. -/
def atanInvSeries (n2 : Nat) : Nat → Int → Nat → Int
  | 0, _, _ => 0
  | fuel + 1, t, k =>
    if t = 0 then 0 else t / (2 * k + 1 : Nat) - atanInvSeries n2 fuel (t / n2) (k + 1)

/-- π, by Machin's formula. -/
def fxPi : Int :=
  4 * (4 * atanInvSeries 25 400 (2 ^ sfuP / 5) 0 - atanInvSeries 57121 400 (2 ^ sfuP / 239) 0)

/-- A positive fixed-point number times 2^k, not exact: its discarded part is kept as a sticky bit. -/
def fxVal (neg : Bool) (y : Int) (k : Int) : FVal := .fin neg (2 * y.natAbs + 1) (k - sfuP - 1)

/-- A finite dyadic as fixed point. -/
def fxOf (neg : Bool) (m : Nat) (e : Int) : Int :=
  let k := e + sfuP
  let a : Int := if 0 ≤ k then ((m <<< k.toNat : Nat) : Int) else ((m >>> (-k).toNat : Nat) : Int)
  if neg then -a else a

/-- A positive value below half the smallest FP32 subnormal. -/
def tinyVal (neg : Bool) : FVal := .fin neg 1 (-400)

/-- A value just below 1. -/
def belowOne (neg : Bool) : FVal := .fin neg (2 ^ 200 - 1) (-200)

/-- exp2. -/
def sfuExp2 : FVal → FVal
  | .nan => .nan
  | .inf n => if n then .fin false 0 0 else .inf false
  | .fin n m e =>
    if m = 0 then .fin false 1 0
    else if 12 ≤ (Nat.log2 m : Int) + e then (if n then tinyVal false else .inf false)
    else
      let x := fxOf n m e
      let k := x / 2 ^ sfuP
      let r := x % 2 ^ sfuP
      if r = 0 then .fin false 1 k else fxVal false (fxExp (fxMul r fxLn2)) k

/-- e^x of a finite x as fixed point y and exponent k: y * 2^(k - P). -/
def expParts (x : Int) : Int × Int :=
  let k := x / fxLn2
  (fxExp (x - k * fxLn2), k)

/-- exp. -/
def sfuExp : FVal → FVal
  | .nan => .nan
  | .inf n => if n then .fin false 0 0 else .inf false
  | .fin n m e =>
    if m = 0 then .fin false 1 0
    else if 12 ≤ (Nat.log2 m : Int) + e then (if n then tinyVal false else .inf false)
    else let p := expParts (fxOf n m e); fxVal false p.1 p.2

/-- ln x in fixed point for x = m * 2^e, m > 0. -/
def fxLn (m : Nat) (e : Int) : Int :=
  let l := Nat.log2 m
  fxLnRatio m (2 ^ l) + ((l : Int) + e) * fxLn2

/-- log2. -/
def sfuLog2 : FVal → FVal
  | .nan => .nan
  | .inf n => if n then .nan else .inf false
  | .fin n m e =>
    if m = 0 then .inf true
    else if n then .nan
    else
      let l := Nat.log2 m
      if m = 2 ^ l then ofInt ((l : Int) + e) 0
      else
        let y := fxLnRatio m (2 ^ l) * 2 ^ sfuP / fxLn2 + ((l : Int) + e) * 2 ^ sfuP
        fxVal (decide (y < 0)) y 0

/-- log. -/
def sfuLog : FVal → FVal
  | .nan => .nan
  | .inf n => if n then .nan else .inf false
  | .fin n m e =>
    if m = 0 then .inf true
    else if n then .nan
    else if f32Val 0x3F800000 |>.eqv (.fin n m e) then .fin false 0 0
    else let y := fxLn m e; fxVal (decide (y < 0)) y 0

/-- Reciprocal. -/
def sfuRecip (v : FVal) : FVal := (FVal.fin false 1 0).div v

/-- Reciprocal square root. -/
def sfuRsqrt : FVal → FVal
  | .nan => .nan
  | .inf n => if n then .nan else .fin false 0 0
  | .fin n m e =>
    if m = 0 then .inf n
    else if n then .nan
    else
      let odd : Int := e % 2
      let m2 := m <<< odd.toNat
      let y := 2 ^ 512 / m2
      let r := isqrt y
      .fin false (2 * r + if r * r * m2 = 2 ^ 512 then 0 else 1) (-((e - odd) / 2) - 256 - 1)

/-- tanh. -/
def sfuTanh : FVal → FVal
  | .nan => .nan
  | .inf n => .fin n 1 0
  | .fin n m e =>
    let top := (Nat.log2 m : Int) + e
    if m = 0 then .fin n 0 e
    else if top < -40 then .fin n (m * 2 ^ 100 - 1) (e - 100)
    else if 6 ≤ top then belowOne n
    else
      let p := expParts (fxOf false m (e + 1))
      let E : Int := p.1 * 2 ^ p.2.toNat
      fxVal n ((E - 2 ^ sfuP) * 2 ^ sfuP / (E + 2 ^ sfuP)) 0

/-- Logistic sigmoid. -/
def sfuSigmoid : FVal → FVal
  | .nan => .nan
  | .inf n => if n then .fin false 0 0 else .fin false 1 0
  | .fin n m e =>
    let top := (Nat.log2 m : Int) + e
    if m = 0 then .fin false 1 (-1)
    else if 8 ≤ top then (if n then tinyVal false else belowOne false)
    else
      let p := expParts (fxOf false m e)
      let E : Int := p.1 * 2 ^ p.2.toNat
      let num : Int := if n then 2 ^ sfuP else E
      fxVal false (num * 2 ^ sfuP / (E + 2 ^ sfuP)) 0

/-- Σ (-x²)^k / (k! (2k+1)), from t = x^(2k) / k!. -/
def erfSeries (x2 : Int) : Nat → Int → Nat → Int
  | 0, _, _ => 0
  | fuel + 1, t, k =>
    if t = 0 then 0 else t / (2 * k + 1 : Nat) + erfSeries x2 fuel (-(fxMul t x2 / (k + 1 : Nat))) (k + 1)

/-- 2/√π in fixed point. -/
def fxTwoOverSqrtPi : Int := (isqrt ((4 * 2 ^ (3 * sfuP)) / fxPi.toNat) : Int)

/-- erf. -/
def sfuErf : FVal → FVal
  | .nan => .nan
  | .inf n => .fin n 1 0
  | .fin n m e =>
    if m = 0 then .fin n 0 e
    else if 4 ≤ (Nat.log2 m : Int) + e then belowOne n
    else
      let x := fxOf false m e
      let s := erfSeries (fxMul x x) 2000 (2 ^ sfuP) 0
      let y := fxMul s fxTwoOverSqrtPi
      .fin n (2 * (y.natAbs * m) + 1) (e - sfuP - 1)

/-- cos(π x) for a dyadic x = z / 2^k: reduced to a quarter turn exactly, then by series. -/
def cosSeries (x2 : Int) : Nat → Int → Nat → Int
  | 0, _, _ => 0
  | fuel + 1, t, k =>
    if t = 0 then 0 else t + cosSeries x2 fuel (-(fxMul t x2 / ((2 * k + 1) * (2 * k + 2) : Nat))) (k + 1)

/-- cos of a fixed-point angle of magnitude at most 4. -/
def fxCos (a : Int) : Int := cosSeries (fxMul a a) 400 (2 ^ sfuP) 0

/-- Special function number `fn` of R80 on one FP32 lane. -/
def sfuApply (fn : Nat) (x : W32) : W32 :=
  let v := f32Val x
  toF32 (match fn with
    | 0 => sfuExp2 v
    | 1 => sfuLog2 v
    | 2 => sfuExp v
    | 3 => sfuLog v
    | 4 => sfuRecip v
    | 5 => v.sqrt
    | 6 => sfuRsqrt v
    | 7 => sfuTanh v
    | 8 => sfuSigmoid v
    | _ => sfuErf v)

end Sys2Proof.Machine
end

