-- ==== Sys2Proof/Machine/Vector.lean ====
section
/-! DEFINITION. Slots 4 and 5: the vector unit (03 R48, R76, R79, R80, R500; 04 R145). -/

namespace Sys2Proof.Machine

open Sys2Proof

/-- Both BF16 elements of a 32-bit lane, low element first (Table 3-4). -/
def halves (l : W32) : Nat × Nat := (l.toNat % 2 ^ 16, l.toNat / 2 ^ 16)

/-- A lane from its two BF16 elements. -/
def ofHalves (lo hi : Nat) : W32 := BitVec.ofNat 32 (lo + hi * 2 ^ 16)

/-- A lane-wise operation of two operands by type MOD[7:4]: f32, bf16 packed, or i32 (R76). -/
def laneOp2 (f : Fields) (fop : W32 → W32 → W32) (bop : FVal → FVal → FVal) (iop : W32 → W32 → W32) (a b : W32) : W32 :=
  if f.fmt = 0xC then fop a b
  else if f.fmt = 0xA then
    ofHalves (toBf16 (bop (bf16Val (halves a).1) (bf16Val (halves b).1)))
      (toBf16 (bop (bf16Val (halves a).2) (bf16Val (halves b).2)))
  else iop a b

/-- A lane-wise operation of v[A] and v[B] into v[D]. -/
def vec2 (x : Spar) (i : Nat) (f : Fields) (op : W32 → W32 → W32) (s : State) : State :=
  s.modSpar i fun y => y.vset f.d.toNat
    (ofLanes ((lanesOf (x.vget f.a.toNat)).zipWith op (lanesOf (x.vget f.b.toNat))))

/-- Minimum of two BF16 values by R79. -/
def valMin (a b : FVal) : FVal := if a = .nan ∨ b = .nan then .nan else if b.before a then b else a
/-- Maximum of two BF16 values by R79. -/
def valMax (a b : FVal) : FVal := if a = .nan ∨ b = .nan then .nan else if a.before b then b else a

/-- `va.add`. -/
def effVaAdd : SlotEff := fun x i f s => vec2 x i f (laneOp2 f f32Add FVal.add (· + ·)) s
/-- `va.sub`. -/
def effVaSub : SlotEff := fun x i f s => vec2 x i f (laneOp2 f f32Sub (fun a b => a.add b.neg) (· - ·)) s
/-- `va.mul`. -/
def effVaMul : SlotEff := fun x i f s => vec2 x i f (laneOp2 f f32Mul FVal.mul (· * ·)) s

/-- One lane of `va.fma`: A * B + C, rounded once. -/
def laneFma (f : Fields) (a b c : W32) : W32 :=
  if f.fmt = 0xC then f32Fma a b c
  else if f.fmt = 0xA then
    ofHalves (toBf16 (((bf16Val (halves a).1).mul (bf16Val (halves b).1)).add (bf16Val (halves c).1)))
      (toBf16 (((bf16Val (halves a).2).mul (bf16Val (halves b).2)).add (bf16Val (halves c).2)))
  else a * b + c

/-- `va.fma`. -/
def effVaFma : SlotEff := fun x i f s => s.modSpar i fun y => y.vset f.d.toNat
  (ofLanes ((List.range 256).map fun k =>
    laneFma f (lane (x.vget f.a.toNat) k) (lane (x.vget f.b.toNat) k) (lane (x.vget f.c.toNat) k)))

/-- `va.min`; I32 lanes compare signed (log 16). -/
def effVaMin : SlotEff := fun x i f s => vec2 x i f (laneOp2 f f32Min valMin fun a b => if b.slt a then b else a) s
/-- `va.max`; I32 lanes compare signed (log 16). -/
def effVaMax : SlotEff := fun x i f s => vec2 x i f (laneOp2 f f32Max valMax fun a b => if a.slt b then b else a) s

/-- The comparison of lane `k` by `va.cmp` (R500). -/
def laneCmp (f : Fields) (a b : W32) : Bool :=
  let c := f.mod.toNat % 8
  if f.fmt = 0xC then floatCond c (f32Val a) (f32Val b)
  else if f.fmt = 0xA then
    let h (l : W32) : Nat := if f.modBit 3 then (halves l).2 else (halves l).1
    floatCond c (bf16Val (h a)) (bf16Val (h b))
  else intCond c a b

/-- A predicate register from a truth value per lane. -/
def ofPred (p : Nat → Bool) : BitVec 256 :=
  BitVec.ofNat 256 ((List.range 256).foldr (fun k acc => acc * 2 + if p k then 1 else 0) 0)

/-- `va.cmp.<c>`. -/
def effVaCmp : SlotEff := fun x i f s => s.modSpar i fun y => y.pset f.d.toNat
  (ofPred fun k => laneCmp f (lane (x.vget f.a.toNat) k) (lane (x.vget f.b.toNat) k))

/-- `va.sel`: whole lanes by bit i of p[X]. -/
def effVaSel : SlotEff := fun x i f s => s.modSpar i fun y => y.vset f.d.toNat
  (ofLanes ((List.range 256).map fun k =>
    if (x.pget f.x.toNat).getLsbD k then lane (x.vget f.a.toNat) k else lane (x.vget f.b.toNat) k))

/-- `va.and`. -/
def effVaAnd : SlotEff := fun x i f s => s.modSpar i fun y => y.vset f.d.toNat (x.vget f.a.toNat &&& x.vget f.b.toNat)
/-- `va.or`. -/
def effVaOr : SlotEff := fun x i f s => s.modSpar i fun y => y.vset f.d.toNat (x.vget f.a.toNat ||| x.vget f.b.toNat)
/-- `va.xor`. -/
def effVaXor : SlotEff := fun x i f s => s.modSpar i fun y => y.vset f.d.toNat (x.vget f.a.toNat ^^^ x.vget f.b.toNat)
/-- `va.mov`. -/
def effVaMov : SlotEff := fun x i f s => s.modSpar i fun y => y.vset f.d.toNat (x.vget f.a.toNat)

/-- `vb.sfu.<fn>`: the function is MOD[3:0] (R80). -/
def effVbSfu : SlotEff := fun x i f s => s.modSpar i fun y => y.vset f.d.toNat
  (ofLanes ((lanesOf (x.vget f.a.toNat)).map (sfuApply f.low)))

/-- Bytes of a conversion: packed elements, then the scale or exponent bytes (R79). -/
def convBytes (f : Nat) (c : Conv) : Bytes := packElems f c.elems ++ c.scales.map fun e => BitVec.ofNat 8 e

/-- The conversion of `vb.cvt`: policy entry IMM[5:0], key s[B][31:0] and s[C] + k (R79). -/
def vbConv (s : State) (x : Spar) (i : Nat) (f : Fields) : Conv :=
  let p := s.policy (s.sparPart i) (f.immBits 0 6) x.step.toNat ((x.sget f.b.toNat).toNat % 2 ^ 32)
  let i0 := (x.sget f.c.toNat).toNat
  convert f.fmt p ((List.range 256).map fun k => ((i0 + k) % 2 ^ 64, lane (x.vget f.a.toNat) k))

/-- `vb.cvt.<f>`: counted against layer slot IMM[15:8]. -/
def effVbCvt : SlotEff := fun x i f s =>
  let c := vbConv s x i f
  (s.modSpar i fun y => y.vset f.d.toNat (vecOfBytes (padTo 1024 (convBytes f.fmt c)))).countRange
    (s.sparPart i) (f.immBits 8 8) c

/-- Lane `k` of `vb.wid`: element `k` of the packed register, with its scale byte after the elements (R49, R79). -/
def widLane (f : Nat) (b : Bytes) (k : Nat) : W32 :=
  let n := 256 * elemBits f / 8
  widen f (unpackElem f b k) (if blockLen f = 0 then 0 else fieldAt b (n + k / blockLen f) 1)

/-- `vb.wid.<f>`. -/
def effVbWid : SlotEff := fun x i f s => s.modSpar i fun y => y.vset f.d.toNat
  (ofLanes ((List.range 256).map (widLane f.fmt (vecBytes (x.vget f.a.toNat)))))

/-- One level of the pairwise reduction. -/
def pairUp (op : W32 → W32 → W32) : List W32 → List W32
  | a :: b :: r => op a b :: pairUp op r
  | l => l

/-- Eight levels of pairwise reduction over 256 lanes (R79). -/
def reduceLanes (op : W32 → W32 → W32) (l : List W32) : W32 :=
  ((List.range 8).foldl (fun l _ => pairUp op l) l).headD 0

/-- `vb.red.<op>`: sum, max or min by MOD[3:0]; the upper half of s[D] is zero. -/
def effVbRed : SlotEff := fun x i f s =>
  let op := match f.low with | 0 => f32Add | 1 => f32Max | _ => f32Min
  writeS i f ((reduceLanes op (lanesOf (x.vget f.a.toNat))).setWidth 64) s

/-- `vb.perm`. -/
def effVbPerm : SlotEff := fun x i f s => s.modSpar i fun y => y.vset f.d.toNat
  (ofLanes ((List.range 256).map fun k => lane (x.vget f.a.toNat) ((lane (x.vget f.b.toNat) k).toNat % 256)))

/-- `vb.bcast`. -/
def effVbBcast : SlotEff := fun x i f s => s.modSpar i fun y => y.vset f.d.toNat
  (ofLanes (List.replicate 256 ((x.sget f.a.toNat).setWidth 32)))

/-- `vb.acc`: entries (a[B] + j) modulo 65,536 (R145). -/
def effVbAcc : SlotEff := fun x i f s => s.modSpar i fun y => y.vset f.d.toNat
  (ofLanes ((List.range 256).map fun j => x.accGet (((x.aget f.b.toNat).toNat + j) % 65536)))

/-- `vb.plog`: and, or, xor, and-not by MOD[3:0]. -/
def effVbPlog : SlotEff := fun x i f s =>
  let a := x.pget f.a.toNat
  let b := x.pget f.b.toNat
  s.modSpar i fun y => y.pset f.d.toNat
    (match f.low with | 0 => a &&& b | 1 => a ||| b | 2 => a ^^^ b | _ => a &&& ~~~b)

/-- A type code slot 4 accepts: bf16, f32 or i32 (R76). -/
def vecType (t : Nat) : Bool := t = 0xA || t = 0xC || t = 0xE

/-- Encoding checks of slot 4 (R77): the type code of 0x01 to 0x07, the condition of `va.cmp`. -/
def encSlot4 (w : SlotWord) : List IFault :=
  (if w.op = 0x07 ∧ 5 < w.f.mod.toNat % 8 then [badBundle 1 0] else []) ++
  (if 0x01 ≤ w.op.toNat ∧ w.op.toNat ≤ 0x07 ∧ !vecType w.f.fmt then [badBundle 4 0] else [])

/-- Encoding checks of slot 5 (R77): operation selectors, and the format code of `vb.cvt` and `vb.wid`. -/
def encSlot5 (w : SlotWord) : List IFault :=
  (if w.op = 0x01 ∧ 9 < w.f.low then [badBundle 1 0] else []) ++
  (if w.op = 0x04 ∧ 2 < w.f.low then [badBundle 1 0] else []) ++
  (if w.op = 0x08 ∧ 3 < w.f.low then [badBundle 1 0] else []) ++
  (if (w.op = 0x02 ∨ w.op = 0x03) ∧ 13 < w.f.fmt then [badBundle 4 0] else [])

end Sys2Proof.Machine
end

