-- ==== Sys2Proof/Machine/Issue.lean ====
section
/-! DEFINITION. The issue of a bundle (03 R70-R74, R81-R83, R97-R104): waits, checks, the effects of its slots, the next
program counter, and barriers. -/

namespace Sys2Proof.Machine

open Sys2Proof

/-! The effect of each opcode (Tables 3-5, 4-6, 6-1). -/

/-- Effect of a slot with OP 0x00 or an undefined opcode: none. -/
def effNone : SlotEff := fun _ _ _ s => s

/-- Effects of slot 0. -/
def effSlot0 (op : Nat) : SlotEff :=
  match op with
  | 0x01 => effScAdd | 0x02 => effScSub | 0x03 => effScAnd | 0x04 => effScOr | 0x05 => effScXor
  | 0x06 => effScShl | 0x07 => effScShr | 0x08 => effScSar | 0x09 => effScMin | 0x0A => effScMax
  | 0x0B => effScCmp | 0x0C => effScMul | 0x0D => effScMulh | 0x0E => effScDiv | 0x0F => effScRem
  | 0x10 => effScLi | 0x20 => effBr | 0x21 => effBrNz | 0x22 => effBrZ | 0x23 => effBrLink
  | 0x30 => effScCfg | 0x31 => effScCyc | 0x3F => effScHalt | _ => effNone

/-- Effects of slot 1. -/
def effSlot1 (op : Nat) : SlotEff :=
  match op with
  | 0x01 => effAdAdd | 0x02 => effAdIncm | 0x03 => effAdLi | 0x04 => effAdFroms | 0x05 => effAdTos
  | 0x10 => effLpBegin | 0x11 => effLpBreak | 0x12 => effLpGet | _ => effNone

/-- Effects of slot 2. -/
def effSlot2 (op : Nat) : SlotEff :=
  match op with
  | 0x01 => effLdS | 0x02 => effStS | 0x03 => effLdV | 0x04 => effStV | 0x05 => effStVt | 0x06 => effLdP
  | 0x07 => effStP | 0x08 => effLdM | 0x09 => effStM | 0x0A => effLdT | _ => effNone

/-- Effects of slot 3. -/
def effSlot3 (op : Nat) : SlotEff :=
  match op with
  | 0x01 => effMld | 0x02 => effMmx | 0x03 => effMew | 0x04 => effMwb | 0x05 => effMal | 0x06 => effMfr | _ => effNone

/-- Effects of slot 4. -/
def effSlot4 (op : Nat) : SlotEff :=
  match op with
  | 0x01 => effVaAdd | 0x02 => effVaSub | 0x03 => effVaMul | 0x04 => effVaFma | 0x05 => effVaMin | 0x06 => effVaMax
  | 0x07 => effVaCmp | 0x08 => effVaSel | 0x09 => effVaAnd | 0x0A => effVaOr | 0x0B => effVaXor | 0x0C => effVaMov
  | _ => effNone

/-- Effects of slot 5. -/
def effSlot5 (op : Nat) : SlotEff :=
  match op with
  | 0x01 => effVbSfu | 0x02 => effVbCvt | 0x03 => effVbWid | 0x04 => effVbRed | 0x05 => effVbPerm | 0x06 => effVbBcast
  | 0x07 => effVbAcc | 0x08 => effVbPlog | _ => effNone

/-- Effects of slot 6. -/
def effSlot6 (op : Nat) : SlotEff :=
  match op with
  | 0x01 => effTgGather | 0x02 => effTgUnperm | 0x03 => effTkScatter | 0x04 => effTkScatadd | 0x05 => effTkPerm
  | 0x06 => effTkRowfeed | 0x07 => effTkClaim | 0x08 => effTkDone | _ => effNone

/-- Effects of slot 7. -/
def effSlot7 (op : Nat) : SlotEff :=
  match op with
  | 0x01 => effTxDld | 0x02 => effTxDst | 0x03 => effTxSend | 0x04 => effTxRecv | 0x05 => effTxFq | 0x06 => effTxIfill
  | 0x07 => effTxChtab | 0x08 => effTxWait | 0x10 => effFcLocal | 0x11 => effFcPhase | _ => effNone

/-- Effect of opcode `op` in slot `k`. -/
def effSlot (k op : Nat) : SlotEff :=
  match k with
  | 0 => effSlot0 op | 1 => effSlot1 op | 2 => effSlot2 op | 3 => effSlot3 op | 4 => effSlot4 op | 5 => effSlot5 op
  | 6 => effSlot6 op | _ => effSlot7 op

/-! Waits (R73, R100, R104). -/

/-- A slot that will act: not a no-operation, and its guard holds. -/
def slotActs (x : Spar) (w : SlotWord) : Bool := w.op != 0 && guardOn x w.f

/-- A scalar register whose result is on its way from a dome (R73). -/
def Spar.regPending (x : Spar) (r : Reg) : Bool := x.claims.any fun c => r = (.s, c.dest) && c.dest != 0

/-- Registers a slot waits for beside its guard: those it names, and the bound register of its descriptor (R160, R104). -/
def slotWaitRegs (x : Spar) (k : Nat) (w : SlotWord) : List Reg :=
  match slotRegs k w with
  | none => []
  | some (rd, wr) =>
    if (rd ++ wr).any fun r => r.1.size ≤ r.2 then []
    else rd ++ wr ++ rd.filterMap fun r => match r with
      | (.t, i) => let d := Desc.of (x.tget i); if k = 3 ∧ d.bsrc = 1 then some (.s, d.breg) else none
      | _ => none

/-- Every operation the spar has issued is complete (R97). -/
def Spar.quiet (x : Spar) : Bool := x.transferIdle && x.arrayIdle && x.tackleIdle

/-- Row lists pending or on their way to be (Table 6-3). -/
def Spar.listsAhead (x : Spar) (block : Bool) : Nat :=
  (if block then x.blockLists.length else x.rowLists.length) +
  x.tackleQ.countP (fun o => o.op = 6 && o.fmode = block) +
  (match x.tackle with
   | some r => if r.op.op = 6 ∧ r.op.fmode = block then 1 else 0
   | none => 0)

/-- The unit of slot `k` has no room for the slot: its queue is full (R73, R94, R119, R168). -/
def unitFull (x : Spar) (k : Nat) (w : SlotWord) : Bool :=
  let op := w.op.toNat
  match k with
  | 3 => if op = 1 then 2 ≤ x.loads.length else 2 ≤ op && op ≤ 6 && 2 ≤ x.stream.length
  | 6 => if op = 7 ∨ op = 8 then 16 ≤ x.claims.length else 1 ≤ op && op ≤ 6 && 4 ≤ x.tackleQ.length
  | 7 => 1 ≤ op && op ≤ 6 && 32 ≤ x.xfers.length
  | _ => false

/-- The instruction of slot `k` waits by its own rule: for a pending list or room for one, for the transfers of `tx.wait` and
`tx.chtab`, for the quiet of a fence (R91, R94, R97, R172, R185). -/
def slotHolds (x : Spar) (k : Nat) (w : SlotWord) : Bool :=
  let op := w.op.toNat
  match k with
  | 3 => op = 2 && ((Fields.feed w.f = 1 && x.rowLists.isEmpty) || (Fields.feed w.f = 2 && x.blockLists.isEmpty))
  | 6 => op = 6 && (if w.f.imm.getLsbD 40 then 1 ≤ x.listsAhead true else 2 ≤ x.listsAhead false)
  | 7 =>
    if op = 7 then !x.xfers.isEmpty
    else if op = 8 then w.f.immBits 0 6 < x.xfers.length
    else (op = 0x10 || op = 0x11) && !x.quiet
  | _ => false

/-- Slot `k`'s opcode is defined and its register indices lie within their files (R104). -/
def slotNamed (k : Nat) (w : SlotWord) : Bool :=
  match slotRegs k w with
  | none => false
  | some (rd, wr) => (rd ++ wr).all fun r => r.2 < r.1.size

/-- The bundle at the spar's program counter waits (R73, R87, R104): for the registers that each slot with a defined opcode and
registers within their files names, its guard among them, and for its unit, whether its guard holds or not; what the
instruction itself waits for (a fence, `tx.wait`, a pending list) holds back only a slot that will act (log 11). -/
def bundleWaits (x : Spar) (ws : List SlotWord) : Bool :=
  x.fillWaits x.pc ||
  ws.zipIdx.any (fun wk => wk.1.op != 0 && slotNamed wk.2 wk.1 &&
    ((wk.1.f.gen && x.regPending (.s, wk.1.f.greg.toNat)) || (slotWaitRegs x wk.2 wk.1).any x.regPending ||
     unitFull x wk.2 wk.1 || (slotActs x wk.1 && slotHolds x wk.2 wk.1)))

/-! Checks (R72, R74, R76, R77, R104). -/

/-- Encoding checks of slot 3: formats and selectors (R77, R185). -/
def encSlot3 (w : SlotWord) : List IFault :=
  let f := w.f
  if (w.op = 0x01 ∧ 12 < f.fmt) ∨ (w.op = 0x02 ∧ (pairOf f.fmt f.low = none ∨ Fields.feed f = 3)) ∨
     (w.op = 0x03 ∧ 4 < Fields.mewOp f) ∨ (w.op = 0x04 ∧ 12 < f.fmt) then [badBundle 4 0] else []

/-- Encoding checks of a slot with a defined opcode. -/
def encSlot (s : State) (x : Spar) (i k : Nat) (w : SlotWord) : List IFault :=
  match k with
  | 0 => encSlot0 s i w | 1 => encSlot1 x w | 3 => encSlot3 w | 4 => encSlot4 w | 5 => encSlot5 w | 6 => encSlot6 w
  | 7 => encSlot7 w | _ => []

/-- Checks at issue of a slot whose guard holds. -/
def chkSlot (s : State) (x : Spar) (i k : Nat) (w : SlotWord) : List IFault :=
  match k with
  | 0 => chkSlot0 x w
  | 2 => if w.op = 0x05 then chkStVt x w.f else chkSlot2 x w
  | 3 => match w.op.toNat with
    | 1 => chkMld s x i w.f | 2 => chkMmx x w.f | 3 => chkMew x w.f | 4 => chkMwb x w.f | 5 => chkMal x w.f
    | 6 => chkMfr x | _ => []
  | 6 => if w.op.toNat ≤ 6 then chkList s x i w else chkClaim s x i w
  | 7 => chkSlot7 s x i w
  | _ => []

/-- Registers slot `k` writes; none for an undefined opcode. -/
def slotWrites (k : Nat) (w : SlotWord) : List Reg := ((slotRegs k w).map (·.2)).getD []

/-- The faults of slot `k` of a bundle (R104). VALUE of causes 2 and 3 is the register index: the first, sources before
destinations, that is beyond its file, or that another slot writes (log 12). -/
def slotFaults (s : State) (x : Spar) (i : Nat) (ws : List SlotWord) (k : Nat) (w : SlotWord) : List IFault :=
  if w.op = 0 then []
  else match slotRegs k w with
    | none => [badBundle 1 0]
    | some (rd, wr) =>
      let far := (rd ++ wr).find? fun r => r.1.size ≤ r.2
      let dup := wr.find? fun r => ws.zipIdx.any fun wj => wj.2 != k && wj.1.op != 0 && (slotWrites wj.2 wj.1).contains r
      encSlot s x i k w ++ (far.map fun r => badBundle 2 r.2).toList ++ (dup.map fun r => badBundle 3 r.2).toList ++
      (if guardOn x w.f && far.isNone then chkSlot s x i k w else [])

/-- The fault a bundle records: that of its lowest-numbered faulting slot (R104). -/
def bundleFault (s : State) (x : Spar) (i : Nat) (ws : List SlotWord) : Option (Nat × IFault) :=
  ws.zipIdx.findSome? fun wk => (worstFault (slotFaults s x i ws wk.2 wk.1)).map fun t => (wk.2, t)

/-! The next program counter (R81-R83). -/

/-- A branch slot is taken. -/
def branchTaken (x : Spar) (w : SlotWord) : Bool :=
  slotActs x w && match w.op.toNat with
    | 0x20 | 0x23 => true
    | 0x21 => x.sget w.f.c.toNat != 0
    | 0x22 => x.sget w.f.c.toNat == 0
    | _ => false

/-- Loops that end at bundle `b`, most recently begun first: where issue continues, and the loops and counters after (R83). -/
def loopBack (b : Nat) : List Loop → Spar → Spar × Option Nat
  | [], y => (y, none)
  | l :: r, y =>
    if l.last = b then
      let c := y.lget l.x - 1
      let z := y.lset l.x c
      if c = 0 then loopBack b r { z with loops := z.loops.filter fun m => m.x != l.x }
      else (z, some l.first)
    else loopBack b r y

/-- The spar after its bundle at `x.pc`: program counter and loops. `y` is the spar after the slots' effects. DESIGN CHOICE
(log 68): an `lp.begin` with count 0 skips its body even in the end bundle of another loop, whose counter then stays; an
`lp.begin` or `lp.break` on l[X] in the end bundle of that same loop acts first, and the loop end sees the loops it leaves. -/
def advance (x : Spar) (ws : List SlotWord) (y : Spar) : Spar :=
  let w0 := ws.headD {}
  let w1 := (ws[1]?).getD {}
  if branchTaken x w0 then { y with pc := branchTarget x w0.f, waiting := false }
  else if slotActs x w1 ∧ w1.op = 0x10 ∧ loopCount x w1.f = 0 then { y with pc := loopEnd x w1.f + 1, waiting := false }
  else
    let r := loopBack x.pc y.loops y
    { r.1 with pc := r.2.getD (x.pc + 1), waiting := false }

/-! Issue. -/

/-- The effects of a bundle's slots, in slot order; every slot reads the spar `x` from before the bundle (R73). -/
def slotsEffect (x : Spar) (i : Nat) (ws : List SlotWord) (s : State) : State :=
  ws.zipIdx.foldl (fun s wk => if slotActs x wk.1 then effSlot wk.2 wk.1.op.toNat x i wk.1.f s else s) s

/-- A job that runs ends once every started spar has halted: job state 4 and its notice (R88). -/
def State.endJob (s : State) (q : Nat) : State :=
  if s.jobRuns q && (s.part q).started.all (fun i => (s.spar i).run = .halted) then (s.odSet q 0x2020 4 4).jobNotice q else s

/-- A halting spar whose operations are all complete halts: it leaves its barrier groups and its accumulator regions end
(R88, R141). -/
def haltComplete (i : Nat) (s : State) : State :=
  if (s.spar i).run = .halting && (s.spar i).quiet then
    (s.modSpar i fun y => { y with run := .halted, regions := [], barrier := none, waiting := false }).endJob (s.sparPart i)
  else s

/-- The bundle at spar `i`'s program counter issues; a spar that halts with nothing outstanding halts at once (R88). -/
def issueNow (i : Nat) (s : State) : State :=
  let x := s.spar i
  haltComplete i ((slotsEffect x i x.bundle s).modSpar i (advance x x.bundle))

/-- The barrier group of the bundle's `fc.phase`, if it acts (R98). -/
def barrierOf (x : Spar) (ws : List SlotWord) : Option Nat :=
  match ws[7]? with
  | some w => if slotActs x w ∧ w.op = 0x11 then some (w.f.immBits 0 4) else none
  | none => none

/-- Current members of barrier group `g` of partition `q`: its members among the started spars that have not halted (R88,
R98). -/
def State.members (s : State) (q g : Nat) : List Nat :=
  (s.part q).started.filter fun i => s.isMember i g && (s.spar i).run != .halted

/-- Every current member has reached an `fc.phase` on the group (R98). -/
def State.allArrived (s : State) (q g : Nat) : Bool :=
  (s.members q g).all fun i => (s.spar i).barrier = some g

/-- The barrier's members issue. -/
def releaseBarrier (q g : Nat) (s : State) : State :=
  if (s.members q g) ≠ [] ∧ s.allArrived q g then (s.members q g).foldl (fun t i => issueNow i t) s else s

/-- A bundle reaches issue (R73, R104): it waits, faults, reaches its barrier, or issues. -/
def issue (i : Nat) (s : State) : State :=
  let x := s.spar i
  let ws := x.bundle
  if bundleWaits x ws then s.modSpar i fun y => { y with waiting := true }
  else match bundleFault s x i ws with
    | some (k, t) => s.sparFault i t.code x.pc k t.cause 0 t.value x.phase
    | none =>
      match barrierOf x ws with
      | some g => releaseBarrier (s.sparPart i) g (s.modSpar i fun y => { y with waiting := true, barrier := some g })
      | none => issueNow i s

/-- Spar `i` can bring its next bundle to issue: its job runs it, nothing holds it back, and it has a bundle to fetch. -/
def State.canIssue (s : State) (i : Nat) : Bool :=
  s.boot = .ready && (s.spar i).run = .running && !(s.spar i).paused && (s.spar i).barrier.isNone && decide ((s.spar i).pc < 512)

/-- The bundle at spar `i`'s program counter holds, in slot `k`, the opcode and fields given. -/
def State.slotIs (s : State) (i k : Nat) (op : BitVec 8) (f : Fields) : Bool :=
  (s.spar i).slotAt (s.spar i).pc k = ⟨op, f⟩

/-- A command that brings to issue the bundle whose slot `k` holds `op` and `f`. -/
def issueRow (k : Nat) (op : BitVec 8) (i : Nat) (f : Fields) (s : State) : Res :=
  if s.canIssue i && s.slotIs i k op f then .next (issue i s) else .next s

end Sys2Proof.Machine
end

