-- ==== Sys2Proof/Machine/Job.lean ====
section
/-! DEFINITION. Jobs (03 3.6, R84-R90, R100, R105) and the events of a spar: halting, sequential fetch, transfers, array
and tackle events, barriers, the phase wait limit, and the counter clears of R51, R149 and R198. -/

namespace Sys2Proof.Machine

open Sys2Proof

/-- An event of the running device: nothing happens while it is not running. -/
def liveEvent (s : State) (f : State → State) : Res := .next (if s.live then f s else s)

/-- An event of spire unit `k`, which does no work while it is tested or fenced (Tables 14-4, 14-5). -/
def spireEvent (k : Nat) (s : State) (f : State → State) : Res :=
  liveEvent s fun s => if s.unitOut (spireUnit k) then s else f s

/-- HALT_COMPLETE (R88). -/
def execHaltComplete (sp : Nat) (s : State) : Res := liveEvent s (haltComplete sp)

/-- The program counter stands beyond bundle 511 and the spar would fetch (R81). -/
def State.overran (s : State) (i : Nat) : Bool :=
  (s.spar i).run = .running && !(s.spar i).paused && (s.spar i).pc = 512

/-- SEQUENTIAL_FETCH_OVERRUN (R81): BUNDLE_INVALID, cause 0x05, next bundle index 512, SLOT 0xFF. -/
def execSequentialFetchOverrun (sp : Nat) (s : State) : Res := liveEvent s fun s =>
  if s.overran sp then s.sparFault sp 0x0106 512 0xFF 5 0 512 (s.spar sp).phase else s

/-- ARRAY_INSTRUCTION_START (R110). -/
def execArrayInstructionStart (sp : Nat) (s : State) : Res := liveEvent s (arrayStart sp)
/-- ARRAY_ROW_LANDS (R110). -/
def execArrayRowLands (sp : Nat) (s : State) : Res := liveEvent s (rowLands sp)
/-- STATIONARY_LOAD_COMPLETE (R119). -/
def execStationaryLoadComplete (sp : Nat) (s : State) : Res := liveEvent s (loadComplete sp)
/-- STAGED_TILE_MOVE (R119). -/
def execStagedTileMove (sp : Nat) (s : State) : Res := liveEvent s (stagedMove sp)
/-- MAL_CLEAR (R141). -/
def execMalClear (sp : Nat) (s : State) : Res := liveEvent s (malClear sp)
/-- MWB_READ_START (R144). -/
def execMwbReadStart (sp : Nat) (s : State) : Res := liveEvent s (mwbStart sp)
/-- TACKLE_OPERATION_START (R175). -/
def execTackleOperationStart (sp : Nat) (s : State) : Res := liveEvent s (tackleStart sp)
/-- INDEX_BLOCK_VALIDATED (R175, R176). -/
def execIndexBlockValidated (sp : Nat) (s : State) : Res := liveEvent s (blockValidated sp)
/-- CONFLICT_QUEUE_SERVE (R138). -/
def execConflictQueueServe (sp bank : Nat) (s : State) : Res := liveEvent s (serveBank sp bank)
/-- WORK_COUNTER_OP (R191, R194, R314). -/
def execWorkCounterOp (sp : Nat) (s : State) : Res := liveEvent s (workCounterOp sp)
/-- COUNTER_RESULT_ARRIVAL (R192). -/
def execCounterResultArrival (sp : Nat) (s : State) : Res := liveEvent s (counterResult sp)
/-- CHANNEL_BYTES_ARRIVE (R92). -/
def execChannelBytesArrive (sp ep n : Nat) (s : State) : Res := liveEvent s (bytesArrive sp ep n)
/-- IFILL_COMPLETE (R87). -/
def execIfillComplete (sp : Nat) (s : State) : Res := liveEvent s (ifillComplete sp)
/-- TRANSFER_RETIRE (R94). -/
def execTransferRetire (sp : Nat) (s : State) : Res := liveEvent s (transferRetire sp)
/-- BARRIER_RELEASE (R98). -/
def execBarrierRelease (q g : Nat) (s : State) : Res := liveEvent s (releaseBarrier q g)

/-- PHASE_TIMEOUT (R100): a waiting bundle's limit has passed; SLOT 0xFF. -/
def execPhaseTimeout (sp : Nat) (s : State) : Res := liveEvent s fun s =>
  let x := s.spar sp
  if x.run = .running ∧ x.waiting then s.sparFault sp 0x0107 x.pc 0xFF 0 0 0 x.phase else s

/-! Job start (R84-R86, R90, R425). -/

/-- One entry of the image table: the image's address and bundle count (R84). -/
def State.imageEntry (s : State) (a i : Nat) : Nat × Nat := (s.domeNat (a + 16 * i) 8, s.domeNat (a + 16 * i + 8) 2)

/-- The table address is misaligned, or its entries for the partition's towers lie outside the address map (R86). -/
def State.tableBad (s : State) (q a : Nat) : Bool :=
  a % 16 != 0 || (s.towersOf q).any fun t => !s.rangeInMap q (a + 2048 * t) 2048

/-- An entry that starts its spar is invalid (R86). -/
def State.entryBad (s : State) (q : Nat) (e : Nat × Nat) : Bool :=
  e.2 != 0 && (decide (512 < e.2) || e.1 % 128 != 0 || !s.rangeInMap q e.1 (128 * e.2))

/-- A fence that refuses job starts in partition `q` (Table 14-5). -/
def State.startFenced (s : State) (q : Nat) : Bool :=
  s.fencedTowers.any (fun t => (s.towerMask q).testBit t) || s.domeOff.any (fun d => (s.towerMask q).testBit (d / 2)) ||
  !s.fencedEdges.isEmpty || s.fencedSpire.any fun u => decide (u ≤ 7)

/-- DOME_UE met by a unit that is no spar: the dome detected it; bytes 8-15 hold the lowest line address (R309). `part` is
the partition the operation serves, 4 for none. -/
def State.unitUe (s : State) (part : Nat) (ls : List Nat) : State :=
  match ls with
  | [] => s
  | l :: r =>
    let a := 64 * r.foldl min l
    s.raise 0x0301 (unitId 4 (domeOf a)) part (islDome (domeOf a)) (padTo 8 [] ++ leBytes 8 a)

/-- A refused start: job state 0 and the completion notice with its status and first failing spar (R86). -/
def State.refuseStart (s : State) (q val token status first : Nat) : State :=
  ((s.modPart q fun p => { p with jobNo := BitVec.ofNat 32 val }).odSet q 0x2020 4 0).complete q 0x2020 2 status token val
    (leBytes 2 first)

/-- A spar as a job starts it (R75, R84, R85, R118, R140): everything at its initial value but the memories' contents. -/
def Spar.begun (x : Spar) (f : Fill) : Spar :=
  { run := .filling, istore := x.istore, scratch := x.scratch, fill := some f, paused := x.paused, gated := x.gated }

/-- The job starts: the table's spars fill with nothing of an earlier job asked for at the domes, the work counters are reset
(R84, R85, R190). -/
def State.launchJob (s : State) (q val token : Nat) (es : List (Nat × Nat × Nat)) : State :=
  let st := (es.filter fun e => e.2.2 ≠ 0).map (·.1)
  let s1 := es.foldl (fun t e => t.modSpar e.1 fun x =>
    if e.2.2 ≠ 0 then x.begun { da := e.2.1, count := e.2.2 } else { x with run := .off }) s
  let mine := fun u => decide (u < 1024) && (s.towerMask q).testBit (sparTower u)
  let s2 := { s1 with asks := s1.asks.filter fun a => !mine a.unit, biWaits := s1.biWaits.filter fun w => !mine w.unit }
  ((s2.modPart q fun p => { p with jobNo := BitVec.ofNat 32 val, started := st, jobToken := token }).odSet q 0x2020 4 1).resetCounters q

/-- The start-job command (R86, R90, R425, Table 14-5). -/
def cmdStartJob (q val token : Nat) (s : State) : CmdRes :=
  if s.jobRuns q || s.startFenced q then (stBusy, s)
  else
    let a := s.odGet q 0x2020 1
    if s.tableBad q a then (stDone, s.refuseStart q val token 1 0xFFFF)
    else
      let ls := s.poisonedOf ((s.towersOf q).flatMap fun t => linesOf (a + 2048 * t) 2048)
      if ls ≠ [] then (stDone, ((s.countUe ls).unitUe q ls).refuseStart q val token 2 0xFFFF)
      else
        let es := (s.sparsOf q).map fun i => (i, s.imageEntry a i)
        if es.any fun e => e.2.2 ≠ 0 && s.absent e.1 then (stBusy, s)
        else match es.find? fun e => s.entryBad q e.2 with
          | some e => (stDone, s.refuseStart q val token 1 e.1)
          | none => (stDone, s.launchJob q val token es)

/-- What a start command reads of dome: the image table's entries of the partition's towers, once nothing turns it away
before the table is read (R86). -/
def State.tableRanges (s : State) (q : Nat) : List (Nat × Nat) :=
  let a := s.odGet q 0x2020 1
  if s.jobRuns q || s.startFenced q || s.tableBad q a then [] else (s.towersOf q).map fun t => (a + 2048 * t, 2048)

/-- A start command whose table read the dome port refuses (R320) cannot read the table: status 2 (R86, log 71). -/
def cmdStartCut (q val token : Nat) (s : State) : CmdRes := (stDone, s.refuseStart q val token 2 0xFFFF)

/-- A start command as the dome ports serve it: none while its table read waits for slots or back-invalidation (R316, R317). -/
def startServed (q val token : Nat) (s : State) : Option CmdRes :=
  let rs := s.tableRanges q
  if s.portReady manageUnit rs then
    some (if s.unitCut manageUnit rs then cmdStartCut q val token (s.takeAsk manageUnit rs)
      else cmdStartJob q val token (s.takeAsk manageUnit rs))
  else none

/-- A start command that waits for the dome ports: its table read is asked for. -/
def State.askTable (s : State) (q : Nat) : State := s.portGate manageUnit 4 (s.tableRanges q) id id

/-- START_JOB (R86). -/
def execStartJob (q val token : Nat) (s : State) : Res :=
  if s.served && s.present q then
    match startServed q val token s with
    | some r => .next r.2
    | none => .next (s.askTable q)
  else .next s

/-- Every started spar has filled its store and none issues yet (R85). -/
def State.filled (s : State) (q : Nat) : Bool :=
  (s.part q).started.all fun i => (s.spar i).run = .filling && (s.spar i).fill.isNone

/-- JOB_FILL_COMPLETE (R85, R99): first bundles may issue, each started spar latches the step number, and the completion
notice carries status 0; a job with no started spar ends at once (R88). -/
def execJobFillComplete (q : Nat) (s : State) : Res := liveEvent s fun s =>
  if s.jobRuns q && s.filled q then
    let step := BitVec.ofNat 64 (s.odGet q 0x6400 3)
    let p := s.part q
    ((p.started.foldl (fun t i => t.modSpar i fun x => { x with run := .running, step := step }) s).complete q 0x2020 2 0
      p.jobToken p.jobNo.toNat []).endJob q
  else s

/-- R105: every started spar stops at its next bundle boundary, and the job state becomes `st`. -/
def State.stopJob (s : State) (q st : Nat) : State :=
  if s.jobRuns q then
    ((s.part q).started.foldl (fun t i => t.modSpar i fun x =>
      { x with run := if x.run = .halted then .halted else .stopped, waiting := false, barrier := none }) s).odSet q 0x2020 4 st
  else s

/-- The stop-job command (R105): job state 3. -/
def cmdStopJob (q val token : Nat) (s : State) : CmdRes :=
  (stDone, (s.stopJob q 3).complete q 0x2020 3 0 token val [])

/-- STOP_JOB (R105). -/
def execStopJob (q val token : Nat) (s : State) : Res := runCmd q s (cmdStopJob q val token s)

/-! Counter clears. -/

/-- Clear one of 256 slots' records, or all of them: subindices 1 to `n` of `base` + slot (R51, R205, R243). -/
def State.clearSlots (s : State) (q base n val : Nat) : State :=
  if val = 0xFFFF then (List.range 256).foldl (fun t k => t.clearSubs q (base + k) 1 n) s else s.clearSubs q (base + val) 1 n

/-- A slot number, or 0xFFFF for all (Table 2-8, Table 6-8, Table 7-9). -/
def slotOrAll (val : Nat) : Bool := decide (val < 256) || val = 0xFFFF

/-- The clear-range-counters command (R51, R63). -/
def cmdClearRangeCounters (q val token : Nat) (s : State) : CmdRes :=
  if slotOrAll val then (stDone, (s.clearSlots q 0x2200 5 val).complete q 0x2120 0 0 token val []) else (stRefused, s)

/-- CLEAR_RANGE_COUNTERS (R51). -/
def execClearRangeCounters (q val token : Nat) (s : State) : Res := runCmd q s (cmdClearRangeCounters q val token s)

/-- The records of the partition's towers cleared: subindices 1 to `n` of `base` + tower. -/
def State.clearTowers (s : State) (q base n : Nat) : State :=
  (s.towersOf q).foldl (fun t k => t.clearSubs 0 (base + k) 1 n) s

/-- The gated products that make no whole unit of 1,024 yet go with the counter :08 of the partition's towers (R149). -/
def State.dropGated (s : State) (q : Nat) : State :=
  { s with spars := s.spars.filterMap fun e =>
      if (s.towerMask q).testBit (sparTower e.1) then
        (if { e.2 with gated := 0 } = ({} : Spar) then none else some (e.1, { e.2 with gated := 0 }))
      else some e }

/-- The clear-array-counters command (R149). -/
def cmdClearArrayCounters (q val token : Nat) (s : State) : CmdRes :=
  (stDone, ((s.clearTowers q 0x2310 9).dropGated q).complete q 0x2301 0 0 token val [])

/-- CLEAR_ARRAY_COUNTERS (R149). -/
def execClearArrayCounters (q val token : Nat) (s : State) : Res := runCmd q s (cmdClearArrayCounters q val token s)

/-- The clear-tackle-counters command (R198). -/
def cmdClearTackleCounters (q val token : Nat) (s : State) : CmdRes :=
  (stDone, (s.clearTowers q 0x2410 11).complete q 0x2401 0 0 token val [])

/-- CLEAR_TACKLE_COUNTERS (R198). -/
def execClearTackleCounters (q val token : Nat) (s : State) : Res := runCmd q s (cmdClearTackleCounters q val token s)

end Sys2Proof.Machine
end

