-- ==== Sys2Proof/Machine/Dome.lean ====
section
/-! DEFINITION. Domes and edge arbiters (10): error correction and patrol scrub (R306-R309), arbitration (R317-R321), and
the writes of their objects (R315, R321). -/

namespace Sys2Proof.Machine

open Sys2Proof

/-! Error correction (R306-R310). -/

/-- What a check of a codeword comes to. -/
inductive LineCheck where
  | good
  | corrected (die : Nat)
  | bad
  | silent (data : Bytes)
deriving DecidableEq, Repr

/-- The outcome of a check by the guarantees of Table 10-3; `er` is the erased die, 0xFF for none. -/
def checkLine (er : Nat) : LineErr → LineCheck
  | .clean => .good
  | .oneDie d => if er = 0xFF ∨ er = d then .corrected d else .bad
  | .twoDies _ _ => .bad
  | .other => .bad
  | .undetected b => .silent b

/-- One corrected read of die `k` of dome `d`: counted, the first in the scrub period raises DOME_CE, and at the threshold
the die is erased unless one is erased already (R307, R308). -/
def State.correct (s : State) (d k : Nat) : State :=
  let i := 0x3020 + d
  let key := 16 * d + k
  let n := mapGet 0 s.eccCnt key + 1
  let b := s.blobGet 0 i 9
  let s1 := (s.odAdd 0 i 1 1).blobSet 0 i 9 (patchBytes b (8 * k) (leBytes 8 (fieldAt b (8 * k) 8 + 1)))
  let s2 := { s1 with eccCnt := mapSet 0 s1.eccCnt key n }
  let s3 := if mapGet false s2.ceSeen key then s2
    else { s2 with ceSeen := mapSet false s2.ceSeen key true }.raiseOpen 0x0302 (unitId 4 d) (s.domePart d) (islDome d) [d, k]
  if s3.odGet 0 i 4 ≤ n ∧ s3.odGet 0 i 3 = 0xFF then s3.odSet 0 i 3 k else s3

/-- A dome reads line `l` and checks it (R306): a correction is counted and written back; an uncorrectable error, or a line
poisoned already, leaves the line poisoned. Answers whether the line is bad. -/
def State.readLine (s : State) (l : Nat) (err : LineErr) : Bool × State :=
  let d := domeOf (64 * l)
  if mapGet false s.poison l then (true, s)
  else match checkLine (s.odGet 0 (0x3020 + d) 3) err with
    | .good => (false, s)
    | .corrected k => (false, s.correct d k)
    | .bad => (true, s.setPoison l true)
    | .silent b => (false, s.domePut (64 * l) (padTo 64 b))

/-- A management read of line `l`: a bad line is counted and raises DOME_UE (R309). -/
def State.manageLine (s : State) (l : Nat) (err : LineErr) : State :=
  let r := s.readLine l err
  if r.1 then (r.2.countUe [l]).unitUe (r.2.domePart (domeOf (64 * l))) [l] else r.2

/-- DOME_LINE_READ (R306): the line is checked for requester `reader` of its port. The operation of another requester than
management has a command of its own, which meets the poisoned line, counts it and raises its one DOME_UE (R309, log 21). -/
def execDomeLineRead (line : Nat) (err : LineErr) (reader : Nat) (s : State) : Res := liveEvent s fun s =>
  if addrExists (64 * line) then (if reader = 6 then s.manageLine line err else (s.readLine line err).2) else s

/-- Lines of one dome. -/
def domeLines : Nat := domeBytes / 64

/-- The patrol pass of dome `d` goes on to its next line; the pass completes at the last one (R307). -/
def State.scrubOn (s : State) (d : Nat) : State :=
  let k := mapGet 0 s.scrubAt d
  if k + 1 = domeLines then { s with scrubAt := mapSet 0 s.scrubAt d 0 }.odAdd 0 (0x3020 + d) 6 1
  else { s with scrubAt := mapSet 0 s.scrubAt d (k + 1) }

/-- PATROL_SCRUB_READ (R307): the next line of the dome's pass, read as traffic of the management requester: through the
dome port (R317), with back-invalidation (R316); a cut-off requester's read is refused and completes without effect
(R320). -/
def execPatrolScrubRead (d : Nat) (err : LineErr) (s : State) : Res := liveEvent s fun s =>
  let l := d * 2 ^ 31 + mapGet 0 s.scrubAt d
  s.portGate manageUnit 4 [(64 * l, 64)] (fun s => s.scrubOn d) fun s => (s.manageLine l err).scrubOn d

/-- A new scrub period of dome `d`: the counts toward erasure and the first-correction rule start again (R307). -/
def State.newScrubPeriod (s : State) (d : Nat) : State :=
  { s with eccCnt := s.eccCnt.filter fun e => e.1 / 16 != d
           ceSeen := s.ceSeen.filter fun e => e.1 / 16 != d }

/-- A write of the scrub period: a new period begins and the pass starts again from the first line (R307). -/
def writeScrubPeriod (d val : Nat) (s : State) : CmdRes :=
  if val < 3600 ∨ 2 ^ 32 ≤ val then (stRefused, s)
  else
    let s1 := (s.odSet 0 (0x3020 + d) 5 val).newScrubPeriod d
    (stDone, { s1 with scrubAt := mapSet 0 s1.scrubAt d 0 })

/-- SCRUB_PERIOD_WRITE (R307). -/
def execScrubPeriodWrite (d val : Nat) (s : State) : Res := runDevCmd s (writeScrubPeriod d val s)

/-- SCRUB_PERIOD_END (R307). -/
def execScrubPeriodEnd (d : Nat) (s : State) : Res := liveEvent s fun s => s.newScrubPeriod d

/-! Edge arbiters (R317-R321). -/

/-- The edge has a requester of that number (Table 10-6). -/
def edgeHas (e r : Nat) : Bool := decide (r < 16) && edgeWordDefault e r != 0

/-- A setting of the edge as its arbiter uses it (R321). -/
def State.setting (s : State) (e sub : Nat) : Nat :=
  (((s.edge e).inUse.find? fun x => x.1 = sub).map (·.2)).getD (s.odGet 0 (0x3200 + e) sub)

/-- Rank of requester `r` at edge `e`. -/
def State.rankOf (s : State) (e r : Nat) : Nat := bitsOf (s.setting e (0x10 + r)) 8 2

/-- Weight of requester `r` at edge `e`. -/
def State.weightOf (s : State) (e r : Nat) : Nat := bitsOf (s.setting e (0x10 + r)) 0 8

/-- The next requester after `t` in ascending number, cyclically, that is in `ask`. -/
def nextAsker (t : Nat) (ask : List Nat) : Nat :=
  ((List.range 16).map fun k => (t + 1 + k) % 16).find? (fun r => ask.contains r) |>.getD t

/-- The grant of one rank (R317): the requester, and the arbiter after it. -/
def grantRank (s : State) (e k : Nat) (ask : List Nat) : Nat × Edge :=
  let g := s.edge e
  let t := mapGet 0 g.turn k
  let n := mapGet 0 g.run k
  let keep := ask.contains t && decide (n < s.weightOf e t)
  let r := if keep then t else nextAsker t ask
  (r, { g with turn := mapSet 0 g.turn k r, run := mapSet 0 g.run k (if keep then n + 1 else 1) })

/-- The grant of a slot without a lock: rank 0 first; none where nobody asks (R317). -/
def pickGrant (s : State) (e : Nat) (asks : List Nat) : Option (Nat × Edge) :=
  (List.range 4).findSome? fun k =>
    let ask := asks.filter fun r => s.rankOf e r = k && !s.cutOff e r
    if ask = [] then none else some (grantRank s e k ask)

/-- Partition a fault of edge `e` belongs to, 4 for none. -/
def State.edgePart (s : State) (e : Nat) : Nat :=
  if e < 16 then s.domePart e else if 0x20 ≤ e ∧ e < 0x44 then s.portPart (e - 0x20) else 4

/-- Island of edge `e` (Table 15-4). -/
def edgeIsland (e : Nat) : Nat :=
  if e < 16 then islDome e else if e = 0x10 then islSpire 1 else if e = 0x50 then islSpire 0 else islSpire 2

/-- The lock's owner is cut off (R320): the lock ends, the rest of its sequence and its other transfers are refused, and
GRANT_OVERHOLD is raised with the edge and the requester. -/
def State.cutOffOwner (s : State) (e : Nat) : State :=
  match (s.edge e).lock with
  | none => s
  | some r =>
    let i := 0x3200 + e
    let s1 := s.setEdge e { s.edge e with lock := none, held := 0 }
    let s2 := (s1.odSet 0 i 4 (setBit (s1.odGet 0 i 4) r true)).odAdd 0 i 6 1
    let s3 := s2.raiseOpen 0x0312 (unitId 7 e) (s2.edgePart e) (edgeIsland e) [e, r]
    let t := if r = 0 then e / 2 else r - 8
    if r = 0 ∨ 8 ≤ r then (List.range 128).foldl (fun u k => u.pump (128 * t + k)) s3 else s3

/-- GRANT_OVERHOLD (R320): the lock has held its edge for more slots than the hold limit. -/
def execGrantOverhold (e : Nat) (s : State) : Res := liveEvent s fun s =>
  if s.setting e 2 < (s.edge e).held then s.cutOffOwner e else s

/-- Requester that a wait key belongs to at edge `e`: at a dome port a tower's spar has a key of its own (R318). -/
def keyRequester (e k : Nat) : Nat := if k < 16 then k else sparRequester (k - 16) e

/-- Slots the longest waiting request of requester `r` at edge `e` has asked for in vain (R318). -/
def State.waitOf (s : State) (e r : Nat) : Nat :=
  (((s.edge e).waits.filter fun w => keyRequester e w.1 = r).map (·.2)).foldl max 0

/-- STARVE (R318): a request of requester `r` has waited `wait` slots, more than the limit; once until its next grant. -/
def execStarve (e r wait : Nat) (s : State) : Res := liveEvent s fun s =>
  let g := s.edge e
  if edgeHas e r ∧ s.setting e 1 < wait ∧ wait = s.waitOf e r ∧ ¬ g.starved.contains r then
    ((s.setEdge e { g with starved := setIns g.starved r }).odAdd 0 (0x3200 + e) 5 1).raiseOpen 0x0311 (unitId 7 e)
      (s.edgePart e) (edgeIsland e) [e, r, s.rankOf e r, wait]
  else s

/-- A setting's value before a write stays in use while a lock is open (R321). -/
def State.keepInUse (s : State) (e sub : Nat) : State :=
  let g := s.edge e
  if g.lock.isSome ∧ ¬ g.inUse.any (fun x => x.1 = sub) then
    s.setEdge e { g with inUse := g.inUse ++ [(sub, s.odGet 0 (0x3200 + e) sub)] }
  else s

/-- The value fits the setting :`sub` of edge `e` (Table 10-8). -/
def settingFits (e sub val : Nat) : Bool :=
  if sub = 1 then 1 ≤ val && val < 65536
  else if sub = 2 then 64 ≤ val && val < 65536
  else if 0x10 ≤ sub ∧ sub ≤ 0x1F then edgeHas e (sub - 0x10) && bitsOf val 0 8 != 0 && decide (val < 65536)
  else false

/-- A write of a rank, weight or limit (R321); reserved bits are ignored (R12). -/
def writeSetting (e sub val : Nat) (s : State) : CmdRes :=
  if settingFits e sub val then
    (stDone, (s.keepInUse e sub).odSet 0 (0x3200 + e) sub (if 0x10 ≤ sub then val % 1024 else val))
  else (stRefused, s)

/-- ARBITER_SETTING_WRITE (R321). -/
def execArbiterSettingWrite (e sub val : Nat) (s : State) : Res := runDevCmd s (writeSetting e sub val s)

/-- The re-enable command (R320): the requester's cut-off at the edge is cleared. -/
def cmdReEnable (e val token : Nat) (s : State) : CmdRes :=
  if edgeHas e val then
    let i := 0x3200 + e
    let s1 := s.odSet 0 i 4 (setBit (s.odGet 0 i 4) val false)
    (stDone, s1.completeUnit (s.edgePart e) i 3 0 token val [])
  else (stRefused, s)

/-- RE_ENABLE (R320). -/
def execReEnable (e val token : Nat) (s : State) : Res := runDevCmd s (cmdReEnable e val token s)

/-! Turn tables (R301, R321). -/

/-- Every entry names a logical spar or is 0xFF. -/
def turnTableOk (b : Bytes) : Bool := b.length = 256 && b.all fun x => decide (x.toNat < 128) || x = 0xFF

/-- The home pointer of dome `d`. -/
def State.homeOf (s : State) (d : Nat) : HomePtr := mapGet {} s.homePtr d

/-- The remote pointer of tower `t`. -/
def State.remoteOf (s : State) (t : Nat) : HomePtr := mapGet {} s.remPtr t

/-- A pointer keeps the table in use before a write. -/
def HomePtr.keep (h : HomePtr) (old : Bytes) : HomePtr := { h with table := some (h.table.getD old) }

/-- A write of a tower's home or remote turn table, taken whole by each port at its next slot without a lock (R321). -/
def writeTurnTable (t : Nat) (remote : Bool) (data : Bytes) (s : State) : CmdRes :=
  if turnTableOk data then
    let i := 0x3010 + t + (if remote then 8 else 0)
    let old := s.blobGet 0 i 0
    let s1 : State :=
      if remote then { s with remPtr := mapSet {} s.remPtr t ((s.remoteOf t).keep old) }
      else { s with homePtr := [2 * t, 2 * t + 1].foldl (fun m d => mapSet {} m d ((s.homeOf d).keep old)) s.homePtr }
    (stDone, s1.blobSet 0 i 0 data)
  else (stRefused, s)

/-- TURN_TABLE_WRITE (R321). -/
def execTurnTableWrite (t : Nat) (remote : Bool) (data : Bytes) (s : State) : Res :=
  runDevCmd s (writeTurnTable t remote data s)

/-! The window (R315). -/

/-- A window segment (Table 10-7). -/
structure Segment where
  /-- VALID -/
  valid : Bool
  /-- DOME -/
  dome : Nat
  /-- START, GiB -/
  start : Nat
  /-- LENGTH, GiB -/
  len : Nat
deriving DecidableEq, Repr

/-- A segment's fields. -/
def segmentOf (w : Nat) : Segment :=
  { valid := bitAt w 31, dome := bitsOf w 27 4, start := bitsOf w 20 7, len := bitsOf w 13 7 }

/-- Window segments in order. -/
def State.segments (s : State) : List Segment := (List.range 16).map fun i => segmentOf (s.odGet 0 0x3100 (i + 1))

/-- The valid segments keep the rules of R315. -/
def segmentsOk (towers : Nat) (l : List Segment) : Bool :=
  let v := l.filter (·.valid)
  (v.all fun g => towers.testBit (g.dome / 2) && 1 ≤ g.len && g.len ≤ 96 && g.start + g.len ≤ 96) &&
  decide ((v.map (·.len)).sum ≤ 1024) &&
  v.zipIdx.all fun x => v.zipIdx.all fun y =>
    x.2 = y.2 || x.1.dome != y.1.dome || decide (x.1.start + x.1.len ≤ y.1.start) || decide (y.1.start + y.1.len ≤ x.1.start)

/-- A write of window segment `i`, 0 to 15 (R315): busy while the decoder is committed. -/
def writeSegment (i val : Nat) (s : State) : CmdRes :=
  let w := val / 2 ^ 13 * 2 ^ 13 % 2 ^ 32
  if s.cxl.hdmCommitted then (stBusy, s)
  else if segmentsOk (s.towerMask 0) (s.segments.set i (segmentOf w)) then (stDone, s.odSet 0 0x3100 (i + 1) w)
  else (stRefused, s)

/-- WINDOW_SEGMENT_WRITE (R315). -/
def execWindowSegmentWrite (i val : Nat) (s : State) : Res := runDevCmd s (writeSegment i val s)

end Sys2Proof.Machine
end

