-- ==== Sys2Proof/Machine/Fabric.lean ====
section
/-! DEFINITION. The Shroud fabric (11): link training, sequence numbers, credits, retry and link failure (R323-R339), store
and forward (R340-R346), remote accesses (R347-R349), credit audits (R354) and the writes of its objects (R351, R355). -/

namespace Sys2Proof.Machine

open Sys2Proof

/-- An event of the fabric island: it runs once the ports train (R478). -/
def fabricEvent (s : State) (f : State → State) : Res :=
  .next (if s.boot = .training ∨ s.boot = .ready then f s else s)

/-! Link control (R328, R329). -/

/-- U32 per lane. -/
def laneWords (f : Nat → Nat) : Bytes := (List.range 4).flatMap fun v => beBytes 4 (f v % 2 ^ 32)

/-- A link control message put on the line of port `p` (R329). -/
def State.sendControl (s : State) (p : Nat) (msg : Bytes) : State := s.emit 12 p (lineBytes [controlFlit msg]) 0

/-- STATUS with ACK, a NAK if one is due, and the credits returned (Table 11-3). -/
def State.sendStatus (s : State) (p : Nat) (nak : Bool) : State :=
  let t := s.port p
  let s1 := s.setPort p { t with ackDue := [], statusDue := false }
  s1.sendControl p ([0x01, if nak then 1 else 0] ++ beBytes 2 ((t.rxSeq + 65535) % 65536) ++
    beBytes 2 (if nak then t.rxSeq else 0) ++ [0, 0] ++ laneWords fun v => mapGet 0 t.returned v)

/-- TRAIN of port `p` (Table 11-3): protocol version, own LID, port, role and pools. It is sent again until training ends; the
two that its peer must receive are recorded. -/
def State.sendTrain (s : State) (p : Nat) : State :=
  let b := s.blobGet 0 (0x4010 + p) 6
  let msg := padTo 8 ([0x04, 0x01] ++ beBytes 2 s.ownLid ++ leBytes 1 p ++ leBytes 1 (s.odGet 0 0x4002 0)) ++
    laneWords fun v => fieldAt b (4 * v) 4
  (s.sendControl p msg).sendControl p msg

/-- Flits in an ingress lane that count against its credits. -/
def occupied (t : Port) (v : Nat) : Nat :=
  (((mapGet [] t.ingress v).filter fun r => !r.stale).map fun r => packetFlits r.pkt).sum

/-- Credits available to send on lane `v` (R333). -/
def available (t : Port) (v : Nat) : Nat :=
  mapGet 0 t.pools v - (mapGet 0 t.consumed v + 2 ^ 32 - mapGet 0 t.retSeen v) % 2 ^ 32

/-- Lane pools of the port record (Table 11-10 :06). -/
def State.poolsOf (s : State) (p : Nat) : List (Nat × Nat) :=
  let b := s.blobGet 0 (0x4010 + p) 6
  (List.range 4).foldl (fun m v => mapSet 0 m v (fieldAt b (4 * v) 4)) []

/-! Training, failure and hold-down (R324, R329, R336-R338). -/

/-- A laser input of port `p` is dark (R324). -/
def State.dark (s : State) (p : Nat) : Bool := s.laserDark.contains (p / 3)

/-- The port's state object set. -/
def State.setPortState (s : State) (p v : Nat) : State := s.odSet 0 (0x4010 + p) 1 v

/-- Every port that is enabled and lit is up (R478 step 8). -/
def State.fabricReady (s : State) : Bool :=
  (List.range 36).all fun p => s.portState p = 0 || s.portState p = 4 || s.portUp p

/-- The port starts training and sends its TRAIN; `old` trainings of the last second have left the window. A fifth in 1 s
holds it down (R338). A fenced port stays disabled, one without light stays in state 4: neither trains. -/
def State.startTraining (s : State) (p old : Nat) : State :=
  let t := s.port p
  let n := t.trains - old + 1
  let s0 := s.setPort p { t with lastTrain := none, auditing := false }
  if t.fenced then s0.setPortState p 0
  else if s.dark p then s0.setPortState p 4
  else
    let s1 := (s0.modPort p fun t => { t with trains := n }).odAdd 0 (0x4010 + p) 0xC 1
    if 5 ≤ n then (s1.setPortState p 3).raisePort 0x0404 p [n]
    else (s1.setPortState p 1).sendTrain p

/-- The packets of a link that stops: those in its replay buffer are discarded and counted; those in its egress queues are
routed again over the ports that remain up, or discarded and counted (R337). The port must not be up any more. -/
def State.dropLink (s : State) (p : Nat) : State :=
  let t := s.port p
  ((s.setPort p { t with replay := [] }).odAdd 0 (0x4010 + p) 0xD t.replay.length).reroutePort p

/-- Links fail, all at once: LINK_DOWN of each with its cause and the packets discarded, which leave their queues once none of
these ports is up (R337). Cause 2 is lost light. -/
def State.linksFail (s : State) (ps : List Nat) (cause : Nat) : State :=
  let s1 := ps.foldl (fun u p => u.setPortState p (if cause = 2 then 4 else 1)) s
  ps.foldl (fun u p =>
    let v := u.dropLink p
    v.raisePort 0x0402 p [cause, (u.port p).replay.length + (v.odGet 0 0x4102 3 - u.odGet 0 0x4102 3)]) s1

/-- A link fails (R337), cause 1 its retries exhausted or 3 its peer's training lost, and trains again. -/
def State.linkFail (s : State) (p old cause : Nat) : State := (s.linksFail [p] cause).startTraining p old

/-- Both ends have received the other's TRAIN twice: credits at the pools exchanged, SEQ at 0, and the state the peer's
identity gives (R329, R345, Table 11-10 :03-:05). -/
def State.trained (s : State) (p : Nat) (m : TrainMsg) : State :=
  let i := 0x4010 + p
  let t := s.port p
  let want := s.odGet 0 i 5
  let st := if m.lid = s.ownLid then 5
    else if bitAt want 31 ∧ (bitsOf want 8 16 ≠ m.lid ∨ bitsOf want 0 8 ≠ m.port) then 6 else 2
  let s1 := s.setPort p { t with
    txSeq := 0, rxSeq := 0, consumed := [], retSeen := [], returned := [], nakFor := none, ackDue := [], statusDue := false,
    pools := m.pools.zipIdx.foldl (fun a x => mapSet 0 a x.2 x.1) [], myPools := s.poolsOf p,
    ingress := t.ingress.map fun e => (e.1, e.2.map fun r => { r with stale := true }) }
  let s2 := ((s1.odSet 0 i 3 m.lid).odSet 0 i 4 m.port).setPortState p st
  if s2.fabricReady then s2.setReady 3 true else s2

/-- TRAIN (R329): the second identical message ends training. A different TRAIN at a port that is up means its peer has
begun again: the link is trained anew. -/
def execTrain (p : Nat) (msg : TrainMsg) (old : Nat) (s : State) : Res := fabricEvent s fun s =>
  let st := s.portState p
  if msg.ver ≠ 1 ∨ st = 0 ∨ st = 3 ∨ st = 4 ∨ s.testing.contains (unitId 5 p) then s
  else if st = 2 then
    if (s.port p).lastTrain = some msg then s
    else (s.linkFail p old 3).modPort p fun t => { t with lastTrain := some msg }
  else if (s.port p).lastTrain = some msg then s.trained p msg
  else s.modPort p fun t => { t with lastTrain := some msg }

/-- PEER_TRAINING_LOST (R337, cause 3). -/
def execPeerTrainingLost (p old : Nat) (s : State) : Res := fabricEvent s fun s =>
  if s.portUp p then s.linkFail p old 3 else s

/-- LASER_LOSS (R324): the input's three ports go down, in state 4; a disabled or held-down port keeps its state. -/
def execLaserLoss (k : Nat) (s : State) : Res := fabricEvent s fun s =>
  { s with laserDark := setIns s.laserDark k }.linksFail
    ([3 * k, 3 * k + 1, 3 * k + 2].filter fun p => s.portState p != 0 && s.portState p != 3 && s.portState p != 4) 2

/-- LASER_RESTORE (R324): the input's ports in state 4 begin training. -/
def execLaserRestore (k old : Nat) (s : State) : Res := fabricEvent s fun s =>
  [3 * k, 3 * k + 1, 3 * k + 2].foldl (fun u p => if u.portState p = 4 then u.startTraining p old else u)
    { s with laserDark := setDel s.laserDark k }

/-- The enable command with value 1 (Table 11-10 :02): the port trains, ending a hold-down and the count that led to it (log 73);
a fenced port answers busy
(Table 14-5). -/
def cmdPortEnable (p val token old : Nat) (s : State) : CmdRes :=
  if val ≠ 1 then (stRefused, s)
  else if (s.port p).fenced then (stBusy, s)
  else
    let s0 := if s.portState p = 3 then s.modPort p fun t => { t with trains := 0 } else s
    let s1 := if s.portUp p then (s0.setPortState p 1).dropLink p else s0
    (stDone, (s1.startTraining p old).completeUnit (s.portPart p) (0x4010 + p) 2 0 token val [])

/-- PORT_ENABLE (R355, R338). -/
def execPortEnable (p val token old : Nat) (s : State) : Res := runDevCmd s (cmdPortEnable p val token old s)

/-- The enable command with value 0: the port is disabled. -/
def cmdPortDisable (p val token : Nat) (s : State) : CmdRes :=
  if val ≠ 0 then (stRefused, s)
  else if (s.port p).fenced then (stBusy, s)
  else
    let s1 := s.setPortState p 0
    (stDone, ((if s.portUp p then s1.dropLink p else s1).modPort p fun t => { t with lastTrain := none, auditing := false }).completeUnit
      (s.portPart p) (0x4010 + p) 2 0 token val [])

/-- PORT_DISABLE (R355). -/
def execPortDisable (p val token : Nat) (s : State) : Res := runDevCmd s (cmdPortDisable p val token s)

/-- FABRIC_READY_TIMEOUT (R478): FABRDY stops waiting. -/
def execFabricReadyTimeout (s : State) : Res := fabricEvent s fun s => s.setReady 3 true

/-! Receiving (R327, R331, R333-R335). -/

/-- Credits of lane `v` returned to the peer. -/
def Port.giveBack (t : Port) (v n : Nat) : Port :=
  { t with returned := mapSet 0 t.returned v ((mapGet 0 t.returned v + n) % 2 ^ 32), statusDue := true }

/-- A packet that is not good is discarded and its buffer freed; the expected SEQ is NAKed, once for each arrival of it
(R327, R335). -/
def State.refusePacket (s : State) (p seq : Nat) (k : Packet) (n : Nat) : State :=
  let t := s.port p
  let s1 := s.setPort p (t.giveBack k.vl n)
  if seq = t.rxSeq ∨ t.nakFor ≠ some t.rxSeq then (s1.modPort p fun t => { t with nakFor := some t.rxSeq }).sendStatus p true
  else s1

/-- A good packet with the expected SEQ is accepted (R334); one of an undefined KIND or on another lane than its kind's is then
discarded and counted (R331). -/
def State.acceptPacket (s : State) (p : Nat) (k : Packet) : State :=
  let t := s.port p
  let t1 : Port := { t with rxSeq := (t.rxSeq + 1) % 65536, nakFor := none, ackDue := t.ackDue ++ [t.rxSeq], statusDue := true }
  let s1 := s.odAdd 0 (0x4010 + p) 8 1
  if laneOf k.kind = some k.vl then
    s1.setPort p { t1 with ingress := mapSet [] t1.ingress k.vl (mapGet [] t1.ingress k.vl ++ [{ seq := t.rxSeq, pkt := k }]) }
  else (s1.setPort p (t1.giveBack k.vl (packetFlits k))).routerCount 6

/-- A good packet with another SEQ is discarded; a STATUS answers one within 32,768 behind the expected SEQ, nothing answers
any other (R335). -/
def State.passOver (s : State) (p seq : Nat) (k : Packet) : State := s.modPort p fun t =>
  let behind := (t.rxSeq + 65536 - seq % 65536) % 65536
  { t.giveBack k.vl (packetFlits k) with statusDue := t.statusDue || (decide (1 ≤ behind) && decide (behind ≤ 32768)) }

/-- The line words up to a packet's tail flit have arrived at port `p` (R326, R327, R331, R334, R335). -/
def State.arrive (s : State) (p : Nat) (words : List (Nat × Bytes)) : State :=
  if s.portUp p then
    let i := 0x4010 + p
    let s1 := (s.odAdd 0 i 0xA (wordsCorrected words)).odAdd 0 i 0xB (wordsBad words)
    let k := arrivalPacket words
    if flitsOf 1 words = [] then s1
    else if ¬ arrivalGood words then s1.refusePacket p (arrivalSeq words) k (flitsOf 1 words).length
    else if arrivalSeq words = (s1.port p).rxSeq then s1.acceptPacket p k
    else s1.passOver p (arrivalSeq words) k
  else s

/-- PACKET_ARRIVAL (R325-R327): the codewords up to a packet's tail flit have arrived at port `p`: byte errors and parity of each,
data bytes, control word and CRC of its two flits. -/
def execPacketArrival (p : Nat) (errs : List Nat) (data : List (List (BitVec 8))) (ctl crc : List (BitVec 32))
    (parity : List (List (BitVec 8))) (s : State) : Res :=
  fabricEvent s fun s => s.arrive p (lineWords errs data ctl crc parity)

/-- Cycles of the fabric island in 2 µs at 781.25 MHz (R334). -/
def ackDeadline : Nat := 1562

/-- FABRIC_DEADLINE (R334): the ACK of an accepted packet misses its deadline; once for each packet. -/
def execFabricDeadline (p seq delay : Nat) (s : State) : Res := fabricEvent s fun s =>
  if (s.port p).ackDue.contains seq ∧ ackDeadline < delay then
    ((s.modPort p fun t => { t with ackDue := t.ackDue.erase seq }).odAdd 0 (0x4010 + p) 0xE 1).raisePort 0x0403 p [seq, delay]
  else s

/-! Sending, acknowledgement and retry (R333-R336). -/

/-- A packet put on the line. -/
def State.transmit (s : State) (p seq : Nat) (k : Packet) : State :=
  (s.modPort p fun t => { t with consumed := mapSet 0 t.consumed k.vl ((mapGet 0 t.consumed k.vl + packetFlits k) % 2 ^ 32) }).emit
    13 p (lineBytes (packetLine k seq)) seq

/-- The lane's head packet may start: port up, no audit, nothing to be sent again first, credits, and room in the
replay buffer (R332, R335, R341, R354). -/
def State.canSend (s : State) (p v : Nat) : Bool :=
  let t := s.port p
  match mapGet [] t.egress v with
  | [] => false
  | k :: _ => s.portUp p && !t.auditing && !(t.replay.any (·.due)) && decide (packetFlits k ≤ available t v) &&
      decide (queueBytes (t.replay.map (·.pkt)) + 64 * packetFlits k ≤ 524288)

/-- The lane's head packet starts on the line: first send, kept in the replay buffer (R334, R335). -/
def State.sendHead (s : State) (p v : Nat) : State :=
  let t := s.port p
  match mapGet [] t.egress v with
  | [] => s
  | k :: r =>
    let s1 := s.setPort p { t with egress := mapSet [] t.egress v r, txSeq := (t.txSeq + 1) % 65536,
                                   replay := t.replay ++ [{ seq := t.txSeq, pkt := k }] }
    ((s1.odAdd 0 (0x4010 + p) 7 1).transmit p t.txSeq k).pumpInject

/-- `a` is at or before `b`, modulo 2^16. -/
def seqAtOrBefore (a b : Nat) : Bool := (b + 65536 - a % 65536) % 65536 < 32768

/-- Packets to be sent again start in order, each once the port holds its credits (R332, R335); `n` at most. -/
def State.pumpResend : Nat → State → Nat → State
  | 0, s, _ => s
  | n + 1, s, p =>
    let t := s.port p
    match t.replay.find? (·.due) with
    | none => s
    | some r =>
      if packetFlits r.pkt ≤ available t r.pkt.vl then
        State.pumpResend n (((s.setPort p { t with replay := t.replay.map fun x =>
            if x = r then { r with due := false, retries := r.retries + 1 } else x }).odAdd 0 (0x4010 + p) 9 1).transmit p r.seq r.pkt) p
      else s

/-- The packets of port `p` to be sent again start while it holds their credits. -/
def State.resend (s : State) (p : Nat) : State := State.pumpResend (s.port p).replay.length s p

/-- The retry of the packet at place `k` of the replay buffer fails, if it has had one; its third failure fails the link.
Otherwise it and every packet after it is to be sent again (R335, R336). -/
def State.resendFrom (s : State) (p k old : Nat) : State :=
  let t := s.port p
  match t.replay[k]? with
  | none => s
  | some r =>
    if 3 ≤ r.retries then s.linkFail p old 1
    else (s.setPort p { t with
      replay := t.replay.zipIdx.map fun x => if k ≤ x.2 then { x.1 with due := true } else x.1 }).resend p

/-- LINK_STATUS (R333-R336): ACK frees the packets it covers, credits return, a NAK resends. -/
def execLinkStatus (p : Nat) (nak : Option Nat) (ack : Nat) (returned : List Nat) (old : Nat) (s : State) : Res :=
  fabricEvent s fun s =>
  if s.portUp p then
    let s1 := s.modPort p fun t => { t with
      replay := t.replay.dropWhile fun r => seqAtOrBefore r.seq ack
      retSeen := returned.zipIdx.foldl (fun a x => mapSet 0 a x.2 (x.1 % 2 ^ 32)) t.retSeen }
    match nak.bind fun n => (s1.port p).replay.findIdx? fun r => r.seq = n with
    | some k => s1.resendFrom p k old
    | none => s1.resend p
  else s

/-- ACK_TIMEOUT (R336): no ACK within 8 µs; the sender resends from the oldest unacknowledged packet. -/
def execAckTimeout (p old : Nat) (s : State) : Res := fabricEvent s fun s =>
  if s.portUp p then s.resendFrom p 0 old else s

/-! Credit audits (R354). -/

/-- AUDIT_TIMER (R354): the idle port sends an AUDIT and holds its packets. -/
def execAuditTimer (p : Nat) (s : State) : Res := fabricEvent s fun s =>
  let t := s.port p
  if s.portUp p ∧ t.replay = [] ∧ ¬ t.auditing then
    ((s.setPort p { t with auditing := true }).odAdd 0 (0x4010 + p) 0xF 1).sendControl p [0x02]
  else s

/-- AUDIT (R354): answered with the occupied and returned credits of one moment. -/
def execAudit (p : Nat) (s : State) : Res := fabricEvent s fun s =>
  let t := s.port p
  if s.portUp p then
    s.sendControl p (padTo 8 [0x03] ++ laneWords (occupied t) ++ laneWords fun v => mapGet 0 t.returned v)
  else s

/-- Lane `v` keeps the equality of R354. -/
def creditsOk (t : Port) (occ ret : List Nat) (v : Nat) : Bool :=
  available t v + (ret.getD v 0 + 2 ^ 32 - mapGet 0 t.retSeen v) % 2 ^ 32 + occ.getD v 0 = mapGet 0 t.pools v

/-- AUDIT_ANSWER (R354): each lane's balance is checked; a lane that fails raises CREDIT_LEAK and the port retrains. -/
def execAuditAnswer (p : Nat) (occ ret : List Nat) (old : Nat) (s : State) : Res := fabricEvent s fun s =>
  let t := s.port p
  if s.portUp p ∧ t.auditing then
    let bad := (List.range 4).filter fun v => !creditsOk t occ ret v
    let s1 := s.setPort p { t with auditing := false }
    let s2 := bad.foldl (fun u v => (u.odAdd 0 (0x4010 + p) 0x10 1).raisePort 0x0401 p
      [v, mapGet 0 t.pools v, available t v, (ret.getD v 0 + 2 ^ 32 - mapGet 0 t.retSeen v) % 2 ^ 32, occ.getD v 0]) s1
    if bad = [] then s2 else s2.startTraining p old
  else s

/-! Store and forward (R340-R346). -/

/-- The head of an ingress lane leaves its buffer; its credits return. -/
def State.popIngress (s : State) (p v : Nat) : State := s.modPort p fun t =>
  match mapGet [] t.ingress v with
  | [] => t
  | r :: q =>
    let u : Port := { t with ingress := mapSet [] t.ingress v q }
    if r.stale then u else u.giveBack v (packetFlits r.pkt)

/-- A packet routed on: HOPS spent, no route, waiting for room, or into its egress queue (R340, R343). `cnt`: router counter
of a successful move. -/
def State.routeOn (s : State) (p v cnt : Nat) (k : Packet) : State :=
  match s.routePort k none with
  | none => (s.popIngress p v).routerCount 3
  | some r => if s.egressRoom r k then ((s.popIngress p v).egressPush r k).routerCount cnt else s

/-- FINAL of a Halyard packet (Table 7-4). -/
def finalOf (k : Packet) : Nat := fieldAt k.payload 4 2

/-- PACKET_FORWARD (R340-R346): the head packet of an ingress lane moves on. -/
def execPacketForward (p vl : Nat) (s : State) : Res := fabricEvent s fun s =>
  match mapGet [] (s.port p).ingress vl with
  | [] => s
  | r :: _ =>
    let k := r.pkt
    if k.dlid = s.ownLid then
      if k.kind = 0x10 ∧ finalOf k ≠ s.ownLid then
        if finalOf k / 256 = s.ownLid / 256 then s.routeOn p vl 4 { k with dlid := finalOf k, hops := s.hops0 }
        else (s.popIngress p vl).routerCount 3
      else if s.standby ∧ vl ≠ 0 ∧ consumerOf k.kind ≠ 6 then s.popIngress p vl
      else if s.deliveryRoom k then (s.popIngress p vl).deliverLocal k else s
    else if k.hops = 0 then (s.popIngress p vl).routerCount 2
    else s.routeOn p vl 1 { k with hops := k.hops - 1 }

/-- A route table entry takes effect whole (R355): `slot`: of the slot table, else of the rack table. -/
def writeRoute (slot : Bool) (i mask : Nat) (s : State) : CmdRes :=
  let idx := if slot then 0x4101 else 0x4100
  (stDone, s.blobSet 0 idx 0 (patchBytes (s.blobGet 0 idx 0) (8 * i) (leBytes 8 (mask % 2 ^ 36))))

/-- ROUTE_TABLE_WRITE (R351, R355). -/
def execRouteTableWrite (slot : Bool) (i mask : Nat) (s : State) : Res := runDevCmd s (writeRoute slot i mask s)

/-! Remote accesses (R347-R349). -/

/-- An answer to a remote request: tag, STATUS and the data of a read, after a 16-byte head (R348). -/
def State.remoteAnswer (s : State) (a : DomeAcc) (tag status : Nat) (data : Bytes) : State :=
  s.launch (1040 + domeOf a.addr)
    { dlid := a.lid, slid := s.ownLid, kind := 0x22, hops := s.hops0, qdst := a.qsrc, qsrc := a.q, flow := a.flow, vl := 3,
      payload := padTo 16 (leBytes 2 tag ++ leBytes 1 status) ++ data }

/-- The tag an answer to the access carries: that of a read; open for a write (log 22). -/
def State.answerTag (s : State) (a : DomeAcc) : Nat × State :=
  if a.what = .remRead then (a.id, s) else let d := s.draw 16; (d.1.toNat, d.2)

/-- The access answered under its tag. -/
def State.answerRemote (s : State) (a : DomeAcc) (status : Nat) (data : Bytes) : State :=
  let t := s.answerTag a
  t.2.remoteAnswer a t.1 status data

/-- A remote access is refused: answered and counted (R349, OD 0x4210). -/
def State.refuseRemote (s : State) (a : DomeAcc) (status : Nat) : State :=
  (s.odAdd a.q 0x4210 0 1).answerRemote a status []

/-- Window `w` of the access's partition holds its whole range, grants it and admits its source (R348). -/
def State.windowGrants (s : State) (a : DomeAcc) (w : Nat) : Bool :=
  let g := fun k => s.odGet a.q (0x4200 + w) k
  decide (g 1 ≤ a.addr) && decide (a.addr + a.len ≤ g 1 + g 2) && bitAt (g 5) (if a.what = .remRead then 0 else 1) &&
  decide (g 3 ≤ a.lid) && decide (a.lid ≤ g 4)

/-- 512-byte slots of a range (R300). -/
def slotsOf (a n : Nat) : Nat := (a + n - 1) / 512 - a / 512 + 1

/-- A remote access is checked: refused, or it waits at its dome port (R348). -/
def State.acceptRemote (s : State) (a : DomeAcc) : State :=
  if s.standby then s.refuseRemote a 4
  else if ¬ s.present a.q ∨ ¬ s.rangeInMap a.q a.addr a.len then s.refuseRemote a 2
  else if ¬ (List.range 16).any (fun w => s.windowGrants a w) then s.refuseRemote a 1
  else
    let d := domeOf a.addr
    { s with domeQ := mapSet [] s.domeQ d (mapGet [] s.domeQ d ++ [{ a with slots := slotsOf a.addr a.len }]) }

/-- A delivered request as an access. -/
def accessOf (k : Packet) : DomeAcc :=
  let da := fieldAt k.payload 0 8
  let base : DomeAcc := { req := 5, addr := da, lid := k.slid, q := k.qdst, qsrc := k.qsrc, flow := k.flow }
  if k.kind = 0x21 then { base with what := .remRead, len := fieldAt k.payload 8 2, id := fieldAt k.payload 10 2 }
  else { base with what := .remWrite, len := k.payload.length - 16, data := k.payload.drop 16,
                   head := BitVec.ofNat 64 (fieldAt k.payload 8 8) }

/-- The first delivered packet of kind `kind` that answers no slow-tier fetch reaches its consumer. -/
def State.takeKind (s : State) (kind : Nat) (f : Packet → State → State) : State :=
  match s.takeDelivered fun k => k.kind = kind && !s.tierAnswer k with
  | some (k, t) => f k t
  | none => s

/-- REMOTE_WRITE_REQUEST (R348). -/
def execRemoteWriteRequest (s : State) : Res := liveEvent s fun s =>
  s.takeKind 0x20 fun k t => t.acceptRemote (accessOf k)

/-- REMOTE_READ_REQUEST (R348). -/
def execRemoteReadRequest (s : State) : Res := liveEvent s fun s =>
  s.takeKind 0x21 fun k t => t.acceptRemote (accessOf k)

/-- The arrival record of a remote write, sent as channel bytes (R349). -/
def arrivalRecord (a : DomeAcc) : Bytes :=
  padTo 64 (leBytes 2 a.lid ++ leBytes 1 a.qsrc ++ leBytes 1 a.flow ++ leBytes 4 a.len ++ leBytes 8 a.addr)

/-- A remote access's last slot is granted: a write is applied whole and answered, and its arrival record sent; a read is
answered with its data, or with status 3 on a poisoned line (R309, R348, R349). -/
def State.serveRemote (s : State) (a : DomeAcc) : State :=
  match a.what with
  | .remWrite =>
    let r := s.domeWrite a.addr a.data
    let s1 := r.1
    let sp := bitsOf a.head.toNat 26 10
    let s2 := if bitAt a.head.toNat 63 ∧ s1.sparPart sp = a.q then s1.channelPut sp (bitsOf a.head.toNat 36 5) (arrivalRecord a)
      else s1
    s2.answerRemote a 0 []
  | _ =>
    let m := s.domeMeet a.addr a.len
    if m.1 ≠ [] then (m.2.unitUe a.q m.1).refuseRemote a 3
    else s.answerRemote a 0 (s.domeRead a.addr a.len)

/-- REMOTE_ANSWER (R349): the transfer completes; a read's data go to scratch; STATUS is kept for its retirement. -/
def execRemoteAnswer (s : State) : Res := liveEvent s fun s =>
  s.takeKind 0x22 fun k t =>
    match t.matchAnswer k.qdst k.slid (fieldAt k.payload 0 2) with
    | none => t
    | some (i, n, x) =>
      let st := fieldAt k.payload 2 1
      let t1 := if st = 0 ∧ x.kind = .fqRead then
          t.modSpar i fun y => y.scrPut x.sa (sliceBytes k.payload 16 x.len) else t
      (t1.modSpar i fun y => { y with xfers := y.xfers.set n { x with done := true, status := st, moved := x.len } }).pump i

end Sys2Proof.Machine
end

