-- ==== Sys2Proof/Machine/Cxl.lean ====
section
/-! DEFINITION. The CXL host port (12): link, resets and readiness (R358-R360), configuration space (R361), the HDM window
and its coherence (R363-R366), snoops, the notice ring (R374-R376), MSI-X (R377), IDE failures (R379), deadlines (R380). -/

namespace Sys2Proof.Machine

open Sys2Proof

/-- The host port changed. -/
def State.modCxl (s : State) (f : Cxl → Cxl) : State := { s with cxl := f s.cxl }

/-- FWRDY (Table 12-4). -/
def State.fwReady (s : State) : Bool := bitAt (s.odGet 0 0x0011 0) 0

/-- Memory requests to BAR0 are served: 256-byte flit mode, D0, firmware ready, and the CXL.io stream not failed (R356,
R358, Table 12-3, R379). -/
def State.barOk (s : State) : Bool :=
  s.cxl.link = 3 && !s.cxl.d3 && s.fwReady && !s.cxl.ideIoBad && s.boot != .contained && s.boot != .stopped &&
  !s.unitOut (spireUnit 0)

/-- A memory request to BAR0 completes with Unsupported Request: in PCIe mode, in D3hot, before firmware is ready (R356, R358,
Table 12-3), and in the contained state (14 R427). -/
def State.barUr (s : State) : Bool :=
  (s.cxl.link = 2 || s.cxl.link = 3) && (s.cxl.link = 2 || s.cxl.d3 || !s.fwReady || s.boot = .contained) && !s.cxl.ideIoBad &&
  s.boot != .stopped && (s.boot = .contained || !s.unitOut (spireUnit 0))

/-- Link state, rate and width in their objects (Table 12-11). -/
def State.setLink (s : State) (v rate width : Nat) : State :=
  ((({ s with cxl := { s.cxl with link := v } }.odSet 0 0x1800 1 v).odSet 0 0x1800 2 rate).odSet 0 0x1800 3 width)

/-- IDE state in its object (Table 12-11 :04). -/
def State.showIde (s : State) : State :=
  s.odSet 0 0x1800 4 ((if s.cxl.ideIo then 1 else 0) + (if s.cxl.ideMem then 2 else 0))

/-- Records queued for the ring are discarded and counted as lost (R374, R410). -/
def State.dropRing (s : State) : State :=
  let d := s.dest 0
  (s.setDest 0 { d with queue := [], lossDue := d.lossDue || !d.queue.isEmpty }).odAdd 0 0x1800 0xA d.queue.length

/-- Host requests in flight are discarded without answer (R360, R462). -/
def State.dropHostRequests (s : State) : State :=
  { s with cxl := { s.cxl with hostReqs := [], hostOut := mapSet [] s.cxl.hostOut 0 [] }
           domeQ := s.domeQ.filterMap fun e =>
             let l := e.2.filter fun a => a.req != 4
             if l = [] then none else some (e.1, l) }

/-- BAR0's host registers, the MSI-X table and the ring configuration at their reset values (R359): a request accepted before
still runs, and an answer still to come is discarded (log 54). -/
def Cxl.hostReset (c : Cxl) : Cxl :=
  { c with
    mbxLen := 0, mbxAlen := 0, mbxSeqCtl := 0, mbxIrq := false, mbxSeq := 0, mbxIgnored := 0, mbxState := 0, mbxReqBuf := [],
    mbxAnsBuf := [], mbxJob := none, mbxAns := none, mbxDropped := c.mbxDropped ++ c.mbxJob.toList, mbxLate := false, ringBase := 0, ringLog2 := 6, ringEnable := false,
    ringMirror := false, ringProd := 0, ringCons := 0, ringPaddr := 0, ringLossRun := false, msixTable := [], msixPba := 0,
    msixOn := false, msixMask := false,
    hostOut := mapSet [] (mapSet [] c.hostOut 1 []) 2 [] }

/-- FUNCTION_LEVEL_RESET (R359): records queued for the ring are gone; no object changes (13 R387). -/
def execFunctionLevelReset (s : State) : Res :=
  .next (if s.cxl.link = 2 ∨ s.cxl.link = 3 then
    (s.modCxl Cxl.hostReset).setDest 0 { s.dest 0 with queue := [], lossDue := (s.dest 0).lossDue || !(s.dest 0).queue.isEmpty }
  else s)

/-- Slow-tier fetches from host memory in flight fail (R369, R462). -/
def State.failFetches (s : State) : State :=
  let n := s.fetches.countP fun f : Fetch => f.src = 0 && !f.failed && f.started
  let fs := s.fetches.map fun f : Fetch => if f.src = 0 && f.started then ({ f with failed := true, asked := 0 } : Fetch) else f
  ({ s with fetches := fs, rdCurr := 0 } : State).odAdd 0 0x1800 9 n

/-- The host port island is reset (R462, Table 15-5). -/
def State.resetHostPort (s : State) : State :=
  let s1 := (s.dropRing.dropHostRequests).failFetches
  (({ s1 with
      cxl := { perst := s.cxl.perst, spdmPeers := s.cxl.spdmPeers }
      biWaits := [] }).setLink 0 0 0).showIde

/-- PERST_N_ASSERT (R462). -/
def execPerstNAssert (s : State) : Res :=
  .next ((s.resetHostPort).modCxl fun c => { c with perst := true })

/-- PERST_N_RELEASE (R358): the port trains the link. -/
def execPerstNRelease (s : State) : Res :=
  .next (if s.cxl.perst then ({ s with cxl := { s.cxl with perst := false } }).setLink 1 0 0 else s)

/-- CXL_LINK_UP (R358): training completes, in CXL or in PCIe mode. -/
def execCxlLinkUp (cxl : Bool) (rate width : Nat) (s : State) : Res :=
  .next (if s.cxl.link = 1 ∧ (rate = 16 ∨ rate = 32 ∨ rate = 64) ∧ (width = 4 ∨ width = 8 ∨ width = 16)
    then (s.setLink (if cxl then 3 else 2) rate width).flushBi else s)

/-- HOT_RESET (R462): the host port island is reset, and the port trains again. -/
def execHotReset (s : State) : Res :=
  .next (if s.cxl.link = 2 ∨ s.cxl.link = 3 then s.resetHostPort.setLink 1 0 0 else s)

/-- HOST_LINK (R360): the link leaves L0 unbidden; the fault belongs to Q0 (R419). -/
def execHostLink (s : State) : Res :=
  .next (if s.cxl.link = 2 ∨ s.cxl.link = 3 then
    (((s.dropHostRequests).setLink 1 0 0).odAdd 0 0x1800 0xE 1).raiseOpen 0x0503 (spireUnit 0) 0 (islSpire 1) []
  else s)

/-! Configuration space (R358, R361). -/

/-- Answer to a CXL.io request: status 0 successful, 1 Unsupported Request, 2 Request Retry Status. -/
def State.ioAnswer (s : State) (id : Nat) (data : Bytes) (status : Nat) : State := s.emit 4 id data status

/-- Bits a configuration write can change in BAR0: 2 MiB, 64-bit, non-prefetchable (R362). -/
def barMask (addr : Nat) : BitVec 32 := if addr = 0x10 then 0xFFE00000 else 0xFFFFFFFF

/-- Offset of capability `k` of Table 12-3: the first three stand on the list that offset 0x34 begins, the others on the extended
list that offset 0x100 begins (log 23). -/
def capAt (k : Nat) : Nat := if k = 3 then 0x100 else (Config.capOffset k).toNat

/-- Capability identifiers of Table 12-3 in its order, as PCIe and CXL number them (log 23). -/
def capIds : List Nat := [0x10, 0x11, 0x01, 0x2E, 0x2E, 0x30, 0x23, 0x23, 0x23]

/-- First word of capability `k`: identifier, next capability, and for the first three the upper half `hi`. -/
def capHead (k hi : Nat) : Nat :=
  if k < 3 then capIds.getD k 0 + (if k < 2 then capAt (k + 1) % 256 * 2 ^ 8 else 0) + hi % 2 ^ 16 * 2 ^ 16
  else capIds.getD k 0 + 2 ^ 16 + (if k < 8 then capAt (k + 1) * 2 ^ 20 else 0)

/-- A DVSEC's words 1 and 2: CXL's vendor ID, its own ID, and the upper half `hi`. -/
def dvsecHead (id hi : Nat) : List Nat := [0x1E98, id + hi * 2 ^ 16]

/-- The words of capability `k` that Table 12-3 fills, from its first word on; none stands for one it leaves open. -/
def State.capWords (s : State) (k : Nat) : List (Option Nat) :=
  let b := fun (v : Bool) n => if v then 2 ^ n else 0
  match k with
  | 0 => [some (capHead 0 2), some ((Config.cfgWord (capAt 0 + 4)).toNat ||| 2 ^ 28)]
  | 1 => [some (capHead 1 (63 + b s.cxl.msixMask 14 + b s.cxl.msixOn 15)), some 0x20000, some 0x21000]
  | 2 => [some (capHead 2 ((Config.cfgWord (capAt 2)).toNat / 2 ^ 16)),
          some ((Config.cfgWord (capAt 2 + 4)).toNat / 4 * 4 + if s.cxl.d3 then 3 else 0)]
  | 3 => [some (capHead 3 0)]
  | 4 => [some (capHead 4 0)]
  | 5 => [some (capHead 5 0), some ((Config.cfgWord (capAt 5 + 4)).toNat ||| 1)]
  | 6 => some (capHead 6 0) :: (dvsecHead 0 0x17).map some ++ [none, none, none, some 0x100, some (1 + b (bitAt (s.odGet 0 0x0011 0) 2) 1)]
  | 7 => some (capHead 7 0) :: (dvsecHead 7 7).map some
  | 8 => some (capHead 8 0) :: (dvsecHead 8 0).map some ++ [some 0x100, some 0, some 0x3FF00, some 0]
  | _ => []

/-- A word of a capability of Table 12-3 at `addr`. -/
def State.capWord (s : State) (addr : Nat) : Option Nat :=
  (List.range 9).findSome? fun k =>
    if capAt k ≤ addr ∧ (addr - capAt k) % 4 = 0 then ((s.capWords k)[(addr - capAt k) / 4]?).join else none

/-- The configuration word at `addr`: identity and class (R361), BAR0, the capabilities, and otherwise a value the spec does not
lay out (log 23). -/
def State.configWord (s : State) (addr : Nat) : BitVec 32 :=
  if addr = 0 then 0x0A512B1E
  else if addr = 8 then 0x120000A1
  else if addr = 0x10 then BitVec.ofNat 32 (memNat s.cxl.cfg 0x10 4) ||| 4
  else if addr = 0x14 then BitVec.ofNat 32 (memNat s.cxl.cfg 0x14 4)
  else if addr = 0x34 then BitVec.ofNat 32 (capAt 0 % 256)
  else match s.capWord addr with
    | some w => BitVec.ofNat 32 w
    | none => Config.cfgWord addr

/-- Vectors that are pending and no longer held send their messages (R377). -/
def State.msixFlush (s : State) : State :=
  ((List.range 64).filter fun v => s.cxl.msixPba.getLsbD v && !s.msixHeld v).foldl (fun u v =>
    ({ u with cxl := { u.cxl with msixPba := u.cxl.msixPba &&& ~~~(BitVec.ofNat 64 (2 ^ v)) } } : State).msix v) s

/-- A write of the configuration word at `addr`: BAR0, MSI-X Enable and Function Mask, and the power state (Table 12-3). -/
def State.configWrite (s : State) (addr : Nat) (data : BitVec 32) : State :=
  if addr = 0x10 ∨ addr = 0x14 then
    s.modCxl fun c => { c with cfg := memWrite c.cfg addr (leBytes 4 (data &&& barMask addr).toNat) }
  else if addr = capAt 1 then
    (s.modCxl fun c => { c with msixOn := data.getLsbD 31, msixMask := data.getLsbD 30 }).msixFlush
  else if addr = capAt 2 + 4 then
    s.modCxl fun c => { c with d3 := if data.toNat % 4 = 3 then true else if data.toNat % 4 = 0 then false else c.d3 }
  else s

/-- CONFIG_REQUEST (R358, R361): retried until firmware is ready, and in the recovery state (R479). -/
def execConfigRequest (id : Nat) (write : Bool) (addr : Nat) (data : BitVec 32) (s : State) : Res :=
  .next (if s.cxl.link ≠ 2 ∧ s.cxl.link ≠ 3 then s
    else if ¬ s.fwReady then s.ioAnswer id [] 2
    else if write then (s.configWrite addr data).ioAnswer id [] 0
    else s.ioAnswer id (leBytes 4 (s.configWord addr).toNat) 0)

/-! The window (R363-R366). -/

/-- Bytes of the window: the valid segments' lengths (R315). -/
def State.windowBytes (s : State) : Nat := ((s.segments.filter (·.valid)).map (·.len)).sum * 2 ^ 30

/-- A memory write to BAR0 offset `off`: `k` where BAR0 is served, Unsupported Request where R356 and R358 say so. -/
def State.barWrite (s : State) (off : Nat) (k : State → State) : State :=
  if s.barOk then k s else if s.barUr then s.ioAnswer off [] 1 else s

/-- HDM_DECODER_COMMIT (R363): a write of the decoder's registers, whose offset the spec leaves to CXL. -/
def execHdmDecoderCommit (base size : Nat) (oneWay bi : Bool) (s : State) : Res :=
  .next (s.barWrite 0 fun s =>
    if size = s.windowBytes ∧ oneWay ∧ bi then
      s.modCxl fun c => { c with hdmBase := base, hdmSize := size, hdmCommitted := true, hdmErr := false }
    else s.modCxl fun c => { c with hdmCommitted := false, hdmErr := true })

/-- Device address of window offset `x`, in GiB segments (R315). -/
def windowAddr (x : Nat) : List Segment → Option Nat
  | [] => none
  | g :: r =>
    if ¬ g.valid then windowAddr x r
    else if x < g.len * 2 ^ 30 then some (g.dome * 2 ^ 37 + g.start * 2 ^ 30 + x)
    else windowAddr (x - g.len * 2 ^ 30) r

/-- The device address of a host physical address inside the committed decoder (R363). -/
def State.hpaTo (s : State) (hpa : Nat) : Option Nat :=
  if s.cxl.hdmCommitted ∧ s.cxl.hdmBase ≤ hpa ∧ hpa < s.cxl.hdmBase + s.cxl.hdmSize then
    windowAddr (hpa - s.cxl.hdmBase) s.segments
  else none

/-- A CXL.mem answer: data, and 1 for data poison; it leaves through the egress arbiter (R377). -/
def State.memAnswer (s : State) (id : Nat) (data : Bytes) (poison : Bool) : State :=
  if poison then (s.toHost 0 { kind := 3, addr := id, data := data, flag := 1 }).odAdd 0 0x1800 7 1
  else s.toHost 0 { kind := 3, addr := id, data := data }

/-- A host access joins the queue of its dome port as requester 4 (R365). -/
def State.queueHost (s : State) (a : DomeAcc) : State :=
  let d := domeOf a.addr
  { s with domeQ := mapSet [] s.domeQ d (mapGet [] s.domeQ d ++ [a])
           cxl := { s.cxl with hostReqs := s.cxl.hostReqs ++ [(a.id, a.addr)] } }

/-- CXL_MEM_READ (R364-R366): `own`: the read grants the host a copy. A line of a fenced dome answers poison (Table 14-5). -/
def execCxlMemRead (id hpa : Nat) (own : Bool) (s : State) : Res :=
  .next (if s.memOk then
    if s.boot = .contained then s.memAnswer id (List.replicate 64 0xFF) true
    else match s.hpaTo (hpa / 64 * 64) with
    | none => (s.odAdd 0 0x1800 5 1).memAnswer id (List.replicate 64 0xFF) true
    | some a =>
      if s.domeOff.contains (domeOf a) then s.memAnswer id (List.replicate 64 0xFF) true
      else s.queueHost { what := .read, req := 4, addr := a, id := id, lid := if own then 1 else 0 }
  else s)

/-- CXL_MEM_WRITE (R364, R365): the bytes of a line from `hpa` on, all 64 or part of them; outside the decoder it is discarded
and counted. -/
def execCxlMemWrite (id hpa : Nat) (data : List (BitVec 8)) (poison : Bool) (s : State) : Res :=
  .next (if s.memOk && s.boot != .contained then
    match s.hpaTo (hpa / 64 * 64) with
    | none => s.odAdd 0 0x1800 5 1
    | some a =>
      if s.domeOff.contains (domeOf a) then s
      else s.queueHost { what := .write, req := 4, addr := a + hpa % 64, id := id, data := data.take (64 - hpa % 64), poison := poison }
  else s)

/-- Entries of the host line tracker (R366). -/
def trackerSize : Nat := 262144

/-- A host read that needs a tracker entry finds the tracker full (R366). -/
def State.trackerFull (s : State) (a : DomeAcc) : Bool :=
  a.what = .read && a.lid = 1 && !s.cxl.tracker.contains (lineOf a.addr) && decide (trackerSize ≤ s.cxl.tracker.length)

/-- The line tracked longest is back-invalidated (R366). -/
def State.evictTracked (s : State) : State :=
  match s.cxl.tracker with
  | l :: _ => s.sendBi l
  | [] => s

/-- A granted host access (R365, R309, R310): a write of part of a poisoned line is not applied and raises DOME_UE. -/
def State.serveHost (s : State) (a : DomeAcc) : State :=
  let s0 := s.modCxl fun c => { c with hostReqs := c.hostReqs.erase (a.id, a.addr) }
  match a.what with
  | .read =>
    let m := s0.domeMeet a.addr 64
    let s1 := if a.lid = 1 ∧ ¬ m.2.cxl.tracker.contains (lineOf a.addr) then
        m.2.modCxl fun c => { c with tracker := c.tracker ++ [lineOf a.addr] } else m.2
    if m.1 ≠ [] then (s1.unitUe 0 m.1).memAnswer a.id (List.replicate 64 0) true
    else s1.memAnswer a.id (s1.domeRead a.addr 64) false
  | _ =>
    let r := s0.domeWrite a.addr a.data
    let s1 := if r.2 ≠ [] then r.1.unitUe 0 r.2 else if a.poison then r.1.setPoison (lineOf a.addr) true else r.1
    s1.toHost 0 { kind := 3, addr := a.id, flag := 2 }

/-- BIRSP (R366): the entry is removed, and the accesses that waited re-enter (R316): each is served before a host read of the
line. -/
def execBirsp (line : Nat) (s : State) : Res :=
  .next (if s.cxl.biPending.contains line ∧ ¬ s.cxl.biUnsent.contains line then
    { s with cxl := { s.cxl with biPending := s.cxl.biPending.erase line, tracker := s.cxl.tracker.erase line,
                                 lateBi := s.cxl.lateBi.erase line }
             biWaits := s.biWaits.map fun w => if w.line = line then { w with answered := true } else w }
  else s)

/-- HOST_SNOOP (R367): answered with RspIHitI. -/
def execHostSnoop (hpa : Nat) (s : State) : Res :=
  .next (if s.memOk then s.emit 7 hpa [] 0 else s)

/-! Deadlines (R380). -/

/-- A missed deadline: HOST_DEADLINE names the responder's unit and the delay, and the miss is counted (R380, R372, R393). -/
def State.hostDeadline (s : State) (unit part isl delay : Nat) : State :=
  (s.odAdd 0 0x1800 0xD 1).raiseOpen 0x0501 unit part isl [unit, delay]

/-- The oldest CXL.mem read at dome `d` whose answer is awaited and has not been late yet: it is late now. -/
def State.lateRead (s : State) (d : Nat) : Option State :=
  let l := mapGet [] s.domeQ d
  (l.find? fun a => a.what = .read && a.req = 4 && !a.late).map fun a =>
    { s with domeQ := mapSet [] s.domeQ d (l.map fun b => if b = a then { a with late := true } else b) }

/-- An answer awaited of the host that has not been late yet, a BIRsp before the data of a RdCurr: it is late now. -/
def State.lateHost (s : State) : Option State :=
  match s.cxl.biPending.find? fun l => !s.cxl.biUnsent.contains l && !s.cxl.lateBi.contains l with
  | some l => some (s.modCxl fun c => { c with lateBi := c.lateBi ++ [l] })
  | none => if s.cxl.lateRd < s.rdCurr then some (s.modCxl fun c => { c with lateRd := c.lateRd + 1 }) else none

/-- The request of Table 12-9 whose answer by `responder` is late, marked so: once per request. A CXL.io read leaves no trace
in the state. -/
def State.lateFor (s : State) (responder : Nat) : Option State :=
  if responder / 2 ^ 24 = 4 then s.lateRead (responder % 2 ^ 24)
  else if responder = spireUnit 0 then some s
  else if responder / 2 ^ 24 = 0xF then s.lateHost
  else none

/-- HOST_DEADLINE (R380): an answer awaited at the port passes 10 µs, 10,000 cycles of the host port island. The responder is
a dome, the port's register block, or the host. A contained device raises none (R427). -/
def execHostDeadline (responder delay : Nat) (s : State) : Res :=
  .next (if 10000 < delay ∧ s.cxl.link = 3 ∧ s.boot ≠ .contained ∧ s.boot ≠ .stopped then
    match s.lateFor responder with
    | some t => t.hostDeadline responder (if responder / 2 ^ 24 = 4 then s.domePart (responder % 2 ^ 24) else 4) (islSpire 1) delay
    | none => s
  else s)

/-! IDE (R379). -/

/-- A stream in the insecure state: its keys are gone, and it carries no traffic until it is keyed again. -/
def Cxl.insecure (c : Cxl) (mem : Bool) : Cxl :=
  let k := c.ideKeys.filter fun e => e.1 != (if mem then 1 else 0)
  if mem then { c with ideMem := false, ideMemBad := true, ideKeys := k } else { c with ideIo := false, ideIoBad := true, ideKeys := k }

/-- IDE_FAIL (R379). -/
def execIdeFail (mem : Bool) (s : State) : Res :=
  .next (if (if mem then s.cxl.ideMem else s.cxl.ideIo) then
    ((s.modCxl fun c => c.insecure mem).showIde).raiseOpen 0x0502 (spireUnit 0) 0 (islSpire 1) [if mem then 1 else 0]
  else s)

/-! The notice ring and MSI-X (R374-R377). -/

/-- LOG2 as written (Table 12-7). -/
def ringLog (v : Nat) : Nat := if 6 ≤ v ∧ v ≤ 16 then v else 6

/-- RING_CTRL written with ENABLE = 1 (R374, R409): the indices and the SEQ counter start at 0. -/
def State.enableRing (s : State) (log2 : Nat) (mirror : Bool) : State :=
  if s.cxl.ringEnable then s
  else (s.modCxl fun c => { c with ringEnable := true, ringLog2 := ringLog log2, ringMirror := mirror, ringProd := 0, ringCons := 0,
                                   ringLossRun := false }).setDest 0 { s.dest 0 with seq := 0 }

/-- RING_CTRL written with ENABLE = 0 (R374). -/
def State.disableRing (s : State) (log2 : Nat) (mirror : Bool) : State :=
  if s.cxl.ringEnable then (s.modCxl fun c => { c with ringEnable := false }).dropRing
  else s.modCxl fun c => { c with ringLog2 := ringLog log2, ringMirror := mirror }

/-- RING_ENABLE (R374). -/
def execRingEnable (log2 : Nat) (mirror : Bool) (s : State) : Res := .next (s.barWrite 0x34008 fun s => s.enableRing log2 mirror)

/-- RING_DISABLE (R374). -/
def execRingDisable (log2 : Nat) (mirror : Bool) (s : State) : Res := .next (s.barWrite 0x34008 fun s => s.disableRing log2 mirror)

/-- A write of the consumer index (R376). -/
def State.writeCons (s : State) (v : BitVec 32) : State :=
  if (v - s.cxl.ringCons).toNat ≤ (s.cxl.ringProd - s.cxl.ringCons).toNat then s.modCxl fun c => { c with ringCons := v }
  else s.odAdd 0 0x1800 0xB 1

/-- RING_CONS_WRITE (R376). -/
def execRingConsWrite (val : BitVec 32) (s : State) : Res := .next (s.barWrite 0x34010 fun s => s.writeCons val)

/-- The first queued record is written to the host: the record, the producer mirror, the MSI-X message (R375). -/
def State.writeRingRecord (s : State) : State :=
  let d := s.dest 0
  match d.queue with
  | [] => s
  | n :: r =>
    let c := s.cxl
    let s1 := (s.setDest 0 { d with queue := r }).emit 0 (c.ringBase.toNat + c.ringProd.toNat % 2 ^ c.ringLog2 * 64) n.bytes 0
    let s2 := s1.modCxl fun c => { c with ringProd := c.ringProd + 1 }
    (if c.ringMirror then s2.emit 0 c.ringPaddr.toNat (leBytes 4 (c.ringProd + 1).toNat) 0 else s2).msixNow (1 + n.sev)

/-- A vector unmasked: its message is sent if one is pending (R377). -/
def State.unmask (s : State) (v : Nat) : State :=
  (s.modCxl fun c => { c with
    msixTable := mapSet 1 c.msixTable (16 * v + 12) ((mapGet 1 c.msixTable (16 * v + 12)) &&& 0xFE) }).msixFlush

/-- MSIX_UNMASK (R377). -/
def execMsixUnmask (vec : Nat) (s : State) : Res := .next (s.barWrite (0x20000 + 16 * vec + 12) fun s => if vec < 64 then s.unmask vec else s)

end Sys2Proof.Machine
end

