-- ==== Sys2Proof/Machine/Arb.lean ====
section
/-! DEFINITION. EDGE_ARBITRATE: one slot of an edge arbiter (10 R317, R319-R321): who asks, who is granted, and what the grant
does at a dome port (R300, R301, R316), a fabric port (11 R341), the CXL egress (12 R375) and the management mailbox. -/

namespace Sys2Proof.Machine

open Sys2Proof

/-! Who asks at a dome port (R301, R316). -/

/-- A wait for back-invalidation holds the unit's later accesses to dome `d` back: one of another line than those of
`ls` (R316). -/
def State.unitHeld (s : State) (unit d : Nat) (ls : Nat → Bool) : Bool :=
  s.biWaits.any fun w => w.unit = unit && w.dome = d && !ls w.line

/-- The transfer of spar `i` that waits for dome `d`, if its turn has come (R95): a read waits for the spar's earlier writes
of the same bytes (R94). -/
def State.waitingAt (s : State) (i d : Nat) : Option Xfer :=
  let x := s.spar i
  if s.towerOut 1 (sparTower i) then none else
  match x.turnXfer.bind fun k => x.xfers[k]? with
  | some t =>
    if (t.kind = .dld ∨ t.kind = .dst) ∧ t.moved < t.len ∧ domeOf t.da = d ∧
        ¬ (t.kind = .dld ∧ x.writesAhead t.num [(t.da, t.len)]) ∧
        ¬ s.unitHeld i d (inRanges [(t.da + t.moved, t.slotBytes)]) then some t else none
  | none => none

/-- An ask has slots to be granted at dome `d`, its lines there are not held by the host, and no wait of its unit holds it
back (R316). -/
def State.askOpen (s : State) (d : Nat) (a : PortAsk) : Bool :=
  a.left.any (fun l => l.1 = d) && (a.rs.flatMap fun r => s.hostLines r.1 r.2).isEmpty && !s.unitHeld a.unit d (inRanges a.rs)

/-- The oldest ask of unit `u` with slots to be granted at dome `d`, when it can be served (R95). -/
def State.unitAsk (s : State) (u d : Nat) : Option PortAsk :=
  (s.asks.find? fun a => a.unit = u && a.left.any fun l => l.1 = d).bind fun a => if s.askOpen d a then some a else none

/-- Entry at a turn-table pointer. -/
def HomePtr.entry (h : HomePtr) (table : Bytes) : Nat := ((h.table.getD table).getD h.pos 0xFF).toNat

/-- The spar of tower `t` whose locked sequence holds a dome port, beside its home ports (R319). -/
def State.remoteOwner (s : State) (t : Nat) : Option Nat :=
  ((s.edges.filter fun e => decide (e.1 < 16) && e.2.lock = some (8 + t)).map fun e => e.2.lockSpar).head?

/-- The spar whose turn it is for requester `r` of dome port `d`: the lock's owner, or that of the turn-table entry (R301,
R319). -/
def State.turnSpar (s : State) (d r : Nat) : Option Nat :=
  let t := if r = 0 then d / 2 else r - 8
  match (if r = 0 then (if (s.edge d).lock = some 0 then some (s.edge d).lockSpar else none) else s.remoteOwner t) with
  | some i => some i
  | none =>
    let e := if r = 0 then (s.homeOf d).entry (s.blobGet 0 (0x3010 + t) 0) else (s.remoteOf t).entry (s.blobGet 0 (0x3018 + t) 0)
    if e < 128 then some (128 * t + e) else none

/-- Lines of the next slot of a transfer that the host may hold. -/
def State.slotHeld (s : State) (t : Xfer) : List Nat := s.hostLines (t.da + t.moved) t.slotBytes

/-- Requesters of a dome port that stand for a tower's spars. -/
def towerRequesters (d : Nat) : List Nat := 0 :: ((List.range 8).filter fun t => t != d / 2).map (8 + ·)

/-- Turn spars whose access must wait for a back-invalidation: it is sent (R316). -/
def State.portBi (s : State) (d : Nat) : State :=
  (towerRequesters d).foldl (fun u r =>
    match (u.turnSpar d r).bind fun i => (u.waitingAt i d).map fun t => (i, t) with
    | some (i, t) => u.backInvalidate i (u.slotHeld t)
    | none => u) s

/-- The first waiting access of requester `r` at dome port `d`. -/
def State.headAcc (s : State) (d r : Nat) : Option DomeAcc := (mapGet [] s.domeQ d).find? fun a => a.req = r

/-- Unit number of the fabric's remote accesses. -/
def remoteUnit : Nat := 4096 + 5

/-- Host and remote accesses that must wait: their back-invalidations are sent (R316, R366). -/
def State.accBi (s : State) (d : Nat) : State :=
  let s1 := match s.headAcc d 5 with
    | some a => s.backInvalidate remoteUnit (s.hostLines a.addr a.len)
    | none => s
  match s1.headAcc d 4 with
  | some a => if s1.trackerFull a then s1.evictTracked else s1
  | none => s1

/-- Engine of a unit number of requester 3: 0 Halyard, 1 collective engine, 2 Boom, 3 Lookout. -/
def unitEngine (u : Nat) : Nat := (u - 4096) / 16

/-- The partition whose context engine `k` serves: that of its turn while it has work, else the next that has (01 R30). -/
def turnPart (turn : Nat) (qs : List Nat) : Option Nat :=
  ((List.range 4).map fun j => (turn / 8 + j) % 4).find? fun q => qs.contains q

/-- The ask that a slot granted to requester `r`, no tower's, of dome port `d` would serve: the oldest, that of an engine from
the partition whose turn it is (01 R30). -/
def State.reqAsk (s : State) (d r : Nat) : Option PortAsk :=
  (s.asks.filter fun a => decide (1024 ≤ a.unit) && a.unit % 16 = r && s.askOpen d a).find? fun a =>
    r != 3 || decide (4 ≤ a.q) ||
    turnPart (mapGet 0 s.turns (unitEngine a.unit))
      ((s.asks.filter fun b => b.unit = a.unit && !b.left.isEmpty).map (·.q)) = some a.q

/-- The ask that a slot of the turn spar would serve: not while a lock is open at the port, whose slots belong to the locked
sequence (R319). -/
def State.sparAsk (s : State) (d i : Nat) : Option PortAsk :=
  if s.towerOut 1 (sparTower i) ∨ (s.edge d).lock.isSome then none else s.unitAsk i d

/-- Requester `r` has something to ask for at dome port `d`. -/
def State.wantsAt (s : State) (d r : Nat) : Bool :=
  if r = 0 ∨ 8 ≤ r then
    match s.turnSpar d r with
    | some i =>
      match s.waitingAt i d with
      | some t => s.slotHeld t = []
      | none => (s.sparAsk d i).isSome
    | none => false
  else if r = 4 then
    match s.headAcc d 4 with
    | some a => !s.trackerFull a && !s.cxl.biPending.contains (lineOf a.addr) && !s.biWaits.any fun w => w.line = lineOf a.addr
    | none => false
  else if r = 5 then
    match s.headAcc d 5 with
    | some a => s.hostLines a.addr a.len = []
    | none => false
  else (s.reqAsk d r).isSome

/-- Requester `r` asks at dome port `d`: it has something to ask for, and can complete a whole transfer in this slot, as bit
`r` of `asks` says (R317): it holds the data, or room for it, and for a remote tower its ring interface has this slot
(R301). -/
def State.asksAt (s : State) (d : Nat) (asks : BitVec 16) (r : Nat) : Bool := asks.getLsbD r && s.wantsAt d r

/-! What a grant does at a dome port. -/

/-- The access is taken out of its queue. -/
def State.popAcc (s : State) (d : Nat) (a : DomeAcc) : State :=
  { s with domeQ := mapSet [] s.domeQ d ((mapGet [] s.domeQ d).erase a) }

/-- One slot of an access granted: the last serves it. -/
def State.serveAcc (s : State) (d r : Nat) : State :=
  match s.headAcc d r with
  | none => s
  | some a =>
    if 1 < a.slots then
      { s with domeQ := mapSet [] s.domeQ d ((mapGet [] s.domeQ d).map fun b => if b = a then { a with slots := a.slots - 1 } else b) }
    else
      let s1 := s.popAcc d a
      if r = 4 then s1.serveHost a
      else ({ s1 with biWaits := s1.biWaits.filter fun w => !(w.unit = remoteUnit && inRanges [(a.addr, a.len)] w.line) }
        : State).serveRemote a

/-- One slot less to be granted at dome `d`. -/
def takeSlot (d : Nat) : List (Nat × Nat) → List (Nat × Nat)
  | [] => []
  | l :: ls => if l.1 = d then (if l.2 ≤ 1 then ls else (d, l.2 - 1) :: ls) else l :: takeSlot d ls

/-- One slot of dome `d` granted to an ask. -/
def State.grantAsk (s : State) (d : Nat) (a : PortAsk) : State :=
  { s with asks := s.asks.map fun b => if b = a then { a with left := takeSlot d a.left } else b }

/-- An engine's turn after a slot for partition `q`: 4 KiB, eight slots, and the next partition follows (01 R30). -/
def State.turnUsed (s : State) (u q : Nat) : State :=
  if u % 16 ≠ 3 ∨ 4 ≤ q then s
  else
    let k := unitEngine u
    let t := mapGet 0 s.turns k
    let n := if t / 8 = q then t % 8 + 1 else 1
    { s with turns := mapSet 0 s.turns k (if n = 8 then 8 * ((q + 1) % 4) else 8 * q + n) }

/-- One slot granted to the ask of a unit. -/
def State.serveAsk (s : State) (d : Nat) (a : PortAsk) : State := (s.grantAsk d a).turnUsed a.unit a.q

/-- The transfer's slot is served: what its spar waited for on these lines is over (R366). -/
def State.endWait (s : State) (i : Nat) (t : Xfer) : State :=
  { s with biWaits := s.biWaits.filter fun w => !(w.unit = i && inRanges [(t.da + t.moved, t.slotBytes)] w.line) }

/-- Effect of a grant to requester `r`, slots it takes, and whether a lock is open after it: a transfer marked LOCK opens
one, the transfer that closes the sequence ends it with its last slot (R313, R319). -/
def State.serveDome (s : State) (d r : Nat) (mark : Bool) : State × Nat × Bool :=
  if r = 0 ∨ 8 ≤ r then
    match s.turnSpar d r with
    | none => (s, 0, false)
    | some i =>
      match s.waitingAt i d with
      | some t =>
        let open_ := t.lock || ((s.edge d).lock.isSome && decide (t.moved + t.slotBytes < t.len))
        (xferSlot i (s.endWait i t), (if t.code ≠ 0 then 2 else 1), open_)
      | none => match s.sparAsk d i with
        | some a => (s.serveAsk d a, 1, false)
        | none => (s, 0, false)
  else if r = 4 ∨ r = 5 then (s.serveAcc d r, 1, false)
  else match s.reqAsk d r with
    | some a => (s.serveAsk d a, 1, mark)
    | none => (s, 0, false)

/-! Waits (R318). -/

/-- Key of the request that requester `r` asks for with at dome port `d`: a tower's spar has its own. -/
def State.waitKey (s : State) (d r : Nat) : Nat :=
  if r = 0 ∨ 8 ≤ r then 16 + (s.turnSpar d r).getD 0 else r

/-- A slot in which the requesters of `asked` asked and that of `got` was granted: the others have waited `n` slots more. -/
def Edge.waited (g : Edge) (asked : List Nat) (got : Option Nat) (n : Nat) : Edge :=
  { g with waits := asked.foldl (fun m k => mapSet 0 m k (if got = some k then 0 else mapGet 0 m k + n)) g.waits }

/-- Turn-table pointers move on with every slot: that of the home tower with the port's, that of a remote tower with its ring
interface's (R301). Writes of a home table and of settings take effect when no lock is open, of a remote table at the
interface's next slot (R321). -/
def State.takeWrites (s : State) (d : Nat) (asks : BitVec 16) : State :=
  let s0 := if (s.edge d).lock.isSome then s
    else
      let s1 := s.setEdge d { s.edge d with inUse := [] }
      { s1 with homePtr := mapSet {} s1.homePtr d { s1.homeOf d with table := none } }
  { s0 with remPtr := (towerRequesters d).foldl (fun m r => if r = 0 ∨ ¬ asks.getLsbD r then m
      else mapSet {} m (r - 8) { (mapGet {} m (r - 8)) with table := none }) s0.remPtr }

/-- The pointers after `n` slots of dome port `d`, of which the ring interfaces of the towers in `asks` had theirs. -/
def State.turnOn (s : State) (d n : Nat) (asks : BitVec 16) : State :=
  let go := fun (h : HomePtr) => { h with pos := (h.pos + n) % 256 }
  { s with homePtr := mapSet {} s.homePtr d (go (s.homeOf d))
           remPtr := (towerRequesters d).foldl (fun m r => if r = 0 ∨ ¬ asks.getLsbD r then m
             else mapSet {} m (r - 8) (go (mapGet {} m (r - 8)))) s.remPtr }

/-- The edge's record of a grant of `n` slots to `r`. -/
def State.noteGrant (s : State) (e r n : Nat) : State :=
  (s.setEdge e { s.edge e with starved := setDel (s.edge e).starved r }).odAdd 0 (0x3200 + e) 7 n

/-- The lock's owner waits for a back-invalidation, which counts toward no hold (R316). -/
def State.ownerWaits (s : State) (d i : Nat) : Bool :=
  match s.waitingAt i d with
  | some t => !(s.slotHeld t).isEmpty
  | none => s.biWaits.any fun w => w.unit = i && w.dome = d

/-- One slot of dome port `d` (R317). A lock held beyond the hold limit is cut off by GRANT_OVERHOLD before anything else is
granted (R320). -/
def State.domeSlot (s : State) (d : Nat) (asks : BitVec 16) (mark : Bool) : State :=
  let s1 := ((s.takeWrites d asks).portBi d).accBi d
  let asked := (List.range 16).filter fun r => edgeHas d r && !s1.cutOff d r && s1.asksAt d asks r
  let keys := asked.map (s1.waitKey d)
  match (s1.edge d).lock with
  | some r =>
    let own := (s1.edge d).lockSpar
    let on := asked.contains r
    let r1 := if on then s1.serveDome d r mark else (s1, 0, true)
    let s2 := if r1.2.1 = 0 then r1.1 else r1.1.noteGrant d r r1.2.1
    let n := max 1 r1.2.1
    let hold := if !on && decide (r = 0 ∨ 8 ≤ r) && s1.ownerWaits d own then 0 else n
    (s2.setEdge d { (s2.edge d).waited keys (if on then some (s1.waitKey d r) else none) n with
      lock := if r1.2.2 then some r else none, lockSpar := own,
      held := if r1.2.2 then (s2.edge d).held + hold else 0 }).turnOn d n asks
  | none =>
    match pickGrant s1 d asked with
    | none => s1.turnOn d 1 asks
    | some (r, g) =>
      let who := (s1.turnSpar d r).getD 0
      let r1 := (s1.setEdge d g).serveDome d r mark
      let s2 := r1.1.noteGrant d r r1.2.1
      (s2.setEdge d { (s2.edge d).waited keys (some (s1.waitKey d r)) (max 1 r1.2.1) with
        lock := if r1.2.2 then some r else none, lockSpar := who,
        held := if r1.2.2 then r1.2.1 else 0 }).turnOn d (max 1 r1.2.1) asks

/-! The other edges. -/

/-- What waits for the CXL egress arbiter as requester `r` (R377). -/
def State.hostQueue (s : State) (r : Nat) : List OutMsg := mapGet [] s.cxl.hostOut r

/-- The notice ring has a record to write (12 R375). -/
def State.ringWaits (s : State) : Bool := !(s.dest 0).queue.isEmpty && s.cxl.ringEnable

/-- A request of requester 0 or 1 waits at the management mailbox (Table 10-6). -/
def State.mgmtAsks (s : State) (r : Nat) : Bool :=
  if r = 0 then s.cxl.mbxJob.isSome || !s.cxl.mbxDropped.isEmpty else s.delivery.any fun k => k.kind = 1

/-- The management mailbox may grant: no granted request is still to run. -/
def State.mgmtFree (s : State) : Bool :=
  match s.mgmtTurn with
  | none => true
  | some r => decide (r < 2) && !s.mgmtAsks r

/-- Requester `r` has something to ask for at another edge than a dome port: the lanes of a fabric port a packet that may start,
the CXL egress a message or a record, the management mailbox an accepted request; MCTP leaves no trace of one. -/
def State.wantsElse (s : State) (e r : Nat) : Bool :=
  if 0x20 ≤ e ∧ e < 0x44 then s.canSend (e - 0x20) r
  else if e = 0x10 then
    if r = 2 then s.barOk && (!(s.hostQueue 2).isEmpty || s.ringWaits)
    else !(s.hostQueue r).isEmpty && (if r = 1 then s.barOk else s.memOk)
  else s.mgmtFree && (if r = 2 then true else s.mgmtAsks r)

/-- The first waiting message of requester `r` leaves for the host, and the slots of 64 bytes it takes (R357). -/
def State.sendHost (s : State) (r : Nat) : State × Nat :=
  match s.hostQueue r with
  | [] => (s, 1)
  | m :: l => ({ s with out := s.out ++ [m], cxl := { s.cxl with hostOut := mapSet [] s.cxl.hostOut r l } },
      max 1 (ceilDiv m.data.length 64))

/-- Effect of a grant at another edge, and the slots it takes. A grant of the management mailbox makes its requester's request
the next that runs (13 R392). -/
def State.serveElse (s : State) (e r : Nat) : State × Nat :=
  if 0x20 ≤ e ∧ e < 0x44 then
    (s.sendHead (e - 0x20) r, ((mapGet [] (s.port (e - 0x20)).egress r).head?.map packetFlits).getD 1)
  else if e = 0x10 then
    if r = 2 ∧ (s.hostQueue 2).isEmpty then (s.writeRingRecord, 1) else s.sendHost r
  else ({ s with mgmtTurn := some r }, 1)

/-- One slot of an edge that has no locks (R317, R318, R320); bit `r` of `asks`: requester `r` can complete a whole transfer in
it. -/
def State.elseSlot (s : State) (e : Nat) (asks : BitVec 16) : State :=
  let s1 := s.setEdge e { s.edge e with inUse := [] }
  let asked := (List.range 16).filter fun r => edgeHas e r && !s1.cutOff e r && asks.getLsbD r && s1.wantsElse e r
  match pickGrant s1 e asked with
  | none => s1
  | some (r, g) =>
    let r1 := (s1.setEdge e g).serveElse e r
    let s2 := r1.1.noteGrant e r r1.2
    s2.setEdge e ((s2.edge e).waited asked (some r) r1.2)

/-- The edge grants nothing: its arbiter is fenced or tested, or its dome's base die is (Table 14-4, Table 14-5), or its lock
has run out of its hold limit and is about to be cut off (R320). -/
def State.edgeBlocked (s : State) (e : Nat) : Bool :=
  s.fencedEdges.contains e || s.testing.contains (unitId 7 e) ||
  (decide (e < 16) && (s.domeHeld e || ((s.edge e).lock.isSome && decide (s.setting e 2 < (s.edge e).held))))

/-- EDGE_ARBITRATE (R317): one slot of edge `e`. Bit `r` of `asks`: requester `r` can complete a whole transfer in this slot;
`mark`: a transfer of a requester that is no tower marks a lock. In the recovery state the management mailbox alone is served
(16 R479). -/
def execEdgeArbitrate (e : Nat) (asks : BitVec 16) (mark : Bool) (s : State) : Res :=
  .next (if (s.boot = .training ∨ s.boot = .ready ∨ (s.boot = .recovery ∧ e = 0x50)) ∧ ¬ s.edgeBlocked e then
    (if e < 16 then s.domeSlot e asks mark else s.elseSlot e asks) else s)

end Sys2Proof.Machine
end

