-- ==== Sys2Proof/Machine/Engine.lean ====
section
/-! DEFINITION. What Halyard, the collective engine and Boom share: their dome accesses (10 R309, R310, R316), events sent
as channel bytes (07 R208), group tables and the frames they read from the fabric. -/

namespace Sys2Proof.Machine

open Sys2Proof

/-- A unit of partition `q` raises a fault of severity error that carries `vals`: no update commits from now on (09 R280). -/
def State.raiseError (s : State) (code source q isl : Nat) (vals : List Nat) : State :=
  (s.modPart q fun p => { p with errSince := true }).raiseOpen code source q isl vals

/-- The poisoned lines of [a, a + n). -/
def State.poisonLines (s : State) (a n : Nat) : List Nat :=
  (s.poison.filter fun e => e.2 && lineOf a ≤ e.1 && e.1 ≤ lineOf (a + n - 1) && 0 < n).map (·.1)

/-- Granted reads of an engine: it goes on as `k`, or ends as `bad` with DOME_UE when what it reads is poisoned (Table 10-4). -/
def State.engineRead (s : State) (q : Nat) (reads : List (Nat × Nat)) (bad k : State → State) : State :=
  let ls := uniq (reads.flatMap fun r => s.poisonLines r.1 r.2)
  if ls = [] then k s else bad ((s.countUe ls).unitUe q ls)

/-- An engine's operation of partition `q`: it waits for its slots at the dome ports and for back-invalidation (R305, R316,
R317), and ends as `bad` says without effect when the engine is cut off (R320), or with DOME_UE when what it reads is
poisoned (Table 10-4). -/
def State.engineRun (s : State) (unit q : Nat) (reads writes : List (Nat × Nat)) (bad k : State → State) : State :=
  s.portGate unit q (reads ++ writes) bad fun s => s.engineRead q reads bad k

/-- Bytes written to dome one run after another; poisoned lines written in part raise DOME_UE (R310). -/
def State.engineWrite (s : State) (q : Nat) (ws : List (Nat × Bytes)) : State :=
  let r := ws.foldl (fun (acc : State × List Nat) w =>
    let d := acc.1.domeWrite w.1 w.2
    (d.1, acc.2 ++ d.2)) (s, [])
  r.1.unitUe q r.2

/-- Dome ranges of a list of writes. -/
def writeRanges (ws : List (Nat × Bytes)) : List (Nat × Nat) := ws.map fun w => (w.1, w.2.length)

/-- A 64-byte event as channel bytes at a spar's endpoint; nothing when the spar is not of the partition (R208). -/
def State.event (s : State) (q spar ep : Nat) (bytes : Bytes) : State :=
  if s.sparPart spar = q then s.channelPut spar ep (padTo 64 bytes) else s

/-- The logical IDs of a group table: U16 values in rank order (R206, R254). -/
def groupIds (b : Bytes) : List Nat := (List.range (b.length / 2)).map fun i => fieldAt b (2 * i) 2

/-- A logical ID's position in a table; its length where it is absent. -/
def rankIn (g : List Nat) (lid : Nat) : Nat := g.findIdx (· = lid)

/-- ⌈log2 n⌉ for n up to 4,096. -/
def clog2 (n : Nat) : Nat := ((List.range 13).find? fun h => decide (n ≤ 2 ^ h)).getD 13

/-- A row event on a delivered packet for which `p` holds: `g` says what dome it touches; it stays in its buffer while its
slots are asked for or a line waits for back-invalidation. -/
def State.onFrame (s : State) (p : Packet → Bool) (unit : Nat) (g : State → Packet → List (Nat × Nat))
    (f : Packet → State → State) : State :=
  match s.takeDelivered p with
  | none => s
  | some (k, _) =>
    let run := fun (u : State) => match u.takeDelivered p with
      | some (_, v) => f k v
      | none => u
    s.portGate unit k.qdst (g s k) (fun u => match u.takeDelivered p with
      | some (_, v) => v
      | none => u) run

end Sys2Proof.Machine
end

