-- ==== Sys2Proof/Machine/Collective.lean ====
section
/-! DEFINITION. The collective engine (08.4-08.6): commands, frames, reductions and copies, the exact norm sums, the norm
reduction and the clip factor. -/

namespace Sys2Proof.Machine

open Sys2Proof

/-! Exact sums of squares (R263, R266). Units of 2^-300. -/

/-- Exact square of a finite value in units of 2^-300. -/
def squareUnits (v : FVal) : Nat :=
  match v with
  | .fin _ m e => m * m * 2 ^ (2 * e + 300).toNat
  | _ => 0

/-- A non-finite element of quantity `k` (0 gradient, 1 weight, 2 update) reached the sums of layer slot `slot`: its bit is
set, and NORM_NONFINITE raised once in the step (R266). -/
def State.normNonfinite (s : State) (q slot k : Nat) : State :=
  let p := s.part q
  let b := mapGet 0 p.nonfin slot
  let s1 := s.setPart q { p with nonfin := mapSet 0 p.nonfin slot (b ||| 2 ^ k) }
  if p.nfRaised.contains (slot, k) then s1
  else
    (s1.modPart q fun p => { p with nfRaised := p.nfRaised ++ [(slot, k)] }).raiseError 0x0203
      (spireUnit (if k = 0 then 4 else 5)) q (islSpire (if k = 0 then 3 else 4)) [slot, k]

/-- Exact squares added to the gradient sum of a layer slot (R264). -/
def State.addGradSquares (s : State) (q slot : Nat) (vs : List FVal) : State :=
  let n := (vs.map squareUnits).sum
  let s1 := s.modPart q fun p => { p with gradSum := mapSet 0 p.gradSum slot ((mapGet 0 p.gradSum slot + n) % 2 ^ 640) }
  if vs.all FVal.isFin then s1 else s1.normNonfinite q slot 0

/-! Commands (Table 8-3). -/

/-- A collective as its 64-byte command names it. -/
def colOf (q : Nat) (r : Bytes) : ColOp :=
  { q := q, op := fieldAt r 1 1, ifmt := fieldAt r 2 1, ofmt := fieldAt r 3 1, group := fieldAt r 4 1, layer := fieldAt r 5 1,
    gnorm := bitAt (fieldAt r 6 1) 0, upper := fieldAt r 7 1, tag := fieldAt r 8 4, blocks := fieldAt r 12 4,
    src := fieldAt r 16 8, dst := fieldAt r 24 8, stage := fieldAt r 32 8, step := fieldAt r 40 8,
    evspar := fieldAt r 48 2 % 1024, evep := fieldAt r 50 1 }

/-- The command's fixed fields are as Table 8-3 states: CODE 1, and its reserved bits and bytes zero. -/
def colFieldsOk (r : Bytes) : Bool :=
  fieldAt r 0 1 = 1 && fieldAt r 6 1 < 2 && decide (fieldAt r 48 2 < 1024) && (r.drop 51).all (· = 0)

/-- The collective group of a table (R252). -/
def State.colGroup (s : State) (q g : Nat) : List Nat := groupIds (s.blobGet q (0x6010 + g % 16) 0)

/-- The members of a collective; a local pass has this device alone (Table 8-5). -/
def State.members' (s : State) (c : ColOp) : List Nat := if c.op = 5 then [s.ownLid] else s.colGroup c.q c.group

/-- Bytes of a tensor of `b` blocks (R254). -/
def tensorBytes (fmt b : Nat) : Nat := if fmt = 0 then 65 * b else 128 * b

/-- First block of shard `k` of `n` (R255). -/
def shardAt (b n k : Nat) : Nat := k * b / n

/-- Blocks of shard `k`. -/
def shard (b n k : Nat) : List Nat := (List.range (shardAt b n (k + 1) - shardAt b n k)).map (shardAt b n k + ·)

/-- Dome ranges of the blocks [lo, lo + n) of a tensor of `b` blocks. -/
def blockRanges (fmt addr b lo n : Nat) : List (Nat × Nat) :=
  if n = 0 then [] else if fmt = 0 then [(addr + 64 * lo, 64 * n), (addr + 64 * b + lo, n)] else [(addr + 128 * lo, 128 * n)]

/-- The regions a command names lie aligned in the partition's map (R254). -/
def State.colRegionsOk (s : State) (c : ColOp) (n : Nat) : Bool :=
  let ok := fun a len => a % 64 = 0 && s.inMap c.q a && s.rangeInMap c.q a len
  c.op = 6 || (ok c.src (tensorBytes c.ifmt c.blocks) && ok c.dst (tensorBytes c.ofmt c.blocks) &&
    ((c.op != 1 && c.op != 3) || ok c.stage (n * 8320)))

/-- Status a command completes with at once, if it does (Table 8-4, R254, R257, R264). -/
def State.colStatus (s : State) (c : ColOp) : Option Nat :=
  let g := s.members' c
  let n := g.length
  let up := s.colGroup c.q c.upper
  let bad := c.op = 0 || decide (6 < c.op) || decide (1 < c.ifmt) || decide (1 < c.ofmt) || (c.op != 5 && decide (15 < c.group)) ||
    (c.gnorm && (c.op = 2 || c.op = 4 || c.op = 6)) || (c.op != 6 && c.upper != 0xFF) ||
    (c.op = 6 && c.upper != 0xFF && (decide (15 < c.upper) || n = 0 || up = [])) ||
    (if c.op = 6 then c.blocks != 0 else c.blocks = 0) || n = 0 ||
    ((c.op = 2 || c.op = 4) && c.ifmt != c.ofmt) || (c.op = 4 && c.blocks % n != 0) ||
    s.sparPart c.evspar != c.q || decide (31 < c.evep) || !s.colRegionsOk c n || (s.part c.q).cols.any (fun d => d.tag = c.tag)
  if bad then some 1
  else if 8 ≤ (s.part c.q).cols.length then some 2
  else if ¬ g.contains s.ownLid then some 5
  else if c.op = 6 ∧ c.upper ≠ 0xFF ∧ rankIn g s.ownLid = 0 ∧ ¬ up.contains s.ownLid then some 5
  else none

/-- The DONE event (Table 8-4). -/
def State.colDone (s : State) (c : ColOp) (status : Nat) : State :=
  s.event c.q c.evspar c.evep (leBytes 1 0x81 ++ leBytes 1 status ++ leBytes 2 0 ++ leBytes 4 c.tag ++ leBytes 8 c.step)

/-- The open collective of a TAG. -/
def State.colTag (s : State) (q tag : Nat) : Option ColOp := (s.part q).cols.find? fun c => c.tag = tag

/-- An open collective replaced. -/
def State.putCol (s : State) (c : ColOp) : State :=
  s.modPart c.q fun p => { p with cols := p.cols.map fun d => if d.tag = c.tag then c else d }

/-- An open collective closed. -/
def State.dropCol (s : State) (c : ColOp) : State :=
  s.modPart c.q fun p => { p with cols := p.cols.filter fun d => d.tag != c.tag }

/-- STAGE of a reduction, whose layout the spec does not give, is left with free bytes (log 25). -/
def State.freeStage (s : State) (c : ColOp) (n : Nat) : State :=
  if c.op = 1 ∨ c.op = 3 then
    let d := s.draw (8 * (n * 8320))
    d.2.engineWrite c.q [(c.stage, leBytes (n * 8320) d.1.toNat)]
  else s

/-- A collective completes with status 0. -/
def State.colComplete (s : State) (c : ColOp) : State :=
  (((s.dropCol c).odAdd c.q 0x6001 1 1).freeStage c (s.members' c).length).colDone c 0

/-! Frames (Table 8-9). -/

/-- Head of a frame. -/
def colHead (c : ColOp) (ftype fmt part rank level first count : Nat) : Bytes :=
  padTo 64 (leBytes 1 ftype ++ leBytes 1 c.op ++ leBytes 1 fmt ++ leBytes 1 part ++ leBytes 4 c.tag ++ leBytes 4 c.blocks ++
    leBytes 2 rank ++ leBytes 1 level ++ leBytes 1 0 ++ leBytes 8 c.step ++ leBytes 4 first ++ leBytes 4 count)

/-- Body of a data frame: mantissas, then exponents padded to a multiple of 8; or FP32 blocks (R259). -/
def colBody (fmt : Nat) (bs : List Bytes) : Bytes :=
  if fmt = 0 then
    let e := bs.flatMap fun b => (b.drop 64).take 1
    bs.flatMap (·.take 64) ++ padTo (ceilDiv e.length 8 * 8) e
  else bs.flatten

/-- Block `i` of a data frame of `n`. -/
def frameBlock (fmt : Nat) (body : Bytes) (n i : Nat) : Bytes :=
  if fmt = 0 then sliceBytes body (64 * i) 64 ++ sliceBytes body (64 * n + i) 1 else sliceBytes body (128 * i) 128

/-- Consecutive blocks from `first` sent to one member, 64 in a frame. -/
def State.sendBlocks (s : State) (c : ColOp) (lid fmt part first : Nat) (bs : List Bytes) : State :=
  ((chunks 64 (bs.length + 1) bs).zipIdx).foldl (fun t x =>
    t.sendFlow 2 c.q 0x18 lid c.q (colHead c 1 fmt part c.rank 0 (first + 64 * x.2) x.1.length ++ colBody fmt x.1)) s

/-- Block numbers cut into runs of consecutive ones. -/
def runsOf : List Nat → List (List Nat)
  | [] => []
  | b :: r =>
    match runsOf r with
    | (k :: t) :: rest => if k = b + 1 then (b :: k :: t) :: rest else [b] :: (k :: t) :: rest
    | l => [b] :: l

/-! Blocks. -/

/-- Block `b` of the input as it travels: raw for the copies, S16 for the reductions (R256, R257). -/
def State.colInput (s : State) (c : ColOp) (b : Nat) : Bytes × Conv :=
  if c.ifmt = 0 then (s.domeRead (c.src + 64 * b) 64 ++ s.domeRead (c.src + 64 * c.blocks + b) 1, {})
  else
    let raw := s.domeRead (c.src + 128 * b) 128
    if c.op = 2 ∨ c.op = 4 then (raw, {})
    else
      let v := s16Encode ((List.range 32).map fun j => f32Val (BitVec.ofNat 32 (fieldAt raw (4 * j) 4)))
      (v.elems.flatMap (leBytes 2) ++ leBytes 1 (v.scales.getD 0 0), { v with elems := [], scales := [] })

/-- Values of an S16 block: NaN in a non-finite one (R57). -/
def s16Values (b : Bytes) : List FVal :=
  let x := S16Block.ofBytes b
  x.m.map fun m => if x.e = 0xFF then .nan else ofInt m ((x.e : Int) - 141)

/-- Writes of output block `b`: `fmt` is the form of `bytes`; an S16 block is widened when OFMT = 1 (R254, R256). -/
def outWrites (c : ColOp) (b fmt : Nat) (bytes : Bytes) : List (Nat × Bytes) :=
  if c.ofmt = 0 then [(c.dst + 64 * b, bytes.take 64), (c.dst + 64 * c.blocks + b, (bytes.drop 64).take 1)]
  else if fmt = 1 then [(c.dst + 128 * b, bytes)]
  else [(c.dst + 128 * b, (s16Values bytes).flatMap fun v => leBytes 4 (toF32 v).toNat)]

/-- Key of a held block. -/
def colKey (part rank b : Nat) : Nat := (part * 4096 + rank) * 2 ^ 32 + b

/-- Output blocks a member writes (Table 8-5). -/
def outBlocks (c : ColOp) (n : Nat) : List Nat := if c.op = 1 then shard c.blocks n c.rank else List.range c.blocks

/-- A copied block written: once. -/
def State.copyOut (s : State) (c : ColOp) (b fmt : Nat) (bytes : Bytes) : State × ColOp :=
  if c.wrote.contains b then (s, c)
  else (s.engineWrite c.q (outWrites c b fmt bytes), { c with wrote := setIns c.wrote b })

/-- What the write of a reduced block that another member formed counts: it is an output of the reduction (R256, R62). -/
def State.countShared (s : State) (c : ColOp) (b : Nat) (bytes : Bytes) : State :=
  if c.op = 3 ∧ ¬ c.wrote.contains b then s.countRange c.q c.layer { nBlk := if fieldAt bytes 64 1 = 0xFF then 1 else 0 } else s

/-- Block `b` of the own shard is reduced once every rank's contribution is held (R256, R264): written, counted, and squared. -/
def State.reduceBlock (s : State) (c : ColOp) (n b : Nat) : State × ColOp × Option Bytes :=
  let have' := (List.range n).map fun r => mapGet [] c.got (colKey 0 r b)
  if c.wrote.contains b ∨ have'.any (· = []) then (s, c, none)
  else
    let r := s16Reduce (have'.map S16Block.ofBytes)
    let bytes := r.1.bytes
    let s1 := s.countRange c.q c.layer r.2
    let s2 := if c.gnorm then s1.addGradSquares c.q c.layer (s16Values bytes) else s1
    (s2.engineWrite c.q (outWrites c b 0 bytes),
     { c with wrote := setIns c.wrote b, got := c.got.filter fun e => e.1 % 2 ^ 32 != b }, some bytes)

/-- Blocks of the own shard reduced as far as they are complete; an all-reduce sends them on (R256, Table 8-5). -/
def State.reduceReady (s : State) (c : ColOp) (g : List Nat) (bs : List Nat) : State × ColOp :=
  let r := bs.foldl (fun (acc : State × ColOp × List (Nat × Bytes)) b =>
    let x := acc.1.reduceBlock acc.2.1 g.length b
    (x.1, x.2.1, match x.2.2 with | some y => acc.2.2 ++ [(b, y)] | none => acc.2.2)) (s, c, [])
  if c.op = 3 then
    ((runsOf (r.2.2.map (·.1))).foldl (fun t run =>
      (g.filter (· ≠ s.ownLid)).foldl (fun u lid =>
        u.sendBlocks c lid 0 1 (run.headD 0) (run.map fun b => ((r.2.2.find? fun x => x.1 = b).map (·.2)).getD [])) t) r.1, r.2.1)
  else (r.1, r.2.1)

/-- The collective completes when every output block is written. -/
def State.colSettle (s : State) (c : ColOp) : State :=
  let s1 := s.putCol c
  if c.wrote.length = (outBlocks c (s.members' c).length).length then s1.colComplete c else s1

/-- One block of a data frame taken (R256, R257, R259). -/
def State.takeBlock (s : State) (c : ColOp) (g : List Nat) (rank part fmt b : Nat) (bytes : Bytes) : State × ColOp :=
  let n := g.length
  if c.op = 2 ∨ (c.op = 3 ∧ part = 1) then
    if (shard c.blocks n rank).contains b then (s.countShared c b bytes).copyOut c b fmt bytes else (s, c)
  else if c.op = 4 then
    let p := c.blocks / n
    if c.rank * p ≤ b ∧ b < (c.rank + 1) * p then s.copyOut c (rank * p + (b - c.rank * p)) fmt bytes else (s, c)
  else if c.op = 1 ∨ c.op = 3 then
    if (shard c.blocks n c.rank).contains b then
      s.reduceReady { c with got := mapSet [] c.got (colKey 0 rank b) bytes } g [b]
    else (s, c)
  else (s, c)

/-- Dome the blocks of a data frame may write. -/
def State.frameRanges (s : State) (c : ColOp) (k : Packet) : List (Nat × Nat) :=
  let n := (s.members' c).length
  let first := fieldAt k.payload 24 4
  let lo := if c.op = 4 then fieldAt k.payload 12 2 * (c.blocks / n) + (first - c.rank * (c.blocks / n)) else first
  blockRanges c.ofmt c.dst c.blocks lo (min 64 (fieldAt k.payload 28 4))

/-! Aborts (R258). -/

/-- A collective ends with a fault: raised once with both values compared, DONE with `status`, and no further block written. -/
def State.abortCol (s : State) (c : ColOp) (status code held got : Nat) : State :=
  ((((s.dropCol c).dropAsks (engineUnit 1) c.q).odAdd c.q 0x6001 2 1).raiseError code (spireUnit 4) c.q (islSpire 3)
    [held, got]).colDone c status

/-- Every other member of the collective, those of the upper table included where this device stands in it. -/
def State.colPeers (s : State) (c : ColOp) : List Nat :=
  let up := if c.op = 6 ∧ c.upper ≠ 0xFF ∧ c.rank = 0 then s.colGroup c.q c.upper else []
  (s.members' c ++ up).filter (· ≠ s.ownLid)

/-- The detecting member's abort frame to every member (R258, R259). -/
def State.sendAborts (s : State) (c : ColOp) (status code held got : Nat) : State :=
  (s.colPeers c).foldl (fun t lid =>
    t.sendFlow 2 c.q 0x19 lid c.q (patchBytes (colHead c 2 0 0 c.rank 0 0 0) 32
      (leBytes 2 code ++ leBytes 1 status ++ leBytes 5 0 ++ leBytes 8 held ++ leBytes 8 got))) s

/-- What is wrong with a frame for an open collective (R258): status, code, own value, received value. -/
def State.frameFault (s : State) (c : ColOp) (b : Bytes) : Option (Nat × Nat × Nat × Nat) :=
  let n := if fieldAt b 14 1 = 1 then (s.colGroup c.q c.upper).length else (s.members' c).length
  if fieldAt b 16 8 ≠ c.step then some (3, 0x0201, c.step, fieldAt b 16 8)
  else if fieldAt b 1 1 ≠ c.op then some (4, 0x0204, c.op, fieldAt b 1 1)
  else if fieldAt b 8 4 ≠ c.blocks then some (4, 0x0204, c.blocks, fieldAt b 8 4)
  else if n ≤ fieldAt b 12 2 then some (4, 0x0204, n, fieldAt b 12 2)
  else none

/-! The norm reduction (R259, R269). Entries are 88 bytes, as numbers: 80 bytes of sum, 8 of count. -/

/-- The mark of a non-finite input: 80 bytes of ones. -/
def normMark : Nat := 2 ^ 640 - 1

/-- Two entries added exactly; the mark stays (R259). -/
def addEntry (a b : Nat) : Nat :=
  let sum := if a % 2 ^ 640 = normMark ∨ b % 2 ^ 640 = normMark then normMark else (a % 2 ^ 640 + b % 2 ^ 640) % normMark
  sum + (a / 2 ^ 640 + b / 2 ^ 640) % 2 ^ 64 * 2 ^ 640

/-- Sum of the range counters of a layer slot (R247). -/
def State.rangeSum (s : State) (q c : Nat) : Nat := ((List.range 5).map fun k => s.odGet q (0x2200 + c) (k + 1)).sum

/-- Range-loss count of a record's count slot since the last commit notice (R247). -/
def State.rangeLoss (s : State) (q slot : Nat) : Nat :=
  let c := s.odGet q (0x6100 + slot) 2
  s.rangeSum q c - mapGet 0 (s.part q).rlBase c

/-- This device's contribution for a layer slot (R259). -/
def State.normEntry (s : State) (q slot : Nat) : Nat :=
  let p := s.part q
  (if bitAt (mapGet 0 p.nonfin slot) 0 then normMark else mapGet 0 p.gradSum slot % normMark) +
  (if s.odGet q (0x6100 + slot) 1 = 2 then s.rangeLoss q slot % 2 ^ 64 else 0) * 2 ^ 640

/-- Norm entries of all 256 layer slots sent to one device, 185 in a frame (R259). -/
def State.sendEntries (s : State) (c : ColOp) (lid ftype rank level : Nat) (es : List Nat) : State :=
  ((chunks 185 3 es).zipIdx).foldl (fun t x =>
    t.sendFlow 2 c.q 0x19 lid c.q (colHead c ftype 0 0 rank level (185 * x.2) x.1.length ++ x.1.flatMap (leBytes 88))) s

/-- Key of a received entry. -/
def normKey (level rank slot : Nat) : Nat := (level * 4096 + rank) * 256 + slot

/-- Every rank's entries of a level are held. -/
def levelHere (c : ColOp) (level n : Nat) : Bool :=
  (List.range n).all fun r => (List.range 256).all fun i => c.entries.any fun e => e.1 = normKey level r i

/-- Sums of a level's entries, slot by slot. -/
def levelSums (c : ColOp) (level n : Nat) : List Nat :=
  (List.range 256).map fun i => (List.range n).foldl (fun a r => addEntry a (mapGet 0 c.entries (normKey level r i))) 0

/-- Entries noted. -/
def putEntries (m : List (Nat × Nat)) (key : Nat → Nat) (first : Nat) (es : List Nat) : List (Nat × Nat) :=
  (es.zipIdx).foldl (fun m x => let k := key ((first + x.2) % 256); mapIns (mapDel m k) k x.1) m

/-- `clip_factor` (8.6). -/
def clipFactor (n maxnorm eps : W32) : W32 :=
  if (f32Val maxnorm).isZero then 0x3F800000 else f32Min 0x3F800000 (f32Div maxnorm (f32Add n eps))

/-- The totals are known: n, c and the group's sums and counts are held for Boom and the records; DONE (R269). -/
def State.normTotals (s : State) (c : ColOp) (tot : List Nat) : State :=
  let marked := tot.any fun e => e % 2 ^ 640 = normMark
  let n : W32 := if marked then 0x7FC00000 else toF32 (FVal.fin false (tot.map (· % 2 ^ 640)).sum (-300)).sqrt
  let cf : W32 := if marked then 0x7FC00000 else
    clipFactor n (BitVec.ofNat 32 (s.odGet c.q 0x6300 2)) (BitVec.ofNat 32 (s.odGet c.q 0x6300 3))
  let upd := fun (p : Part) => { p with
    grpSum := (List.range 256).foldl (fun m i => mapSet 0 m i (tot.getD i 0 % 2 ^ 640)) []
    grpBad := (List.range 256).filter fun i => tot.getD i 0 % 2 ^ 640 = normMark
    grpCnt := (List.range 256).foldl (fun m i => mapSet 0 m i (tot.getD i 0 / 2 ^ 640)) []
    normDone := true, clip := some cf, gnorm := some n }
  (s.modPart c.q upd).colComplete c

/-- Totals passed to every other member of a table, and taken here. -/
def State.passTotals (s : State) (c : ColOp) (tot : List Nat) : State :=
  let g := s.members' c
  let s1 := if c.rank = 0 then
      (g.filter (· ≠ s.ownLid)).foldl (fun t lid => t.sendEntries c lid 4 0 0 tot) s
    else s
  s1.normTotals c tot

/-- The norm reduction goes on as far as the entries held allow (R259, R269). -/
def State.normAdvance (s : State) (c : ColOp) : State :=
  let g := s.members' c
  let up := s.colGroup c.q c.upper
  let tops := (List.range 256).map fun i => mapGet 0 c.totals i
  if (List.range 256).all fun i => c.totals.any fun e => e.1 = i then s.passTotals c tops
  else if c.rank = 0 ∧ levelHere c 0 g.length then
    let sums := levelSums c 0 g.length
    if c.upper = 0xFF then s.passTotals c sums
    else
      let ru := rankIn up s.ownLid
      if ru = 0 then
        let c1 : ColOp := if c.sentUp then c else { c with sentUp := true, entries := putEntries c.entries (normKey 1 0) 0 sums }
        if levelHere c1 1 up.length then
          let tot := levelSums c1 1 up.length
          let s1 := (up.filter (· ≠ s.ownLid)).foldl (fun t lid => t.sendEntries c1 lid 4 0 1 tot) s
          s1.passTotals c1 tot
        else s.putCol c1
      else if c.sentUp then s.putCol c
      else (s.sendEntries c (up.headD 0) 3 ru 1 sums).putCol { c with sentUp := true }
  else s.putCol c

/-- Entries in the body of a norm frame. -/
def frameEntries (b : Bytes) : List Nat := (List.range (min 185 (fieldAt b 28 4))).map fun i => fieldAt b (64 + 88 * i) 88

/-! Frames arriving. -/

/-- A frame for an open collective takes effect (R258, R259). -/
def State.colFrame (s : State) (c : ColOp) (k : Packet) : State :=
  let b := k.payload
  let ft := fieldAt b 0 1
  if ft = 2 then s.abortCol c (fieldAt b 34 1) (fieldAt b 32 2) (fieldAt b 40 8) (fieldAt b 48 8)
  else match s.frameFault c b with
    | some (st, code, held, got) => (s.sendAborts c st code held got).abortCol c st code held got
    | none =>
      if ft = 1 then
        let n := min 64 (fieldAt b 28 4)
        let fmt := fieldAt b 2 1
        let r := (List.range n).foldl (fun (acc : State × ColOp) i =>
          acc.1.takeBlock acc.2 (s.members' c) (fieldAt b 12 2) (fieldAt b 3 1) fmt (fieldAt b 24 4 + i)
            (frameBlock fmt (b.drop 64) n i)) (s, c)
        if c.op = 6 then s else r.1.colSettle r.2
      else if c.op ≠ 6 then s
      else if ft = 3 then
        let es := putEntries c.entries (normKey (fieldAt b 14 1 % 2) (fieldAt b 12 2)) (fieldAt b 24 4) (frameEntries b)
        s.normAdvance { c with entries := es }
      else s.normAdvance { c with totals := putEntries c.totals id (fieldAt b 24 4) (frameEntries b) }

/-- A frame is held for a TAG that is not open, 16 of them at most; one more is discarded and counted (R258). -/
def State.holdFrame (s : State) (q : Nat) (k : Packet) : State :=
  let p := s.part q
  let tags := (p.colHeld.map fun m => fieldAt m.payload 4 4).foldl setIns []
  if tags.contains (fieldAt k.payload 4 4) ∨ tags.length < 16 then s.setPart q { p with colHeld := p.colHeld ++ [k] }
  else s.odAdd q 0x6001 3 1

/-- A collective frame arrives: `want` says which FTYPE the row takes. -/
def colFrameRow (kind : Nat) (want : Nat → Bool) (s : State) : Res := spireEvent 4 s fun s =>
  s.onFrame (fun k => k.kind = kind && want (fieldAt k.payload 0 1)) (engineUnit 1)
    (fun s k => match s.colTag k.qdst (fieldAt k.payload 4 4) with
      | some c => if fieldAt k.payload 0 1 = 1 then s.frameRanges c k else []
      | none => [])
    fun k t =>
      let ft := fieldAt k.payload 0 1
      if ¬ t.present k.qdst then t
      else if ft = 0 ∨ 4 < ft ∨ (kind = 0x18 ∧ ft ≠ 1) ∨ (kind = 0x19 ∧ ft = 1) then t.odAdd k.qdst 0x6001 3 1
      else match t.colTag k.qdst (fieldAt k.payload 4 4) with
        | some c => t.colFrame c k
        | none => t.holdFrame k.qdst k

/-- COLLECTIVE_DATA_FRAME (R256). -/
def execCollectiveDataFrame (s : State) : Res := colFrameRow 0x18 (fun _ => true) s
/-- COLLECTIVE_ABORT_FRAME (R258). -/
def execCollectiveAbortFrame (s : State) : Res := colFrameRow 0x19 (fun f => f != 3 && f != 4) s
/-- NORM_CONTRIBUTION_FRAME (R259). -/
def execNormContributionFrame (s : State) : Res := colFrameRow 0x19 (· = 3) s
/-- NORM_TOTALS_FRAME (R269). -/
def execNormTotalsFrame (s : State) : Res := colFrameRow 0x19 (· = 4) s

/-! Starting (R253-R257). -/

/-- What a command reads. -/
def colReads (c : ColOp) (n : Nat) : List (Nat × Nat) :=
  if c.op = 6 then []
  else if c.op = 2 then blockRanges c.ifmt c.src c.blocks (shardAt c.blocks n c.rank) (shard c.blocks n c.rank).length
  else blockRanges c.ifmt c.src c.blocks 0 c.blocks

/-- What a command may write: its output and, of a reduction, its staging region. -/
def colWrites (c : ColOp) (n : Nat) : List (Nat × Nat) :=
  if c.op = 6 then []
  else
    let o := outBlocks c n
    blockRanges c.ofmt c.dst c.blocks (o.headD 0) o.length ++ if c.op = 1 ∨ c.op = 3 then [(c.stage, n * 8320)] else []

/-- The input sent to the members, and the own part placed. -/
def State.colSend (s : State) (c : ColOp) (g : List Nat) : State × ColOp :=
  let n := g.length
  let own := s.ownLid
  if c.op = 5 then
    (List.range c.blocks).foldl (fun (acc : State × ColOp) b =>
      let x := s.colInput c b
      let s1 := acc.1.countRange c.q c.layer (if c.ifmt = 1 then x.2 else { nBlk := if fieldAt x.1 64 1 = 0xFF then 1 else 0 })
      let s2 := if c.gnorm then s1.addGradSquares c.q c.layer (s16Values x.1) else s1
      s2.copyOut acc.2 b 0 x.1) (s, c)
  else if c.op = 1 ∨ c.op = 3 then
    let ins := (List.range c.blocks).map fun b => s.colInput c b
    let s1 := ins.foldl (fun t x => t.countRange c.q c.layer x.2) s
    let s2 := (g.zipIdx.filter fun x => x.1 != own).foldl (fun t x =>
      t.sendBlocks c x.1 0 0 (shardAt c.blocks n x.2) ((shard c.blocks n x.2).map fun b => (ins.getD b ([], {})).1)) s1
    let mine := shard c.blocks n c.rank
    let c1 : ColOp := { c with got := mine.foldl (fun m b => mapSet [] m (colKey 0 c.rank b) (ins.getD b ([], {})).1) c.got }
    s2.reduceReady c1 g mine
  else if c.op = 2 then
    let mine := shard c.blocks n c.rank
    let bs := mine.map fun b => (s.colInput c b).1
    let s1 := (g.filter (· ≠ own)).foldl (fun t lid => t.sendBlocks c lid c.ifmt 0 (mine.headD 0) bs) s
    (mine.zip bs).foldl (fun (acc : State × ColOp) x => acc.1.copyOut acc.2 x.1 c.ifmt x.2) (s1, c)
  else
    let p := c.blocks / n
    let part := fun k => (List.range p).map fun i => (s.colInput c (k * p + i)).1
    let s1 := (g.zipIdx.filter fun x => x.1 != own).foldl (fun t x => t.sendBlocks c x.1 c.ifmt 0 (x.2 * p) (part x.2)) s
    ((part c.rank).zipIdx).foldl (fun (acc : State × ColOp) x => acc.1.copyOut acc.2 (c.rank * p + x.2) c.ifmt x.1) (s1, c)

/-- The command opens: the own contribution goes out, and the frames held for its TAG are taken (R256-R258). -/
def State.colOpen (s : State) (c : ColOp) : State :=
  let g := s.members' c
  let p := s.part c.q
  let mine := p.colHeld.filter fun m => fieldAt m.payload 4 4 = c.tag
  let s1 := s.setPart c.q { p with cols := p.cols ++ [c], colHeld := p.colHeld.filter fun m => fieldAt m.payload 4 4 != c.tag }
  let s2 := if c.op = 6 then
      let es := (List.range 256).map fun i => s1.normEntry c.q i
      if c.rank = 0 then s1.normAdvance { c with entries := putEntries [] (normKey 0 0) 0 es }
      else (s1.sendEntries c (g.headD 0) 3 c.rank 0 es).putCol c
    else
      let r := s1.colSend c g
      r.1.colSettle r.2
  mine.foldl (fun t k => match t.colTag c.q c.tag with | some d => t.colFrame d k | none => t) s2

/-- The oldest command record of a partition's collective queue. -/
def State.colHeadCmd (s : State) (q : Nat) : Option Bytes :=
  let b := mapGet [] s.colCmd q
  if b.length < 64 then none else some (b.take 64)

/-- It is taken. -/
def State.colPop (s : State) (q : Nat) : State :=
  { s with colCmd := mapSet [] s.colCmd q ((mapGet [] s.colCmd q).drop 64) }

/-- The command of operation `op` at the head of the queue is carried out (R253); one that breaks Table 8-3, whatever its
operation, completes with status 1 (R254). Codes from 0x10 on are Boom's. -/
def colRow (q op : Nat) (s : State) : Res := spireEvent 4 s fun s =>
  match s.colHeadCmd q with
  | none => s
  | some r =>
    let o := fieldAt r 1 1
    let c0 := colOf q r
    if 0x10 ≤ fieldAt r 0 1 then s
    else if ¬ colFieldsOk r then (s.colPop q).colDone c0 1
    else if o ≠ op ∧ 1 ≤ o ∧ o ≤ 6 then s
    else
      let g := s.members' c0
      let c : ColOp := { c0 with rank := rankIn g s.ownLid }
      match s.colStatus c with
      | some st => (s.colPop q).colDone c st
      | none => s.engineRun (engineUnit 1) q (colReads c g.length) (colWrites c g.length) (fun t => t.colPop q) fun t =>
          (t.colPop q).colOpen c

/-- REDUCE_SCATTER (R256). -/
def execReduceScatter (q : Nat) (s : State) : Res := colRow q 1 s
/-- ALL_GATHER (R257). -/
def execAllGather (q : Nat) (s : State) : Res := colRow q 2 s
/-- ALL_REDUCE (R256). -/
def execAllReduce (q : Nat) (s : State) : Res := colRow q 3 s
/-- ALL_TO_ALL (R257). -/
def execAllToAll (q : Nat) (s : State) : Res := colRow q 4 s
/-- LOCAL_PASS (R255). -/
def execLocalPass (q : Nat) (s : State) : Res := colRow q 5 s
/-- NORM_REDUCTION (R269). -/
def execNormReduction (q : Nat) (s : State) : Res := colRow q 6 s

end Sys2Proof.Machine
end

