-- ==== Sys2Proof/Machine/Prune.lean ====
section
/-! DEFINITION. The pruning units (06.8, R199-R205; 04 R132): requests, tile modes, sparse tiles and their metadata, and
the pruning counters. -/

namespace Sys2Proof.Machine

open Sys2Proof

/-- |w| in units of 2^-149: exact for every finite FP32 value. -/
def magUnits (w : W32) : Nat :=
  match f32Val w with
  | .fin _ m e => m * 2 ^ (e + 149).toNat
  | _ => 0

/-- The positions of one group that `keep_largest` keeps (R201): the first `n` by magnitude, ties to the lower. -/
def keptOf (n : Nat) (ms : List Nat) : List Nat :=
  (List.range ms.length).filter fun i =>
    let m := ms.getD i 0
    decide (((List.range ms.length).countP fun j =>
      let k := ms.getD j 0
      decide (m < k) || (k = m && decide (j < i))) < n)

/-- The groups of `m` rows of a column. -/
def groupsOf (m : Nat) (col : List W32) : List (List W32) :=
  (List.range (col.length / m)).map fun g => (col.drop (m * g)).take m

/-- Magnitudes of one group's dropped positions (R201). -/
def droppedOf (grp : List W32) : List Nat :=
  let ms := grp.map magUnits
  let keep := keptOf 2 ms
  ((List.range ms.length).filter fun i => !keep.contains i).map fun i => ms.getD i 0

/-- Magnitudes dropped by `keep_largest(w, 2, m)` over a tile's columns. -/
def droppedMags (m : Nat) (cols : List (List W32)) : List Nat :=
  cols.flatMap fun c => (groupsOf m c).flatMap droppedOf

/-- The value is NaN or infinite. -/
def notFinite (w : W32) : Bool := !(f32Val w).isFin

/-- `tile_mode` (R132). -/
def tileMode (thr4 thr8 : Nat) (cols : List (List W32)) : Nat :=
  if cols.any fun c => c.any notFinite then 0
  else
    let total := (cols.map fun c => (c.map magUnits).sum).sum
    if total = 0 then 3
    else if (droppedMags 8 cols).sum * 65536 ≤ thr8 * total then 2
    else if (droppedMags 4 cols).sum * 65536 ≤ thr4 * total then 1
    else 0

/-- Logical positions of the stored slots of one group, and its metadata code (R202, Table 4-4): none for an unused slot. -/
def groupSlots (mode : Nat) (grp : List W32) : List (Option Nat) × Nat :=
  let keep := keptOf 2 (grp.map magUnits)
  if mode = 1 then (keep.map some, keep.getD 0 0 + 4 * keep.getD 1 0)
  else
    let nz := keep.filter fun i => magUnits (grp.getD i 0) ≠ 0
    ((List.range 2).map fun j => nz[j]?, nz.length + 4 * nz.getD 0 0 + 32 * nz.getD 1 0)

/-- The stored slots of one column and its group codes. -/
def columnSlots (mode : Nat) (col : List W32) : List (Option Nat) × List Nat :=
  if mode = 0 then ((List.range col.length).map some, [])
  else
    let m := if mode = 1 then 4 else 8
    let gs := (groupsOf m col).map (groupSlots mode)
    ((List.range gs.length).flatMap fun g => ((gs.getD g ([], 0)).1).map fun o => o.map (m * g + ·), gs.map (·.2))

/-- Group bytes of one column: two 2:4 groups to a byte, one 2:8 group (Table 4-4). -/
def groupBytes (mode : Nat) (codes : List Nat) : Bytes :=
  if mode = 1 then (List.range (codes.length / 2)).map fun k => BitVec.ofNat 8 (codes.getD (2 * k) 0 + 16 * codes.getD (2 * k + 1) 0)
  else codes.map (BitVec.ofNat 8)

/-- Metadata of a tile (R128): the header, then each column's group bytes. -/
def metaImage (mode : Nat) (cols : List (List W32)) : Bytes :=
  leBytes 8 mode ++
    if mode = 1 ∨ mode = 2 then cols.flatMap fun c => groupBytes mode (columnSlots mode c).2 else []

/-- Converted stored slots of one column (R203): the rounding index is that of the dense tensor. -/
def columnConv (p : RPolicy) (d : Desc) (r0 c mode : Nat) (col : List W32) : Conv :=
  convert d.fmt p ((columnSlots mode col).1.map fun o => match o with
    | some k => (logicalIndex d 0 (r0 + k) c, col.getD k 0)
    | none => (0, 0))

/-- Elements of a tile, stored row after stored row, then its block scales (R154). -/
def tileImage (d : Desc) (mode : Nat) (cs : List Conv) : Bytes :=
  if mode = 3 then []
  else
    let sr := storedRows mode d.tr
    (List.range sr).flatMap (fun i => packElems d.fmt (cs.map fun c => c.elems.getD i 0)) ++
    (if d.g = 0 then [] else (List.range (sr / d.g)).flatMap fun b => cs.map fun c => BitVec.ofNat 8 (c.scales.getD b 0))

/-- Tiles of a sparse-capable tensor. -/
def Desc.tiles (d : Desc) : Nat := ceilDiv d.rows d.tr * ceilDiv d.cols 128

/-- Bytes of a tensor read element by element from its base: rows, or whole tiles, and its scale records (R153). -/
def sourceRange (d : Desc) : Nat × Nat :=
  if d.rows = 0 ∨ d.cols = 0 then (d.base, 0)
  else if d.layout = 0 then (d.base, (d.rows - 1) * d.rstride + d.cols * d.bits / 8)
  else (d.base, (ceilDiv d.rows d.tr * ceilDiv d.cols d.tc - 1) * d.tstride + d.tr * d.tc * d.bits / 8)

/-- Dome ranges a request may write: metadata and tile images. -/
def targetRanges (d : Desc) : List (Nat × Nat) :=
  if d.tiles = 0 then []
  else
    [(d.mdbase, (d.tiles - 1) * d.mdstride + metaBytes 1 d.tr),
     (d.base, (d.tiles - 1) * d.tstride + (imageBytes d 0).1 + (imageBytes d 0).2)]

/-- A destination is a sparse-capable descriptor that the array could load (R124, R154, R157). -/
def sparseOk (d : Desc) : Bool :=
  d.mdbase ≠ 0 && d.layout = 1 && d.tc = 128 && decide (d.fmt ≤ 11) && (sparseDepths d.fmt).contains d.tr && !d.plist

/-- A request record is valid (R200). -/
def State.pruneValid (s : State) (q : Nat) (src dst : Desc) : Bool :=
  (src.fmt = 12 || src.fmt = 10) && decide (src.layout ≤ 1) && !src.plist && src.mdbase = 0 &&
  (src.layout = 0 || (src.tr ≠ 0 && src.tc ≠ 0)) &&
  sparseOk dst && src.rows = dst.rows && src.cols = dst.cols &&
  s.rangeInMap q (sourceRange src).1 (sourceRange src).2 &&
  (targetRanges dst).all fun r => s.rangeInMap q r.1 r.2

/-! Counters (Table 6-9). -/

/-- A pruning counter of slot `k` grows by `n`. -/
def State.pruneAdd (s : State) (q k sub n : Nat) : State := if n = 0 then s else s.odAdd q (0x2600 + k) sub n

/-- The exact magnitude sums of a slot grow, and their rounded values are what is read (R205). `bad`: bit 0 an infinity was
examined, bit 1 a NaN: the total then reads as infinity or NaN. -/
def State.pruneSums (s : State) (q k drop tot bad : Nat) : State :=
  let p := s.part q
  let d := mapGet 0 p.pruneDrop k + drop
  let t := mapGet 0 p.pruneTot k + tot
  let b := mapGet 0 p.pruneBad k ||| bad
  let s1 := s.setPart q { p with
    pruneDrop := mapSet 0 p.pruneDrop k d, pruneTot := mapSet 0 p.pruneTot k t, pruneBad := mapSet 0 p.pruneBad k b }
  let tv : FVal := if b.testBit 1 then .nan else if b.testBit 0 then .inf false else .fin false t (-149)
  (s1.odSet q (0x2600 + k) 8 (toF32 (.fin false d (-149))).toNat).odSet q (0x2600 + k) 9 (toF32 tv).toNat

/-- What a tile's counters count (Table 6-9). `inside`: positions of the tile within ROWS x COLS. -/
def State.pruneCount (s : State) (q k mode inside : Nat) (cols : List (List W32)) : State :=
  let m := if mode = 1 then 4 else 8
  let dropped := if mode = 1 ∨ mode = 2 then droppedMags m cols else []
  let crowded := if mode = 1 ∨ mode = 2 then
    (cols.flatMap (groupsOf m)).countP fun g => decide (2 < g.countP fun w => magUnits w ≠ 0) else 0
  let ws := cols.flatten
  let bad := (if ws.any fun w => notFinite w && !isNanW w then 1 else 0) + (if ws.any isNanW then 2 else 0)
  ((((((s.pruneAdd q k 1 1).pruneAdd q k (2 + mode) 1).pruneAdd q k 6 inside).pruneAdd q k 7
    (dropped.countP (· ≠ 0))).pruneAdd q k 0xA crowded).pruneSums q k dropped.sum (ws.map magUnits).sum bad)

/-! Serving a request. -/

/-- Columns of tile `t` widened, +0 beyond ROWS or COLS (R200). -/
def State.pruneColumns (s : State) (src : Desc) (r0 c0 kl : Nat) : List (List W32) :=
  (List.range 128).map fun n => (List.range kl).map fun k =>
    if r0 + k < src.rows ∧ c0 + n < src.cols then readWide (memByte s.dome) src src.whole (r0 + k) (c0 + n) else 0

/-- Lines of the source that tile reads. -/
def pruneLines (src : Desc) (r0 c0 kl : Nat) : List Nat :=
  uniq ((List.range 128).flatMap fun n => (List.range kl).flatMap fun k =>
    if r0 + k < src.rows ∧ c0 + n < src.cols then (posAddrs src src.whole (r0 + k) (c0 + n)).map lineOf else [])

/-- One tile of a request written (R132, R201-R203); a tile whose source meets poison is not written (R309). Answers the poisoned
lines it met, each counted. -/
def State.pruneTile (s : State) (r : PruneReq) (src dst : Desc) (step t : Nat) : State × List Nat :=
  let r0 := t % dst.nr * dst.tr
  let c0 := t / dst.nr * 128
  let ls := s.poisonedOf (pruneLines src r0 c0 dst.tr)
  if ls ≠ [] then (s.countUe ls, ls)
  else
    let cols := s.pruneColumns src r0 c0 dst.tr
    let mode := tileMode (s.odGet r.q 0x2300 1) (s.odGet r.q 0x2300 2) cols
    let p := s.policy r.q dst.policy step dst.tid
    let cs := if mode = 3 then [] else
      (List.range 128).map fun n => columnConv p dst r0 (c0 + n) mode (cols.getD n [])
    let inside := (min dst.tr (dst.rows - r0)) * (min 128 (dst.cols - c0))
    let w1 := s.domeWrite (dst.mdbase + t * dst.mdstride) (metaImage mode cols)
    let w2 := w1.1.domeWrite (dst.base + t * dst.tstride) (tileImage dst mode cs)
    let s2 := cs.foldl (fun u c => u.countRange r.q dst.layer c) w2.1
    (s2.pruneCount r.q r.slot mode inside cols, w1.2 ++ w2.2)

/-- Boom posts a pruning request of its update; it waits while the unit is busy (R289). -/
def State.postPrune (s : State) (q t addr slot : Nat) : State :=
  let upd := fun (f : Upd → Upd) (s : State) => s.modPart q fun p => { p with upd := p.upd.map f }
  if s.pruneBusy.contains t then upd (fun u => { u with pruneWait := u.pruneWait ++ [(t, addr, slot)] }) s
  else
    let r : PruneReq := { q := q, addr := addr, slot := slot, boom := true }
    upd (fun u => { u with pruneOut := u.pruneOut ++ [t] })
      { s with prune := mapSet {} s.prune t r, pruneBusy := setIns s.pruneBusy t }

/-- The next request Boom holds for unit `t` is posted. -/
def State.postWaiting (s : State) (q t : Nat) : State :=
  match (s.part q).upd.bind fun u => u.pruneWait.find? fun w => w.1 = t with
  | none => s
  | some w =>
    (s.modPart q fun p => { p with upd := p.upd.map fun u => { u with pruneWait := u.pruneWait.erase w } }).postPrune q t w.2.1 w.2.2

/-- A request ends: the unit is free, the command's completion notice is sent or Boom hears of it, and Boom's next request
for the unit is posted. -/
def State.pruneEnd (s : State) (t : Nat) (r : PruneReq) (status : Nat) : State :=
  let s1 : State := { s with prune := mapDel s.prune t, pruneBusy := setDel s.pruneBusy t }.dropAsks (pruneUnit t) r.q
  (if r.boom then
    s1.modPart r.q fun p => { p with upd := p.upd.map fun u => { u with pruneOut := u.pruneOut.erase t } }
  else s1.complete r.q 0x2500 2 status r.token (t * 256 + r.slot) []).postWaiting r.q t

/-- The step number of a unit's roundings: that of the update it serves, else the partition's (R56). -/
def State.unitStep (s : State) (q : Nat) : Nat := s.odGet q 0x6400 3

/-- Status of a request that met poison: the spec states none (log 21). -/
def State.pruneMet (s : State) (t : Nat) (r : PruneReq) (ls : List Nat) : State :=
  let f := (s.unitUe r.q ls).draw 8
  f.2.pruneEnd t r f.1.toNat

/-- The descriptors of a request's record. -/
def State.pruneDescs (s : State) (r : PruneReq) : Desc × Desc :=
  let b := s.domeRead r.addr 128
  (Desc.ofBytes (b.take 64), Desc.ofBytes (b.drop 64))

/-- Dome ranges a request reads and writes: its record, and those of a valid one's descriptors (R204). -/
def State.pruneRanges (s : State) (r : PruneReq) : List (Nat × Nat) :=
  let d := s.pruneDescs r
  (r.addr, 128) :: if s.pruneValid r.q d.1 d.2 then sourceRange d.1 :: targetRanges d.2 else []

/-- A pruning unit serves its request (R200): refused with status 1, or every tile written. Poison met in the request raises
one DOME_UE (R309). -/
def State.pruneServe (s : State) (t : Nat) (r : PruneReq) : State :=
  let lsr := s.poisonedOf (linesOf r.addr 128)
  if lsr ≠ [] then (s.countUe lsr).pruneMet t r lsr
  else
    let d := s.pruneDescs r
    if s.pruneValid r.q d.1 d.2 then
      let w := (List.range d.2.tiles).foldl (fun (u : State × List Nat) k =>
        let v := u.1.pruneTile r d.1 d.2 (s.unitStep r.q) k
        (v.1, u.2 ++ v.2)) (s, [])
      if w.2 = [] then w.1.pruneEnd t r 0 else w.1.pruneMet t r w.2
    else s.pruneEnd t r 1

/-- PRUNING_REQUEST_COMPLETE (R200-R204): through the dome ports as requester 2; a cut-off unit's request completes without
effect (R320). -/
def execPruningRequestComplete (t : Nat) (s : State) : Res := liveEvent s fun s =>
  if s.pruneBusy.contains t && !s.towerOut 0xA t then
    let r := mapGet {} s.prune t
    s.portGate (pruneUnit t) r.q (s.pruneRanges r) (fun s => s.pruneEnd t r 1) fun s => s.pruneServe t r
  else s

/-- The start-pruning command (R199): value bits [15:8] tower, [7:0] counter slot. -/
def cmdStartPruning (q val token : Nat) (s : State) : CmdRes :=
  let t := val / 256
  if (s.part q).upd.isSome || s.pruneBusy.contains t || !(s.towersOf q).contains t || s.towerOut 0xA t then (stBusy, s)
  else
    let r : PruneReq := { q := q, addr := s.odGet q 0x2500 1, slot := val % 256, boom := false, token := token }
    (stDone, { s with prune := mapSet {} s.prune t r, pruneBusy := setIns s.pruneBusy t })

/-- START_PRUNING (R199). -/
def execStartPruning (q val token : Nat) (s : State) : Res := runCmd q s (cmdStartPruning q val token s)

/-- The clear-pruning-counters command (Table 6-8): counters and exact sums. -/
def cmdClearPruningCounters (q val token : Nat) (s : State) : CmdRes :=
  if slotOrAll val then
    let clr : List (Nat × Nat) → List (Nat × Nat) := fun m => if val = 0xFFFF then [] else mapDel m val
    (stDone, ((s.clearSlots q 0x2600 10 val).modPart q fun p =>
      { p with pruneDrop := clr p.pruneDrop, pruneTot := clr p.pruneTot, pruneBad := clr p.pruneBad }).complete q 0x2501 0 0
        token val [])
  else (stRefused, s)

/-- CLEAR_PRUNING_COUNTERS (R205). -/
def execClearPruningCounters (q val token : Nat) (s : State) : Res := runCmd q s (cmdClearPruningCounters q val token s)

end Sys2Proof.Machine
end

