-- ==== Sys2Proof/Machine/Groups.lean ====
section
/-! DEFINITION. Parameter groups (09 R272-R275), the schedule engine (09 R294, R295), and what Lookout sends of a shadowed
update (14 R436, R437, R439): the image of a partition and its pieces. -/

namespace Sys2Proof.Machine

open Sys2Proof

/-! The group record (Table 9-1). -/

/-- The 128 bytes of group `g`'s record. -/
def State.groupAddr (s : State) (q g : Nat) : Nat := s.odGet q 0x6400 4 + (g - s.odGet q 0x6400 5) * 128

/-- A parameter group's record as read. -/
structure Grp where
  /-- the 128 bytes -/
  raw : Bytes := []
deriving DecidableEq, Repr

/-- A little-endian field. -/
def Grp.fld (g : Grp) (o n : Nat) : Nat := fieldAt g.raw o n
/-- GROUP. -/
def Grp.num (g : Grp) : Nat := g.fld 0 2
/-- RULE. -/
def Grp.rule (g : Grp) : Nat := g.fld 2 1
/-- A bit of FLAGS. -/
def Grp.flag (g : Grp) (k : Nat) : Bool := bitAt (g.fld 3 1) k
/-- ENABLE. -/
def Grp.enable (g : Grp) : Bool := g.flag 0
/-- SHARD. -/
def Grp.shard (g : Grp) : Bool := g.flag 1
/-- NESTEROV. -/
def Grp.nesterov (g : Grp) : Bool := g.flag 2
/-- PRUNE. -/
def Grp.prune (g : Grp) : Bool := g.flag 3
/-- GFP32. -/
def Grp.gfp32 (g : Grp) : Bool := g.flag 4
/-- SPARSE. -/
def Grp.sparse (g : Grp) : Bool := g.flag 5
/-- SCHED. -/
def Grp.sched (g : Grp) : Nat := g.fld 4 1
/-- LAYER. -/
def Grp.layer (g : Grp) : Nat := g.fld 5 1
/-- PSLOT. -/
def Grp.pslot (g : Grp) : Nat := g.fld 6 1
/-- ROWS. -/
def Grp.rows (g : Grp) : Nat := g.fld 8 4
/-- ROWLEN. -/
def Grp.rowLen (g : Grp) : Nat := g.fld 12 4
/-- MASTER. -/
def Grp.master (g : Grp) : Nat := g.fld 16 8
/-- MOM1. -/
def Grp.mom1 (g : Grp) : Nat := g.fld 24 8
/-- MOM2. -/
def Grp.mom2 (g : Grp) : Nat := g.fld 32 8
/-- GRAD. -/
def Grp.grad (g : Grp) : Nat := g.fld 40 8
/-- WORK. -/
def Grp.work (g : Grp) : Nat := g.fld 48 8
/-- TOUCH. -/
def Grp.touch (g : Grp) : Nat := g.fld 56 8
/-- LAST. -/
def Grp.last (g : Grp) : Nat := g.fld 64 8
/-- MIXIO. -/
def Grp.mixio (g : Grp) : Nat := g.fld 112 8
/-- An FP32 field. -/
def Grp.f32 (g : Grp) (o : Nat) : W32 := BitVec.ofNat 32 (g.fld o 4)
/-- GSTEPS. -/
def Grp.gsteps (g : Grp) : Nat := g.fld 104 8
/-- Elements of the group. -/
def Grp.elems (g : Grp) : Nat := g.rows * g.rowLen
/-- Blocks of 32 elements. -/
def Grp.blocks (g : Grp) : Nat := g.elems / 32
/-- Address of the FP32 output O of a mixing group (R275). -/
def Grp.mixOut (g : Grp) : Nat := g.mixio + ceilDiv (2 * g.elems) 64 * 64

/-- Group `g`'s record read from dome. -/
def State.grp (s : State) (q g : Nat) : Grp := ⟨s.domeRead (s.groupAddr q g) 128⟩

/-- Groups of the partition, ascending (R272). -/
def State.groupRange (s : State) (q : Nat) : List Nat :=
  (List.range (s.odGet q 0x6400 6)).map (s.odGet q 0x6400 5 + ·)

/-- The regions of a group that lie in its dome: address and extent (R273, R275). -/
def Grp.regions (g : Grp) : List (Nat × Nat) :=
  [(g.master, 4 * g.elems), (g.mom1, tensorBytes 0 g.blocks), (g.grad, tensorBytes (if g.gfp32 then 1 else 0) g.blocks)] ++
  (if g.rule = 1 then [(g.mom2, tensorBytes 0 g.blocks)] else []) ++
  (if g.sparse then [(g.touch, 4), (g.last, 8 * g.rows)] else [])

/-- Bytes of MIXIO: X, then O. -/
def Grp.mixBytes (g : Grp) : Nat := ceilDiv (2 * g.elems) 64 * 64 + 4 * g.elems

/-! The schedule engine (R295). -/

/-- cos(πq), correctly rounded. -/
def f32Cospi (q : W32) : W32 :=
  match f32Val q with
  | .fin n m e =>
    let v := FVal.fin n m e
    if v.isZero then 0x3F800000
    else if v.eqv (.fin false 1 (-1)) then 0
    else if v.eqv (.fin false 1 0) then 0xBF800000
    else
      let y := fxCos (fxMul fxPi (fxOf n m e))
      toF32 (fxVal (decide (y < 0)) y 0)
  | _ => 0x7FC00000

/-- A quotient of two integers, each rounded to FP32. -/
def f32Ratio (a b : Nat) : W32 := f32Div (f32OfNat a) (f32OfNat b)

/-- 1.0. -/
def f32One : W32 := 0x3F800000

/-- A field of schedule record `k`. -/
def State.schedNat (s : State) (q k sub : Nat) : Nat := s.odGet q (0x6500 + k % 16) sub

/-- An FP32 field of schedule record `k`. -/
def State.schedF (s : State) (q k sub : Nat) : W32 := BitVec.ofNat 32 (s.schedNat q k sub)

/-- The peak multiplied by GAMMA `n` times. -/
def gammaPow (gamma : W32) : Nat → W32 → W32
  | 0, p => p
  | n + 1, p => gammaPow gamma n (f32Mul p gamma)

/-- The decay part of `sched`: `u` steps after warm-up within a span. -/
def State.schedDecay (s : State) (q k u span : Nat) (peak : W32) : W32 :=
  let kind := s.schedNat q k 1
  let floor := s.schedF q k 7
  if kind = 0 ∨ span = 0 then peak
  else
    let x := f32Ratio (min u span) span
    let f := if kind = 1 ∨ kind = 4 then f32Sub f32One (f32Mul (f32Sub f32One floor) x)
      else if kind = 2 then
        f32Add floor (f32Mul (f32Sub f32One floor) (f32Mul 0x3F000000 (f32Add f32One (f32Cospi x))))
      else f32Max floor (toF32 (sfuRsqrt (f32Val (f32Add f32One (f32Ratio u span)))))
    f32Mul peak f

/-- `sched`: S_t of schedule record `k` (R295). -/
def State.sched (s : State) (q k t : Nat) : W32 :=
  let base := s.schedF q k 2
  let w0 := s.schedF q k 3
  let start := s.schedNat q k 0xA
  let warm := s.schedNat q k 4
  if t < start then f32Mul base w0
  else
    let x := t - start
    if x < warm then f32Mul base (f32Add w0 (f32Mul (f32Sub f32One w0) (f32Ratio x warm)))
    else
      let u0 := x - warm
      let period := s.schedNat q k 8
      let peak := if period ≠ 0 then gammaPow (s.schedF q k 9) (u0 / period) base else base
      let u := if period ≠ 0 then u0 % period else u0
      let span := if period ≠ 0 then period else s.schedNat q k 6
      if s.schedNat q k 1 = 4 then
        let stable := s.schedNat q k 5
        if u < stable then peak
        else if span ≤ stable then f32Mul peak (s.schedF q k 7)
        else s.schedDecay q k (u - stable) (span - stable) peak
      else s.schedDecay q k u span peak

/-! The shadow image (14 Tables 14-7 and 14-8). -/

/-- Bytes of a group's regions in the image: dome address and length before padding. -/
def Grp.imageParts (g : Grp) : List (Nat × Nat) :=
  [(g.master, 4 * g.elems), (g.mom1, tensorBytes 0 g.blocks)] ++
  (if g.rule = 1 then [(g.mom2, tensorBytes 0 g.blocks)] else []) ++ (if g.sparse then [(g.last, 8 * g.rows)] else [])

/-- Length padded to a multiple of 64. -/
def pad64 (n : Nat) : Nat := ceilDiv n 64 * 64

/-- Bytes of the state block. -/
def stateBlockBytes : Nat := 266240

/-- Enabled groups of the partition, ascending. -/
def State.enabledGroups (s : State) (q : Nat) : List Nat := (s.groupRange q).filter fun g => (s.grp q g).enable

/-- Image offset, dome address and length of every region of the enabled groups (Table 14-7). -/
def State.imageRegions (s : State) (q : Nat) : List (Nat × Nat × Nat × Nat) :=
  ((s.enabledGroups q).foldl (fun (acc : Nat × List (Nat × Nat × Nat × Nat)) g =>
    (s.grp q g).imageParts.foldl (fun acc r => (acc.1 + pad64 r.2, acc.2 ++ [(g, acc.1, r.1, r.2)])) acc)
    (stateBlockBytes + 128 * s.odGet q 0x6400 6, [])).2

/-- Bytes of the image. -/
def State.imageSize (s : State) (q : Nat) : Nat :=
  (s.enabledGroups q).foldl (fun n g => n + ((s.grp q g).imageParts.map fun r => pad64 r.2).sum)
    (stateBlockBytes + 128 * s.odGet q 0x6400 6)

/-- A remote window's 32 bytes of the state block. -/
def State.windowImage (s : State) (q w : Nat) : Bytes :=
  let g := fun k => s.odGet q (0x4200 + w) k
  padTo 32 (leBytes 8 (g 1) ++ leBytes 8 (g 2) ++ leBytes 2 (g 3) ++ leBytes 2 (g 4) ++ leBytes 1 (g 5))

/-- The state block (Table 14-8). -/
def State.stateBlock (s : State) (q gen : Nat) : Bytes :=
  let dg := fun k => s.blobGet q (0x5010 + k) 0
  let cg := fun k => s.blobGet q (0x6010 + k) 0
  let r16 := List.range 16
  padTo 128 (leBytes 8 gen ++ leBytes 8 (s.odGet q 0x2101 0) ++ leBytes 8 (s.odGet q 0x6400 4) ++ leBytes 4 (s.odGet q 0x6400 7) ++
    leBytes 4 (s.odGet q 0x6300 4) ++ r16.flatMap (fun k => leBytes 2 ((dg k).length / 2)) ++
    r16.flatMap (fun k => leBytes 2 ((cg k).length / 2))) ++
  (List.range 256).flatMap (fun k => padTo 4 (leBytes 1 (s.odGet q (0x6100 + k) 5)) ++ leBytes 4 (s.odGet q (0x6100 + k) 6)) ++
  r16.flatMap (s.windowImage q) ++ (if q = 0 then padTo 256 (s.blobGet 0 0x5020 0) else leBytes 256 0) ++
  leBytes (4096 - 2944) 0 ++ r16.flatMap (fun k => padTo 8192 (dg k)) ++ r16.flatMap (fun k => padTo 8192 (cg k))

/-! Shadow pieces (R439). -/

/-- Index of a shadow record of partition `q`. -/
def shadowIdx (q : Nat) : Nat := 0x7100 + q

/-- Head of a piece (Table 14-9). -/
def pieceHead (piece status gen off len : Nat) : Bytes :=
  padTo 8 (leBytes 1 piece ++ leBytes 1 status) ++ leBytes 8 gen ++ leBytes 8 off ++ leBytes 4 len ++ leBytes 4 0

/-- A piece sent to partition `qd` of device `lid`. -/
def State.sendPiece (s : State) (q lid qd piece status gen off : Nat) (data : Bytes) : State :=
  s.sendPacket 4 q 0x1B lid qd 0 (pieceHead piece status gen off data.length ++ data)

/-- A run of image bytes cut into data pieces of at most 16,320 bytes. -/
def State.sendRun (s : State) (q lid qd piece gen off : Nat) (data : Bytes) : State :=
  ((chunks 16320 (data.length + 1) data).zipIdx).foldl (fun t x => t.sendPiece q lid qd piece 0 gen (off + 16320 * x.2) x.1) s

/-- A SHADOW_MISMATCH or SHADOW_LOST (Table 14-2): generation, bytes expected, bytes received, cause; what the spec does not
state for an event is free (log 26). -/
def State.shadowFault (s : State) (q code gen : Nat) (want got cause : Option Nat) : State :=
  let d1 := s.draw 64
  let d2 := d1.2.draw 64
  let d3 := d2.2.draw 8
  d3.2.raise code (spireUnit 6) q (islSpire 6) (leBytes 8 gen ++ leBytes 8 (want.getD d1.1.toNat) ++
    leBytes 8 (got.getD d2.1.toNat) ++ leBytes 1 (cause.getD d3.1.toNat))

/-- The generation being sent is lost (R441). -/
def State.loseShadow (s : State) (q gen : Nat) (want got cause : Option Nat) : State :=
  (((s.modPart q fun p => { p with shSend := none }).odSet 0 (shadowIdx q) 5 0).odAdd 0 (shadowIdx q) 8 1).shadowFault q 0x0607
    gen want got cause

/-- A shadowed update begins its generation (R437); with no buddy it is lost at once. -/
def State.beginShadow (s : State) (q gen : Nat) : State :=
  if s.odGet 0 (shadowIdx q) 2 = 0xFFFF then
    s.loseShadow q gen (some (s.imageSize q)) none none
  else (s.modPart q fun p => { p with shSend := some { gen := gen, size := s.imageSize q } }).odSet 0 (shadowIdx q) 5 1

/-- One region of the image sent, unless the management requester is cut off there (10 R320), or it holds a poisoned line: such
data reach no destination (R309). -/
def State.sendRegion (s : State) (q gen : Nat) (r : Nat × Nat × Nat × Nat) : State :=
  let bad := s.poisonLines r.2.2.1 r.2.2.2
  if s.unitCut manageUnit [(r.2.2.1, r.2.2.2)] then s
  else if bad ≠ [] then (s.countUe bad).unitUe q bad
  else
    (s.odAdd 0 (shadowIdx q) 9 (pad64 r.2.2.2)).sendRun q (s.odGet 0 (shadowIdx q) 2) (s.odGet 0 (shadowIdx q) 3) 1 gen r.2.1
      (padTo (pad64 r.2.2.2) (s.domeRead r.2.2.1 r.2.2.2))

/-- The management requester's reads of regions to be sent, where a buddy is named: with those of the unit that writes them
they make one event (R437). -/
def State.shadowReads (s : State) (q : Nat) (rs : List (Nat × Nat)) : List (Nat × List (Nat × Nat)) :=
  if s.odGet 0 (shadowIdx q) 2 = 0xFFFF then [] else [(manageUnit, rs.filter fun r => !s.unitCut manageUnit [r])]

/-- The reads of a written group's regions. -/
def State.groupReads (s : State) (q g : Nat) : List (Nat × List (Nat × Nat)) :=
  s.shadowReads q (((s.imageRegions q).filter fun r => r.1 = g).map fun r => r.2.2)

/-- The reads of what is sent after the commit notice: the regions not yet sent, and the group record table. -/
def State.restReads (s : State) (q : Nat) : List (Nat × List (Nat × Nat)) :=
  let sent := ((s.part q).shSend.map (·.groupsSent)).getD []
  s.shadowReads q (((s.imageRegions q).filter fun r => !sent.contains r.1).map (fun r => r.2.2) ++
    [(s.odGet q 0x6400 4, 128 * s.odGet q 0x6400 6)])

/-- Part 1 of the sending: a written group's regions (R437). -/
def State.shadowGroup (s : State) (q g : Nat) : State :=
  match (s.part q).shSend with
  | none => s
  | some h =>
    let s1 := ((s.imageRegions q).filter fun r => r.1 = g).foldl (fun t r => t.sendRegion q h.gen r) s
    s1.modPart q fun p => { p with shSend := some { h with groupsSent := setIns h.groupsSent g } }

/-- Parts 2 and 3: the regions not yet sent, the group record table, the state block, and END (R437). -/
def State.shadowRest (s : State) (q : Nat) : State :=
  match (s.part q).shSend with
  | none => s
  | some h =>
    let lid := s.odGet 0 (shadowIdx q) 2
    let qd := s.odGet 0 (shadowIdx q) 3
    let s1 := ((s.imageRegions q).filter fun r => !h.groupsSent.contains r.1).foldl (fun t r => t.sendRegion q h.gen r) s
    let s2 := s1.sendRegion q h.gen (0, stateBlockBytes, s1.odGet q 0x6400 4, 128 * s1.odGet q 0x6400 6)
    let s3 := (s2.sendRun q lid qd 1 h.gen 0 (s2.stateBlock q h.gen)).odAdd 0 (shadowIdx q) 9 stateBlockBytes
    let s4 := s3.sendPiece q lid qd 2 0 h.gen (s3.imageSize q) []
    (s4.modPart q fun p => { p with shSend := some { h with ended := true, size := s3.imageSize q } }).odSet 0 (shadowIdx q) 5 2

end Sys2Proof.Machine
end

