-- ==== Sys2Proof/Machine/Boom.lean ====
section
/-! DEFINITION. Boom (09): updates of a step, their scan, votes and outcome, the update rules, catch-up decay, matrix
mixing, working copies, the commit, and the gradient format and norm records it advances (08 R248, R265). -/

namespace Sys2Proof.Machine

open Sys2Proof

/-! Outcomes (R277, Table 9-2). -/

/-- The open update of a partition changed. -/
def State.modUpd (s : State) (q : Nat) (f : Upd → Upd) : State := s.modPart q fun p => { p with upd := p.upd.map f }

/-- The COMMIT event and the update notice of an outcome. -/
def State.updOutcome (s : State) (q : Nat) (ev : Option (Nat × Nat)) (t status group : Nat) : State :=
  let s1 := match ev with
    | some (sp, ep) => s.event q sp ep (leBytes 1 0x91 ++ leBytes 1 status ++ leBytes 2 group ++ leBytes 4 0 ++ leBytes 8 t)
    | none => s
  let s2 := s1.notify 4 (if status = 6 then 2 else 0) q (spireUnit 5) (leBytes 8 t ++ leBytes 1 status ++ leBytes 1 0 ++ leBytes 2 group)
  s2.odAdd q 0x6404 (if status = 0 then 1 else if status = 6 then 3 else 2) 1

/-- The open update ends: outcome, completion of the command that started it, and no update open. -/
def State.updFinish (s : State) (q : Nat) (u : Upd) (status group : Nat) : State :=
  let s0 := (List.range 16).foldl (fun t d => t.dropAsks (walkerUnit d) q) (s.dropAsks (engineUnit 2) q)
  let s1 := ((s0.modPart q fun p => { p with upd := none }).odSet q 0x6400 8 0).updOutcome q u.ev u.t status group
  if u.cmd then s1.complete q 0x6401 0 status u.token u.agroup [] else s1

/-- Update state as the dictionary shows it (Table 9-6 :08). -/
def State.updState (s : State) (q st : Nat) : State := (s.modUpd q fun u => { u with st := st }).odSet q 0x6400 8 st

/-! Opening (Sequence 9-1, step 1). -/

/-- c as known when the update opens: mode 0 and mode 1; none in mode 2 (R268, R269). -/
def State.clipAtOpen (s : State) (q : Nat) : Option W32 :=
  let m := s.odGet q 0x6300 1
  if m = 2 then none else if m = 1 then some (BitVec.ofNat 32 (s.odGet q 0x6300 4)) else some 0x3F800000

/-- An update opens, the shadow request latched (R435). `groups` is what the command names: count and list address. -/
def State.openUpdate (s : State) (q : Nat) (u : Upd) : State :=
  (s.modPart q fun p => { p with upd := some { u with
    t := s.odGet q 0x6400 3, clip := s.clipAtOpen q, shadow := s.odGet 0 (shadowIdx q) 0xA = 1, st := 1 } }).odSet q 0x6400 8 1

/-- UPDATE (R277). -/
def execUpdate (q : Nat) (s : State) : Res := spireEvent 5 s fun s =>
  match s.colHeadCmd q with
  | none => s
  | some r =>
    let code := fieldAt r 0 1
    if code < 0x10 ∨ code = 0x11 then s
    else
      let s1 := s.colPop q
      if code ≠ 0x10 then s1
      else
        let ev := (fieldAt r 16 2 % 1024, fieldAt r 18 1)
        if (s.part q).upd.isSome then s1.updOutcome q (some ev) (s.odGet q 0x6400 3) 2 0
        else s1.openUpdate q { agroup := fieldAt r 1 1, ev := some ev, gcount := fieldAt r 2 2, glist := fieldAt r 8 8 }

/-- The start-update command (R277, Table 9-6). -/
def cmdStartUpdate (q val token : Nat) (s : State) : CmdRes :=
  if (s.part q).upd.isSome then (stBusy, s)
  else (stDone, s.openUpdate q { agroup := val % 256, token := token, cmd := true })

/-- START_UPDATE (R277). -/
def execStartUpdate (q val token : Nat) (s : State) : Res := runCmd q s (cmdStartUpdate q val token s)

/-! The scan (R278 step 3, R279, Table 9-3). -/

/-- Strictly ascending. -/
def ascending : List Nat → Bool
  | a :: b :: r => decide (a < b) && ascending (b :: r)
  | _ => true

/-- Row indices of a touch list. -/
def State.touched (s : State) (g : Grp) : List Nat :=
  (List.range (s.domeNat g.touch 4)).map fun i => s.domeNat (g.touch + 4 + 4 * i) 4

/-- LAST of row `r`. -/
def State.lastOf (s : State) (g : Grp) (r : Nat) : Nat := s.domeNat (g.last + 8 * r) 8

/-- Extent of an access through a working-copy descriptor: elements, and scales of a row-major one. -/
def workRanges (d : Desc) : List (Nat × Nat) :=
  let e := sourceRange d
  let full := if d.layout = 1 ∧ d.g ≠ 0 ∧ e.2 ≠ 0 then (e.1, e.2 + d.tr * d.tc / d.g) else e
  if d.layout = 0 ∧ d.g ≠ 0 ∧ e.2 ≠ 0 then
    [full, (d.sbase, if d.sdir = 0 then (d.rows - 1) * d.sstride + ceilDiv d.cols d.g
      else (ceilDiv d.rows d.g - 1) * d.sstride + d.cols)]
  else [full]

/-- A working-copy descriptor keeps R288. -/
def State.workOk (s : State) (q : Nat) (g : Grp) (d : Desc) : Bool :=
  decide (d.layout ≤ 1) && !d.plist && d.mdbase = 0 && decide (d.fmt < 13) && d.rows * d.cols = g.elems &&
  (d.layout = 0 || (d.tr ≠ 0 && d.tc ≠ 0)) && (!g.sparse || d.g = 0 || d.sdir = 0) &&
  (workRanges d).all fun r => s.rangeInMap q r.1 r.2

/-- A pruning record keeps R200 and its source is MASTER (Table 9-3). -/
def State.pruneRecOk (s : State) (q : Nat) (g : Grp) : Bool :=
  let b := s.domeRead g.work 128
  let src := Desc.ofBytes (b.take 64)
  s.pruneValid q src (Desc.ofBytes (b.drop 64)) && src.base = g.master && src.fmt = 12

/-- A group's record breaks a condition of Table 9-3. -/
def State.groupBad (s : State) (q t num : Nat) : Bool :=
  let g := s.grp q num
  let bytes8 := [16, 24, 32, 40, 48, 56, 64, 112]
  let touch := s.touched g
  g.num != num || !g.enable || decide (3 < g.rule) || decide (15 < g.sched) || decide (64 ≤ g.fld 3 1) || g.fld 7 1 != 0 ||
  g.fld 124 4 != 0 || g.rowLen % 32 != 0 || decide (g.rowLen < 32 ∨ 1048576 < g.rowLen) || g.rows = 0 ||
  bytes8.any (fun o => g.fld o 8 % 64 != 0) ||
  g.regions.any (fun r => !s.rangeInMap q r.1 r.2 || domeOf r.1 != domeOf g.master) || (g.rule != 1 && g.mom2 != 0) ||
  (g.sparse && (g.rule = 3 || g.prune || !s.rangeInMap q g.touch (4 + 4 * s.domeNat g.touch 4) || !ascending touch ||
    touch.any (fun r => decide (g.rows ≤ r)) || (List.range g.rows).any fun r => decide (t ≤ s.lastOf g r))) ||
  (g.rule = 3 && (decide (g.rowLen < g.rows) || g.mixio = 0 || !s.rangeInMap q g.mixio g.mixBytes)) ||
  (g.work != 0 && (if g.prune then !s.rangeInMap q g.work 128 || !s.pruneRecOk q g
    else !s.rangeInMap q g.work 64 || !s.workOk q g (Desc.ofBytes (s.domeRead g.work 64))))

/-- Value of gradient element `k` widened (R285). -/
def State.gradVal (s : State) (g : Grp) (k : Nat) : W32 :=
  if g.gfp32 then BitVec.ofNat 32 (s.domeNat (g.grad + 4 * k) 4)
  else
    let e := s.domeNat (g.grad + 64 * g.blocks + k / 32) 1
    let m := toSigned 16 (s.domeNat (g.grad + 2 * k) 2)
    if e = 0xFF then 0x7FC00000 else toF32 (ofInt m ((e : Int) - 141))

/-- Rows whose gradient is used: the touched ones of a SPARSE group (R291). -/
def State.gradRows (s : State) (g : Grp) : List Nat := if g.sparse then s.touched g else List.range g.rows

/-- A non-finite gradient (R278): of an S16 gradient a block whose exponent is 0xFF, of an FP32 gradient an element. -/
def State.gradBad (s : State) (g : Grp) : Bool :=
  (s.gradRows g).any fun r =>
    if g.gfp32 then (List.range g.rowLen).any fun k => !(f32Val (s.gradVal g (r * g.rowLen + k))).isFin
    else (List.range (g.rowLen / 32)).any fun b => s.domeNat (g.grad + 64 * g.blocks + r * (g.rowLen / 32) + b) 1 = 0xFF

/-- What the coordinator reads of a group to check it (Table 9-3). -/
def State.checkReads (s : State) (q num : Nat) : List (Nat × Nat) :=
  let g := s.grp q num
  (s.groupAddr q num, 128) :: ((if g.sparse then [(g.touch, 4 + 4 * s.domeNat g.touch 4), (g.last, 8 * g.rows)] else []) ++
    if g.work = 0 then [] else [(g.work, if g.prune then 128 else 64)])

/-- What a walker reads of a group's gradient in the scan: the exponent bytes of an S16 gradient, every element of an FP32
gradient (R278), and of a SPARSE group only the touched rows (R291). -/
def State.gradReads (s : State) (g : Grp) : List (Nat × Nat) :=
  joinRanges ((s.gradRows g).map fun r =>
    if g.gfp32 then (g.grad + 4 * (r * g.rowLen), 4 * g.rowLen) else (g.grad + 64 * g.blocks + r * (g.rowLen / 32), g.rowLen / 32))

/-- Group numbers the command lists (Table 9-2); none when GLIST cannot be read. -/
def State.listedGroups (s : State) (q : Nat) (u : Upd) : Option (List Nat) :=
  if u.gcount = 0 then some (s.enabledGroups q)
  else if s.rangeInMap q u.glist (2 * u.gcount) then
    some ((List.range u.gcount).map fun i => s.domeNat (u.glist + 2 * i) 2)
  else none

/-- The command itself is invalid (Table 9-3). -/
def State.updCmdBad (s : State) (q : Nat) (u : Upd) : Bool :=
  (u.agroup != 0xFF && (decide (15 < u.agroup) || !(s.colGroup q u.agroup).contains s.ownLid)) ||
  (match u.ev with | some (sp, ep) => s.sparPart sp != q || decide (31 < ep) | none => false)

/-- One of the ranges holds a poisoned line. -/
def State.meetsPoison (s : State) (rs : List (Nat × Nat)) : Bool := rs.any fun r => !(s.poisonLines r.1 r.2).isEmpty

/-- The first offending group of a list, in list order (R279); a group whose check met poison is not judged by what it read. -/
def State.firstBad (s : State) (q t : Nat) (gs : List Nat) : Option Nat :=
  (gs.zipIdx.find? fun x =>
    !(s.groupRange q).contains x.1 || (0 < x.2 && decide (x.1 ≤ gs.getD (x.2 - 1) 0)) ||
    (!s.meetsPoison (s.checkReads q x.1) && s.groupBad q t x.1)).map (·.1)

/-- The agreement word (R280). -/
def State.agreementWord (s : State) (q : Nat) (gs : List Nat) : Nat :=
  (gs.map fun n => let g := s.grp q n; if g.shard then n * 2 ^ 40 + g.gsteps else 0).sum % 2 ^ 64

/-- A finite FP32 word. -/
def finiteW (w : W32) : Bool := (f32Val w).isFin

/-! Votes (R280, R281, R435). -/

/-- Members of an update's agreement group. -/
def State.agreeGroup (s : State) (q : Nat) (u : Upd) : List Nat := s.colGroup q u.agroup

/-- The vote of this member sent to every other (Table 9-9). -/
def State.sendVotes (s : State) (q : Nat) (u : Upd) : State :=
  let g := s.agreeGroup q u
  (g.filter (· ≠ s.ownLid)).foldl (fun t lid =>
    t.sendPacket 3 q 0x1A lid q 0 (leBytes 1 1 ++ leBytes 1 (if u.ready then 1 else 0) ++ leBytes 1 (if u.shadow then 1 else 0) ++
      leBytes 1 u.agroup ++ leBytes 2 (rankIn g s.ownLid) ++ leBytes 2 0 ++ leBytes 8 u.t ++ leBytes 8 u.word ++ leBytes 8 0)) s

/-- The vote of a rank that an update takes: the one of its AGROUP and T (R281), else one of another T, which differs (R280,
log 26). -/
def State.voteOf (s : State) (q : Nat) (u : Upd) (rank : Nat) : Option Vote :=
  let vs := (s.part q).votes.filter fun v => v.agroup = u.agroup && v.rank = rank
  (vs.find? fun v => v.t = u.t).orElse fun _ => vs.head?

/-- Own and differing value of a vote that disagrees with an update (R280): of t, else of the agreement word. -/
def skewVals (u : Upd) (v : Vote) : List Nat := if v.t = u.t then [u.word, v.word] else [u.t, v.t]

/-- The update proceeds to apply: its groups wait for the walkers (Sequence 9-1, step 5). -/
def State.updApply (s : State) (q : Nat) (shadow : Bool) : State :=
  (s.modUpd q fun u => { u with
    shadow := shadow, next := u.groups
    pruneNext := u.groups.filter fun n => (s.grp q n).prune && (s.grp q n).work != 0 }).updState q 3

/-- The outcome once every vote is held (R280). -/
def State.updDecide (s : State) (q : Nat) (u : Upd) : State :=
  if u.agroup = 0xFF then if u.ready then s.updApply q u.shadow else s.updFinish q u 3 0
  else
    let g := s.agreeGroup q u
    let own := rankIn g s.ownLid
    let vs := ((List.range g.length).filter (· ≠ own)).map (s.voteOf q u)
    if vs.any Option.isNone then s
    else
      let ws := vs.filterMap id
      let s1 := s.modPart q fun p => { p with votes := p.votes.filter fun v => !ws.contains v }
      match ws.find? fun v => v.t != u.t || v.word != u.word with
      | some v => (s1.raiseError 0x0201 (spireUnit 5) q (islSpire 4) (skewVals u v)).updFinish q u 4 0
      | none => if u.ready && ws.all (·.ready) then s1.updApply q (u.shadow || ws.any (·.shadow))
      else s1.updFinish q u 3 0

/-- VOTE_FRAME (R280, R281): one whose RANK does not name its sender is a refusal; one that finds no place among those held is
discarded and counted as R258 counts such a frame (log 26). -/
def execVoteFrame (s : State) : Res := spireEvent 5 s fun s =>
  s.takeKind 0x1A fun k s =>
    let b := k.payload
    let q := k.qdst
    let v : Vote := { q := q, agroup := fieldAt b 3 1, rank := fieldAt b 4 2, ready := fieldAt b 1 1 = 1, shadow := fieldAt b 2 1 = 1,
                      t := fieldAt b 8 8, word := fieldAt b 16 8, slid := k.slid }
    let g := s.colGroup q v.agroup
    if ¬ s.present q then s
    else if 15 < v.agroup ∨ g.length ≤ v.rank ∨ g.getD v.rank 0 ≠ k.slid then s.odAdd q 0x6404 2 1
    else
      let p := s.part q
      let match' := p.upd.any fun u => u.agroup = v.agroup
      let held := (p.votes.map fun w => (w.agroup, w.t)).eraseDups
      if ¬ match' ∧ ¬ held.contains (v.agroup, v.t) ∧ 16 ≤ held.length then s.odAdd q 0x6001 3 1
      else
        let s1 := s.setPart q { p with votes := p.votes ++ [v] }
        match p.upd with
        | some u => if u.st = 2 ∧ u.agroup = v.agroup then s1.updDecide q u else s1
        | none => s1

/-- The scan's result: votes go out and the outcome follows when it can (Sequence 9-1, steps 3 and 4). -/
def State.updScanned (s : State) (q : Nat) (u : Upd) : State :=
  let s1 := (s.modPart q fun p => { p with upd := some u }).updState q 2
  ((if u.agroup = 0xFF then s1 else s1.sendVotes q u).updDecide q { u with st := 2 })

/-- What the scan of listed groups reads, by unit: GLIST and what is checked by the coordinator, gradients by the walkers of
their domes (R271). -/
def State.scanAccess (s : State) (q : Nat) (u : Upd) (gs : List Nat) : List (Nat × List (Nat × Nat)) :=
  let mine := gs.filter (s.groupRange q).contains
  let glist := if u.gcount = 0 then [] else [(u.glist, 2 * u.gcount)]
  let good := mine.filter fun n => !s.meetsPoison (s.checkReads q n) && !s.groupBad q u.t n
  (engineUnit 2, glist ++ mine.flatMap (s.checkReads q)) ::
    (List.range 16).map fun d => (walkerUnit d, (good.filter fun n => domeOf (s.grp q n).master = d).flatMap fun n => s.gradReads (s.grp q n))

/-- The agreement word a scan votes with: open where GLIST or a record was not readable (R280, R309). -/
def State.scanWord (s : State) (q : Nat) (u : Upd) (gs : List Nat) : Nat × State :=
  if (u.gcount ≠ 0 ∧ s.meetsPoison [(u.glist, 2 * u.gcount)]) ∨ gs.any (fun n => s.meetsPoison [(s.groupAddr q n, 128)]) then
    let d := s.draw 64
    (d.1.toNat, d.2)
  else (s.agreementWord q gs, s)

/-- The scan of the listed groups (R278-R280): status 1 first; else a non-finite gradient, a read of poison, a non-finite c or a
reported error leaves this member not ready. -/
def State.updScan (s : State) (q : Nat) (u : Upd) (c : W32) (gs : List Nat) : State :=
  let glistBad := decide (u.gcount ≠ 0) && s.meetsPoison [(u.glist, 2 * u.gcount)]
  match if glistBad then none else s.firstBad q u.t gs with
  | some g => s.updFinish q u 1 g
  | none =>
    let ls := uniq (((s.scanAccess q u gs).flatMap (·.2)).flatMap fun r => s.poisonLines r.1 r.2)
    let s1 := if ls = [] then s else (s.countUe ls).unitUe q ls
    let bad := if glistBad then [] else gs.filter fun n =>
      !s.meetsPoison (s.checkReads q n) && !s.meetsPoison (s.gradReads (s.grp q n)) && s.gradBad (s.grp q n)
    let s2 := bad.foldl (fun w n => w.normNonfinite q (s.grp q n).layer 0) s1
    let w := s2.scanWord q u gs
    w.2.updScanned q { u with
      clip := some c, groups := gs, word := w.1
      ready := decide (bad = []) && decide (ls = []) && finiteW c && !(s.part q).errSince }

/-- UPDATE_SCAN_COMPLETE (R278-R281): it waits for the clip factor. A cut-off unit's scan does not pass (R320). -/
def execUpdateScanComplete (q : Nat) (s : State) : Res := spireEvent 5 s fun s =>
  match (s.part q).upd with
  | none => s
  | some u =>
    match (u.clip.orElse fun _ => (s.part q).clip) with
    | none => s
    | some c =>
      if u.st ≠ 1 then s
      else if s.updCmdBad q u then s.updFinish q u 1 0xFFFF
      else match s.listedGroups q u with
        | none => s.updFinish q u 1 0xFFFF
        | some gs =>
          s.portGates (s.scanAccess q u gs) q
            (fun v => v.updScanned q { u with clip := some c, groups := gs, word := v.agreementWord q gs, ready := false })
            fun v => v.updScan q u c gs

/-- The abandon-update command (R282). -/
def cmdAbandonUpdate (q val token : Nat) (s : State) : CmdRes :=
  match (s.part q).upd with
  | some u =>
    if u.st = 3 then (stBusy, s) else (stDone, (s.updFinish q u 5 0).complete q 0x6402 0 0 token val [])
  | none => (stDone, s.complete q 0x6402 0 0 token val [])

/-- ABANDON_UPDATE (R282). -/
def execAbandonUpdate (q val token : Nat) (s : State) : Res := runCmd q s (cmdAbandonUpdate q val token s)

/-! The update rules (R285-R287, R291-R293). -/

/-- What the elements of a group are updated with at step `t`. -/
structure Rule where
  /-- the record -/
  g : Grp
  /-- c -/
  c : W32
  /-- η = LRMULT × S_t -/
  eta : W32
  /-- d = 1 − η × WD -/
  d : W32
  /-- b1p -/
  b1p : W32
  /-- b2p -/
  b2p : W32
deriving DecidableEq, Repr

/-- LRMULT × S_i (R285, R292). -/
def State.etaAt (s : State) (q : Nat) (g : Grp) (i : Nat) : W32 := f32Mul (g.f32 72) (s.sched q g.sched i)

/-- 1 − η × WD. -/
def decayOf (g : Grp) (eta : W32) : W32 := f32Sub f32One (f32Mul eta (g.f32 88))

/-- The rule of a group at step `t` (R285). -/
def State.ruleOf (s : State) (q t : Nat) (c : W32) (g : Grp) : Rule :=
  let eta := s.etaAt q g t
  { g := g, c := c, eta := eta, d := decayOf g eta, b1p := f32Mul (g.f32 96) (g.f32 76), b2p := f32Mul (g.f32 100) (g.f32 80) }

/-- sign, with sign(±0) = 0 (R285). -/
def f32Sign (w : W32) : W32 :=
  match f32Val w with
  | .nan => 0x7FC00000
  | .inf n => if n then 0xBF800000 else f32One
  | .fin n m _ => if m = 0 then 0 else if n then 0xBF800000 else f32One

/-- Moments and update element u of `apply_rule`; of rule 3, x in place of u. -/
def Rule.moments (r : Rule) (m v gr : W32) : W32 × W32 × W32 :=
  let b1 := r.g.f32 76
  let b2 := r.g.f32 80
  if r.g.rule = 1 then
    let m1 := f32Fma b1 m (f32Mul (f32Sub f32One b1) gr)
    let v1 := f32Fma b2 v (f32Mul (f32Sub f32One b2) (f32Mul gr gr))
    let den := f32Add (f32Sqrt (f32Div v1 (f32Sub f32One r.b2p))) (r.g.f32 84)
    (m1, v1, f32Div (f32Div m1 (f32Sub f32One r.b1p)) den)
  else if r.g.rule = 2 then
    (f32Fma b2 m (f32Mul (f32Sub f32One b2) gr), v, f32Sign (f32Fma b1 m (f32Mul (f32Sub f32One b1) gr)))
  else
    let m1 := f32Fma b1 m gr
    (m1, v, if r.g.nesterov then f32Fma b1 m1 gr else m1)

/-- w_new = fma(−η, u, w × d) (R285). -/
def Rule.weight (r : Rule) (w u : W32) : W32 := f32Fma (f32Neg r.eta) u (f32Mul w r.d)

/-- One catch-up step with step size `eta` (R292). -/
def Rule.catchStep (r : Rule) (x : W32 × W32 × W32) (eta : W32) : W32 × W32 × W32 :=
  (f32Mul x.1 (decayOf r.g eta), f32Mul x.2.1 (r.g.f32 (if r.g.rule = 2 then 80 else 76)),
   if r.g.rule = 1 then f32Mul x.2.2 (r.g.f32 80) else x.2.2)

/-- What becomes of one row: the step sizes of its catch-up, and whether the update itself is applied (R291). -/
structure RowPlan where
  /-- row -/
  row : Nat
  /-- step sizes of the catch-up steps, ascending -/
  etas : List W32
  /-- updated by R285 -/
  hit : Bool
deriving DecidableEq, Repr

/-- Rows of a group that the step writes (R291). -/
def State.rowPlans (s : State) (q t : Nat) (g : Grp) : List RowPlan :=
  if g.sparse then
    let touch := s.touched g
    let sweep := s.odGet q 0x6400 7
    (List.range g.rows).filterMap fun r =>
      let last := s.lastOf g r
      let es := fun b => (List.range (b - last)).map fun i => s.etaAt q g (last + 1 + i)
      if touch.contains r then some ⟨r, es (t - 1), true⟩
      else if sweep ≤ t - last then some ⟨r, es t, false⟩
      else none
  else (List.range g.rows).map fun r => ⟨r, [], true⟩

/-- A block of 32 elements after the step: number, weights, moment bytes (65 each), x of rule 3 in BF16, what its conversions
count, whether an element is not finite, squares for the norms, and the values that entered the norms non-finite (weight,
update). -/
structure BlockNew where
  /-- block number -/
  idx : Nat
  /-- weights -/
  w : List W32
  /-- first moment, S16 -/
  m : Bytes
  /-- second moment, S16 -/
  v : Bytes
  /-- X of rule 3 -/
  x : List Nat
  /-- what writing it counts (R62) -/
  cnt : Conv
  /-- a weight, moment or update element is not finite (R283) -/
  bad : Bool
  /-- a weight is not finite -/
  badW : Bool
  /-- an update difference is not finite -/
  badU : Bool
  /-- squares of the weights -/
  sqW : Nat
  /-- squares of the differences -/
  sqU : Nat
deriving DecidableEq, Repr

/-- An S16 moment element widened. -/
def State.momVal (s : State) (base blocks k : Nat) : W32 :=
  let e := s.domeNat (base + 64 * blocks + k / 32) 1
  if e = 0xFF then 0x7FC00000 else toF32 (ofInt (toSigned 16 (s.domeNat (base + 2 * k) 2)) ((e : Int) - 141))

/-- S16 bytes of 32 FP32 values, and what the encoding counts (R286, R62). -/
def s16Bytes (ws : List W32) : Bytes × Conv :=
  let c := s16Encode (ws.map f32Val)
  (c.elems.flatMap (leBytes 2) ++ leBytes 1 (c.scales.getD 0 0), { c with elems := [], scales := [] })

/-- Squares and flags of old and new weights that enter the norms (R287). -/
def normPart (old new : List W32) : Bool × Bool × Nat × Nat :=
  let diff := (old.zip new).map fun x => f32Sub x.2 x.1
  (new.any (fun w => !finiteW w), diff.any (fun w => !finiteW w), (new.map fun w => squareUnits (f32Val w)).sum,
   (diff.map fun w => squareUnits (f32Val w)).sum)

/-- One block of a row after the step (R285-R287, R292); of rule 3, its momentum and X only. -/
def State.newBlock (s : State) (r : Rule) (p : RowPlan) (b : Nat) : BlockNew :=
  let g := r.g
  let ks := (List.range 32).map (32 * b + ·)
  let res := ks.map fun k =>
    let w0 : W32 := BitVec.ofNat 32 (s.domeNat (g.master + 4 * k) 4)
    let x := p.etas.foldl r.catchStep (w0, s.momVal g.mom1 g.blocks k, if g.rule = 1 then s.momVal g.mom2 g.blocks k else 0)
    if p.hit then
      let gr := f32Mul (f32Mul (s.gradVal g k) (g.f32 92)) r.c
      let n := r.moments x.2.1 x.2.2 gr
      (x.1, (if g.rule = 3 then x.1 else r.weight x.1 n.2.2), n.1, n.2.1, n.2.2)
    else (x.1, x.1, x.2.1, x.2.2, (0 : W32))
  let old := res.map (·.1)
  let new := res.map (·.2.1)
  let np := if p.hit ∧ g.rule ≠ 3 then normPart old new else (false, false, 0, 0)
  let m := s16Bytes (res.map (·.2.2.1))
  let v := s16Bytes (res.map (·.2.2.2.1))
  let x := convert 10 {} (res.map fun y => (0, y.2.2.2.2))
  { idx := b, w := new, m := m.1, v := v.1, x := x.elems
    cnt := (m.2.join (if g.rule = 1 then v.2 else {})).join (if g.rule = 3 then { x with elems := [] } else {})
    bad := np.2.1 || res.any fun y => !finiteW y.2.1 || !finiteW y.2.2.1 || (g.rule = 1 && !finiteW y.2.2.2.1)
    badW := np.1, badU := np.2.1, sqW := np.2.2.1, sqU := np.2.2.2 }

/-- Dome writes of a block: weights (not of rule 3, whose weights wait for O), moments, X (R286, R290). -/
def blockWrites (g : Grp) (x : BlockNew) : List (Nat × Bytes) :=
  let mom := fun base b => [(base + 64 * x.idx, b.take 64), (base + 64 * g.blocks + x.idx, (b.drop 64 : Bytes))]
  (if g.rule = 3 then [] else [(g.master + 128 * x.idx, x.w.flatMap fun w => leBytes 4 w.toNat)]) ++ mom g.mom1 x.m ++
  (if g.rule = 1 then mom g.mom2 x.v else []) ++
  (if g.rule = 3 then [(g.mixio + 64 * x.idx, x.x.flatMap (leBytes 2))] else [])

/-- What a walker reads of one row of a group. -/
def walkRow (g : Grp) (r : RowPlan) : List (Nat × Nat) :=
  let b := r.row * g.rowLen
  let mom := fun base => [(base + 2 * b, 2 * g.rowLen), (base + 64 * g.blocks + b / 32, g.rowLen / 32)]
  [(g.master + 4 * b, 4 * g.rowLen)] ++ mom g.mom1 ++ (if g.rule = 1 then mom g.mom2 else []) ++
  (if ¬ r.hit then [] else if g.gfp32 then [(g.grad + 4 * b, 4 * g.rowLen)] else mom g.grad)

/-- Regions a walker reads of a group: the planned rows, and of a SPARSE group its list and its LAST steps; the descriptor of a
working copy it writes. -/
def State.walkReads (s : State) (q num : Nat) : List (Nat × Nat) :=
  let g := s.grp q num
  (s.rowPlans q (s.odGet q 0x6400 3) g).flatMap (walkRow g) ++
  (if g.sparse then [(g.touch, 4 + 4 * s.domeNat g.touch 4), (g.last, 8 * g.rows)] else []) ++
  (if g.work ≠ 0 ∧ ¬ g.prune then [(g.work, 64)] else [])

/-- An update's working sums of weight and update norms grow (R287). -/
def State.addNorms (s : State) (q slot sqW sqU : Nat) (badW badU : Bool) : State :=
  let s1 := s.modPart q fun p => { p with
    wSum := mapSet 0 p.wSum slot ((mapGet 0 p.wSum slot + sqW) % 2 ^ 640)
    uSum := mapSet 0 p.uSum slot ((mapGet 0 p.uSum slot + sqU) % 2 ^ 640) }
  let s2 := if badW then s1.normNonfinite q slot 1 else s1
  if badU then s2.normNonfinite q slot 2 else s2

/-- Blocks written: their bytes, and what their conversions count against the group's layer slot (R62). -/
def State.putBlocks (s : State) (q : Nat) (g : Grp) (blocks : List BlockNew) : State :=
  blocks.foldl (fun t x => t.countRange q g.layer x.cnt) (s.engineWrite q (blocks.flatMap (blockWrites g)))

/-- The update fails while applying (R283): which of `blocks` of the group hold their new values is open; the working sums of
the weight and update norms are cleared. -/
def State.updFail (s : State) (q : Nat) (u : Upd) (num : Nat) (g : Grp) (blocks : List BlockNew) : State :=
  let d := s.draw blocks.length
  let s1 := (d.2.putBlocks q g ((blocks.zipIdx.filter fun x => d.1.getLsbD x.2).map (·.1))).modPart q fun p => { p with
    wSum := [], uSum := []
    nonfin := p.nonfin.foldl (fun m e => mapSet 0 m e.1 (e.2 % 2)) [] }
  s1.updFinish q u 6 num

/-! Working copies (R288, R289). -/

/-- Cells a run of values stored through a descriptor writes, and its counts. -/
def State.workCells (s : State) (p : RPolicy) (d : Desc) (its : List Item) : List (Nat × Byte) × Conv :=
  let r := storeItems p d d.whole its s.dome
  let as := uniq (its.flatMap fun i => posAddrs d d.whole i.1.1 i.1.2)
  (as.map fun a => (a, memByte r.1 a), r.2)

/-- Rows `rows` of the group's master weights written through WORK's descriptor, with the rounding key of step `t`. -/
def State.writeWork (s : State) (q t : Nat) (g : Grp) (rows : List Nat) : State :=
  let d := Desc.ofBytes (s.domeRead g.work 64)
  let its : List Item := rows.flatMap fun r => (List.range g.rowLen).map fun k =>
    let i := r * g.rowLen + k
    ((i / d.cols, i % d.cols), BitVec.ofNat 32 (s.domeNat (g.master + 4 * i) 4))
  let c := s.workCells (s.policy q d.policy t d.tid) d its
  let w := s.domePutCells c.1
  (w.1.unitUe q w.2).countRange q d.layer c.2

/-- Pruning requests of written groups are posted to the pruning units of their home towers in list order: one waits for those
of the groups listed before it (R289). -/
def State.postPrunes : Nat → State → Nat → State
  | 0, s, _ => s
  | n + 1, s, q =>
    match (s.part q).upd.bind fun u => u.pruneNext.head?.filter u.done.contains with
    | none => s
    | some num =>
      let g := s.grp q num
      State.postPrunes n ((s.modUpd q fun u => { u with pruneNext := u.pruneNext.drop 1 }).postPrune q (domeOf g.master / 2) g.work
        g.pslot) q

/-- A group is written: its working copy, and its regions to the buddy in a shadowed update (R288, R289, R437). -/
def State.groupWritten (s : State) (q : Nat) (u : Upd) (num : Nat) (rows : List Nat) : State :=
  let g := s.grp q num
  let s1 := if g.work ≠ 0 ∧ ¬ g.prune then s.writeWork q u.t g rows else s
  let s2 := State.postPrunes u.groups.length (s1.modUpd q fun v => { v with done := v.done ++ [num] }) q
  if u.shadow then s2.shadowGroup q num else s2

/-- The update's generation begins when it first writes a group (R437, R441). -/
def State.shadowStart (s : State) (q : Nat) (u : Upd) : State :=
  if u.shadow && u.done = [] && u.mixOut = [] && u.next = u.groups then s.beginShadow q (u.t + 1) else s

/-- An earlier generation is still being sent (R441). -/
def State.shadowHolds (s : State) (q t : Nat) : Bool := (s.part q).shSend.any fun h => h.gen != t + 1

/-- The blocks of a group after the step. -/
def State.groupBlocks (s : State) (r : Rule) (plans : List RowPlan) : List BlockNew :=
  let per := r.g.rowLen / 32
  plans.flatMap fun p => (List.range per).map fun i => s.newBlock r p (p.row * per + i)

/-- The update of a SPARSE group counted (Table 9-7), and the LAST steps of its rows written (R291). -/
def State.sparseDone (s : State) (q t : Nat) (g : Grp) (plans : List RowPlan) : State :=
  let hits := (plans.filter (·.hit)).length
  (((s.engineWrite q (plans.map fun p => (g.last + 8 * p.row, leBytes 8 t))).odAdd q 0x6404 5 hits).odAdd q 0x6404 6
    (plans.length - hits)).odAdd q 0x6404 7 (plans.map fun p => p.etas.length).sum

/-- MIX of a rule-3 group sent to the event spar and counted; an update without one sends none (R290). -/
def State.sendMix (s : State) (q : Nat) (u : Upd) (num : Nat) : State :=
  let s1 := s.modUpd q fun v => { v with mixOut := v.mixOut ++ [num] }
  match u.ev with
  | some (sp, ep) => (s1.event q sp ep (leBytes 2 0x90 ++ leBytes 2 num ++ leBytes 4 0 ++ leBytes 8 u.t)).odAdd q 0x6404 8 1
  | none => s1

/-- The next group in list order applied by its dome's walker. -/
def State.applyGroup (s : State) (q : Nat) (u : Upd) (num : Nat) (rest : List Nat) : State :=
  let g := s.grp q num
  let r := s.ruleOf q u.t (u.clip.getD f32One) g
  let plans := s.rowPlans q u.t g
  let blocks := s.groupBlocks r plans
  let bad := blocks.filter (·.bad)
  let s0 := (s.shadowStart q u).modUpd q fun v => { v with next := rest }
  if bad ≠ [] then
    (s0.addNorms q g.layer 0 0 (bad.any (·.badW)) (bad.any (·.badU))).updFail q u num g blocks
  else
    let s1 := s0.putBlocks q g blocks
    let s2 := if g.sparse then s1.sparseDone q u.t g plans else s1
    let s3 := s2.odAdd q 0x6404 4 ((plans.filter (·.hit)).length * g.rowLen)
    if g.rule = 3 then s3.sendMix q u num
    else
      (s3.addNorms q g.layer (blocks.map (·.sqW)).sum (blocks.map (·.sqU)).sum false false).groupWritten q u num (plans.map (·.row))

/-- The blocks of a group that a walker could write although it met poison: those of rows that hold none (R283). -/
def State.cleanBlocks (s : State) (q : Nat) (u : Upd) (num : Nat) : List BlockNew :=
  let g := s.grp q num
  s.groupBlocks (s.ruleOf q u.t (u.clip.getD f32One) g) ((s.rowPlans q u.t g).filter fun p => !s.meetsPoison (walkRow g p))

/-- What applying a group accesses, by unit: its dome's walker reads and writes the group and its working copy, and in a shadowed
update the management requester reads the group's regions (R437). -/
def State.walkAccess (s : State) (q : Nat) (u : Upd) (num : Nat) : List (Nat × List (Nat × Nat)) :=
  let g := s.grp q num
  let more := (if g.work ≠ 0 ∧ ¬ g.prune then workRanges (Desc.ofBytes (s.domeRead g.work 64)) else []) ++
    (if g.rule = 3 then [(g.mixio, 2 * g.elems)] else [])
  (walkerUnit (domeOf g.master), s.walkReads q num ++ more) :: if u.shadow ∧ g.rule ≠ 3 then s.groupReads q num else []

/-- WALKER_GROUP_COMPLETE (R278 step 5, R283, R285-R292). -/
def execWalkerGroupComplete (q : Nat) (s : State) : Res := spireEvent 5 s fun s =>
  match (s.part q).upd with
  | none => s
  | some u =>
    match u.next with
    | [] => s
    | num :: rest =>
      if u.st ≠ 3 ∨ s.shadowHolds q u.t then s
      else
        let no := fun (v : State) => (v.shadowStart q u).updFail q u num (s.grp q num) (v.cleanBlocks q u num)
        s.portGates (s.walkAccess q u num) q no
          fun v => v.engineRead q (s.walkReads q num) no fun v => v.applyGroup q u num rest

/-! Matrix mixing (R290). -/

/-- Block `b` of a mixing group after O has come: its old weights, its new ones. -/
def State.mixBlock (s : State) (r : Rule) (b : Nat) : List W32 × List W32 :=
  let g := r.g
  let res := (List.range 32).map fun i =>
    let k := 32 * b + i
    let w : W32 := BitVec.ofNat 32 (s.domeNat (g.master + 4 * k) 4)
    (w, r.weight w (f32Mul (g.f32 120) (BitVec.ofNat 32 (s.domeNat (g.mixOut + 4 * k) 4))))
  (res.map (·.1), res.map (·.2))

/-- The write of new weights to block `b`. -/
def mixWrite (g : Grp) (b : Nat) (ws : List W32) : Nat × Bytes := (g.master + 128 * b, ws.flatMap fun w => leBytes 4 w.toNat)

/-- The update fails in a mixing group: which of the listed blocks hold their new weights is open (R283). -/
def State.mixFail (s : State) (q : Nat) (u : Upd) (num : Nat) (r : Rule) (bs : List Nat) : State :=
  let d := s.draw bs.length
  (d.2.engineWrite q ((bs.zipIdx.filter fun x => d.1.getLsbD x.2).map fun x => mixWrite r.g x.1 (s.mixBlock r x.1).2)).updFail q u
    num r.g []

/-- The weights of a mixing group written from O. -/
def State.mixGroup (s : State) (q : Nat) (u : Upd) (num : Nat) : State :=
  let g := s.grp q num
  let r := s.ruleOf q u.t (u.clip.getD f32One) g
  let bs := List.range g.blocks
  let res := bs.map (s.mixBlock r)
  let np := normPart (res.flatMap (·.1)) (res.flatMap (·.2))
  let s0 := s.modUpd q fun v => { v with mixOut := v.mixOut.erase num }
  if np.1 || np.2.1 then (s0.addNorms q g.layer 0 0 np.1 np.2.1).mixFail q u num r bs
  else
    let s1 := s0.engineWrite q (bs.map fun b => mixWrite g b (s.mixBlock r b).2)
    (s1.addNorms q g.layer np.2.2.1 np.2.2.2 false false).groupWritten q u num (List.range g.rows)

/-- Blocks of a mixing group whose weights and O hold no poison. -/
def State.mixClean (s : State) (g : Grp) : List Nat :=
  (List.range g.blocks).filter fun b => !s.meetsPoison [(g.master + 128 * b, 128), (g.mixOut + 128 * b, 128)]

/-- MIXDONE (R290): one that names no outstanding MIX is discarded and counted. -/
def execMixdone (q : Nat) (s : State) : Res := spireEvent 5 s fun s =>
  match s.colHeadCmd q with
  | none => s
  | some r =>
    if fieldAt r 0 1 ≠ 0x11 then s
    else
      let num := fieldAt r 2 2
      match (s.part q).upd.filter fun u => u.mixOut.contains num with
      | none => (s.colPop q).odAdd q 0x6404 9 1
      | some u =>
        let g := s.grp q num
        let work := if g.work ≠ 0 ∧ ¬ g.prune then [(g.work, 64)] else []
        let reads := [(g.mixOut, 4 * g.elems), (g.master, 4 * g.elems)] ++ work
        let no := fun (v : State) => (v.colPop q).mixFail q u num (v.ruleOf q u.t (u.clip.getD f32One) g) (v.mixClean g)
        s.portGates ((walkerUnit (domeOf g.master),
            reads ++ if g.work ≠ 0 ∧ ¬ g.prune then workRanges (Desc.ofBytes (s.domeRead g.work 64)) else []) ::
            if u.shadow then s.groupReads q num else []) q no
          fun v => v.engineRead q reads no fun v => (v.colPop q).mixGroup q u num

/-! Commit (Sequence 9-1, steps 6 to 8). -/

/-- Every group, mix and pruning request is done. -/
def Upd.ready' (u : Upd) : Bool := u.st = 3 && u.next.isEmpty && u.mixOut.isEmpty && u.pruneOut.isEmpty && u.pruneWait.isEmpty &&
  u.pruneNext.isEmpty

/-- B1POW, B2POW and GSTEPS of one group (R285). -/
def powWrites (a : Nat) (g : Grp) : List (Nat × Bytes) :=
  [(a + 96, leBytes 4 (f32Mul (g.f32 96) (g.f32 76)).toNat ++ leBytes 4 (f32Mul (g.f32 100) (g.f32 80)).toNat ++
    leBytes 8 (g.gsteps + 1))]

/-- `fallback_decide` on the record of one layer slot (R248): the record advances and its word is written. -/
def State.fallback (s : State) (q t slot count : Nat) : State :=
  let i := 0x6100 + slot
  let thr := s.odGet q i 3
  let hold := s.odGet q i 4
  let st := s.odGet q i 5
  let steps := (s.odGet q i 6 + 1) % 2 ^ 32
  let s0 := (s.odSet q i 8 count).odSet q i 6 steps
  let to' : Option Nat :=
    if st = 0 ∧ thr < count then some 1
    else if st = 1 ∧ hold ≠ 0 ∧ hold ≤ steps ∧ count ≤ thr then some 0 else none
  let s1 := match to' with
    | some n => ((s0.odSet q i 5 n).odSet q i 6 0).raiseOpen 0x0202 (spireUnit 5) q (islSpire 4) [slot, n, count]
    | none => s0
  let a := s.odGet q i 7
  if a = 0 then s1
  else s1.engineWrite q [(a, leBytes 8 ((2 + s1.odGet q i 5) + (t + 1) % 2 ^ 56 * 256))]

/-- Every gradient format record at a commit notice (R247-R249). -/
def State.fallbackAll (s : State) (q t : Nat) : State :=
  let p := s.part q
  let s1 := (List.range 256).foldl (fun u slot =>
    let mode := s.odGet q (0x6100 + slot) 1
    if mode = 1 then u.fallback q t slot (s.rangeLoss q slot)
    else if mode = 2 ∧ p.normDone then u.fallback q t slot (mapGet 0 p.grpCnt slot)
    else u) s
  s1.modPart q fun r => { r with
    rlBase := (List.range 256).foldl (fun m c => mapSet 0 m c (s.rangeSum q c)) [] }

/-- An exact sum rounded once, and its square root (R265); NaN when a non-finite element reached it (R266). -/
def sumAndNorm (n : Nat) (bad : Bool) : Nat × Nat :=
  if bad then (0x7FC00000, 0x7FC00000)
  else ((toF32 (.fin false n (-300))).toNat, (toF32 (FVal.fin false n (-300)).sqrt).toNat)

/-- The norm record of one layer slot at a commit notice (R265, Table 8-6). -/
def State.normRecord (s : State) (q : Nat) (p : Part) (slot : Nat) : State :=
  let i := 0x6200 + slot
  let b := mapGet 0 p.nonfin slot
  let g := sumAndNorm (mapGet 0 p.gradSum slot) (bitAt b 0)
  let w := sumAndNorm (mapGet 0 p.wSum slot) (bitAt b 1)
  let u := sumAndNorm (mapGet 0 p.uSum slot) (bitAt b 2)
  let gr := sumAndNorm (mapGet 0 p.grpSum slot) (p.grpBad.contains slot)
  (((((((s.odSet q i 1 g.1).odSet q i 2 w.1).odSet q i 3 u.1).odSet q i 4 g.2).odSet q i 5 w.2).odSet q i 6 u.2).odSet q i 7
    gr.2).odSet q i 8 b

/-- Norm records written and the working sums cleared (R265). -/
def State.normAll (s : State) (q : Nat) : State :=
  let p := s.part q
  ((List.range 256).foldl (fun u slot => u.normRecord q p slot) s).modPart q fun r => { r with
    gradSum := [], wSum := [], uSum := [], nonfin := [], nfRaised := [] }

/-- The records whose powers and step counts a commit advances. -/
def State.commitReads (s : State) (q : Nat) (u : Upd) : List (Nat × Nat) := u.groups.map fun n => (s.groupAddr q n, 128)

/-- The gradient format words a commit writes (R248). -/
def State.formatWords (s : State) (q : Nat) : List (Nat × Nat) :=
  (List.range 256).filterMap fun k =>
    let a := s.odGet q (0x6100 + k) 7
    if a = 0 then none else some (a, 8)

/-- UPDATE_COMMIT (R278 steps 6 to 8, R248, R265, R276, R437). -/
def execUpdateCommit (q : Nat) (s : State) : Res := spireEvent 5 s fun s =>
  match (s.part q).upd with
  | none => s
  | some u =>
    if ¬ u.ready' ∨ s.shadowHolds q u.t then s
    else
      let recs := s.commitReads q u
      let no := fun (v : State) =>
        let num := (u.groups.find? fun n => v.meetsPoison [(v.groupAddr q n, 128)]).getD (u.groups.headD 0)
        v.updFail q u num (v.grp q num) []
      s.portGates ((engineUnit 2, recs ++ s.formatWords q) :: if u.shadow then s.restReads q else []) q no fun v => v.engineRead q recs no fun v =>
        let v0 := if u.groups = [] ∧ u.shadow then v.beginShadow q (u.t + 1) else v
        let v1 := v0.engineWrite q (u.groups.flatMap fun n => powWrites (v.groupAddr q n) (v.grp q n))
        let v2 := (v1.fallbackAll q u.t).normAll q
        let v3 := if s.odGet q 0x6300 1 = 2 then v2.odSet q 0x6300 5 ((s.part q).gnorm.getD 0).toNat else v2
        let v4 := (v3.odSet q 0x6300 6 (u.clip.getD f32One).toNat).odSet q 0x6400 3 ((u.t + 1) % 2 ^ 64)
        let v5 := (v4.modPart q fun p => { p with clip := none, gnorm := none, normDone := false, errSince := false }).updFinish
          q u 0 0
        if u.shadow then v5.shadowRest q else v5

/-- The clear-Boom-counters command (R296). -/
def cmdClearBoomCounters (q val token : Nat) (s : State) : CmdRes :=
  (stDone, (s.clearSubs q 0x6404 1 9).complete q 0x6403 0 0 token val [])

/-- CLEAR_BOOM_COUNTERS (R296). -/
def execClearBoomCounters (q val token : Nat) (s : State) : Res := runCmd q s (cmdClearBoomCounters q val token s)

end Sys2Proof.Machine
end

