-- ==== Sys2Proof/Machine/Survive.lean ====
section
/-! DEFINITION. The fault queue and its cases (14 R416-R419), targeted self-tests (R420-R422), fencing and spares
(R423-R425), containment (R426, R427) and the periodic slices (R428-R432). -/

namespace Sys2Proof.Machine

open Sys2Proof

/-- The management cores handle faults: from boot step 6 on, while the device is neither contained nor stopped (R478, R427). -/
def State.handling (s : State) : Bool := s.boot = .training || s.boot = .ready

/-- An event of the management cores' fault handling. -/
def handleEvent (s : State) (f : State → State) : Res := .next (if s.handling then f s else s)

/-! Cases (R416, R417). -/

/-- Unit ID of berth `b` of tower `t`. -/
def berthUnit (t b : Nat) : Nat := unitId 3 (132 * t + b)

/-- The unit of a fault: a spar and its berth count as one (R416). -/
def State.caseUnit (s : State) (source : Nat) : Nat :=
  if source / 2 ^ 24 = 2 then
    let i := source % 2 ^ 24
    match s.berthOf i with
    | some b => berthUnit (sparTower i) b
    | none => source
  else source

/-- Entry `k` of the fault queue. -/
def State.case (s : State) (k : Nat) : Case := mapGet {} s.cases k

/-- The entry whose open case has unit `u`. -/
def State.caseOf (s : State) (u : Nat) : Option Nat := (List.range 64).find? fun k => (s.case k).open_ && (s.case k).unit = u

/-- Open cases. -/
def State.openCases (s : State) : Nat := s.cases.countP fun e => e.2.open_

/-- Notice about a unit of partition `part`, 4 for none, from the management cores (R408). -/
def State.coreNotice (s : State) (ty part : Nat) (payload : Bytes) : State := s.notify ty 0 part (spireUnit 8) payload

/-- The case's class (OD 0x8010 + k :04). -/
def State.caseClass (s : State) (k : Nat) : Nat := s.odGet 0 (0x8010 + k) 4

/-- A case changes state: its object, and a CASE notice (R417, Table 14-11). -/
def State.caseState (s : State) (k st : Nat) : State :=
  let c := s.case k
  ({ s with cases := mapSet {} s.cases k { c with st := st } }.odSet 0 (0x8010 + k) 2 st).coreNotice 0x10 c.part
    (leBytes 4 c.num ++ leBytes 1 st ++ leBytes 1 (s.caseClass k) ++ leBytes 2 c.code ++ leBytes 4 c.unit)

/-- The case closes with class `cls`: its entry becomes free (R417). -/
def State.caseClose (s : State) (k cls : Nat) : State :=
  let s1 := (s.odSet 0 (0x8010 + k) 4 cls).caseState k 5
  (({ s1 with cases := mapSet {} s1.cases k {} }.odSet 0 (0x8010 + k) 2 0)).odSet 0 0x8001 1
    (s1.cases.countP fun (e : Nat × Case) => e.2.open_ && e.1 != k)

/-- A record counted in its row of Table 14-1. -/
def State.countFault (s : State) (code : Nat) : State :=
  let b := s.blobGet 0 0x8000 3
  let o := 8 * faultRow code
  s.blobSet 0 0x8000 3 (patchBytes b o (leBytes 8 (fieldAt b o 8 + 1)))

/-- A record attached to a case (R416). -/
def State.attach (s : State) (k : Nat) : State := s.odSet 0 (0x8010 + k) 5 (min 255 (s.odGet 0 (0x8010 + k) 5 + 1))

/-- The unit class has a targeted test (Table 14-4). -/
def hasTest (u : Nat) : Bool :=
  let c := u / 2 ^ 24
  [1, 2, 3, 4, 5, 7, 9, 0xA, 0xB].contains c || (c = 8 && decide (u % 2 ^ 24 ≤ 7))

/-- Jobs a fault stops (R105, R418, R419): those of its partition; of every partition for a spire unit that served none in
particular. -/
def State.stopAffected (s : State) (n : Notice) : State :=
  let stop := fun (t : State) (q : Nat) => (t.stopJob q 2).modPart q fun p => { p with errSince := true }
  if !n.devwide then (if n.part < 4 then stop s n.part else s)
  else if n.source / 2 ^ 24 = 8 ∧ n.source % 2 ^ 24 ≤ 7 then (List.range 4).foldl stop s else s

/-! Containment (R426, R427). -/

/-- A record on the fixed path: to the ring, the MCTP destination and every valid subscriber of Q0. -/
def State.fixedSend (s : State) (n : Notice) : State :=
  let stamp := fun (t : State) (k : Nat) =>
    let d := t.dest k
    (({ n with seq := d.seq, loss := d.lossDue } : Notice), t.setDest k { d with seq := (d.seq + 1) % 2 ^ 32, lossDue := false })
  let s1 := if s.cxl.ringEnable ∧ s.ringUsed < s.ringEntries then
      let x := stamp s 0
      let c := x.2.cxl
      let t := x.2.emit 0 (c.ringBase.toNat + c.ringProd.toNat % 2 ^ c.ringLog2 * 64) x.1.bytes 0
      let t1 := t.modCxl fun c => { c with ringProd := c.ringProd + 1 }
      (if c.ringMirror then t1.emit 0 c.ringPaddr.toNat (leBytes 4 (c.ringProd + 1).toNat) 0 else t1).msixNow (1 + n.sev)
    else s
  let s2 := if s1.mctpDest ≠ 0 then
      let x := stamp s1 1
      x.2.emit 5 s1.mctpDest (mctpFrame 0x03 x.1.bytes) 0
    else s1
  (s2.subscribers 0 3).foldl (fun t k =>
    let x := stamp t k
    x.2.emit 11 (fieldAt (t.blobGet 0 0x1010 7) (4 * (k % 8)) 2) x.1.bytes 0) s2

/-- A fatal record (R427): device-wide, from the management cores' island. -/
def State.fatal (s : State) (code source : Nat) (payload : Bytes) : State :=
  (s.countFault code).fixedSend (faultRecord s code source 4 (islSpire 0) payload)

/-- Code of the open case with the lowest number; 0 for none. -/
def State.firstOpen (s : State) : Nat :=
  let o := (s.cases.filter fun e => e.2.open_).map (·.2)
  ((o.find? fun c => o.all fun d => decide (c.num ≤ d.num)).map (·.code)).getD 0

/-- NESTED_FAULT, then CONTAINED (R426, R427): every island stops and with it every job (03 R105), both records go out, FAULT_N
is asserted and every port enters state 0. -/
def State.nested (s : State) (code num cause : Nat) : State :=
  let s1 := s.fatal 0x0603 (spireUnit 8) (leBytes 2 code ++ leBytes 4 num ++ leBytes 1 cause)
  let s2 := s1.fatal 0x0604 (unitId 0 0) (leBytes 2 s1.firstOpen ++ leBytes 4 s1.openCases)
  let s3 := (List.range 4).foldl (fun t q => t.stopJob q 2) s2
  (List.range 36).foldl (fun t p => t.setPortState p 0) { s3 with boot := .contained, faultN := true }

/-! Fencing (R423-R425). -/

/-- Berth map with one byte changed. -/
def State.setBerth (s : State) (t b v : Nat) : State :=
  s.blobSet 0 (0x8100 + t) 1 (patchBytes (s.berthMap t) b (leBytes 1 v))

/-- Spares left of a tower. -/
def State.sparesLeft (s : State) (t : Nat) : Nat := s.odGet 0 (0x8100 + t) 2

/-- The lowest spare berth of tower `t`. -/
def State.spareOf (s : State) (t : Nat) : Option Nat := (List.range 132).find? fun b => (s.berthMap t).getD b 0xFF = 0xFE

/-- A berth is fenced: a spare takes its logical spar with zeroed state, or the spar is absent (R424, R425). Answers the unit
ID of the spare that took over, or all ones. -/
def State.fenceBerth (s : State) (n : Nat) : Nat × State :=
  let t := n / 132
  let b := n % 132
  let v := ((s.berthMap t).getD b 0xFF).toNat
  let s0 : State := { s with fencedBerths := setIns s.fencedBerths n }
  if v = 0xFF then (0xFFFFFFFF, s0)
  else
    let s1 := s0.setBerth t b 0xFF
    if v = 0xFE then (0xFFFFFFFF, s1.odSet 0 (0x8100 + t) 2 (s1.sparesLeft t - 1))
    else
      let i := 128 * t + v
      let s2 := s1.setSpar i {}
      match s1.spareOf t with
      | some c =>
        let s3 := (s2.setBerth t c v).odSet 0 (0x8100 + t) 2 (s2.sparesLeft t - 1)
        (berthUnit t c, s3.coreNotice 0x11 (s.towerPart t)
          (leBytes 4 (berthUnit t b) ++ leBytes 4 (berthUnit t c) ++ leBytes 2 i ++ leBytes 1 (s3.sparesLeft t)))
      | none => (0xFFFFFFFF, s2.raise 0x0605 (unitId 1 t) (s.towerPart t) (islSpire 0) (leBytes 2 i))

/-- Effects of fencing a unit (Table 14-5). -/
def State.fenceUnit (s : State) (u : Nat) : Nat × State :=
  let n := u % 2 ^ 24
  match u / 2 ^ 24 with
  | 3 => s.fenceBerth n
  | 1 => (0xFFFFFFFF, { s with fencedTowers := setIns s.fencedTowers n })
  | 9 => (0xFFFFFFFF, { s with fencedTowers := setIns s.fencedTowers n })
  | 0xA => (0xFFFFFFFF, { s with fencedTowers := setIns s.fencedTowers n })
  | 4 => (0xFFFFFFFF, { s with domeOff := setIns s.domeOff n })
  | 0xB => (0xFFFFFFFF, { s with domeOff := setIns s.domeOff n })
  | 5 =>
    let s1 := (s.modPort n fun t => { t with fenced := true, lastTrain := none, auditing := false }).setPortState n 0
    (0xFFFFFFFF, if s.portUp n then s1.dropLink n else s1)
  | 7 => (0xFFFFFFFF, { s with fencedEdges := setIns s.fencedEdges n })
  | 8 => (0xFFFFFFFF, { s with fencedSpire := setIns s.fencedSpire n })
  | _ => (0xFFFFFFFF, s)

/-- The unit is fenced already (R422). -/
def State.unitFenced (s : State) (u : Nat) : Bool :=
  let n := u % 2 ^ 24
  match u / 2 ^ 24 with
  | 3 => s.fencedBerths.contains n
  | 1 => s.fencedTowers.contains n
  | 9 => s.fencedTowers.contains n
  | 0xA => s.fencedTowers.contains n
  | 4 => s.domeOff.contains n
  | 0xB => s.domeOff.contains n
  | 5 => (s.port n).fenced
  | 7 => s.fencedEdges.contains n
  | 8 => s.fencedSpire.contains n
  | _ => false

/-- The unit's targeted test, if one runs, is over: what it held runs on. -/
def State.endTest (s : State) (u : Nat) : State :=
  let s1 : State := { s with testing := s.testing.erase u }
  if u / 2 ^ 24 = 3 then
    let t := u % 2 ^ 24 / 132
    let v := ((s.berthMap t).getD (u % 2 ^ 24 % 132) 0xFF).toNat
    if v < 128 then s1.modSpar (128 * t + v) fun x => { x with paused := false } else s1
  else s1

/-- `fence(c)` (R423): class lasting, state 4, the jobs that UNIT_FENCED stops (03 R105), the unit's effects, UNIT_FENCED attached
to the case, and the case closes. -/
def State.fenceCase (s : State) (k : Nat) : State :=
  let c := s.case k
  let rec' := fun spare => faultRecord s 0x0602 c.unit c.part (islSpire 0) (leBytes 4 c.num ++ leBytes 4 spare)
  let s1 := (((s.endTest c.unit).odSet 0 (0x8010 + k) 4 3).caseState k 4).stopAffected (rec' 0)
  let f := s1.fenceUnit c.unit
  let rec_ := rec' f.1
  (((f.2.countFault 0x0602).attach k).deliver rec_).caseClose k 3

/-! The case machine (R416, R421). -/

/-- The record reports a rejected object of the boot flash, whose case is external (16 R479). -/
def bootObject (n : Notice) : Bool := (n.code = 0x0701 || n.code = 0x0702) && fieldAt n.payload 0 1 != 6

/-- A new case for a record: its entry, its state 1, the affected jobs stopped, and its test scheduled, or class external. -/
def State.openCase (s : State) (n : Notice) (k : Nat) : State :=
  let u := s.caseUnit n.source
  let num := s.odGet 0 0x8001 2
  let c : Case := { open_ := true, num := num, unit := u, code := n.code, part := if n.devwide then 4 else n.part }
  let s0 : State := { s with cases := mapSet {} s.cases k c }
  let i := 0x8010 + k
  let s1 := ((((((s0.odSet 0 0x8001 2 ((num + 1) % 2 ^ 32)).odSet 0 0x8001 1 s0.openCases).blobSet 0 i 1 n.bytes).odSet 0 i 3
    num).odSet 0 i 4 0).odSet 0 i 5 0).deliver n
  let s2 := (s1.caseState k 1).stopAffected n
  if hasTest u && !bootObject n then s2.caseState k 2 else s2.caseClose k 4

/-- `on_fault` on the record that reaches the management cores next; `path`: it was detected in the handling path (R416). -/
def State.onFault (s : State) (n : Notice) (path : Bool) : State :=
  let s1 := s.countFault n.code
  if n.sev < 2 then s1.deliver n
  else if path then s1.nested n.code 0 1
  else match s1.caseOf (s1.caseUnit n.source) with
    | some k => (((s1.attach k).deliver n).stopAffected n).fenceCase k
    | none =>
      if 64 ≤ s1.openCases then s1.nested n.code 0 2
      else match (List.range 64).find? fun k => !(s1.case k).open_ with
        | some k => s1.openCase n k
        | none => s1

/-- FAULT_RECORD_ARRIVAL (R416). -/
def execFaultRecordArrival (pathFault : Bool) (s : State) : Res := handleEvent s fun s =>
  match s.faultQ with
  | [] => s
  | n :: r => ({ s with faultQ := r } : State).onFault n pathFault

/-- Transient classifications of a unit within the window, once `gone` of them have left it (R421). -/
def State.transientsOf (s : State) (u gone : Nat) : Nat := s.transients.count u - gone

/-- The oldest `n` classifications of a unit have left the window. -/
def dropTransients (u : Nat) : Nat → List Nat → List Nat
  | 0, l => l
  | n + 1, l => dropTransients u n (l.erase u)

/-- `classify(c, pass)` (R421). -/
def State.classifyPass (s : State) (k gone : Nat) : State :=
  let c := s.case k
  if faultClass c.code = 0 then s.caseClose k 1
  else
    let s1 : State := { s with transients := dropTransients c.unit gone s.transients }
    if s1.odGet 0 0x8001 4 < s1.transients.count c.unit + 1 then s1.fenceCase k
    else ({ s1 with transients := s1.transients ++ [c.unit] } : State).caseClose k 2

/-! Targeted tests (R420-R422). -/

/-- Tower of a berth under a targeted test, or in a slice, other than berth `n`: only one berth of a tower is tested at a
time (R420). -/
def State.towerTests (s : State) (t n : Nat) : Bool :=
  s.testing.any (fun u => u / 2 ^ 24 = 3 && u % 2 ^ 24 / 132 = t && u % 2 ^ 24 != n) ||
  ((mapGet {} s.slices t).active && (mapGet {} s.slices t).berth != n % 132)

/-- Logical spar of berth `n`, if one holds it. -/
def State.sparAt (s : State) (n : Nat) : Option Nat :=
  let v := ((s.berthMap (n / 132)).getD (n % 132) 0xFF).toNat
  if v < 128 then some (128 * (n / 132) + v) else none

/-- Save region of tower `t` (Table 14-12 :06). -/
def State.saveRegion (s : State) (t : Nat) : Nat := s.odGet 0 (0x8100 + t) 6

/-- The scratch area a test uses: the top 128 KiB (Sequence 14-1). -/
def saveFrom : Nat := 0x1E0000
/-- Its bytes. -/
def saveBytes : Nat := 0x20000

/-- A register file with every register a free value: `w` bits each. -/
def State.drawFile (s : State) (w n : Nat) : List (Nat × BitVec w) × State :=
  (List.range n).foldl (fun (acc : List (Nat × BitVec w) × State) k =>
    let d := acc.2.draw w
    (mapSet 0 acc.1 k d.1, d.2)) ([], s)

/-- The state R105 kept is discarded (R430): its registers and the scratch area the test used hold values the spec does not
give (log 27). -/
def State.discardKept (s : State) (i : Nat) : State :=
  let a := s.drawFile 64 64
  let b := a.2.drawFile 64 32
  let c := b.2.drawFile 256 16
  let d := c.2.drawFile 128 8
  let e := d.2.drawFile 8192 32
  let f := e.2.drawFile 32 4
  let g := f.2.drawFile 512 4
  let h := g.2.draw (8 * saveBytes)
  h.2.modSpar i fun x => { x with
    sreg := mapSet 0 a.1 0 0, areg := b.1, preg := c.1, mreg := d.1, vreg := e.1, lreg := f.1, treg := g.1
    scratch := memWrite x.scratch saveFrom (leBytes saveBytes h.1.toNat) }

/-- The spar holds job state: job state 1 or 2 (R430). -/
def State.hasJobState (s : State) (i : Nat) : Bool :=
  let j := s.jobState (s.sparPart i)
  (j = 1 || j = 2) && (s.part (s.sparPart i)).started.contains i

/-- Save and restore of a tested berth's spar: the top of scratch is copied to the save region and comes back; without a
region, or with the management requester cut off at its dome, the kept state is discarded (R430, Sequence 14-1, 10 R320). -/
def State.saveSpar (s : State) (i : Nat) : State :=
  let r := s.saveRegion (sparTower i)
  if !s.hasJobState i then s
  else if r = 0 ∨ s.unitCut manageUnit [(r, saveBytes)] then s.discardKept i
  else (s.domeWrite r (memRead (s.spar i).scratch saveFrom saveBytes)).1

/-- What a started test does to its unit (Table 14-4). -/
def State.beginTest (s : State) (u : Nat) : State :=
  let n := u % 2 ^ 24
  let s1 : State := { s with testing := s.testing ++ [u] }
  if u / 2 ^ 24 = 3 then
    match s.sparAt n with
    | some i => (s1.modSpar i fun x => { x with paused := true }).saveSpar i
    | none => s1
  else if u / 2 ^ 24 = 5 then
    let st := s.portState n
    if st = 2 then (s1.setPortState n 1).dropLink n else s1
  else s1

/-- TARGETED_TEST_START (R420): a waiting case's test starts; one whose unit another case has fenced ends at once (R422). -/
def execTargetedTestStart (unit : Nat) (s : State) : Res := handleEvent s fun s =>
  let u := s.caseUnit unit
  match s.caseOf u with
  | none => s
  | some k =>
    if (s.case k).st ≠ 2 then s
    else if s.unitFenced u then s.caseClose k 3
    else if u / 2 ^ 24 = 3 then
      let n := u % 2 ^ 24
      if s.towerTests (n / 132) n then s
      else
        let go := fun (s : State) => (s.caseState k 3).beginTest u
        s.portGate manageUnit 4 [(s.saveRegion (n / 132), if s.saveRegion (n / 132) = 0 then 0 else saveBytes)] go go
    else (s.caseState k 3).beginTest u

/-- TEST_START_TIMEOUT (R426): 5 ms have passed. -/
def execTestStartTimeout (unit : Nat) (s : State) : Res := handleEvent s fun s =>
  match s.caseOf (s.caseUnit unit) with
  | some k => if (s.case k).st = 2 then s.nested (s.case k).code (s.case k).num 3 else s
  | none => s

/-- BIST_FAIL of a targeted test: attached to its case, whose error escalates (R421). -/
def State.testFails (s : State) (k speed pattern sig : Nat) : State :=
  let c := s.case k
  let n := faultRecord s 0x0601 c.unit c.part (islSpire 0)
    (leBytes 1 speed ++ leBytes 1 1 ++ leBytes 2 0 ++ leBytes 4 pattern ++ leBytes 8 sig)
  ((((s.countFault 0x0601).attach k).deliver n).stopAffected n).fenceCase k

/-- TARGETED_TEST_END (R421); `expired`: transient classifications of the unit that have left the window. -/
def execTargetedTestEnd (unit : Nat) (res : TestResult) (expired : Nat) (s : State) : Res := handleEvent s fun s =>
  let u := s.caseUnit unit
  match s.caseOf u with
  | none => s
  | some k =>
    if (s.case k).st ≠ 3 then s
    else
      let s1 := s.endTest u
      match res with
      | .pass => s1.classifyPass k expired
      | .external => s1.caseClose k 4
      | .fail p g => s1.testFails k 0 p g
      | .marginal =>
        let a := s1.draw 32
        let b := a.2.draw 64
        b.2.testFails k 1 a.1.toNat b.1.toNat

/-! Periodic slices (R428-R432). -/

/-- The periodic slice of tower `t`. -/
def State.slice (s : State) (t : Nat) : Option Slice := 
  let x := mapGet {} s.slices t
  if x.due || x.active then some x else none

/-- The tower's slice replaced or taken out. -/
def State.setSlice (s : State) (t : Nat) (x : Option Slice) : State :=
  { s with slices := mapSet {} s.slices t (x.getD {}) }

/-- The next berth in turn from `b` on: neither fenced nor with an open case (R428). -/
def State.nextBerth (s : State) (t b : Nat) : Option Nat :=
  ((List.range 132).map fun k => (b + k) % 132).find? fun b =>
    (s.berthMap t).getD b 0xFF != 0xFF && (s.caseOf (berthUnit t b)).isNone

/-- SLICE_DUE (R428, R430): without a save region an active berth's slice falls due only while its partition runs no job. -/
def execSliceDue (t : Nat) (s : State) : Res := liveEvent s fun s =>
  if (s.slice t).isSome then s
  else match s.nextBerth t (mapGet 0 s.sliceNext t) with
    | none => s
    | some b =>
      if s.saveRegion t = 0 && (s.sparAt (132 * t + b)).isSome && s.jobRuns (s.towerPart t) then s
      else ({ s with sliceNext := mapSet 0 s.sliceNext t ((b + 1) % 132) } : State).setSlice t
        (some { berth := b, due := true, active := false })

/-- The berth may start its slice: a spare, or its spar runs no job, or no operation it has issued is outstanding (R429). -/
def State.sliceReady (s : State) (n : Nat) : Bool :=
  match s.sparAt n with
  | none => true
  | some i => ((s.spar i).run != .running && (s.spar i).run != .halting) || (s.spar i).quiet

/-- SLICE_START (R429, Sequence 14-1). -/
def execSliceStart (t : Nat) (s : State) : Res := liveEvent s fun s =>
  match s.slice t with
  | none => s
  | some x =>
    let n := 132 * t + x.berth
    if x.active ∨ s.towerTests t n ∨ (s.caseOf (berthUnit t x.berth)).isSome ∨ ¬ s.sliceReady n then s
    else
      let go := fun (s : State) =>
        let s1 := s.setSlice t (some { x with due := false, active := true })
        match s.sparAt n with
        | some i =>
          let s2 := s1.modSpar i fun x => { x with paused := true }
          if s.saveRegion t = 0 then s2 else s2.saveSpar i
        | none => s1
      s.portGate manageUnit 4 [(s.saveRegion t, if s.saveRegion t = 0 then 0 else saveBytes)] go go

/-- SLICE_DEFER (R429): 100 ms have passed since the slice fell due. -/
def execSliceDefer (t : Nat) (s : State) : Res := liveEvent s fun s =>
  match s.slice t with
  | some x => if x.active then s else (s.setSlice t none).odAdd 0 (0x8100 + t) 8 1
  | none => s

/-- The paused spar of berth `n` resumes. -/
def State.resumeBerth (s : State) (n : Nat) : State :=
  match s.sparAt n with
  | some i => s.modSpar i fun x => { x with paused := false }
  | none => s

/-- SLICE_END (R432). A slice has no outcome `external`. -/
def execSliceEnd (t : Nat) (res : TestResult) (s : State) : Res := liveEvent s fun s =>
  match s.slice t with
  | none => s
  | some x =>
    let n := 132 * t + x.berth
    let i := 0x8100 + t
    let s1 := (s.setSlice t none).resumeBerth n
    if ¬ x.active then s
    else match res with
      | .pass => s1.odAdd 0 i 3 1
      | .marginal => s1.odAdd 0 i 5 1
      | .fail p g =>
        (s1.odAdd 0 i 4 1).raise 0x0601 (berthUnit t x.berth) (if (s.sparAt n).isSome then s.towerPart t else 4)
          (islBerth t x.berth) (leBytes 4 0 ++ leBytes 4 p ++ leBytes 8 g)
      | .external => s

end Sys2Proof.Machine
end

