-- ==== Sys2Proof/Machine/Power.lean ====
section
/-! DEFINITION. Regulators and AVSBus (15 R447, R448), performance states (R449-R453), external inputs (R465, R466), thermal
control (R467-R470), oscillators and droops (R458, R459). -/

namespace Sys2Proof.Machine

open Sys2Proof

/-- The power state changed. -/
def State.modPower (s : State) (f : Power → Power) : State := { s with power := f s.power }

/-- Index of rail group `g`'s record. -/
def railIdx (g : Nat) : Nat := 0x9010 + g

/-- Index of monitored input `i`'s record: 0 to 3 VRALERT_N, 4 SLOW_N. -/
def inputIdx (i : Nat) : Nat := 0x9040 + i

/-- Monitored input `i` is masked (R466). -/
def State.masked (s : State) (i : Nat) : Bool := s.odGet 0 (inputIdx i) 2 = 1

/-- Filtered level of monitored input `i`. -/
def State.level (s : State) (i : Nat) : Bool := s.odGet 0 (inputIdx i) 1 = 1

/-- The input counts as asserted: by its level, or masked (Table 15-6). -/
def State.inputOn (s : State) (i : Nat) : Bool := s.level i || s.masked i

/-! Performance states (R449-R451). -/

/-- Present performance state, 0 to 3. -/
def State.pState (s : State) : Nat := s.odGet 0 0x9001 1

/-- The causes that lower the state (Table 15-8 :03). -/
def State.causes (s : State) : Nat :=
  let b := fun (c : Bool) (v : Nat) => if c then v else 0
  b (s.odGet 0 0x9001 2 != 0) 1 + b (s.power.thermal != 0) 2 +
  b (!s.power.alerts.isEmpty || (List.range 4).any s.masked) 4 + b (s.inputOn 4) 8 + b (!s.power.regFaults.isEmpty) 16

/-- The state the causes ask for (R450): the lowest-performing among them. -/
def State.wantState (s : State) : Nat :=
  max (max (min 3 (s.odGet 0 0x9001 2)) (min 3 s.power.thermal)) (if 4 ≤ s.causes then 3 else 0)

/-- Target of tower rail group `g` in state `p`, mV (Table 15-2). -/
def State.railTarget (s : State) (g p : Nat) : Nat :=
  match p with
  | 0 => mapGet 0 s.power.v0 g
  | 1 => mapGet 0 s.power.v0 g - 50
  | 2 => mapGet 0 s.power.v0 g - 100
  | _ => 550

/-- A target voltage is written to group `g` over AVSBus. -/
def State.writeTarget (s : State) (g mv : Nat) : State := (s.odSet 0 (railIdx g) 1 mv).emit 10 g (leBytes 2 mv) 0

/-- The targets of state `p` are written to both tower groups, whose VDone is awaited. -/
def State.writeTargets (s : State) (p : Nat) : State :=
  ([0, 1].foldl (fun t g => t.writeTarget g (s.railTarget g p)) s).modPower fun w => { w with vdoneWait := [0, 1] }

/-- The islands run in state `p`: a change is counted, and the slices of every tower are aborted and counted as deferred
(R451). An aborted targeted test starts again. -/
def State.setPState (s : State) (p : Nat) : State :=
  let s1 := (s.odSet 0 0x9001 1 p).odAdd 0 0x9001 4 1
  (List.range 8).foldl (fun u t =>
    match u.slice t with
    | some x => if x.active then ((u.setSlice t none).resumeBerth (132 * t + x.berth)).odAdd 0 (0x8100 + t) 8 1 else u
    | none => u) s1

/-- The causes object, and a change of state begun where the causes ask for another (R450, R451): downward at once, upward
only when no change is in progress. -/
def State.evalPower (s : State) : State :=
  let s1 := s.odSet 0 0x9001 3 s.causes
  let want := s1.wantState
  if s1.pState < want then s1.modPower fun w => { w with move := .down, target := want }
  else if want < s1.pState ∧ s1.power.move = .idle then
    (s1.writeTargets want).modPower fun w => { w with move := .up, target := want }
  else s1

/-- ISLANDS_FREQUENCY_ACK (R451): every island has changed its period, and the new targets are written. -/
def execIslandsFrequencyAck (s : State) : Res := handleEvent s fun s =>
  if s.power.move = .down ∧ s.pState < s.power.target then (s.setPState s.power.target).writeTargets s.power.target else s

/-- VDONE_READ (R451): both groups have reached their targets; an upward change reaches the islands, and a state wanted since
is moved to. -/
def execVdoneRead (s : State) : Res := handleEvent s fun s =>
  if s.power.vdoneWait = [] then s
  else
    let s1 := s.modPower fun w => { w with vdoneWait := [] }
    match s1.power.move with
    | .idle => s1
    | .up => ((s1.setPState s1.power.target).modPower fun w => { w with move := .idle }).evalPower
    | .down =>
      if s1.pState < s1.power.target then s1 else (s1.modPower fun w => { w with move := .idle }).evalPower

/-- A write of the state cap (R450, Table 15-8). -/
def writeStateCap (val : Nat) (s : State) : CmdRes :=
  if 3 < val then (stRefused, s) else (stDone, (s.odSet 0 0x9001 2 val).evalPower)

/-- STATE_CAP_WRITE (R450). -/
def execStateCapWrite (val : Nat) (s : State) : Res := runDevCmd s (writeStateCap val s)

/-! Regulator faults and alerts (R447, R448, R453). -/

/-- VR_ALERT of rail group `g` (Table 15-3), once while its causes stand. -/
def State.vrAlert (s : State) (g cause : Nat) : State :=
  if s.power.alertRec.any fun e => e.1 = g then s
  else
    let i := railIdx g
    let s1 := s.raise 0x0801 (unitId 0xC g) 4 (islSpire 0)
      (leBytes 1 cause ++ leBytes 1 0 ++ leBytes 2 (s.odGet 0 i 6) ++ leBytes 2 (s.odGet 0 i 3) ++ leBytes 2 (s.odGet 0 i 4) ++
        leBytes 1 (s.odGet 0 i 5))
    s1.modPower fun w => { w with alertRec := w.alertRec ++ ((s1.faultQ.getLast?).map fun n => (g, n)).toList }

/-- A regulator fault of group `g` (R448): counted, and it acts as an asserted alert input. -/
def State.regFault (s : State) (g cause : Nat) : State :=
  if s.power.regFaults.contains g then s
  else
    (((s.odAdd 0 (railIdx g) 8 1).modPower fun w => { w with regFaults := setIns w.regFaults g }).vrAlert g cause).evalPower

/-- The record of group `g` is dropped once no cause of it stands. -/
def State.dropRecord (s : State) (g : Nat) : State :=
  if s.power.alerts.contains g || s.power.regFaults.contains g then s
  else s.modPower fun w => { w with alertRec := w.alertRec.filter fun e => e.1 != g }

/-- The alert cause of group `g` is dropped. -/
def State.dropAlert (s : State) (g : Nat) : State :=
  (s.modPower fun w => { w with alerts := setDel w.alerts g }).dropRecord g

/-- AVSBUS_POLL (R447, R448). -/
def execAvsbusPoll (g : Nat) (rd : AvsReading) (s : State) : Res := handleEvent s fun s =>
  if ¬ rd.valid then s.regFault g 2
  else
    let i := railIdx g
    let s1 := (((s.odSet 0 i 3 (rd.volt % 2 ^ 16)).odSet 0 i 4 (rd.cur % 2 ^ 16)).odSet 0 i 5 (ofSigned 8 rd.temp)).odSet 0 i 6
      (rd.status % 2 ^ 16)
    if Config.statusAlert rd.status then s1.regFault g 3 else s1

/-- VDONE_TIMEOUT (R448): 200 µs have passed since a write that awaits VDone. -/
def execVdoneTimeout (g : Nat) (s : State) : Res := handleEvent s fun s =>
  if s.power.vdoneWait.contains g then s.regFault g 4 else s

/-- REGULATOR_STATUS_RETRY (R448): a status word without alert ends the fault, and with it an alert whose input is released. -/
def execRegulatorStatusRetry (g : Nat) (status : Option Nat) (s : State) : Res := handleEvent s fun s =>
  match status with
  | none => s
  | some w =>
    let s1 := s.odSet 0 (railIdx g) 6 (w % 2 ^ 16)
    if ¬ s.power.regFaults.contains g ∨ Config.statusAlert w then s1
    else
      let s2 := s1.modPower fun p => { p with regFaults := setDel p.regFaults g }
      (if s2.inputOn g || s2.power.alertWait.contains g then s2.dropRecord g else s2.dropAlert g).evalPower

/-- INPUT_STORM of monitored input `i`: more than 1,000 assertions in 10 ms mask it (R466). The inputs are numbers 3 to 7 of
Table 17-2. -/
def State.storm (s : State) (i n : Nat) : State :=
  if 1000 < n ∧ ¬ s.masked i then
    ((s.odSet 0 (inputIdx i) 2 1).odAdd 0 (inputIdx i) 4 1).raise 0x0803 (unitId 0xD (3 + i)) 4 (islSpire 0) (leBytes 4 n)
  else s

/-- An assertion of monitored input `i` is taken (R465, R466). -/
def State.assertInput (s : State) (i n : Nat) : State :=
  ((s.odSet 0 (inputIdx i) 1 1).odAdd 0 (inputIdx i) 3 1).storm i n

/-- VRALERT_ASSERT (R453, R466); `in10ms`: assertions taken in the last 10 ms, this one included. -/
def execVralertAssert (g in10ms : Nat) (s : State) : Res := handleEvent s fun s =>
  let s1 := (s.assertInput g in10ms).odAdd 0 (railIdx g) 7 1
  ((s1.modPower fun w => { w with alerts := setIns w.alerts g, alertWait := setDel w.alertWait g }).vrAlert g 1).evalPower

/-- The release of an alert input takes effect: the 10 ms wait begins (R453). -/
def State.releaseAlert (s : State) (g : Nat) : State :=
  if s.power.alerts.contains g then s.modPower fun w => { w with alertWait := setIns w.alertWait g } else s

/-- VRALERT_RELEASE (R453). -/
def execVralertRelease (g : Nat) (s : State) : Res := handleEvent s fun s =>
  let s1 := s.odSet 0 (inputIdx g) 1 0
  if s.masked g then s1 else s1.releaseAlert g

/-- ALERT_RELEASE_WAIT_EXPIRY (R453): the status word read decides; without a valid answer, or with an alert set, it is a
regulator fault (R448). -/
def execAlertReleaseWaitExpiry (g : Nat) (status : Option Nat) (s : State) : Res := handleEvent s fun s =>
  if ¬ s.power.alertWait.contains g then s
  else
    let s1 := s.modPower fun w => { w with alertWait := setDel w.alertWait g }
    match status with
    | none => s1.regFault g 2
    | some w =>
      let s2 := s1.odSet 0 (railIdx g) 6 (w % 2 ^ 16)
      if Config.statusAlert w then s2.regFault g 3 else (s2.dropAlert g).evalPower

/-- ALERT_REMINDER (R453): the original record again, as a REMINDER, while the condition persists. -/
def execAlertReminder (g : Nat) (s : State) : Res := handleEvent s fun s =>
  match s.power.alertRec.find? fun e => e.1 = g with
  | some e => if s.inputOn g || s.power.regFaults.contains g then s.deliver { e.2 with ty := 6 } else s
  | none => s

/-- SLOW_N_ASSERT (R450, R466). -/
def execSlowNAssert (in10ms : Nat) (s : State) : Res := handleEvent s fun s => (s.assertInput 4 in10ms).evalPower

/-- SLOW_N_RELEASE (R450). -/
def execSlowNRelease (s : State) : Res := handleEvent s fun s => (s.odSet 0 (inputIdx 4) 1 0).evalPower

/-- INPUT_UNMASK (R466): the filtered level takes effect at once. -/
def execInputUnmask (i : Nat) (asserted : Bool) (s : State) : Res := handleEvent s fun s =>
  if ¬ s.masked i then s
  else
    let s1 := (s.odSet 0 (inputIdx i) 2 0).odSet 0 (inputIdx i) 1 (if asserted then 1 else 0)
    (if i < 4 ∧ ¬ asserted then s1.releaseAlert i else s1).evalPower

/-! Thermal control (R467-R470). -/

/-- Kind of a sensor: 0 tower logic, 1 spire die, 2 dome DRAM, 3 optical engine (Table 15-7). -/
def sensorKind (k : Nat) : Nat := if k < 32 then 0 else if k < 36 then 1 else if k < 52 then 2 else 3

/-- A sensor's limit in units of 0.25 °C (Table 15-7). -/
def sensorLimit (k : Nat) : Int :=
  match sensorKind k with
  | 0 => 420 | 1 => 420 | 2 => 380 | _ => 340

/-- A sensor's trip temperature, 10 °C above its limit (Table 15-7). -/
def sensorTrip (k : Nat) : Int := sensorLimit k + 40

/-- The sensor with the smallest margin, the lowest such number, and the margin (R467). -/
def smallestMargin (rs : List Int) : Nat × Int :=
  (rs.zipIdx).foldl (fun m x => if sensorLimit x.2 - x.1 < m.2 then (x.2, sensorLimit x.2 - x.1) else m)
    (0, sensorLimit 0 - rs.getD 0 0)

/-- Payload of THERMAL (Table 15-3). -/
def thermalPayload (k : Nat) (trip : Bool) (temp limit : Int) : Bytes :=
  leBytes 2 k ++ leBytes 1 (sensorKind k) ++ leBytes 1 (if trip then 1 else 0) ++ leBytes 4 (ofSigned 32 temp) ++
  leBytes 4 (ofSigned 32 limit)

/-- The thermal controller's state set: a change is a step (Table 15-8, OD 0x9030:04). -/
def State.setThermal (s : State) (v : Nat) : State :=
  if s.power.thermal = v then s else (s.modPower fun w => { w with thermal := v }).odAdd 0 0x9030 4 1

/-- A margin object in units of 0.25 °C. -/
def State.marginOf (s : State) (sub : Nat) : Int := 4 * (s.odGet 0 0x9030 sub : Int)

/-- Thermal shortfall of a smallest margin in units of 0.25 °C: 20 °C less it, in whole °C, at least 0 (14 Table 14-6). -/
def shortfall (m : Int) : Nat := ((80 - m) / 4).toNat

/-- THERMAL_READING (R467-R469). -/
def execThermalReading (readings : List Int) (s : State) : Res := handleEvent s fun s =>
  if readings.length ≠ 88 then s
  else
    let m := smallestMargin readings
    let s1 := ((({ s with riskShort := max s.riskShort (shortfall m.2) } : State).blobSet 0 0x9030 1 (readings.flatMap fun r => leBytes 2 (ofSigned 16 r))).odSet 0 0x9030 2 (ofSigned 32 m.2)).modPower
      fun w => { w with hotDomes := (List.range 16).filter fun d => decide (340 < readings.getD (36 + d) 0) }
    if m.2 ≤ 0 then
      let s2 := s1.setThermal 3
      (if s2.power.excursion then s2
       else ((s2.modPower fun w => { w with excursion := true }).odAdd 0 0x9030 3 1).raise 0x0802 (unitId 0 0) 4 (islSpire 0)
         (thermalPayload m.1 false (readings.getD m.1 0) (sensorLimit m.1))).evalPower
    else if m.2 < s1.marginOf 5 then (s1.setThermal (min 3 (s1.power.thermal + 1))).evalPower
    else s1

/-- THERMAL_STEP_UP (R468): 100 ms at or above the step-up margin; an excursion ends with it. -/
def execThermalStepUp (s : State) : Res := handleEvent s fun s =>
  if toSigned 32 (s.odGet 0 0x9030 2) < s.marginOf 6 then s
  else ((s.modPower fun w => { w with excursion := false }).setThermal (s.power.thermal - 1)).evalPower

/-- THERMAL_TRIP (R470): once PWRGD has been asserted, whatever else is happening, reset included. -/
def execThermalTrip (sensor : Nat) (temp : Int) (s : State) : Res :=
  .next (if s.pwrgd ∧ ¬ s.tripN ∧ sensor < 88 ∧ sensorTrip sensor ≤ temp then
    let s1 := if s.boot = .off ∨ s.boot = .reset then s
      else s.fatal 0x0802 (unitId 0 0) (thermalPayload sensor true temp (sensorTrip sensor))
    { s1 with tripN := true, faultN := true, boot := .stopped, power := { s1.power with tripped := true } }
  else s)

/-! Oscillators (R458, R459). -/

/-- Clock record of an island: its tower's, or that of spire and domes (Table 15-8). -/
def clockIdx (isl : Nat) : Nat :=
  if isl < 1056 then 0x9020 + isl / 132 else if isl < 1080 then 0x9020 + (isl - 1056) % 8 else 0x9028

/-- OSCILLATOR_TRIM (R458): every island's oscillator is trimmed; a record counts the trims of its islands. -/
def execOscillatorTrim (s : State) : Res := handleEvent s fun s =>
  (List.range 9).foldl (fun t k => t.odAdd 0 (0x9020 + k) 3 (if k < 8 then 135 else 24)) s

/-- SUPPLY_DROOP (R459): the island stretches its cycles. -/
def execSupplyDroop (island : Nat) (s : State) : Res := handleEvent s fun s =>
  s.modPower fun w => { w with droop := setIns w.droop island }

/-- SUPPLY_RECOVERY (R459): the event ends with its last stretched cycle; `stretched`: its cycles more than 5% longer than
nominal. Its island's counter has fallen behind by what the stretching took, which the spec does not give (log 4). -/
def execSupplyRecovery (island stretched : Nat) (s : State) : Res := handleEvent s fun s =>
  if ¬ s.power.droop.contains island then s
  else
    let s1 := s.modPower fun w => { w with droop := setDel w.droop island }
    if stretched = 0 then s1
    else
      let d := s1.draw 64
      let s2 := (d.2.odAdd 0 (clockIdx island) 1 1).odAdd 0 (clockIdx island) 2 stretched
      { s2 with cycLost := mapSet 0 s2.cycLost island (mapGet 0 s2.cycLost island + d.1.toNat % (stretched + 1)) }

end Sys2Proof.Machine
end

