-- ==== Sys2Proof/Machine/Boot.lean ====
section
/-! DEFINITION. Power-up and resets (15 R455, R456, R462, R464), boot, repair and identity (16 R472-R484), and the test access
port (17 R492). -/

namespace Sys2Proof.Machine

open Sys2Proof

/-! Resets (R462, R464). -/

/-- The state a device reset leaves: every object at its default, dome contents gone; what the board and the surroundings
hold, the record of outputs and the queue stay (R387, R462, R464). FAULT_N stays asserted with THERMTRIP_N (Table 17-5). -/
def State.deviceReset (s : State) : State :=
  { pending := s.pending, fresh := s.fresh, out := s.out, answers := s.answers, pwrgd := s.pwrgd, rstN := true, tripN := s.tripN
    faultN := s.tripN, laserDark := s.laserDark, tap := s.tap, puf := s.puf, cxl := { perst := s.cxl.perst }
    power := { tripped := s.tripN }
    boot := if s.tripN then .stopped else if s.pwrgd then .reset else .off }

/-- PWRGD_ASSERT (R455); `orderOk`: the rails rose in the order of Sequence 15-1, whose breach has no defined behaviour. -/
def execPwrgdAssert (orderOk : Bool) (s : State) : Res :=
  if s.pwrgd then .next s
  else if orderOk then .next { s with pwrgd := true, boot := .reset }
  else .fault .wrongPowerOrder

/-- PWRGD_DEASSERT (R456): every island stops, and everything is lost. THERMTRIP_N is released (R470). -/
def execPwrgdDeassert (s : State) : Res :=
  .next (({ s with pwrgd := false, tripN := false, puf := none } : State).deviceReset)

/-- RST_N_ASSERT (R462). EXTEST, HIGHZ and CLAMP take effect while it is asserted (R492). -/
def execRstNAssert (s : State) : Res := .next s.deviceReset

/-! The boot flash (R472). -/

/-- Largest object of a directory type (Table 16-1). -/
def flashLargest (ty : Nat) : Nat :=
  match ty with
  | 1 => 1536 * 1024 | 2 => 1536 * 1024 | 3 => 2048 | 4 => 2048 | 5 => 4096 | 6 => 4096 | _ => 8192

/-- The object of a directory type: the first entry of it, if it lies within the flash and is no larger than Table 16-1 says. -/
def flashObject (flash : Bytes) (ty : Nat) : Option Bytes :=
  match (List.range 32).find? fun k => fieldAt flash (16 * k) 4 = ty with
  | none => none
  | some k =>
    let off := fieldAt flash (16 * k + 4) 4
    let len := fieldAt flash (16 * k + 8) 4
    if off + len ≤ flash.length ∧ len ≤ flashLargest ty then some ((flash.drop off).take len) else none

/-! Signed objects (R474, R475). -/

/-- SHA-512 of the identity public key in use, if there is one. -/
def State.identityHash (s : State) : Option Bytes := s.identity.map sha512

/-- The root key's modulus, big-endian. -/
def rootKeyBytes : Bytes := beBytes 512 Config.rootKey.toNat

/-- KEY of a signed object. -/
def objKey (o : Bytes) : Bytes := (o.drop 80).take 512

/-- BODY of a signed object. -/
def objBody (o : Bytes) : Bytes := (o.drop 592).take (fieldAt o 8 4)

/-- VERSION of a signed object. -/
def objVersion (o : Bytes) : Nat := fieldAt o 4 4

/-- The bytes of a signed object and its signature, as long as its LENGTH says. -/
def objWhole (o : Bytes) : Bytes := o.take (592 + fieldAt o 8 4 + 512)

/-- KEY is authorised (R475): the root key, or, for a policy record, a key the root key endorses. -/
def keyAuthorised (ty : Nat) (o : Bytes) : Bool :=
  if ty = 2 then pssVerify rootKeyBytes (sha512 (objKey o)) ((objBody o).drop 8 |>.take 512)
  else sha512 (objKey o) = sha512 rootKeyBytes

/-- Cause for which a signed object of type `ty` is rejected (Table 16-3); none where it is accepted. The conditions are
tried in the order R475 lists them (log 32). A repair record must be bound (R481). -/
def State.rejectCause (s : State) (ty : Nat) (o : Option Bytes) : Option Nat :=
  match o with
  | none => some 4
  | some o =>
    let n := 592 + fieldAt o 8 4
    let bind := (o.drop 16).take 64
    if o.length < 592 ∨ o.length < n + 512 ∨ fieldAt o 0 4 ≠ ty ∨ fieldAt o 12 4 ≠ 0 then some 4
    else if ¬ pssVerify (objKey o) (sha512 (o.take n)) ((o.drop n).take 512) then some 1
    else if ¬ keyAuthorised ty o then some 2
    else if bind.all (· = 0) then (if ty = 3 then some 3 else none)
    else if s.identityHash = some bind then none else some 3

/-- SIG_FAIL (Table 16-3): `obj` as numbered there; where nothing was found, VERSION is a free value. -/
def State.sigRecord (s : State) (obj cause : Nat) (o : Option Bytes) : Notice × State :=
  let d := s.draw 32
  let v := match o with | some b => objVersion b | none => d.1.toNat
  (faultRecord s 0x0701 (spireUnit 7) 4 (islSpire 7) (leBytes 1 obj ++ leBytes 1 cause ++ leBytes 2 0 ++ leBytes 4 v), d.2)

/-- POLICY_VERSION (Table 16-3). -/
def State.versionRecord (s : State) (obj version floor : Nat) : Notice :=
  faultRecord s 0x0702 (spireUnit 7) 4 (islSpire 7) (leBytes 4 obj ++ leBytes 4 version ++ leBytes 4 floor)

/-- A boot fault kept until the dictionary is served (R479). -/
def State.keepFault (s : State) (n : Notice) : State := { s with bootFaults := s.bootFaults ++ [n] }

/-- A bit of the boot status (Table 16-6 :02). -/
def State.bootBit (s : State) (k : Nat) : State := s.odSet 0 0xA000 2 (setBit (s.odGet 0 0xA000 2) k true)

/-- A measurement, 64 bytes (Table 16-5). -/
def State.measure (s : State) (k : Nat) (v : Bytes) : State := s.blobSet 0 0xA010 k (padTo 64 v)

/-! The boot ROM (Sequence 16-1, steps 1 to 4). -/

/-- The wrapping key: the first 32 bytes of SHA-512 of K_puf, which the PUF and the helper data give, and "pasyn-wrap" (R483). -/
def wrapKey (puf helper : Bytes) : Bytes :=
  (sha512 (beBytes 32 (Config.pufKey puf helper).toNat ++
    [0x70, 0x61, 0x73, 0x79, 0x6E, 0x2D, 0x77, 0x72, 0x61, 0x70])).take 32

/-- The identity private key unwrapped: nonce, ciphertext and tag of the flash's object 6 (R483), or the cause of SIG_FAIL: 4 for
a missing or short object, 1 for a tag that fails (log 30). K_puf and the wrapping key are part of no state: they are erased once
the unwrap has ended. -/
def unwrapIdentity (puf flash : Bytes) : Except Nat Bytes :=
  match flashObject flash 5, flashObject flash 6 with
  | some h, some w =>
    if w.length < 28 then .error 4
    else match gcmOpen (wrapKey puf h) (w.take 12) ((w.drop 12).take (w.length - 28)) (w.drop (w.length - 16)) with
      | some k => .ok k
      | none => .error 1
  | _, _ => .error 4

/-- The identity (R483, R484). -/
def State.bootIdentity (s : State) : State :=
  match unwrapIdentity (s.puf.getD []) s.flash with
  | .ok k =>
    let pub := Config.publicKey k
    (({ s with identity := some pub } : State).blobSet 0 1 8 (sha512 pub)).bootBit 2
  | .error c =>
    let r := s.sigRecord 5 c none
    r.2.keepFault r.1

/-- The policy record (R476, R477). -/
def State.bootPolicy (s : State) : State :=
  let o := flashObject s.flash 3
  match s.rejectCause 2 o, o with
  | none, some b =>
    let body := objBody b
    ((((({ s with platKey := objKey b } : State).odSet 0 0xA000 3 (fieldAt body 0 4)).odSet 0 0xA000 4 (objVersion b)).odSet 0
      0xA000 5 (fieldAt body 4 1)).measure 3 (sha512 (objWhole b))).bootBit 0
  | c, _ =>
    let r := s.sigRecord 3 (c.getD 4) o
    r.2.keepFault r.1

/-- A slot's rejection record, if it is rejected (R475, R477). -/
def State.slotRejected (s : State) (slot : Nat) : Option Notice × State :=
  let o := flashObject s.flash (1 + slot)
  match s.rejectCause 1 o with
  | some c =>
    let r := s.sigRecord (1 + slot) c o
    (some r.1, r.2)
  | none =>
    let v := objVersion (o.getD [])
    let floor := s.odGet 0 0xA000 3
    if v < floor then (some (s.versionRecord (1 + slot) v floor), s) else (none, s)

/-- A rejected slot: its record is held and raised, and its status bit set (R479, Table 16-6). -/
def State.rejectSlot (s : State) (slot : Nat) (n : Notice) : State :=
  ((s.blobSet 0 0xA000 6 (patchBytes (s.blobGet 0 0xA000 6) (64 * slot) n.bytes)).bootBit (3 + slot)).keepFault n

/-- The firmware of a slot runs (R478). -/
def State.takeSlot (s : State) (slot : Nat) : State :=
  let o := (flashObject s.flash (1 + slot)).getD []
  ((({ s with boot := .firmware } : State).odSet 0 0xA000 1 slot).odSet 0 1 7 (objVersion o)).measure 2 (sha512 (objWhole o))

/-- The recovery state (R479). -/
def State.recover (s : State) : State := ({ s with boot := .recovery, faultN := true } : State).bootBit 5

/-- RST_N_RELEASE (R465, R478, R479, R483): `flash` is what the boot ROM reads from the boot flash, `puf` what the PUF's SRAM took
at power-up, which a later release before the next power-up finds unchanged. RST_N released before PWRGD is out of the order of
Sequence 15-1. -/
def execRstNRelease (straps : BitVec 8) (flash puf : List (BitVec 8)) (s : State) : Res :=
  if ¬ s.rstN then .next s
  else if ¬ s.pwrgd then .fault .wrongPowerOrder
  else if s.tripN then .next { s with rstN := false }
  else
    let s0 : State := { s with rstN := false, straps := straps, flash := flash, puf := some (s.puf.getD puf) }
    let s1 := ((s0.odSet 0 0x4001 0 straps.toNat).bootIdentity).bootPolicy
    let a := s1.slotRejected 0
    match a.1 with
    | none => .next (a.2.takeSlot 0)
    | some ra =>
      let s2 := a.2.rejectSlot 0 ra
      let b := s2.slotRejected 1
      match b.1 with
      | none => .next (b.2.takeSlot 1)
      | some rb => .next ((b.2.rejectSlot 1 rb).recover)

/-! Firmware (Sequence 16-1, steps 5 and 6). -/

/-- The repair record (R475, R481): its bitmaps when accepted. -/
def State.bootRepair (s : State) : Bytes × State :=
  let o := flashObject s.flash 4
  match s.rejectCause 3 o, o with
  | none, some b => (objBody b, (s.measure 4 (sha512 (objWhole b))).bootBit 1)
  | c, _ =>
    let r := s.sigRecord 4 (c.getD 4) o
    ([], r.2.keepFault r.1)

/-- Bit of berth `b` of tower `t` in the repair record. -/
def repairBit (body : Bytes) (t b : Nat) : Bool := bitAt (fieldAt body (17 * t) 17) b

/-- The berth map of tower `t` (R482): usable berths take S000 upward, the rest of them are spares. -/
def berthMapOf (usable : Nat → Bool) : Bytes :=
  ((List.range 132).foldl (fun (acc : Nat × Bytes) b =>
    if usable b then (acc.1 + 1, acc.2 ++ [if acc.1 < 128 then BitVec.ofNat 8 acc.1 else 0xFE]) else (acc.1, acc.2 ++ [0xFF])) (0, [])).2

/-- Test and repair of one tower (R480-R482). -/
def State.mapTower (s : State) (body : Bytes) (fails marginal : List Nat) (t : Nat) : State :=
  let bad := fun b => fails.contains (132 * t + b)
  let usable := fun b => !bad b && !repairBit body t b
  let n := (List.range 132).countP usable
  let s1 := ((s.blobSet 0 (0x8100 + t) 1 (berthMapOf usable)).odSet 0 (0x8100 + t) 2 (n - 128)).odAdd 0 (0x8100 + t) 5
    ((List.range 132).countP fun b => marginal.contains (132 * t + b))
  let s2 : State := { s1 with fencedBerths :=
    ((List.range 132).filter fun b => !usable b).foldl (fun l b => setIns l (132 * t + b)) s1.fencedBerths }
  let s3 := ((List.range 132).filter fun b => bad b && !repairBit body t b).foldl (fun u b =>
    let d := u.draw 96
    d.2.raise 0x0601 (berthUnit t b) 4 (islBerth t b)
      (leBytes 4 0 ++ leBytes 4 (d.1.toNat % 2 ^ 32) ++ leBytes 8 (d.1.toNat / 2 ^ 32))) s2
  ((List.range 128).filter fun k => decide (n ≤ k)).foldl (fun u k =>
    u.raise 0x0605 (unitId 1 t) (s.towerPart t) (islSpire 0) (leBytes 2 (128 * t + k))) s3

/-- V0 of a tower group from calibration (R449). -/
def State.setV0 (s : State) (g mv : Nat) : State :=
  ((s.modPower fun w => { w with v0 := mapSet 0 w.v0 g mv }).odSet 0 (railIdx g) 2 mv).writeTarget g mv

/-- FIRMWARE_START (R449, R478 steps 5, 6 and 8, R480-R482): `v0a`, `v0b`: V0 of the two groups in mV; `fails`, `marginal`:
berths that fail the boot test, or its shortened cycle alone. -/
def execFirmwareStart (v0a v0b : Nat) (fails marginal : List Nat) (s : State) : Res :=
  .next (if s.boot = .firmware then
    let r := s.bootRepair
    let s1 := (r.2.setV0 0 v0a).setV0 1 v0b
    let s2 := (List.range 8).foldl (fun u t => u.mapTower r.1 fails marginal t) s1
    let fw := (flashObject s.flash (1 + s.odGet 0 0xA000 1)).getD []
    let s3 := ((s2.measure 1 (beBytes 64 Config.romDigest.toNat)).measure 5
      (sha512 ((List.range 8).flatMap fun t => s2.berthMap t))).measure 7
      (leBytes 4 (objVersion fw) ++ leBytes 4 (s2.odGet 0 0xA000 4) ++ leBytes 4 (s2.odGet 0 0xA000 3) ++ leBytes 2 0xA1 ++
        leBytes 1 (s2.odGet 0 0xA000 1) ++ [0])
    let s4 := (({ s3 with boot := .training, faultQ := s3.bootFaults ++ s3.faultQ, bootFaults := [] } : State).setReady 0 true).setReady
      1 true
    let s5 := (List.range 36).foldl (fun u p => u.startTraining p 0) s4
    (if s5.fabricReady then s5.setReady 3 true else s5).evalPower
  else s)

/-- DOME_TRAINING_COMPLETE (R478 step 7): the domes of `failed` are fenced; every line holds zeros, and MEMACT becomes 1. -/
def execDomeTrainingComplete (failed : List Nat) (s : State) : Res :=
  .next (if s.boot = .training then
    let s1 : State := { s with dome := [], poison := [], boot := .ready, domeOff := failed.foldl setIns s.domeOff }
    let s2 := failed.foldl (fun u d =>
      let f := u.draw 32
      f.2.raise 0x0602 (unitId 4 d) (u.domePart d) (islSpire 0) (leBytes 4 f.1.toNat ++ leBytes 4 0xFFFFFFFF)) s1
    s2.setReady 2 true
  else s)

/-! The test access port (17 R492). -/

/-- IDCODE. -/
def idcode : BitVec 32 := 0x10A51B5D

/-- A TAP instruction that takes effect only while RST_N is asserted; otherwise it acts as BYPASS. -/
def State.tapDrive (s : State) (ir : Nat) (f : TapState → TapState) : State :=
  if s.rstN then { s with tap := f { s.tap with ir := ir } }
  else { s with tap := { s.tap with ir := 0, dr := 0, driven := [], highz := false } }

/-- TAP_BYPASS (R492). -/
def execTapBypass (s : State) : Res := .next { s with tap := { s.tap with ir := 0, dr := 0, driven := [], highz := false } }

/-- TAP_IDCODE (R492). -/
def execTapIdcode (s : State) : Res := .next { s with tap := { s.tap with ir := 1, dr := idcode, driven := [], highz := false } }

/-- TAP_SAMPLE_PRELOAD (R492): the cells take the values shifted in; the pins are not touched. -/
def execTapSamplePreload (cells : List (Nat × Bool)) (s : State) : Res :=
  .next { s with tap := { s.tap with ir := 2, preload := cells, driven := [], highz := false } }

/-- TAP_EXTEST (R492): the pins are driven from the boundary cells. -/
def execTapExtest (s : State) : Res := .next (s.tapDrive 3 fun t => { t with driven := t.preload, highz := false })

/-- TAP_HIGHZ (R492): the outputs are at high impedance, and the bypass register is selected. -/
def execTapHighz (s : State) : Res := .next (s.tapDrive 4 fun t => { t with dr := 0, driven := [], highz := true })

/-- TAP_CLAMP (R492): the pins keep the values of the boundary cells, and the bypass register is selected. -/
def execTapClamp (s : State) : Res := .next (s.tapDrive 5 fun t => { t with dr := 0, driven := t.preload, highz := false })

end Sys2Proof.Machine
end

