-- ==== Sys2Proof/Machine/Shadow.lean ====
section
/-! DEFINITION. Lookout (14 R433, R434), the receiver of shadow pieces (R440), the sender's answers (R441) and the restore
(R442). -/

namespace Sys2Proof.Machine

open Sys2Proof

/-! The risk score (R433, R434). -/

/-- level[i] = min(255, floor(255 x[i] / full[i])) (R433). -/
def riskLevel (full x : Nat) : Nat := min 255 (255 * x / full)

/-- The five levels. -/
def State.riskLevels (s : State) (xs : List Nat) : List Nat :=
  let full := s.blobGet 0 0x7000 6
  (List.range 5).map fun i => riskLevel (fieldAt full (4 * i) 4) (xs.getD i 0)

/-- The score: the weighted sum of the levels over 256, at most 255. -/
def State.riskScore (s : State) (levels : List Nat) : Nat :=
  let w := s.blobGet 0 0x7000 7
  min 255 (((List.range 5).map fun i => fieldAt w (2 * i) 2 * levels.getD i 0).sum / 256)

/-- The shadow request of partition `q` set: a change sends a RISK notice (R434, Table 14-11). -/
def State.setShadowReq (s : State) (q : Nat) (v : Bool) : State :=
  if (s.part q).shReq = v then s
  else
    ((s.modPart q fun p => { p with shReq := v }).odSet 0 (shadowIdx q) 0xA (if v then 1 else 0)).notify 0x12 0 q (spireUnit 6)
      (leBytes 1 (s.odGet 0 0x7000 1) ++ leBytes 1 (if v then 1 else 0) ++ padTo 5 (s.blobGet 0 0x7000 5))

/-- The shadow request as the score and the mode give it (R434). -/
def State.evalShadow (s : State) (q : Nat) : State :=
  let mode := s.odGet 0 (shadowIdx q) 1
  let score := s.odGet 0 0x7000 1
  let thr := s.odGet 0 0x7000 2
  if mode = 1 then s.setShadowReq q true
  else if mode = 2 then s.setShadowReq q false
  else if thr ≤ score then s.setShadowReq q true
  else if score + s.odGet 0 0x7000 3 < thr then s.setShadowReq q false
  else s

/-- What Table 14-6 takes its inputs from, as it stands now: corrected dome reads, the thermal shortfall since the last sample,
droop events, port trainings, and marginal signatures with 16 for each erased die. -/
def State.riskSample (s : State) : List Nat :=
  let sum := fun (n base sub : Nat) => ((List.range n).map fun k => s.odGet 0 (base + k) sub).sum
  [sum 16 0x3020 1, s.riskShort, sum 9 0x9020 1, sum 36 0x4010 0xC,
   sum 8 0x8100 5 + 16 * (List.range 16).countP fun d => s.odGet 0 (0x3020 + d) 3 != 0xFF]

/-- The five inputs over the last W seconds, ten samples each: what has been counted since the sample that the window begins
at, and the largest shortfall in it (R433). `old`: held samples that the last W seconds leave behind; more than the rate of ten
says where Lookout has not scored for a time (log 28). -/
def State.riskInputs (s : State) (old : Nat) : List Nat :=
  let n := min (10 * s.odGet 0 0x7000 4 - 1) (s.riskHist.length - old)
  let now := s.riskSample
  let from' := s.riskHist.getD n []
  (List.range 5).map fun i =>
    if i = 1 then ((now :: s.riskHist.take n).map fun x => x.getD 1 0).foldl max 0 else now.getD i 0 - from'.getD i 0

/-- RISK_SCORE (R433, R434): the score of the window that ends now, and a sample for those to come. -/
def execRiskScore (old : Nat) (s : State) : Res := spireEvent 6 s fun s =>
  let l := s.riskLevels (s.riskInputs old)
  let s0 : State := { s with riskHist := (s.riskSample :: s.riskHist).take 36000, riskShort := 0 }
  let s1 := (s0.odSet 0 0x7000 1 (s.riskScore l)).blobSet 0 0x7000 5 (l.map (BitVec.ofNat 8))
  ((List.range 4).filter s1.present).foldl State.evalShadow s1

/-! Receiving (R440). -/

/-- Index of the receiver record of partition `q`. -/
def recvIdx (q : Nat) : Nat := 0x7110 + q

/-- A piece's fields (Table 14-9). -/
def pieceCode (k : Packet) : Nat := fieldAt k.payload 0 1
/-- STATUS. -/
def pieceStatus (k : Packet) : Nat := fieldAt k.payload 1 1
/-- GENERATION. -/
def pieceGen (k : Packet) : Nat := fieldAt k.payload 8 8
/-- OFFSET. -/
def pieceOff (k : Packet) : Nat := fieldAt k.payload 16 8
/-- Data bytes. -/
def pieceData (k : Packet) : Bytes := (k.payload.drop 32).take (fieldAt k.payload 24 4)

/-- A shadow packet whose piece code satisfies `p`. -/
def shadowPacket (p : Nat → Bool) (k : Packet) : Bool := k.kind = 0x1B && p (pieceCode k)

/-- Lookout's own accesses at a dome port: requester 3 (Table 10-6). What it reads back to send is the management requester's
(R437). -/
def lookoutUnit : Nat := engineUnit 3

/-- The piece comes from the partition's source (R440). -/
def State.fromSource (s : State) (k : Packet) : Bool :=
  s.present k.qdst && s.odGet 0 (recvIdx k.qdst) 4 = k.slid && s.odGet 0 (recvIdx k.qdst) 5 = k.qsrc

/-- A discarded piece is counted (R440). -/
def State.discardPiece (s : State) (q : Nat) : State := s.odAdd 0 (recvIdx q) 8 1

/-- COMMIT sent to the source of a piece (R440). -/
def State.sendCommit (s : State) (k : Packet) (status : Nat) : State :=
  s.sendPiece k.qdst k.slid k.qsrc 3 status (pieceGen k) 0 []

/-- Base address of image `i`, 0 for A. -/
def State.imageBase (s : State) (q i : Nat) : Nat := s.odGet 0 (recvIdx q) (1 + i)

/-- The image generation `g` goes to: the one that does not hold the newest committed generation (R440); which of the two
is left open where neither holds one (log 28). -/
def State.pickImage (s : State) (q g : Nat) : Nat :=
  let a := s.odGet 0 (recvIdx q) 6
  let b := s.odGet 0 (recvIdx q) 7
  if a = b then (if Config.firstImage q g then 1 else 0) else if b < a then 1 else 0

/-- The receiver's state for generation `g`: the one in progress, or a new one whose image loses what it held. -/
def State.receiving (s : State) (q g : Nat) : ShRecv × State :=
  match (s.part q).shRecv.filter fun h => h.gen = g with
  | some h => (h, s)
  | none =>
    let i := s.pickImage q g
    let h : ShRecv := { gen := g, image := i, oldest := g }
    (h, (s.modPart q fun p => { p with shRecv := some h, imgBytes := mapDel p.imgBytes i }).odSet 0 (recvIdx q) (6 + i) 0)

/-- A generation older than one that has begun since is discarded (R440). -/
def State.stalePiece (s : State) (q g : Nat) : Bool := (s.part q).shRecv.any fun h => decide (g < h.oldest)

/-- The receiver's record after a piece. -/
def State.keepRecv (s : State) (q : Nat) (h : ShRecv) : State := s.modPart q fun p => { p with shRecv := some h }

/-- A data piece of the generation in progress (R440): written at its offset, unless the image is larger than the region. -/
def State.takeData (s : State) (k : Packet) : State :=
  let q := k.qdst
  let r := s.receiving q (pieceGen k)
  let h := r.1
  let d := pieceData k
  let a := r.2.imageBase q h.image + pieceOff k
  if h.refused then r.2
  else if r.2.odGet 0 (recvIdx q) 3 < pieceOff k + d.length ∨ ¬ r.2.rangeInMap q a d.length then
    (r.2.keepRecv q { h with refused := true }).sendCommit k 2
  else (r.2.keepRecv q { h with bytes := h.bytes + d.length }).engineWrite q [(a, d)]

/-- Where a data piece would be written. -/
def State.dataRange (s : State) (k : Packet) : List (Nat × Nat) :=
  let q := k.qdst
  let i := match (s.part q).shRecv.filter fun h => h.gen = pieceGen k with
    | some h => h.image
    | none => s.pickImage q (pieceGen k)
  if s.fromSource k then [(s.imageBase q i + pieceOff k, (pieceData k).length)] else []

/-- SHADOW_DATA_PIECE (R439, R440); a piece of an undefined code is discarded and counted. -/
def execShadowDataPiece (s : State) : Res := spireEvent 6 s fun s =>
  s.onFrame (shadowPacket fun c => c = 1 || c = 0 || decide (6 < c)) lookoutUnit State.dataRange fun k t =>
    if pieceCode k ≠ 1 ∨ ¬ t.fromSource k ∨ t.stalePiece k.qdst (pieceGen k) then t.discardPiece k.qdst else t.takeData k

/-- END of the generation in progress (R440): OFFSET gives the image size. -/
def State.takeEnd (s : State) (k : Packet) : State :=
  let q := k.qdst
  let r := s.receiving q (pieceGen k)
  let h := r.1
  let size := pieceOff k
  let s1 := r.2.modPart q fun p => { p with shRecv := none }
  if h.refused then s1
  else if r.2.odGet 0 (recvIdx q) 3 < size then s1.sendCommit k 2
  else if h.bytes = size then
    ((s1.odSet 0 (recvIdx q) (6 + h.image) h.gen).modPart q fun p =>
      { p with imgBytes := mapSet 0 p.imgBytes h.image size }).sendCommit k 0
  else (s1.sendCommit k 1).shadowFault q 0x0606 h.gen (some size) (some h.bytes) (some 1)

/-- SHADOW_END_PIECE (R440). -/
def execShadowEndPiece (s : State) : Res := spireEvent 6 s fun s =>
  match s.takeDelivered (shadowPacket (· = 2)) with
  | none => s
  | some (k, t) =>
    if ¬ t.fromSource k ∨ t.stalePiece k.qdst (pieceGen k) then t.discardPiece k.qdst else t.takeEnd k

/-! The sender hears (R441). -/

/-- The restore of partition `q` ends with `status` (R442, Table 14-10 :04). -/
def State.endRestore (s : State) (q status : Nat) : State :=
  let obj := (0x7120 + q) * 256 + 3
  let s1 := (s.modPart q fun p => { p with restore := none }).odSet 0 (0x7120 + q) 4 status
  match s.runningOf obj q with
  | some r => (s1.endRunning obj q).complete q (0x7120 + q) 3 status r.token r.value []
  | none => s1

/-- A COMMIT for the generation being sent. -/
def State.sentCommit (s : State) (q : Nat) (h : ShSend) (k : Packet) : State :=
  let i := shadowIdx q
  let st := pieceStatus k
  if st = 0 then
    ((((s.modPart q fun p => { p with shSend := none }).odSet 0 i 4 h.gen).odAdd 0 i 6 1).odSet 0 i 5 0).notify 0x13 0 q (spireUnit 6)
      (leBytes 8 h.gen ++ leBytes 8 h.size ++ leBytes 2 k.slid)
  else if st = 1 then s.shadowFault q 0x0606 h.gen (some h.size) none (some 1)
  else if st = 2 then (s.shadowFault q 0x0606 h.gen (some h.size) none (some 2)).loseShadow q h.gen (some h.size) none (some 2)
  else s

/-- SHADOW_COMMIT_PIECE (R441, R442): one from the buddy about the generation being sent, or status 3 about a restore; another
is discarded. -/
def execShadowCommitPiece (s : State) : Res := spireEvent 6 s fun s =>
  match s.takeDelivered (shadowPacket (· = 3)) with
  | none => s
  | some (k, t) =>
    let q := k.qdst
    if ¬ t.present q then t
    else match (t.part q).shSend.filter fun h => h.gen = pieceGen k && t.odGet 0 (shadowIdx q) 2 = k.slid with
      | some h => t.sentCommit q h k
      | none =>
        if (t.part q).restore.any (fun r => r.gen = pieceGen k) ∧ pieceStatus k = 3 ∧ t.odGet 0 (0x7120 + q) 1 = k.slid then
          t.endRestore q 3
        else t

/-- SHADOW_COMPLETION_TIMEOUT (R441): the completion limit has passed since END. -/
def execShadowCompletionTimeout (q : Nat) (s : State) : Res := spireEvent 6 s fun s =>
  match (s.part q).shSend with
  | some h => if h.ended then s.loseShadow q h.gen (some h.size) none (some 3) else s
  | none => s

/-! Restore (R442). -/

/-- The start-restore command (R442): RESTORE REQUEST goes to the device named. -/
def cmdStartRestore (q val token : Nat) (s : State) : CmdRes :=
  let p := s.part q
  let obj := (0x7120 + q) * 256 + 3
  if s.jobRuns q || !p.batches.isEmpty || !p.cols.isEmpty || p.upd.isSome || p.shSend.isSome || s.stillRuns obj q then (stBusy, s)
  else
    let gen := s.odGet 0 (0x7120 + q) 2
    let s1 := (s.modPart q fun p => { p with restore := some { gen := gen, token := token } }).startRunning
      { obj := obj, q := q, token := token, value := val }
    (stDone, s1.sendPiece q (s.odGet 0 (0x7120 + q) 1) (s.odGet 0 (shadowIdx q) 3) 4 0 gen 0 [])

/-- START_RESTORE (R442). -/
def execStartRestore (q val token : Nat) (s : State) : Res := runCmd q s (cmdStartRestore q val token s)

/-- The image that holds generation `g`, if one does. -/
def State.imageOf (s : State) (q g : Nat) : Option Nat :=
  if g = 0 then none
  else if s.odGet 0 (recvIdx q) 6 = g then some 0
  else if s.odGet 0 (recvIdx q) 7 = g then some 1
  else none

/-- RESTORE_REQUEST (R442): the image is streamed, or COMMIT answers with status 3. -/
def execRestoreRequest (s : State) : Res := spireEvent 6 s fun s =>
  s.onFrame (shadowPacket (· = 4)) lookoutUnit
    (fun s k => match s.imageOf k.qdst (pieceGen k) with
      | some i => [(s.imageBase k.qdst i, mapGet 0 (s.part k.qdst).imgBytes i)]
      | none => [])
    fun k t =>
      let q := k.qdst
      if ¬ t.fromSource k then t.discardPiece q
      else match t.imageOf q (pieceGen k) with
        | none => t.sendCommit k 3
        | some i =>
          let size := mapGet 0 (t.part q).imgBytes i
          let a := t.imageBase q i
          let bad := t.poisonLines a size
          let s1 := if bad ≠ [] then (t.countUe bad).unitUe q bad
            else t.sendRun q k.slid k.qsrc 5 (pieceGen k) 0 (t.domeRead a size)
          s1.sendPiece q k.slid k.qsrc 6 0 (pieceGen k) size []

/-- The restore a piece belongs to. -/
def State.restoreOf (s : State) (k : Packet) : Option Restore :=
  if s.present k.qdst ∧ s.odGet 0 (0x7120 + k.qdst) 1 = k.slid then
    (s.part k.qdst).restore.filter fun r => r.gen = pieceGen k
  else none

/-- RESTORE_DATA_PIECE (R442): held until the image is whole. -/
def execRestoreDataPiece (s : State) : Res := spireEvent 6 s fun s =>
  match s.takeDelivered (shadowPacket (· = 5)) with
  | none => s
  | some (k, t) =>
    match t.restoreOf k with
    | none => t.discardPiece k.qdst
    | some r =>
      let d := pieceData k
      t.modPart k.qdst fun p => { p with restore := some { r with
        bytes := r.bytes + d.length, data := memWrite r.data (pieceOff k) d } }

/-- Objects of the state block written (R442 step 3, Table 14-8). -/
def State.placeObjects (s : State) (q : Nat) (b : Bytes) : State :=
  let s1 := (((s.odSet q 0x2101 0 (fieldAt b 8 8)).odSet q 0x6400 4 (fieldAt b 16 8)).odSet q 0x6400 7 (fieldAt b 24 4)).odSet q
    0x6300 4 (fieldAt b 28 4)
  let s2 := (List.range 16).foldl (fun t k =>
    (t.blobSet q (0x5010 + k) 0 (sliceBytes b (4096 + 8192 * k) (2 * fieldAt b (32 + 2 * k) 2))).blobSet q (0x6010 + k) 0
      (sliceBytes b (135168 + 8192 * k) (2 * fieldAt b (64 + 2 * k) 2))) s1
  let s3 := (List.range 256).foldl (fun t k =>
    (t.odSet q (0x6100 + k) 5 (fieldAt b (128 + 8 * k) 1)).odSet q (0x6100 + k) 6 (fieldAt b (132 + 8 * k) 4)) s2
  let s4 := (List.range 16).foldl (fun t k =>
    let o := 2176 + 32 * k
    (((((t.odSet q (0x4200 + k) 1 (fieldAt b o 8)).odSet q (0x4200 + k) 2 (fieldAt b (o + 8) 8)).odSet q (0x4200 + k) 3
      (fieldAt b (o + 16) 2)).odSet q (0x4200 + k) 4 (fieldAt b (o + 18) 2)).odSet q (0x4200 + k) 5 (fieldAt b (o + 20) 1))) s3
  if q = 0 then s4.blobSet 0 0x5020 0 (sliceBytes b 2688 256) else s4

/-- A pruned working copy written again (R442 step 6, R289): as the pruning unit writes it, with the key of step `t`. -/
def State.restorePrune (s : State) (q t addr slot : Nat) : State :=
  let bad := s.poisonLines addr 128
  if bad ≠ [] then (s.countUe bad).unitUe q bad
  else
    let b := s.domeRead addr 128
    let src := Desc.ofBytes (b.take 64)
    let dst := Desc.ofBytes (b.drop 64)
    if s.pruneValid q src dst then
      let w := (List.range dst.tiles).foldl (fun (u : State × List Nat) k =>
        let v := u.1.pruneTile { q := q, addr := addr, slot := slot } src dst t k
        (v.1, u.2 ++ v.2)) (s, [])
      w.1.unitUe q w.2
    else s

/-- A group's working copy written again (R442 step 6). -/
def State.restoreWork (s : State) (q t num : Nat) : State :=
  let g := s.grp q num
  if g.work = 0 then s
  else if g.prune then s.restorePrune q t g.work g.pslot
  else
    let bad := s.poisonLines g.work 64
    if bad ≠ [] then (s.countUe bad).unitUe q bad else s.writeWork q t g (List.range g.rows)

/-- Steps 2 to 6 of R442. A record or region outside the partition's address map has no place to be written. -/
def State.placeImage (s : State) (q : Nat) (r : Restore) : State :=
  let b := memRead r.data 0 stateBlockBytes
  let gtab := fieldAt b 16 8
  let put := fun (t : State) (a : Nat) (o n : Nat) =>
    if t.rangeInMap q a n then t.engineWrite q [(a, memRead r.data o n)] else t
  let s1 := put s gtab stateBlockBytes (128 * s.odGet q 0x6400 6)
  let s2 := s1.odSet q 0x6400 4 gtab
  let s3 := (s2.imageRegions q).foldl (fun t x => put t x.2.2.1 x.2.1 x.2.2.2) s2
  let s4 := ((s3.placeObjects q b).modPart q fun p => { p with cancelled := [] }).odSet q 0x6400 3 r.gen
  (s4.enabledGroups q).foldl (fun t num => t.restoreWork q ((r.gen + 2 ^ 64 - 1) % 2 ^ 64) num) s4

/-- Dome ranges a restore writes: the group record table, the regions its records name, and the working copies. -/
def State.restoreRanges (s : State) (k : Packet) : List (Nat × Nat) :=
  match s.restoreOf k with
  | none => []
  | some r =>
    let q := k.qdst
    let gtab := memNat r.data 16 8
    let n := 128 * s.odGet q 0x6400 6
    let v := (s.odSet q 0x6400 4 gtab).domePut gtab (memRead r.data stateBlockBytes n)
    (gtab, n) :: ((v.imageRegions q).map fun x => (x.2.2.1, x.2.2.2)) ++ (v.enabledGroups q).flatMap fun num =>
      let g := v.grp q num
      if g.work = 0 then [] else if g.prune then s.pruneRanges { q := q, addr := g.work, slot := g.pslot }
      else (g.work, 64) :: workRanges (Desc.ofBytes (s.domeRead g.work 64))

/-- RESTORE_END_PIECE (R442). -/
def execRestoreEndPiece (s : State) : Res := spireEvent 6 s fun s =>
  s.onFrame (shadowPacket (· = 6)) lookoutUnit State.restoreRanges fun k t =>
    match t.restoreOf k with
    | none => t.discardPiece k.qdst
    | some r =>
      if r.bytes = pieceOff k then (t.placeImage k.qdst r).endRestore k.qdst 0 else t.endRestore k.qdst 1

end Sys2Proof.Machine
end

