-- ==== Sys2Proof/Machine/Dict.lean ====
section
/-! DEFINITION. Who reaches which object of the dictionary (13.1, 13.2): the requester classes of Table 13-4, the instance a
request means (R389), what each class sees (R29, R322, R355, R383, R388, R400), the access rights of Table 13-2, and the
present value and size of an object. -/

namespace Sys2Proof.Machine

open Sys2Proof

/-! Requester classes (Table 13-4). -/

/-- A list of U16 logical IDs. -/
def lidList (b : Bytes) : List Nat := (List.range (b.length / 2)).map fun k => fieldAt b (2 * k) 2

/-- The requester is the administrator (Table 13-4). -/
def State.isAdmin (s : State) : Requester → Bool
  | .cxl => true
  | .shroud lid => (lidList (s.blobGet 0 0x1020 1)).contains lid
  | .mctp _ => false

/-- The requester is the management controller (Table 13-4). -/
def isMctp : Requester → Bool
  | .mctp _ => true
  | .cxl => false
  | .shroud _ => false

/-- The SLID is in the owner list of partition `q` (Table 13-12 :06). -/
def State.ownerListed (s : State) (q : Nat) : Requester → Bool
  | .shroud lid => (lidList (s.blobGet 0 (0x1010 + q) 6)).contains lid
  | .cxl => false
  | .mctp _ => false

/-- The partitions the requester acts for, ascending (Table 13-4). -/
def State.actsFor (s : State) (rq : Requester) : List Nat :=
  (List.range 4).filter fun q => (q = 0 && s.isAdmin rq) || s.ownerListed q rq

/-- The requester is an observer (Table 13-4). -/
def State.isObserver (s : State) (rq : Requester) : Bool := !s.isAdmin rq && !isMctp rq && (s.actsFor rq).isEmpty

/-- The number a requester is held under: 0 the mailbox, 0x10000 + LID, 0x20000 + endpoint. -/
def reqCode : Requester → Nat
  | .cxl => 0
  | .shroud lid => 0x10000 + lid
  | .mctp eid => 0x20000 + eid

/-! What a request means. -/

/-- The object and instance a request means. -/
structure Target where
  /-- its row -/
  row : OdRow
  /-- instance it is held under: the partition for a per-partition object, else 0 -/
  q : Nat
  /-- the partition the object belongs to, 4 for none -/
  part : Nat
  /-- QSEL as resolved (Table 13-6) -/
  qsel : Nat
deriving DecidableEq, Repr

/-- A tower's counter records, which only its own partition sees (Table 13-10, 04, 06). -/
def ownTowerOnly (i : Nat) : Bool := (0x2310 ≤ i && i ≤ 0x2317) || (0x2410 ≤ i && i ≤ 0x2417)

/-- The partition whose unit an index of a device-wide record names, 4 for none (R322, R355). -/
def State.unitPart (s : State) (r : OdRow) (i : Nat) : Nat :=
  match r.scope with
  | .tower => s.towerPart (i - r.lo)
  | .dome => s.domePart (i - 0x3020)
  | .edge => s.edgePart (i - 0x3200)
  | .port => s.portPart (i - 0x4010)
  | .perQ => i - r.lo
  | .dev => 4
  | .part => 4

/-- A per-partition record whose index names its partition: 14's objects (Table 14-10). -/
def perPartition (r : OdRow) (i : Nat) : Bool := r.scope = .part || (r.scope = .perQ && 0x7000 ≤ i)

/-- Whether a requester sees a device-wide object: status 0 where it does (R388, R29, R322, R355, R383). Of the partitions'
records, 0x1010 to 0x1013, an owner sees its own; another is denied it, and an absent one names no object (R389). -/
def State.seesDevice (s : State) (rq : Requester) (r : OdRow) (i : Nat) : Nat :=
  if i = 0x1800 then (if s.isAdmin rq then 0 else stNoObject)
  else if s.isAdmin rq || isMctp rq then 0
  else if s.isObserver rq then (if i ≤ 0x0FFF then 0 else if r.scope = .dev ∨ r.scope = .perQ then stDenied else stNoObject)
  else if r.scope = .dev ∨ (s.actsFor rq).contains (s.unitPart r i) then 0
  else if r.scope = .perQ ∧ s.present (i - r.lo) then stDenied
  else stNoObject

/-- The partition a per-partition request means, or the status that refuses it (R389). -/
def State.resolveQ (s : State) (rq : Requester) (i sub qsel : Nat) : Except Nat Nat :=
  let acts := s.actsFor rq
  match acts with
  | [] => .error stNoObject
  | a :: _ =>
    let q := if qsel.testBit 7 then qsel % 4 else a
    if ¬ s.present q then .error stNoObject
    else if acts.contains q || (s.isAdmin rq && i = 0x2020 && sub = 3) then .ok q
    else .error stDenied

/-- The recovery state answers MCTP requests for identity and security objects only (16 R479). -/
def State.recoveryHides (s : State) (rq : Requester) (i : Nat) : Bool :=
  s.boot = .recovery && !(isMctp rq && (i ≤ 0x0FFF || (0xA000 ≤ i && i ≤ 0xAFFF)))

/-- The object a request names, or the status 0x03 or 0x04 that refuses it (R384, R389, R400). -/
def State.lookup (s : State) (rq : Requester) (i sub qsel : Nat) : Except Nat Target :=
  match odFind i sub with
  | none => .error stNoObject
  | some r =>
    if s.recoveryHides rq i then .error stNoObject
    else if r.scope = .part then
      match s.resolveQ rq i sub qsel with
      | .error e => .error e
      | .ok q => .ok { row := r, q := q, part := q, qsel := qselOf q }
    else if ownTowerOnly i then
      match s.resolveQ rq i sub qsel with
      | .error e => .error e
      | .ok q =>
        if s.unitPart r i = q then .ok { row := r, q := 0, part := q, qsel := qselOf q } else .error stNoObject
    else if perPartition r i then
      let q := i - r.lo
      if (s.actsFor rq).isEmpty ∨ ¬ s.present q then .error stNoObject
      else if (s.actsFor rq).contains q then .ok { row := r, q := 0, part := q, qsel := qselOf q }
      else .error stDenied
    else
      let e := s.seesDevice rq r i
      if e = 0 then .ok { row := r, q := 0, part := s.unitPart r i, qsel := 0x80 } else .error e

/-- QSEL of an answer whose request names no object it may use: [7] = 1, the partition it names for a per-partition object, zero
for a device-wide one (Table 13-6). -/
def unresolvedQsel (i sub qsel : Nat) : Nat :=
  match odFind i sub with
  | some r => if (r.scope = .part ∨ perPartition r i ∨ ownTowerOnly i) ∧ qsel.testBit 7 then 128 + qsel % 4 else 128
  | none => if qsel.testBit 7 then 128 + qsel % 4 else 128

/-- QSEL of an answer, as resolved (Table 13-6). -/
def State.ansQsel (s : State) (rq : Requester) (i sub qsel : Nat) : Nat :=
  match s.lookup rq i sub qsel with
  | .ok t => t.qsel
  | .error _ => unresolvedQsel i sub qsel

/-! Rights (Table 13-2). -/

/-- The object's value can be read. -/
def OdRight.readable : OdRight → Bool
  | .ro => true
  | .rw => true
  | .rwp => true
  | .rwa => true
  | .wo => false
  | .cmd => false

/-- The requester has RWA rights over index `i`: the administrator, or the management controller over 0x9000-0x9FFF. -/
def State.adminRights (s : State) (rq : Requester) (i : Nat) : Bool :=
  s.isAdmin rq || (isMctp rq && 0x9000 ≤ i && i ≤ 0x9FFF)

/-- The requester may write the object (Table 13-2, R389). -/
def State.mayWrite (s : State) (rq : Requester) (t : Target) (i sub : Nat) : Bool :=
  match t.row.right with
  | .ro => false
  | .rw => true
  | .wo => true
  | .rwp => (s.actsFor rq).contains t.part
  | .rwa => s.adminRights rq i
  | .cmd =>
    if t.row.scope = .dev ∨ t.row.scope = .port ∨ t.part = 4 then s.isAdmin rq
    else (s.actsFor rq).contains t.part || (s.isAdmin rq && i = 0x2020 && sub = 3)

/-! Values and sizes. -/

/-- The value's bytes, little-endian (R385). -/
def State.valueBytes (s : State) (t : Target) (i sub : Nat) : Bytes :=
  if t.row.ty.isBytes then s.blobGet t.q i sub else leBytes t.row.ty.size (s.odGet t.q i sub)

/-- Present size of the value: TOTAL (Table 13-6); a command or write-only object has none. -/
def State.totalOf (s : State) (t : Target) (i sub : Nat) : Nat :=
  if t.row.right.readable then (s.valueBytes t i sub).length else 0

/-- Generation in the answer header: zero for other than BLOB (Table 13-6). -/
def State.genOf (s : State) (t : Target) (i sub : Nat) : Nat :=
  if t.row.ty = .blob then s.blobGenOf t.q i sub else 0

/-- Largest size of a value in bytes (Table 13-7 DESCRIBE). -/
def OdRow.largest (r : OdRow) : Nat := if r.ty.isBytes then r.size else r.ty.size

/-- A list of U16 values, whose length must be even. -/
def evenSized (i sub : Nat) : Bool :=
  (0x5010 ≤ i && i ≤ 0x501F) || (0x6010 ≤ i && i ≤ 0x601F) || (0x1010 ≤ i && i ≤ 0x1013 && sub = 6) || (i = 0x1020 && sub = 1)

/-- A written value of `n` bytes fits the type and size (Table 13-8, 0x06). -/
def sizeFits (r : OdRow) (i sub n : Nat) : Bool :=
  if r.ty.isBytes then (if r.var || r.ty = .str then decide (n ≤ r.size) && (!evenSized i sub || n % 2 = 0) else n = r.size)
  else n = r.ty.size

/-- Largest segment of the requester's transport (Table 13-9). -/
def largestSegment : Requester → Nat
  | .cxl => 4064
  | .shroud _ => 16320
  | .mctp _ => 992

/-- Subindices 0x01 upward at which record `i` has an entry (R384). -/
def recordSubs (i : Nat) : List Nat := ((List.range 256).filter fun k => 1 ≤ k && (odFind i k).isSome)

end Sys2Proof.Machine
end

