-- ==== Sys2Proof/Machine/Halyard.lean ====
section
/-! DEFINITION. Expert routing with Halyard (07): batches, selection, the counting exchanges, assignment, dispatch and
return of rows, cancellation, the slow tier, the predictor, the books and the counters. -/

namespace Sys2Proof.Machine

open Sys2Proof

/-! The batch record (Table 7-1) and the expert map (Table 7-3). -/

/-- Little-endian field of the batch record. -/
def Batch.fld (b : Batch) (o n : Nat) : Nat := fieldAt b.record o n
/-- LAYER. -/
def Batch.layer (b : Batch) : Nat := b.fld 3 1
/-- K. -/
def Batch.k (b : Batch) : Nat := b.fld 4 1
/-- GATE. -/
def Batch.gate (b : Batch) : Nat := b.fld 5 1 % 4
/-- SFMT: BF16 scores. -/
def Batch.bf16 (b : Batch) : Bool := bitAt (b.fld 5 1) 2
/-- RENORM. -/
def Batch.renorm (b : Batch) : Bool := bitAt (b.fld 5 1) 3
/-- BIASEN. -/
def Batch.biasen (b : Batch) : Bool := bitAt (b.fld 5 1) 4
/-- REPLAY. -/
def Batch.replay (b : Batch) : Bool := bitAt (b.fld 5 1) 5
/-- GROUP. -/
def Batch.group (b : Batch) : Nat := b.fld 6 1
/-- TMASK. -/
def Batch.tmask (b : Batch) : Nat := b.fld 7 1
/-- N. -/
def Batch.n (b : Batch) : Nat := b.fld 8 4
/-- E. -/
def Batch.e (b : Batch) : Nat := b.fld 12 2
/-- CAP. -/
def Batch.cap (b : Batch) : Nat := b.fld 16 4
/-- POOL. -/
def Batch.pool (b : Batch) : Nat := b.fld 20 4
/-- ROWBYTES. -/
def Batch.rowBytes (b : Batch) : Nat := b.fld 24 4
/-- ROWSTRIDE. -/
def Batch.stride (b : Batch) : Nat := b.fld 28 4
/-- An address field. -/
def Batch.addr (b : Batch) (o : Nat) : Nat := b.fld o 8
/-- EVSPAR as a logical spar number. -/
def Batch.evSpar (b : Batch) : Nat := b.fld 184 2 % 1024
/-- EVEP. -/
def Batch.evEp (b : Batch) : Nat := b.fld 186 1
/-- Bytes of a score. -/
def Batch.scoreBytes (b : Batch) : Nat := if b.bf16 then 2 else 4

/-- An expert map entry (Table 7-3). -/
def emapEntry (m : Bytes) (e : Nat) : EmapEnt :=
  let o := 32 * e
  let fl := fieldAt m (o + 4) 1
  { lid := fieldAt m o 2, loc := fieldAt m (o + 2) 2, cold := bitAt fl 0, masked := bitAt fl 1, tsrc := fieldAt m (o + 5) 1,
    tlid := fieldAt m (o + 6) 2, tbytes := fieldAt m (o + 8) 4, taddr := fieldAt m (o + 16) 8, land := fieldAt m (o + 24) 8 }

/-- Entry of expert `e`. -/
def Batch.ent (b : Batch) (e : Nat) : EmapEnt := b.emap.getD e {}

/-- Unmasked experts, ascending (R214). -/
def Batch.unmasked (b : Batch) : List Nat := (List.range b.emap.length).filter fun e => !(b.ent e).masked

/-- Experts held by the device `lid`, ascending (R224). -/
def Batch.heldBy (b : Batch) (lid : Nat) : List Nat := b.unmasked.filter fun e => (b.ent e).lid = lid

/-- L: the largest LOCAL of a local expert, plus 1 (R224). -/
def Batch.locals (b : Batch) (own : Nat) : Nat := ((b.heldBy own).map fun e => (b.ent e).loc + 1).foldl max 0

/-- The local expert with number `j`. -/
def Batch.localExpert (b : Batch) (own j : Nat) : Option Nat := (b.heldBy own).find? fun e => (b.ent e).loc = j

/-- The dispatch group (R206). -/
def State.dispatchGroup (s : State) (q g : Nat) : List Nat := groupIds (s.blobGet q (0x5010 + g % 16) 0)

/-- Group of a batch. -/
def State.batchGroup (s : State) (q : Nat) (b : Batch) : List Nat := s.dispatchGroup q b.group

/-- Extent of `n` rows of a region. -/
def Batch.rowsExtent (b : Batch) (n : Nat) : Nat := if n = 0 then 0 else (n - 1) * b.stride + b.rowBytes

/-- Every region of the record: address and extent (R212). -/
def Batch.regions (b : Batch) (own : Nat) : List (Nat × Nat) :=
  let l := b.locals own
  let rx := b.rowsExtent (l * b.cap)
  let po := b.rowsExtent b.pool
  [(b.addr 32, b.n * b.e * b.scoreBytes), (b.addr 40, 4 * b.e), (b.addr 48, 32 * b.e), (b.addr 56, b.rowsExtent b.n),
   (b.addr 64, rx), (b.addr 72, po), (b.addr 80, rx), (b.addr 88, po), (b.addr 96, b.rowsExtent (b.n * b.k)),
   (b.addr 104, 4 * b.n * b.k), (b.addr 112, 4 * b.n * b.k), (b.addr 120, 2 * b.n), (b.addr 128, 8 * b.n * b.k),
   (b.addr 136, 16 * l), (b.addr 144, 4 * b.pool), (b.addr 152, 128), (b.addr 160, 8 * l), (b.addr 176, 8 * (l * b.cap + b.pool))] ++
  (if b.addr 168 = 0 then [] else [(b.addr 168, 32 * l)])

/-- The record's fixed fields are within their ranges (Table 7-1). -/
def State.recordFieldsOk (s : State) (q : Nat) (b : Batch) : Bool :=
  decide (1 ≤ b.k ∧ b.k ≤ 16) && decide (b.gate ≤ 2) && decide (b.group ≤ 15) && b.tmask != 0 &&
  (maskBits b.tmask 8).all (fun t => (s.towersOf q).contains t) && decide (1 ≤ b.n ∧ b.n ≤ 65536) &&
  decide (1 ≤ b.e ∧ b.e ≤ 8192) && decide (1 ≤ b.cap ∧ b.cap ≤ 65535) && decide (b.pool ≤ 1048575) &&
  decide (b.rowBytes % 64 = 0 ∧ 64 ≤ b.rowBytes ∧ b.rowBytes ≤ 16320) &&
  decide (b.stride % 64 = 0 ∧ b.rowBytes ≤ b.stride) && s.sparPart b.evSpar = q && decide (b.evEp ≤ 31) &&
  b.addr 48 % 64 = 0 && s.rangeInMap q (b.addr 48) (32 * b.e)

/-- Every region is aligned and lies in the partition's map (R212). -/
def State.regionsOk (s : State) (q : Nat) (b : Batch) : Bool :=
  (b.regions s.ownLid).all fun r => r.1 % 64 = 0 && s.inMap q r.1 && s.rangeInMap q r.1 r.2

/-- The expert map breaks a rule of R224. -/
def State.emapBad (s : State) (q : Nat) (b : Batch) : Bool :=
  let g := s.batchGroup q b
  let places := b.unmasked.map fun e => ((b.ent e).lid, (b.ent e).loc)
  b.unmasked.any (fun e => !g.contains (b.ent e).lid) || decide (¬ places.Nodup) ||
  b.emap.any fun x => decide (1024 ≤ x.loc) || x.cold && (x.tbytes = 0 || x.tbytes % 64 != 0)

/-! Batches of a partition. -/

/-- The open batch of a pair (R207). -/
def State.batchOf (s : State) (q tag gen : Nat) : Option Batch :=
  (s.part q).batches.find? fun b => b.tag = tag && b.gen = gen && b.phase != .opening

/-- The batch whose OPENs are arriving. -/
def State.openingOf (s : State) (q tag gen : Nat) : Option Batch :=
  (s.part q).batches.find? fun b => b.tag = tag && b.gen = gen && b.phase = .opening

/-- A batch taken out of its partition's list. -/
def State.dropBatch (s : State) (q : Nat) (b : Batch) : State :=
  s.modPart q fun p => { p with batches := p.batches.filter fun c =>
    !(c.tag = b.tag && c.gen = b.gen && ((c.phase = .opening) == (b.phase = .opening))) }

/-- A batch ends: what it still asked for at the dome ports will not be made. -/
def State.endBatch (s : State) (q : Nat) (b : Batch) : State := (s.dropBatch q b).dropAsks (engineUnit 0) q

/-- An open batch replaced. -/
def State.putBatch (s : State) (q : Nat) (b : Batch) : State :=
  s.modPart q fun p => { p with batches := p.batches.map fun c =>
    if c.tag = b.tag && c.gen = b.gen && c.phase != .opening then b else c }

/-- Open batches of a partition. -/
def State.openBatches (s : State) (q : Nat) : Nat := (s.part q).batches.countP fun b => b.phase != .opening

/-- A routing counter of a layer slot grows by `n` (Table 7-8). -/
def State.routeAdd (s : State) (q slot sub n : Nat) : State := if n = 0 then s else s.odAdd q (0x5100 + slot) sub n

/-- Stale rows: slot 0 (R243). -/
def State.staleRows (s : State) (q n : Nat) : State := s.routeAdd q 0 0xA n

/-- An event of a batch (Table 7-2). -/
def State.batchEvent (s : State) (q : Nat) (b : Batch) (code status j : Nat) : State :=
  s.event q b.evSpar b.evEp (leBytes 1 code ++ leBytes 1 status ++ leBytes 2 b.tag ++ leBytes 1 b.gen ++ leBytes 3 0 ++ leBytes 4 j)

/-- Token range of the `i`-th tower of TMASK (R209). -/
def Batch.tokens (b : Batch) (i : Nat) : List Nat :=
  let m := (maskBits b.tmask 8).length
  let c := ceilDiv b.n m
  let lo := min b.n (i * c)
  let hi := if i + 1 = m then b.n else min b.n ((i + 1) * c)
  (List.range (hi - lo)).map (lo + ·)

/-! Command records (R208). -/

/-- The oldest command record of a tower's Halyard unit. -/
def State.halHead (s : State) (t : Nat) : Option Bytes :=
  let b := mapGet [] s.halCmd t
  if b.length < 64 then none else some (b.take 64)

/-- It is taken. -/
def State.halPop (s : State) (t : Nat) : State :=
  { s with halCmd := mapSet [] s.halCmd t ((mapGet [] s.halCmd t).drop 64) }

/-- A command of code `code` at the head of unit `t`'s stream is carried out; one of an undefined code is discarded and
counted (R208, R243). -/
def halRow (t code : Nat) (f : Nat → Bytes → State → State) (s : State) : Res := spireEvent 3 s fun s =>
  if s.towerOut 9 t then s else
  match s.halHead t with
  | none => s
  | some r =>
    let c := fieldAt r 0 1
    let q := s.towerPart t
    if c = code then f q r s
    else if c = 0 ∨ 5 < c then (s.halPop t).staleRows q 1
    else s

/-- A command about an open batch (R208): discarded and counted as a stale row when its pair names none. -/
def halOnBatch (t q : Nat) (r : Bytes) (s : State) (f : Batch → State → State) : State :=
  match s.batchOf q (fieldAt r 2 2) (fieldAt r 4 1) with
  | none => (s.halPop t).staleRows q 1
  | some b => f b s

/-! Packets (Table 7-4). -/

/-- Header of a Halyard packet. -/
def halHeader (s : State) (q : Nat) (b : Batch) (kind final rows rowBytes : Nat) : Bytes :=
  padTo 32 (leBytes 1 kind ++ leBytes 1 b.gen ++ leBytes 2 b.tag ++ leBytes 2 final ++ leBytes 2 s.ownLid ++
    leBytes 1 b.group ++ leBytes 1 q ++ leBytes 2 rows ++ leBytes 4 rowBytes)

/-- Where a packet for `final` is sent: to it, or to its rack's gateway (R227). -/
def State.rowTarget (s : State) (final : Nat) : Nat :=
  if final / 256 = s.ownLid / 256 then final
  else final / 256 * 256 + fieldAt (s.blobGet 0 0x5020 0) (final / 256) 1

/-- Rows for one device, as many in each packet as fit (R226). -/
def State.sendRows (s : State) (q : Nat) (b : Batch) (kind final : Nat) (rows : List (Nat × Bytes)) : State :=
  (chunks ((16368 - 32) / (16 + b.rowBytes)) rows.length rows).foldl (fun t c =>
    t.sendFlow 1 q 0x10 (s.rowTarget final) q
      (halHeader s q b kind final c.length b.rowBytes ++ c.flatMap fun r => padTo 16 (leBytes 8 r.1) ++ r.2)) s

/-- Key of a received entry of an exchange (R220). -/
def exKey (exch round i : Nat) : Nat := (exch * 256 + round) * 16384 + i

/-- One counting frame sent (Table 7-11). -/
def State.sendCount (s : State) (q : Nat) (b : Batch) (final exch round first count : Nat) (entries : Bytes) : State :=
  s.sendFlow 1 q 0x11 final q (halHeader s q b 3 final 0 0 ++
    padTo 16 (leBytes 1 exch ++ leBytes 1 round ++ leBytes 2 0 ++ leBytes 4 first ++ leBytes 4 count) ++ entries)

/-- A scan vector sent in frames of at most 16,320 entry bytes (Table 7-11). -/
def State.sendVector (s : State) (q : Nat) (b : Batch) (final exch round : Nat) (v : List Nat) : State :=
  let w := if exch = 1 then 4 else 8
  let m := 16320 / w
  ((chunks m v.length v).zipIdx).foldl (fun t c =>
    t.sendCount q b final exch round (c.2 * m) c.1.length (c.1.flatMap (leBytes w))) s

/-- A cancel frame (R220). -/
def State.sendCancel (s : State) (q : Nat) (b : Batch) (final : Nat) : State :=
  s.sendFlow 1 q 0x11 final q (halHeader s q b 4 final 0 0)

/-! The slow tier (7.7, 12 R367-R369). -/

/-- More lines of fetch `i` from host memory are asked for, within 2,048 outstanding (R367): each RdCurr counts and waits for
the egress arbiter as requester 3 (Table 10-6, 12 Table 12-11 :08). -/
def fetchAsk : Nat → State → Nat → State
  | 0, s, _ => s
  | n + 1, s, i =>
    match s.fetches[i]? with
    | none => s
    | some f =>
      if s.memOk ∧ f.src = 0 ∧ f.started ∧ ¬ f.failed ∧ f.asked * 64 < f.left ∧ s.rdCurr < 2048 then
        let s1 : State := { s with rdCurr := s.rdCurr + 1, fetches := s.fetches.set i { f with asked := f.asked + 1 } }
        fetchAsk n ((s1.odAdd 0 0x1800 8 1).toHost 3 { kind := 6, addr := f.addr + 64 * f.asked }) i
      else s

/-- Every fetch from host memory, oldest first, asks for what it may (R367). -/
def State.fetchPump (s : State) : State := (List.range s.fetches.length).foldl (fetchAsk 2048) s

/-- Bytes of one remote read of a fetch, as much as a `tx.fq` may ask for (R347; log 56). -/
def tierPiece : Nat := 16320

/-- The reads of `n` bytes of the tier device from `a` on, landing from `l` on, are sent, each under a tag of its own (R236,
R348); `k` reads at most. Answers the reads. -/
def sendTierReads : Nat → State → (q lid a l n : Nat) → State × List (Nat × Nat × Nat)
  | 0, s, _, _, _, _, _ => (s, [])
  | k + 1, s, q, lid, a, l, n =>
    if n = 0 then (s, [])
    else
      let m := min n tierPiece
      let tag := s.fqNext % 65536
      let s1 := ({ s with fqNext := s.fqNext + 1 } : State).sendFlow 1 q 0x21 lid q
        (padTo 16 (leBytes 8 a ++ leBytes 2 m ++ leBytes 2 tag))
      let r := sendTierReads k s1 q lid (a + m) (l + m) (n - m)
      (r.1, (tag, l, m) :: r.2)

/-- The fetch of one cold local expert starts: from the tier device by remote reads, from host memory by RdCurr when the
partition may (R236, R368). -/
def State.startFetch (s : State) (q : Nat) (b : Batch) (e : Nat) : State :=
  let x := b.ent e
  let host := x.tsrc = 0
  let may := !host || bitAt (s.odGet 0 0x1800 0xC) q
  let dead := may && host && s.cxl.link != 3
  let s1 := if may then s.routeAdd q b.layer 0xC 1 else s
  let s2 := if dead then s1.odAdd 0 0x1800 9 1 else s1
  let r := if host then (s2, []) else sendTierReads (x.tbytes / tierPiece + 1) s2 q x.tlid x.taddr x.land x.tbytes
  let f : Fetch := { q := q, tag := b.tag, gen := b.gen, j := x.loc, src := x.tsrc, lid := x.tlid, addr := x.taddr,
                     land := x.land, left := x.tbytes, started := may, failed := dead, reqs := r.2 }
  ({ r.1 with fetches := r.1.fetches ++ [f] } : State).fetchPump

/-- Cold local experts with rows, ascending j (R236, R237). -/
def Batch.coldLocals (b : Batch) (own : Nat) : List Nat :=
  (List.range (b.locals own)).filterMap fun j =>
    (b.localExpert own j).bind fun e => if (b.ent e).cold ∧ 0 < mapGet 0 b.tots e then some e else none

/-- Every cold expert with rows is fetched. -/
def State.startFetches (s : State) (q : Nat) (b : Batch) : State :=
  (b.coldLocals s.ownLid).foldl (fun t e => t.startFetch q b e) s

/-- The fetch of a batch's local expert. -/
def State.fetchOf (s : State) (q : Nat) (b : Batch) (j : Nat) : Option Fetch :=
  s.fetches.find? fun f => f.q = q && f.tag = b.tag && f.gen = b.gen && f.j = j

/-- Ended fetches whose batch is no longer open leave the list; one that still awaits lines it asked for stays (R367). -/
def State.sweepFetches (s : State) : State :=
  { s with fetches := s.fetches.filter fun f =>
      (f.started && !f.failed && f.left != 0) || f.asked != 0 || !f.reqs.isEmpty || (s.batchOf f.q f.tag f.gen).isSome }

/-- Fetch `i` replaced. -/
def State.setFetch (s : State) (i : Nat) (f : Fetch) : State := { s with fetches := s.fetches.set i f }

/-- Fetch `i`, now `f`, fails: it stops issuing and is counted; it never lands (R369). -/
def State.failFetch (s : State) (i : Nat) (f : Fetch) : State :=
  ((if f.failed then s else s.odAdd 0 0x1800 9 1).setFetch i { f with failed := true }).sweepFetches

/-- A line of host memory has arrived for fetch `i`: its place among the outstanding RdCurr is free, and more are asked for
(R367). The line of a failed fetch is dropped. -/
def State.hostLine (s : State) (i : Nat) (f : Fetch) (data : Bytes) (bad : Bool) : State :=
  let free := fun (u : State) => { u with rdCurr := u.rdCurr - 1, cxl := { u.cxl with lateRd := min u.cxl.lateRd (u.rdCurr - 1) } }
  let g : Fetch := { f with asked := f.asked - 1 }
  if f.failed then ((free s).setFetch i g).sweepFetches.fetchPump
  else if bad ∨ ¬ s.rangeInMap f.q f.land 64 then ((free s).failFetch i g).fetchPump
  else s.portGate (engineUnit 0) f.q [(f.land, 64)] (fun u => ((free u).failFetch i g).fetchPump) fun u =>
    (((free u).setFetch i { g with addr := f.addr + 64, land := f.land + 64, left := f.left - 64 }).engineWrite f.q
      [(f.land, padTo 64 data)]).sweepFetches.fetchPump

/-- The tier device has answered a read of fetch `i`: its bytes are written, or its refusal fails the fetch (R348, R369). -/
def State.tierLine (s : State) (i : Nat) (f : Fetch) : State :=
  s.onFrame (fun k => s.tierAnswer k && s.fetchFor k.qdst k.slid (fieldAt k.payload 0 2) = some i) (engineUnit 0)
    (fun s k => match f.reqs.find? fun r => r.1 = fieldAt k.payload 0 2 with
      | some r => if f.failed ∨ fieldAt k.payload 2 1 ≠ 0 ∨ ¬ s.rangeInMap f.q r.2.1 r.2.2 then [] else [r.2]
      | none => [])
    fun k t => match f.reqs.find? fun r => r.1 = fieldAt k.payload 0 2 with
      | none => t
      | some r =>
        let g : Fetch := { f with reqs := f.reqs.erase r }
        if f.failed then (t.setFetch i g).sweepFetches
        else if fieldAt k.payload 2 1 ≠ 0 ∨ ¬ t.rangeInMap f.q r.2.1 r.2.2 then t.failFetch i g
        else ((t.setFetch i { g with left := f.left - r.2.2 }).engineWrite f.q [(r.2.1, sliceBytes k.payload 16 r.2.2)]).sweepFetches

/-- TIER_FETCH_LINE (R369): the next line of fetch `i` from host memory, `bad` with data poison or an error; of a fetch from a
Shroud device, the bytes of an answer that has been delivered. -/
def execTierFetchLine (i : Nat) (data : List (BitVec 8)) (bad : Bool) (s : State) : Res := spireEvent 3 s fun s =>
  match s.fetches[i]? with
  | none => s
  | some f =>
    if f.src ≠ 0 then s.tierLine i f
    else if 0 < f.asked then s.hostLine i f data bad
    else s

/-! Selection and weights (7.2). -/

/-- Score of expert `e` in a score row, widened (R213). -/
def Batch.score (b : Batch) (row : Bytes) (e : Nat) : W32 :=
  if b.bf16 then BitVec.ofNat 32 (fieldAt row (2 * e) 2 * 65536) else BitVec.ofNat 32 (fieldAt row (4 * e) 4)

/-- Selection score of expert `e` (R213). -/
def Batch.selScore (b : Batch) (bias row : Bytes) (e : Nat) : W32 :=
  if b.biasen then f32Add (b.score row e) (BitVec.ofNat 32 (fieldAt bias (4 * e) 4)) else b.score row e

/-- NaN or +∞ (R215). -/
def badScore (w : W32) : Bool := f32Val w = .nan || f32Val w = .inf false

/-- An expert put into a descending list after every one of at least its score; the first `k` stay (R214). -/
def insertTop (k : Nat) (x : Nat × W32) (l : List (Nat × W32)) : List (Nat × W32) :=
  let hi := l.takeWhile fun y => !(f32Val y.2).lt (f32Val x.2)
  (hi ++ x :: l.drop hi.length).take k

/-- The choices of one token; none for a non-finite token (R214, R215). -/
def Batch.choose (b : Batch) (bias row : Bytes) : Option (List Nat) :=
  let us := b.unmasked
  if us.any fun e => badScore (b.score row e) || badScore (b.selScore bias row e) then none
  else some ((us.foldl (fun l e => insertTop b.k (e, b.selScore bias row e) l) []).map (·.1))

/-- exp of R80. -/
def f32Exp (w : W32) : W32 := sfuApply 2 w

/-- Largest of a list of scores. -/
def maxScore (l : List W32) : W32 := l.foldl (fun m x => if (f32Val m).lt (f32Val x) then x else m) (l.headD 0)

/-- `gate` (R216). -/
def Batch.weightsOf (b : Batch) (row : Bytes) (c : List Nat) : List W32 :=
  let soft := fun (es : List Nat) =>
    let m := maxScore (es.map (b.score row))
    let z := es.foldl (fun z e => f32Add z (f32Exp (f32Sub (b.score row e) m))) 0
    c.map fun e => f32Div (f32Exp (f32Sub (b.score row e) m)) z
  if b.gate = 0 then soft b.unmasked
  else if b.gate = 1 then soft c
  else c.map (b.score row)

/-- One token selected: choices and weights kept. -/
def Batch.selectToken (b : Batch) (bias row : Bytes) (t : Nat) : Batch :=
  match b.choose bias row with
  | none => b
  | some c => { b with choices := mapIns b.choices t c, weights := mapIns b.weights t (b.weightsOf row c) }

/-- D_s: the device's demand for each expert (R218). -/
def Batch.demandOf (b : Batch) : List Nat :=
  (List.range b.e).map fun e => (b.choices.map fun c => c.2.countP (· = e)).sum

/-! The counting exchanges (R218-R220). -/

/-- Grants G_s[e] (R218). -/
def Batch.grant (b : Batch) (e : Nat) : Nat := min (b.demand.getD e 0) (b.cap - b.pref.getD e 0)

/-- O_s: overflow to each rank of the group (R218). -/
def Batch.overflowOf (b : Batch) (g : List Nat) : List Nat :=
  g.map fun lid => ((b.heldBy lid).map fun e => b.demand.getD e 0 - b.grant e).sum

/-- Number of the running exchange. -/
def Batch.exch (b : Batch) : Nat := if b.phase = .exch2 then 2 else 1

/-- Entries of its vector. -/
def Batch.exLen (b : Batch) (g : List Nat) : Nat := if b.phase = .exch2 then g.length else b.e

/-- Every entry of the current scan round has arrived. -/
def Batch.roundHere (b : Batch) (len : Nat) : Bool :=
  (List.range len).all fun i => b.parts.any fun p => p.1 = exKey b.exch b.round i

/-- The totals frame of the running exchange has arrived. -/
def Batch.totalsHere (b : Batch) : Bool := b.parts.any fun p => p.1 = exKey b.exch 0xFF 16383

/-- Rank S − 1 sends every other device its totals (R220). -/
def State.sendTotals (s : State) (q : Nat) (b : Batch) (g : List Nat) : State :=
  (g.zipIdx.filter fun x => x.1 != s.ownLid).foldl (fun t x =>
    let es := b.heldBy x.1
    if b.phase = .exch2 then
      if es = [] then t.sendCount q b x.1 2 0xFF 0 0 [] else t.sendCount q b x.1 2 0xFF 0 1 (leBytes 8 (b.vec.getD x.2 0))
    else
      t.sendCount q b x.1 1 0xFF 0 es.length (es.flatMap fun e => leBytes 4 e ++ leBytes 4 (b.vec.getD e 0))) s

/-- The first exchange ends: P_s, T[e] of the local experts, then the second begins with O_s; the slow tier starts
(R218, R236). -/
def State.endExch1 (s : State) (q : Nat) (b : Batch) (g : List Nat) (last : Bool) : State × Batch :=
  let own := b.heldBy s.ownLid
  let tot := fun e => if last then b.vec.getD e 0 else mapGet 0 b.parts (exKey 1 0xFF e)
  let b1 : Batch := { b with
    pref := (List.range b.e).map fun e => b.vec.getD e 0 - b.demand.getD e 0
    tots := own.foldl (fun m e => mapSet 0 m e (tot e)) [] }
  let o := b1.overflowOf g
  (s.startFetches q b1, { b1 with overflow := o, vec := o, round := 0, sent := false, phase := .exch2 })

/-- The second exchange ends: Q_s and the total overflow to this device (R218). -/
def Batch.endExch2 (b : Batch) (g : List Nat) (own : Nat) (last : Bool) : Batch :=
  { b with
    qpref := (List.range g.length).map fun d => b.vec.getD d 0 - b.overflow.getD d 0
    overTot := if last then b.vec.getD (rankIn g own) 0 else mapGet 0 b.parts (exKey 2 0xFF 0)
    vec := [], parts := [], phase := .assigning }

/-- The exchanges go on as far as the frames received allow. -/
def advanceExch (q : Nat) (g : List Nat) : Nat → State → Batch → State × Batch
  | 0, s, b => (s, b)
  | n + 1, s, b =>
    if b.phase = .exch1 ∨ b.phase = .exch2 then
      let rank := rankIn g s.ownLid
      let h := clog2 g.length
      let last := rank + 1 = g.length
      if b.round < h then
        let to' := rank + 2 ^ b.round
        let s1 := if ¬ b.sent ∧ to' < g.length then s.sendVector q b (g.getD to' 0) b.exch b.round b.vec else s
        let b1 : Batch := { b with sent := true }
        if rank < 2 ^ b.round then advanceExch q g n s1 { b1 with round := b.round + 1, sent := false }
        else if b1.roundHere (b1.exLen g) then
          let v := (List.range (b1.exLen g)).map fun i => b.vec.getD i 0 + mapGet 0 b.parts (exKey b.exch b.round i)
          advanceExch q g n s1 { b1 with vec := v, round := b.round + 1, sent := false }
        else (s1, b1)
      else if last then
        let s1 := s.sendTotals q b g
        if b.phase = .exch1 then
          let r := s1.endExch1 q b g true
          advanceExch q g n r.1 r.2
        else (s1, b.endExch2 g s.ownLid true)
      else if b.totalsHere then
        if b.phase = .exch1 then
          let r := s.endExch1 q b g false
          advanceExch q g n r.1 r.2
        else (s, b.endExch2 g s.ownLid false)
      else (s, b)
    else (s, b)

/-- The exchanges of an open batch go on. -/
def State.runExch (s : State) (q : Nat) (b : Batch) : State :=
  let r := advanceExch q (s.batchGroup q b) 40 s b
  r.1.putBatch q r.2

/-- Entries of a counting frame added to what the batch has received. -/
def Batch.takeCount (b : Batch) (body : Bytes) : Batch :=
  let exch := fieldAt body 0 1
  let round := fieldAt body 1 1
  let first := fieldAt body 4 4
  let count := fieldAt body 8 4
  let put := fun (m : List (Nat × Nat)) (i v : Nat) => mapIns (mapDel m (exKey exch round i)) (exKey exch round i) v
  if round = 0xFF then
    let m := if exch = 2 then (if count = 0 then b.parts else put b.parts 0 (fieldAt body 16 8))
      else (List.range (min count 2040)).foldl (fun m i => put m (fieldAt body (16 + 8 * i) 4 % 16383) (fieldAt body (20 + 8 * i) 4)) b.parts
    { b with parts := put m 16383 1 }
  else
    let w := if exch = 2 then 8 else 4
    let m := (List.range (min count 4080)).foldl (fun m i => put m ((first + i) % 16383) (fieldAt body (16 + w * i) w)) b.parts
    { b with parts := m }

/-- COUNTING_FRAME (R219, R220): added to its batch, or held for a pair not yet open. -/
def execCountingFrame (s : State) : Res := spireEvent 3 s fun s =>
  match s.takeDelivered fun k => k.kind = 0x11 && fieldAt k.payload 0 1 != 4 with
  | none => s
  | some (k, t) =>
    let q := k.qdst
    let gen := fieldAt k.payload 1 1
    let tag := fieldAt k.payload 2 2
    if ¬ t.present q then t
    else if fieldAt k.payload 0 1 ≠ 3 then t.staleRows q 1
    else match t.batchOf q tag gen with
      | some b => t.runExch q (b.takeCount (k.payload.drop 32))
      | none =>
        let p := t.part q
        let pairs := (p.held.map fun m => fieldAt m.payload 1 3).foldl setIns []
        if p.cancelled.contains (tag, gen) ∨ (¬ pairs.contains (fieldAt k.payload 1 3) ∧ 16 ≤ pairs.length) then t.staleRows q 1
        else t.setPart q { p with held := p.held ++ [k] }

/-! Rows (7.4, 7.5). -/

/-- Key of a filled slot. -/
def slotKey (e : Nat) (pool : Bool) (slot : Nat) : Nat := e * 2 ^ 21 + (if pool then 2 ^ 20 else 0) + slot

/-- Destination word of a served choice (R221). -/
def destWord (e : Nat) (pool : Bool) (slot : Nat) : Nat := e + (if pool then 65536 else 0) + slot * 2 ^ 20

/-- Place of a row: its address, and the index of its origin word; none when it is not this device's (R225). -/
def Batch.place (b : Batch) (own e : Nat) (pool : Bool) (slot : Nat) : Option (Nat × Nat) :=
  let x := b.ent e
  if b.emap.length ≤ e ∨ x.masked ∨ x.lid ≠ own then none
  else if pool then
    if slot < b.pool then some (b.addr 72 + slot * b.stride, b.locals own * b.cap + slot) else none
  else if slot < b.cap then some (b.addr 64 + (x.loc * b.cap + slot) * b.stride, x.loc * b.cap + slot)
  else none

/-- Dome writes that place one arrived row and its origin word (R225); a replay's origin words are those its forward batch left
(R231). -/
def Batch.rowWrites (b : Batch) (own rank : Nat) (e : Nat) (pool : Bool) (slot p : Nat) (row : Bytes) : List (Nat × Bytes) :=
  match b.place own e pool slot with
  | none => []
  | some (a, i) => (a, row) :: if b.replay then [] else [(b.addr 176 + 8 * i, leBytes 8 (p + rank * 2 ^ 32))]

/-- A placed row noted in the batch. -/
def Batch.noteRow (b : Batch) (own e : Nat) (pool : Bool) (slot : Nat) : Batch :=
  if (b.place own e pool slot).isNone ∨ b.rxKeys.contains (slotKey e pool slot) then b
  else { b with rxKeys := setIns b.rxKeys (slotKey e pool slot), rxReg := if pool then b.rxReg else b.rxReg + 1,
                rxPool := if pool then b.rxPool + 1 else b.rxPool }

/-- Rows granted to this device (R228): regular, pool. -/
def Batch.expected (b : Batch) (own : Nat) : Nat × Nat :=
  (((b.heldBy own).map fun e => min b.cap (mapGet 0 b.tots e)).sum, min b.pool b.overTot)

/-- Pool slots of the local expert `e`, ascending: those received, or those a replay takes from PLIST (R228, R231). -/
def Batch.poolOf (b : Batch) (e : Nat) : List Nat :=
  if b.replay then mapGet [] b.plist e
  else (b.rxKeys.filter fun k => k / 2 ^ 21 = e && bitAt k 20).map (· % 2 ^ 20)

/-- Regular rows received for the local expert `e`, ascending. -/
def Batch.regularOf (b : Batch) (e : Nat) : List Nat :=
  (b.rxKeys.filter fun k => k / 2 ^ 21 = e && !bitAt k 20).map (· % 2 ^ 20)

/-- What ARRIVED writes: LDIR, PLIST, PMASK and the books' destination part (R228, R238, R241). -/
def State.arrivalWrites (s : State) (q : Nat) (b : Batch) : List (Nat × Bytes) :=
  let own := s.ownLid
  let thr := s.odGet q 0x5002 0
  let js := List.range (b.locals own)
  let pools := js.map fun j => ((b.localExpert own j).map b.poolOf).getD []
  let ldir := js.flatMap fun j =>
    let e := b.localExpert own j
    let cnt := (e.map fun e => min b.cap (mapGet 0 b.tots e)).getD 0
    let cold := (e.map fun e => (b.ent e).cold).getD false
    padTo 16 (leBytes 4 cnt ++ leBytes 4 ((pools.take j).map (·.length)).sum ++ leBytes 4 (pools.getD j []).length ++
      leBytes 1 (if cold then 1 else 0))
  let pmask := js.flatMap fun j =>
    if b.addr 168 = 0 then leBytes 8 (2 ^ 64 - 1)
    else
      let c := s.domeNat (b.addr 168 + 32 * j) 32
      leBytes 8 (((List.range 64).filter fun k => decide (thr ≤ bitsOf c (4 * k) 4)).map (2 ^ ·)).sum
  [(b.addr 136, ldir), (b.addr 144, pools.flatten.flatMap (leBytes 4)), (b.addr 160, pmask),
   (b.addr 152 + 40, leBytes 8 b.rxReg ++ leBytes 8 b.rxPool)]

/-- A batch is retired once it has returned and been returned everything (R230). -/
def State.retireIfDone (s : State) (q : Nat) (b : Batch) : State :=
  if b.returned ∧ b.arrived ∧ b.retRows = b.rxReg + b.rxPool then (s.endBatch q b).sweepFetches else s.putBatch q b

/-- The device holds every row granted to it, and ARRIVED is not sent yet (R228). -/
def Batch.arrives (b : Batch) (own : Nat) : Bool :=
  b.phase = .closed && !b.arrived && decide ((b.expected own).1 ≤ b.rxReg) && decide ((b.expected own).2 ≤ b.rxPool)

/-- It holds a return for every served choice, and RETURNED is not sent yet (R230). -/
def Batch.comesBack (b : Batch) : Bool := b.phase = .closed && !b.returned && decide (b.served.length ≤ b.returns)

/-- PSTATE as ARRIVED reads it. -/
def Batch.pstate (b : Batch) (own : Nat) : List (Nat × Nat) := if b.addr 168 = 0 then [] else [(b.addr 168, 32 * b.locals own)]

/-- Dome ranges of what `b`, as it now stands, would write with ARRIVED and RETURNED. -/
def State.settleRanges (s : State) (q : Nat) (b : Batch) : List (Nat × Nat) :=
  (if b.arrives s.ownLid then b.pstate s.ownLid ++ writeRanges (s.arrivalWrites q b) else []) ++
  (if b.comesBack then [(b.addr 152 + 56, 8)] else [])

/-- An equality of Table 7-5 is checked where it must hold: BOOKS_MISMATCH when it does not (14 R415). -/
def State.checkBooks (s : State) (q : Nat) (ok : Bool) : State := if ok then s else s.raiseError 0x0122 (spireUnit 3) q (islSpire 5) []

/-- ARRIVED, once every granted row is held (R228), and the destination's equality of Table 7-5. -/
def State.checkArrived (s : State) (q : Nat) (b : Batch) : State :=
  if b.arrives s.ownLid then
    s.engineRead q (b.pstate s.ownLid) (fun u => u.endBatch q b) fun u =>
      (((u.engineWrite q (u.arrivalWrites q b)).checkBooks q
        (b.rxReg + b.rxPool = (b.expected u.ownLid).1 + (b.expected u.ownLid).2)).batchEvent q b 0x83 0 0).retireIfDone q
        { b with arrived := true }
  else s.putBatch q b

/-- RETURNED, once every served choice has its return (R230), and the returns' equality of Table 7-5. -/
def State.checkReturned (s : State) (q : Nat) (b : Batch) : State :=
  if b.comesBack then
    (((s.engineWrite q [(b.addr 152 + 56, leBytes 8 b.returns)]).checkBooks q
      (b.returns = b.books.getD 1 0 + b.books.getD 2 0)).batchEvent q b 0x85 0 0).retireIfDone q { b with returned := true }
  else s.retireIfDone q b

/-- Token of the `p`-th served choice. -/
def Batch.actRow (b : Batch) (x : Served) : Nat × Nat := (b.addr 56 + x.tok * b.stride, b.rowBytes)

/-- The served choices with their return positions. -/
def Batch.positions (b : Batch) : List (Served × Nat) := b.served.zipIdx

/-- Served choices whose expert is on the device `lid`. -/
def Batch.servedFor (b : Batch) (lid : Nat) : List (Served × Nat) := b.positions.filter fun x => (b.ent x.1.expert).lid = lid

/-- Writes that place the device's own rows (R225). -/
def State.selfWrites (s : State) (b : Batch) (rank : Nat) : List (Nat × Bytes) :=
  (b.servedFor s.ownLid).flatMap fun x =>
    b.rowWrites s.ownLid rank x.1.expert x.1.pool x.1.slot x.2 (s.domeRead (b.actRow x.1).1 b.rowBytes)

/-- Every served row sent to its destination, in return-position order for each (R225). -/
def State.dispatchRows (s : State) (q : Nat) (b : Batch) (g : List Nat) : State :=
  let s1 := s.engineWrite q (s.selfWrites b (rankIn g s.ownLid))
  (g.filter (· ≠ s.ownLid)).foldl (fun t lid =>
    t.sendRows q b 1 lid ((b.servedFor lid).map fun x =>
      (destWord x.1.expert x.1.pool x.1.slot, s.domeRead (b.actRow x.1).1 b.rowBytes))) s1

/-- The device's own rows noted. -/
def Batch.noteSelf (b : Batch) (own : Nat) : Batch :=
  (b.servedFor own).foldl (fun c x => c.noteRow own x.1.expert x.1.pool x.1.slot) b

/-- Batch `b` closes (R221, R223, R241, R243): its source part of the books is written and checked, its choices are counted, and
CLOSED is sent. `books`: CHOICES, ACCEPTED, OVERFLOW, DROPPED; `nonfin`: the NONFINITE field. -/
def State.closeBatch (s : State) (q : Nat) (b : Batch) (nonfin : Nat) : State :=
  let n := fun k => b.books.getD k 0
  let s1 := (s.putBatch q b).engineWrite q
    [(b.addr 152, b.books.flatMap (leBytes 8) ++ leBytes 8 nonfin), (b.addr 152 + 64, leBytes 64 0)]
  let s2 := (s1.checkBooks q (n 1 + n 2 + n 3 = n 0)).batchEvent q b 0x82 0 0
  let s3 := (((((s2.routeAdd q b.layer 1 1).routeAdd q b.layer 2 (n 0)).routeAdd q b.layer 3 (n 1)).routeAdd q b.layer 4
    (n 2)).routeAdd q b.layer 5 (n 3))
  if n 3 = 0 then s3 else s3.raiseOpen 0x0121 (spireUnit 3) q (islSpire 5) [b.tag, b.gen, b.layer, n 3]

/-- Dome ranges of the source part of the books. -/
def Batch.bookRanges (b : Batch) : List (Nat × Nat) := [(b.addr 152, 40), (b.addr 152 + 64, 64)]

/-- Rows dispatched, and what follows when nothing is awaited (Sequence 7-1, steps 7 and 8). -/
def State.startDispatch (s : State) (q : Nat) (b : Batch) : State :=
  let own := s.ownLid
  let b1 := b.noteSelf own
  let s1 := ((s.dispatchRows q b (s.batchGroup q b)).routeAdd q b.layer 7 (b1.rxReg + b1.rxPool - b.rxReg - b.rxPool)).putBatch q b1
  let s2 := s1.checkArrived q b1
  match s2.batchOf q b.tag b.gen with
  | none => s2
  | some b2 => s2.checkReturned q b2

/-- Dome ranges that a closing batch reads and writes: its token rows, its own rows' places, and what follows. -/
def State.dispatchRanges (s : State) (q : Nat) (b : Batch) : List (Nat × Nat) :=
  b.served.map b.actRow ++ writeRanges (s.selfWrites b (rankIn (s.batchGroup q b) s.ownLid)) ++ b.bookRanges ++
    s.settleRanges q (b.noteSelf s.ownLid)

/-! Opening (R209, R224, R231, R234). -/

/-- Status of OPENED (Table 7-2), the lowest that applies. -/
def State.openStatus (s : State) (q : Nat) (b : Batch) : Nat :=
  if ¬ s.recordFieldsOk q b ∨ ¬ s.regionsOk q b ∨ (b.opens.any fun o => b.opens.any fun p => o.2 != p.2) then 1
  else if 8 ≤ s.openBatches q then 2
  else if ¬ (s.batchGroup q b).contains s.ownLid then 3
  else if b.unmasked.length < b.k then 4
  else if (s.batchOf q b.tag b.gen).isSome then 5
  else if s.emapBad q b then 6
  else if (s.part q).cancelled.contains (b.tag, b.gen) then 7
  else 0

/-- The served choices of a replay: index of the choice and its return position, as CIDX gives them (R231). -/
def State.replayCells (s : State) (b : Batch) : List (Nat × Nat) :=
  ((List.range (b.n * b.k)).map fun c => (c, s.domeNat (b.addr 104 + 4 * c) 4)).filter fun x => x.2 != 2 ^ 32 - 1

/-- Served choices a replay takes from CIDX and DPOS (R231). -/
def State.replayServed (s : State) (b : Batch) : List Served :=
  (s.replayCells b).map fun x =>
    let w := s.domeNat (b.addr 128 + 8 * x.2) 8
    { tok := x.1 / b.k, rank := x.1 % b.k, expert := bitsOf w 0 16, pool := bitAt w 16, slot := bitsOf w 20 20 }

/-- LDIR entry of local expert `j`: COUNT, PFIRST, PCOUNT. -/
def State.ldirEntry (s : State) (b : Batch) (j : Nat) : Nat × Nat × Nat :=
  let f := fun o => s.domeNat (b.addr 136 + 16 * j + o) 4
  (f 0, f 4, f 8)

/-- A replay's batch once its forward batch has been read: served choices, the rows it awaits, its experts' pool slots, and its
books (R231, R241). -/
def State.replayBatch (s : State) (b : Batch) : Batch :=
  let own := s.ownLid
  let sv := s.replayServed b
  let ent := fun e => s.ldirEntry b (b.ent e).loc
  let acc := sv.countP fun x => !x.pool
  { b with
    served := sv
    tots := (b.heldBy own).foldl (fun m e => mapSet 0 m e (ent e).1) []
    overTot := ((b.heldBy own).map fun e => (ent e).2.2).sum
    plist := (b.heldBy own).foldl (fun m e =>
      mapSet [] m e ((List.range (ent e).2.2).map fun i => s.domeNat (b.addr 144 + 4 * ((ent e).2.1 + i)) 4)) []
    books := [b.n * b.k, acc, sv.length - acc, b.n * b.k - sv.length]
    phase := .closed }

/-- What a replay reads of its forward batch (R231). -/
def State.replayReads (s : State) (b : Batch) : List (Nat × Nat) :=
  [(b.addr 104, 4 * b.n * b.k), (b.addr 136, 16 * b.locals s.ownLid)] ++
  (s.replayCells b).map (fun x => (b.addr 128 + 8 * x.2, 8)) ++
  ((b.heldBy s.ownLid).map fun e =>
    let l := s.ldirEntry b (b.ent e).loc
    (b.addr 144 + 4 * l.2.1, 4 * l.2.2)) ++
  (s.replayServed b).map b.actRow

/-- A batch opens: counting frames held for it are taken; a replay closes at once (R219, R231). NONFINITE of a replay, which scores
no token, is open (log 24). -/
def State.openBatch (s : State) (q : Nat) (b : Batch) : State :=
  let p := s.part q
  let mine := p.held.filter fun m => fieldAt m.payload 1 1 = b.gen && fieldAt m.payload 2 2 = b.tag
  let b1 : Batch := { mine.foldl (fun c m => c.takeCount (m.payload.drop 32)) b with phase := .scoring, opens := [] }
  let s1 := (s.setPart q { p with
    held := p.held.filter fun m => !(fieldAt m.payload 1 1 = b.gen && fieldAt m.payload 2 2 = b.tag)
    batches := p.batches ++ [b1] }).batchEvent q b1 0x81 0 0
  if b1.replay then
    s1.engineRead q (s1.replayReads b1) (fun t => t.endBatch q b1) fun t =>
      let b2 := t.replayBatch b1
      let d := t.draw 64
      ((d.2.closeBatch q b2 d.1.toNat).startFetches q b2).startDispatch q b2
  else s1

/-- The batch with its expert map as dome holds it, where the record's own fields are valid (R209, R224). -/
def State.withMap (s : State) (q : Nat) (b : Batch) : Batch :=
  if s.recordFieldsOk q b then
    { b with emap := (List.range b.e).map (emapEntry (s.domeRead (b.addr 48) (32 * b.e))) }
  else b

/-- The expert map of a batch, where the record's own fields let it be read. -/
def State.mapReads (s : State) (q : Nat) (b : Batch) : List (Nat × Nat) := if s.recordFieldsOk q b then [(b.addr 48, 32 * b.e)] else []

/-- Every tower that TMASK names and the partition holds has sent its OPEN (R209). -/
def State.allOpen (s : State) (q : Nat) (b : Batch) : Bool :=
  ((maskBits b.tmask 8).filter fun t => (s.towersOf q).contains t).all fun t => b.opens.any fun o => o.1 = t

/-- The batch that an OPEN of tower `t` with record address `a` belongs to, that OPEN included. -/
def State.openFor (s : State) (q t a : Nat) : Batch :=
  let rec' := s.domeRead a 192
  match s.openingOf q (fieldAt rec' 0 2) (fieldAt rec' 2 1) with
  | some b => { b with opens := b.opens ++ [(t, a)] }
  | none => { tag := fieldAt rec' 0 2, gen := fieldAt rec' 2 1, record := rec', opens := [(t, a)] }

/-- Dome ranges that the OPEN of tower `t` with record address `a` reads and writes: the record; with the last OPEN the map, and
for a replay that opens what it reads and dispatches. -/
def State.openRanges (s : State) (q t a : Nat) : List (Nat × Nat) :=
  let b := s.openFor q t a
  (a, 192) :: if s.allOpen q b then
    let m := s.withMap q b
    s.mapReads q b ++ (if m.replay ∧ (s.dropBatch q b).openStatus q m = 0 then
      let r := s.replayBatch m
      s.replayReads m ++ s.dispatchRanges q r else [])
  else []

/-- The record and the map are checked once every named tower's OPEN is there (R209). -/
def State.tryOpen (s : State) (q : Nat) (b : Batch) : State :=
  let s1 := s.dropBatch q b
  if s.allOpen q b then
    s1.engineRead q (s1.mapReads q b) id fun t =>
      let b1 := t.withMap q b
      let st := t.openStatus q b1
      if st = 0 then t.openBatch q b1 else t.batchEvent q b1 0x81 st 0
  else s1.modPart q fun p => { p with batches := p.batches ++ [b] }

/-- OPEN (R209). -/
def execOpenBatch (t : Nat) (s : State) : Res := halRow t 1 (fun q r s =>
  let a := fieldAt r 8 8
  if a % 64 ≠ 0 ∨ ¬ s.rangeInMap q a 192 then (s.halPop t).staleRows q 1
  else s.portGate (engineUnit 0) q (s.openRanges q t a) (fun u => u.halPop t) fun u =>
    u.engineRead q [(a, 192)] (fun v => v.halPop t) fun v => (v.halPop t).tryOpen q (v.openFor q t a)) s

/-- UNIT_SELECTION_COMPLETE (R213-R216, R218): unit `t` selects its tokens; with the last unit's demand the first exchange
begins. -/
def execUnitSelectionComplete (q tag gen t : Nat) (s : State) : Res := spireEvent 3 s fun s =>
  if s.towerOut 9 t then s else
  match s.batchOf q tag gen with
  | none => s
  | some b =>
    let ts := maskBits b.tmask 8
    if b.phase = .scoring ∧ ts.contains t ∧ ¬ b.units.contains t then
      let toks := b.tokens (ts.findIdx (· = t))
      let rowLen := b.e * b.scoreBytes
      let reads := (if toks = [] then [] else [(b.addr 32 + toks.headD 0 * rowLen, toks.length * rowLen)]) ++
        (if b.biasen ∧ toks ≠ [] then [(b.addr 40, 4 * b.e)] else [])
      s.engineRun (engineUnit 0) q reads [] (fun u => u.endBatch q b) fun u =>
        let bias := if b.biasen then u.domeRead (b.addr 40) (4 * b.e) else []
        let b1 := toks.foldl (fun c k => c.selectToken bias (u.domeRead (b.addr 32 + k * rowLen) rowLen) k) b
        let b2 : Batch := { b1 with units := setIns b.units t }
        if ts.all b2.units.contains then
          let d := b2.demandOf
          u.runExch q { b2 with demand := d, vec := d, round := 0, sent := false, phase := .exch1 }
        else u.putBatch q b2
    else s

/-! Assignment (R217-R223). -/

/-- What assignment has given so far: regular rows of each expert, pool slots of each rank, the served choices, and for each
(token, rank) its position or none. -/
structure Assign where
  /-- regular rows taken of each expert -/
  reg : List (Nat × Nat) := []
  /-- pool slots taken of each rank -/
  pool : List (Nat × Nat) := []
  /-- served choices, last first -/
  served : List Served := []
  /-- number served -/
  count : Nat := 0
  /-- number dropped -/
  drops : Nat := 0
  /-- outcome of each choice of the token in hand, last first -/
  row : List (Option Nat) := []
deriving DecidableEq, Repr

/-- One choice assigned (R217, R218). -/
def Batch.assignOne (b : Batch) (g : List Nat) (tok : Nat) (a : Assign) (re : Nat × Nat) : Assign :=
  let e := re.2
  let d := rankIn g (b.ent e).lid
  let ur := mapGet 0 a.reg e
  let up := mapGet 0 a.pool d
  let poolGrant := min (b.overflow.getD d 0) (b.pool - b.qpref.getD d 0)
  if ur < b.grant e then
    { a with reg := mapSet 0 a.reg e (ur + 1), count := a.count + 1, row := some a.count :: a.row
             served := { tok := tok, rank := re.1, expert := e, pool := false, slot := min b.cap (b.pref.getD e 0) + ur } :: a.served }
  else if up < poolGrant then
    { a with pool := mapSet 0 a.pool d (up + 1), count := a.count + 1, row := some a.count :: a.row
             served := { tok := tok, rank := re.1, expert := e, pool := true, slot := min b.pool (b.qpref.getD d 0) + up } :: a.served }
  else { a with drops := a.drops + 1, row := none :: a.row }

/-- `renorm` (R222). -/
def renormWeights (w : List W32) (served : List Bool) : List W32 :=
  let total := w.foldl f32Add 0
  let kept := (w.zip served).foldl (fun k x => if x.2 then f32Add k x.1 else k) 0
  if (f32Val kept).isZero then w
  else
    let q := f32Div total kept
    (w.zip served).map fun x => if x.2 then f32Mul x.1 q else x.1

/-- One token assigned: its CIDX, CWGT and DMASK entries follow those so far. -/
def Batch.assignToken (b : Batch) (g : List Nat) (acc : Assign × Bytes × Bytes × Bytes) (tok : Nat) :
    Assign × Bytes × Bytes × Bytes :=
  match b.choices.find? fun c => c.1 = tok with
  | none =>
    ({ acc.1 with drops := acc.1.drops + b.k }, acc.2.1 ++ (List.range b.k).flatMap (fun _ => leBytes 4 (2 ^ 32 - 1)),
     acc.2.2.1 ++ leBytes (4 * b.k) 0, acc.2.2.2 ++ leBytes 2 (2 ^ b.k - 1))
  | some c =>
    let a := (c.2.zipIdx.map fun x => (x.2, x.1)).foldl (b.assignOne g tok) { acc.1 with row := [] }
    let row := a.row.reverse
    let ok := row.map Option.isSome
    let w0 := mapGet [] b.weights tok
    let w := if b.renorm ∧ ok.any id then renormWeights w0 ok else w0
    (a, acc.2.1 ++ row.flatMap (fun o => leBytes 4 (o.getD (2 ^ 32 - 1))),
     acc.2.2.1 ++ (w.zip ok).flatMap (fun x => leBytes 4 (if x.2 then x.1.toNat else 0)),
     acc.2.2.2 ++ leBytes 2 ((ok.zipIdx.filter fun x => !x.1).map fun x => 2 ^ x.2).sum)

/-- Every token assigned, in order. -/
def Batch.assignAll (b : Batch) (g : List Nat) : Assign × Bytes × Bytes × Bytes :=
  (List.range b.n).foldl (b.assignToken g) (({}, [], [], []) : Assign × Bytes × Bytes × Bytes)

/-- CIDX, CWGT, DMASK and DPOS as the assignment leaves them (R221, R222). -/
def Batch.assignWrites (b : Batch) (g : List Nat) : List (Nat × Bytes) :=
  let r := b.assignAll g
  [(b.addr 104, r.2.1), (b.addr 112, r.2.2.1), (b.addr 120, r.2.2.2),
   (b.addr 128, r.1.served.reverse.flatMap fun x => leBytes 8 (destWord x.expert x.pool x.slot))]

/-- The batch once assigned: its served choices in return-position order, and its books (R221, R241). -/
def Batch.assigned (b : Batch) (g : List Nat) : Batch :=
  let r := b.assignAll g
  let sv := r.1.served.reverse
  { b with
    served := sv, phase := .closed, demand := [], pref := [], overflow := [], qpref := []
    books := [b.n * b.k, sv.countP fun x => !x.pool, sv.countP fun x => x.pool, r.1.drops] }

/-- ASSIGNMENT_COMPLETE (R217, R219, R221-R223, R225): index lists, weights, drop masks, destination words, the source part
of the books, CLOSED, and the rows sent. -/
def execAssignmentComplete (q tag gen : Nat) (s : State) : Res := spireEvent 3 s fun s =>
  match s.batchOf q tag gen with
  | none => s
  | some b =>
    if b.phase = .assigning then
      let g := s.batchGroup q b
      let ws := b.assignWrites g
      let b1 := b.assigned g
      let nonfin := b.n - b.choices.length
      s.portGate (engineUnit 0) q (writeRanges ws ++ s.dispatchRanges q b1) (fun u => u.endBatch q b) fun u =>
        u.engineRead q (b1.served.map b1.actRow) (fun v => v.endBatch q b) fun v =>
          (((v.engineWrite q ws).closeBatch q b1 nonfin).routeAdd q b.layer 6 nonfin).startDispatch q b1
    else s

/-! Arriving rows (R225, R229, R232). -/

/-- Rows of a packet: the first word of each header, and the row. -/
def packetRows (b : Bytes) : List (Nat × Bytes) :=
  let rb := fieldAt b 12 4
  (List.range (fieldAt b 10 2)).map fun i =>
    (fieldAt b (32 + i * (16 + rb)) 8, sliceBytes b (32 + i * (16 + rb) + 16) rb)

/-- A row packet of a pair that names no open batch (R232). -/
def State.stalePacket (s : State) (k : Packet) : State :=
  let q := k.qdst
  let pair := (fieldAt k.payload 2 2, fieldAt k.payload 1 1)
  if ¬ s.present q then s
  else
    let s1 := s.staleRows q (fieldAt k.payload 10 2)
    if (s.part q).staleSeen.contains pair then s1
    else (s1.modPart q fun p => { p with staleSeen := p.staleSeen ++ [pair] }).raiseOpen 0x0131 (spireUnit 3) q (islSpire 5)
      [pair.1, pair.2, fieldAt k.payload 0 1]

/-- The batch of a row packet. -/
def State.rowBatch (s : State) (k : Packet) : Option Batch := s.batchOf k.qdst (fieldAt k.payload 2 2) (fieldAt k.payload 1 1)

/-- Writes of a dispatch packet's rows, each under the return position its source gave it (log 24). -/
def State.dispatchWrites (s : State) (k : Packet) (b : Batch) : List (Nat × Bytes) :=
  let src := fieldAt k.payload 6 2
  (packetRows k.payload).flatMap fun x =>
    b.rowWrites s.ownLid (rankIn (s.batchGroup k.qdst b) src) (bitsOf x.1 0 16) (bitAt x.1 16) (bitsOf x.1 20 20)
      (Config.returnPos src b.tag b.gen x.1).toNat x.2

/-- The rows of a dispatch packet noted. -/
def Batch.noteRows (b : Batch) (own : Nat) (rows : List (Nat × Bytes)) : Batch :=
  rows.foldl (fun c x => c.noteRow own (bitsOf x.1 0 16) (bitAt x.1 16) (bitsOf x.1 20 20)) b

/-- DISPATCH_ROW_ARRIVAL (R225, R228, R232). -/
def execDispatchRowArrival (s : State) : Res := spireEvent 3 s fun s =>
  s.onFrame (fun k => k.kind = 0x10 && fieldAt k.payload 0 1 != 2) (engineUnit 0)
    (fun s k => match s.rowBatch k with
      | some b => writeRanges (s.dispatchWrites k b) ++ s.settleRanges k.qdst (b.noteRows s.ownLid (packetRows k.payload))
      | none => [])
    fun k t => match t.rowBatch k with
      | none => t.stalePacket k
      | some b =>
        let b1 := b.noteRows t.ownLid (packetRows k.payload)
        ((t.engineWrite k.qdst (t.dispatchWrites k b)).routeAdd k.qdst b.layer 7 (b1.rxReg + b1.rxPool - b.rxReg - b.rxPool)).checkArrived
          k.qdst b1

/-- Address of the returned row of position `p` (R229); none when no served choice has it. -/
def Batch.returnPlace (b : Batch) (p : Nat) : Option Nat :=
  if p < b.served.length then some (b.addr 96 + p * b.stride) else none

/-- Returned rows written at RETBASE. -/
def Batch.returnWrites (b : Batch) (rows : List (Nat × Bytes)) : List (Nat × Bytes) :=
  rows.filterMap fun r => (b.returnPlace (r.1 % 2 ^ 32)).map fun a => (a, r.2)

/-- Returned rows noted: each served choice once. -/
def Batch.noteReturns (b : Batch) (rows : List (Nat × Bytes)) : Batch :=
  rows.foldl (fun c r =>
    let p := r.1 % 2 ^ 32
    if (c.returnPlace p).isNone ∨ c.retGot.contains p then c
    else { c with retGot := setIns c.retGot p, returns := c.returns + 1 }) b

/-- Returned rows taken (R229, R230). -/
def State.takeReturns (s : State) (q : Nat) (b : Batch) (rows : List (Nat × Bytes)) : State :=
  let b1 := b.noteReturns rows
  ((s.engineWrite q (b.returnWrites rows)).routeAdd q b.layer 9 (b1.returns - b.returns)).checkReturned q b1

/-- RETURN_ROW_ARRIVAL (R229, R230, R232). -/
def execReturnRowArrival (s : State) : Res := spireEvent 3 s fun s =>
  s.onFrame (fun k => k.kind = 0x10 && fieldAt k.payload 0 1 = 2) (engineUnit 0)
    (fun s k => match s.rowBatch k with
      | some b => writeRanges (b.returnWrites (packetRows k.payload)) ++ s.settleRanges k.qdst (b.noteReturns (packetRows k.payload))
      | none => [])
    fun k t => match t.rowBatch k with
      | none => t.stalePacket k
      | some b => t.takeReturns k.qdst b (packetRows k.payload)

/-- The rows of local expert `j` that a RETURN sends: result address and index of the origin word (R229). -/
def Batch.resultsOf (b : Batch) (own e : Nat) : List (Nat × Nat) :=
  let j := (b.ent e).loc
  (b.regularOf e).map (fun i => (b.addr 80 + (j * b.cap + i) * b.stride, j * b.cap + i)) ++
  (b.poolOf e).map fun i => (b.addr 88 + i * b.stride, b.locals own * b.cap + i)

/-- Local experts J0 to J1 − 1 whose results have not gone back. -/
def Batch.toReturn (b : Batch) (own j0 j1 : Nat) : List Nat :=
  (List.range (b.locals own)).filter fun j => decide (j0 ≤ j ∧ j < j1) && !b.retExp.contains j

/-- Their results' rows. -/
def Batch.returnRows (b : Batch) (own : Nat) (js : List Nat) : List (Nat × Nat) :=
  js.flatMap fun j => ((b.localExpert own j).map (b.resultsOf own)).getD []

/-- Dome ranges of rows and their origin words. -/
def Batch.returnReads (b : Batch) (src : List (Nat × Nat)) : List (Nat × Nat) :=
  src.flatMap fun x => [(x.1, b.rowBytes), (b.addr 176 + 8 * x.2, 8)]

/-- Those of the rows that came from the device of rank `k`: return position and row (R229). -/
def State.rowsFrom (s : State) (b : Batch) (src : List (Nat × Nat)) (k : Nat) : List (Nat × Bytes) :=
  (src.map fun x => (s.domeNat (b.addr 176 + 8 * x.2) 8, x.1)).filterMap fun w =>
    if bitsOf w.1 32 12 = k then some (w.1 % 2 ^ 32, s.domeRead w.2 b.rowBytes) else none

/-- Dome ranges of a RETURN: the rows with their origin words, its own rows' places, and what follows. -/
def State.returnRanges (s : State) (q : Nat) (b : Batch) (src : List (Nat × Nat)) : List (Nat × Nat) :=
  let mine := s.rowsFrom b src (rankIn (s.batchGroup q b) s.ownLid)
  b.returnReads src ++ (writeRanges (b.returnWrites mine) ++ s.settleRanges q (b.noteReturns mine))

/-- RETURN (R229): the results of local experts J0 to J1 − 1 go back to their sources. -/
def execReturnRows (t : Nat) (s : State) : Res := halRow t 2 (fun q r s =>
  halOnBatch t q r s fun b s =>
    let own := s.ownLid
    let js := b.toReturn own (fieldAt r 8 4) (fieldAt r 12 4)
    let src := b.returnRows own js
    let g := s.batchGroup q b
    s.portGate (engineUnit 0) q (s.returnRanges q b src) (fun u => u.halPop t) fun u =>
      u.engineRead q (b.returnReads src) (fun u => u.halPop t) fun u =>
        let u1 := (u.halPop t).routeAdd q b.layer 8 src.length
        let u2 := (g.zipIdx.filter fun x => x.1 != own).foldl (fun v x => v.sendRows q b 2 x.1 (u.rowsFrom b src x.2)) u1
        u2.takeReturns q { b with retExp := js.foldl setIns b.retExp, retRows := b.retRows + src.length }
          (u.rowsFrom b src (rankIn g own))) s

/-! Cancellation (R233, R234). -/

/-- A pair retired: an open batch ends with CANCELLED and, when the cancel began here, cancel frames to its group; a pair that
is not open enters the list of 16 (R233, R234). -/
def State.cancelPair (s : State) (q tag gen : Nat) (begin' : Bool) : State :=
  match s.batchOf q tag gen with
  | some b =>
    let s1 := (s.endBatch q b).routeAdd q b.layer 0xB 1
    let s2 := if begin' then
        ((s.batchGroup q b).filter (· ≠ s.ownLid)).foldl (fun t lid => t.sendCancel q b lid) s1
      else s1
    (s2.batchEvent q b 0x86 0 0).sweepFetches
  | none =>
    s.modPart q fun p =>
      { p with cancelled := ((tag, gen) :: p.cancelled.filter (· ≠ (tag, gen))).take 16
               held := p.held.filter fun m => !(fieldAt m.payload 1 1 = gen && fieldAt m.payload 2 2 = tag) }

/-- CANCEL (R233, R234): one whose pair names no open batch counts as a stale row (R208). -/
def execCancel (t : Nat) (s : State) : Res := halRow t 3 (fun q r s =>
  let s1 := if (s.batchOf q (fieldAt r 2 2) (fieldAt r 4 1)).isSome then s else s.staleRows q 1
  (s1.halPop t).cancelPair q (fieldAt r 2 2) (fieldAt r 4 1) true) s

/-- The cancel-batch command (R233). -/
def cmdCancelBatch (q val token : Nat) (s : State) : CmdRes :=
  (stDone, (s.cancelPair q (bitsOf val 8 16) (val % 256) true).complete q 0x5001 0 0 token val [])

/-- CANCEL_BATCH (R233). -/
def execCancelBatch (q val token : Nat) (s : State) : Res := runCmd q s (cmdCancelBatch q val token s)

/-- CANCEL_FRAME (R233). -/
def execCancelFrame (s : State) : Res := spireEvent 3 s fun s =>
  match s.takeDelivered fun k => k.kind = 0x11 && fieldAt k.payload 0 1 = 4 with
  | none => s
  | some (k, t) =>
    if t.present k.qdst then t.cancelPair k.qdst (fieldAt k.payload 2 2) (fieldAt k.payload 1 1) false else t

/-! The predictor and the combine fence (R237-R239). -/

/-- Number of blocks for which `p` holds. -/
def blockCount (p : Nat → Bool) : Nat := (List.range 64).countP p

/-- The 32 bytes of counters after an ACTMASK (R239). -/
def predictorUpdate (old mask : Nat) : Bytes :=
  leBytes 32 (((List.range 64).map fun k =>
    let c := bitsOf old (4 * k) 4
    (if mask.testBit k then min 15 (c + 4) else c - 1) * 2 ^ (4 * k)).sum)

/-- ACTMASK (R239). -/
def execActmask (t : Nat) (s : State) : Res := halRow t 4 (fun q r s =>
  halOnBatch t q r s fun b s =>
    let j := fieldAt r 8 4
    let mask := fieldAt r 16 8
    if b.locals s.ownLid ≤ j then s.halPop t
    else
      let pa := b.addr 160 + 8 * j
      let ca := b.addr 168 + 32 * j
      let on := b.addr 168 ≠ 0
      s.engineRun (engineUnit 0) q ((pa, 8) :: if on then [(ca, 32)] else []) [] (fun u => u.halPop t) fun u =>
        let pm := u.domeNat pa 8
        let u1 := (((u.halPop t).routeAdd q b.layer 0xE (blockCount fun k => mask.testBit k && pm.testBit k)).routeAdd q b.layer
          0xF (blockCount fun k => mask.testBit k && !pm.testBit k)).routeAdd q b.layer 0x10
          (blockCount fun k => !mask.testBit k && pm.testBit k)
        if on then u1.engineWrite q [(ca, predictorUpdate (u.domeNat ca 32) mask)] else u1) s

/-- The TIER event of one cold expert (R237). -/
def State.tierEvent (s : State) (q : Nat) (b : Batch) (e : Nat) : State :=
  let j := (b.ent e).loc
  let landed := match s.fetchOf q b j with
    | some f => f.started && !f.failed && f.left = 0
    | none => false
  let s1 := s.batchEvent q b 0x84 (if landed then 0 else 1) j
  if landed then s1 else (s1.routeAdd q b.layer 0xD 1).raiseError 0x0141 (spireUnit 3) q (islSpire 5) [b.tag, b.gen, b.layer, j]

/-- FENCE (R237). -/
def execFence (t : Nat) (s : State) : Res := halRow t 5 (fun q r s =>
  halOnBatch t q r s fun b s => (b.coldLocals s.ownLid).foldl (fun u e => u.tierEvent q b e) (s.halPop t)) s

/-! Counters. -/

/-- The clear-routing-counters command (R243). -/
def cmdClearRoutingCounters (q val token : Nat) (s : State) : CmdRes :=
  if slotOrAll val then (stDone, (s.clearSlots q 0x5100 16 val).complete q 0x5003 0 0 token val []) else (stRefused, s)

/-- CLEAR_ROUTING_COUNTERS (R243). -/
def execClearRoutingCounters (q val token : Nat) (s : State) : Res := runCmd q s (cmdClearRoutingCounters q val token s)

end Sys2Proof.Machine
end

