-- ==== Sys2Proof/Machine/DictWrite.lean ====
section
/-! DEFINITION. What a write of a dictionary object does (13 R392, R394): when it is refused as busy (0x02) or for its value
(0x07), its effect, the commands' actions, the partition plan (R404) and the preload (R405, R406). -/

namespace Sys2Proof.Machine

open Sys2Proof

/-! Busy objects: settings in use (02 R52, 03 R90, 04 R133, 07 R242, 08 R246, R252, R267, 09 R276, R294). -/

/-- An open collective of partition `q` names group table `g` (R252). -/
def State.groupNamed (s : State) (q g : Nat) : Bool := (s.part q).cols.any fun c => c.group = g || c.upper = g

/-- The object is written only while what uses it is idle, and it is in use. -/
def State.objBusy (s : State) (q i sub : Nat) : Bool :=
  let job := s.jobRuns q
  let upd := (s.part q).upd.isSome
  if i = 0x2010 ∨ i = 0x2011 ∨ i = 0x2020 ∨ i = 0x2100 ∨ i = 0x2101 ∨ i = 0x2300 ∨ (0x6100 ≤ i ∧ i ≤ 0x61FF) then job
  else if i = 0x5002 ∨ (0x5010 ≤ i ∧ i ≤ 0x501F) then s.openBatches q != 0
  else if i = 0x5020 then (List.range 4).any fun k => s.openBatches k != 0
  else if 0x6010 ≤ i ∧ i ≤ 0x601F then s.groupNamed q (i - 0x6010)
  else if i = 0x6300 then (if sub = 4 then job && upd else job)
  else if i = 0x6400 then (if sub = 3 then job || upd else upd)
  else if 0x6500 ≤ i ∧ i ≤ 0x650F then job || upd
  else false

/-- Another requester holds a write session on the object (R396). -/
def State.sessionElse (s : State) (rq q obj : Nat) : Bool := s.sessions.any fun x => x.obj = obj && x.q = q && x.req != rq

/-! Values an object accepts (0x07). -/

/-- A device address inside a home dome of tower `t`, a multiple of 64; 0 names no region (14 R430). -/
def saveRegionOk (t v : Nat) : Bool := v % 64 = 0 && (v = 0 || (addrExists v && domeOf v / 2 = t && addrExists (v + 0x1FFFF)))

/-- The scalar object accepts value `v`. -/
def State.scalarOk (s : State) (i sub v : Nat) : Bool :=
  if i = 0x2011 then v != 0
  else if i = 0x2500 ∧ sub = 1 then v % 64 = 0
  else if 0x3020 ≤ i ∧ i ≤ 0x302F ∧ sub = 4 then v != 0
  else if i = 0x4002 then decide (v ≤ 1)
  else if i = 0x4003 then v != 0
  else if 0x4200 ≤ i ∧ i ≤ 0x420F ∧ sub ≤ 2 then v % 64 = 0
  else if i = 0x5002 then decide (v ≤ 15)
  else if 0x6100 ≤ i ∧ i ≤ 0x61FF then
    (match sub with | 1 => decide (v ≤ 2) | 5 => decide (v ≤ 1) | 7 => v % 64 = 0 | _ => true)
  else if i = 0x6300 ∧ sub = 1 then decide (v ≤ 2)
  else if i = 0x6400 ∧ sub = 4 then v % 128 = 0
  else if i = 0x6400 ∧ sub = 7 then decide (1 ≤ v ∧ v ≤ 65536)
  else if 0x6500 ≤ i ∧ i ≤ 0x650F ∧ sub = 1 then decide (v ≤ 4)
  else if i = 0x7000 ∧ sub = 4 then decide (1 ≤ v ∧ v ≤ 3600)
  else if 0x7100 ≤ i ∧ i ≤ 0x7103 then
    (match sub with | 1 => decide (v ≤ 2) | 3 => decide (v ≤ 3) | 7 => decide (1 ≤ v) | _ => true)
  else if 0x7110 ≤ i ∧ i ≤ 0x7113 then
    (match sub with | 1 => v % 64 = 0 | 2 => v % 64 = 0 | 5 => decide (v ≤ 3) | _ => true)
  else if i = 0x8001 ∧ sub = 3 then decide (60 ≤ v)
  else if 0x8100 ≤ i ∧ i ≤ 0x8107 ∧ sub = 6 then saveRegionOk (i - 0x8100) v
  else if 0x8100 ≤ i ∧ i ≤ 0x8107 ∧ sub = 7 then decide (60 ≤ v ∧ v ≤ 86400)
  else if i = 0x9030 ∧ sub = 5 then decide (1 ≤ v ∧ v ≤ 30)
  else if i = 0x9030 ∧ sub = 6 then decide (s.odGet 0 0x9030 5 < v)
  else true

/-- Reserved bits of a scalar object, which a write leaves zero (R12). -/
def scalarMask (i sub v : Nat) : Nat :=
  if i = 0x2100 then v % 4
  else if 0x4200 ≤ i ∧ i ≤ 0x420F ∧ sub = 5 then v % 4
  else v

/-- A group table: 1 to 4,096 distinct logical IDs (R206, R252). -/
def groupTableOk (b : Bytes) : Bool :=
  let l := lidList b
  !l.isEmpty && decide l.Nodup

/-- Words of `w` bytes of a BLOB. -/
def wordsOf (w : Nat) (b : Bytes) : List Nat := (List.range (b.length / w)).map fun k => fieldAt b (w * k) w

/-- The BLOB object accepts the value. -/
def blobOk (i sub : Nat) (b : Bytes) : Bool :=
  if 0x4010 ≤ i ∧ i ≤ 0x4033 then
    (wordsOf 4 b).all (fun p => decide (256 ≤ p)) && decide ((wordsOf 4 b).sum ≤ 4096)
  else if (0x5010 ≤ i ∧ i ≤ 0x501F) ∨ (0x6010 ≤ i ∧ i ≤ 0x601F) then groupTableOk b
  else if i = 0x7000 ∧ sub = 6 then (wordsOf 4 b).all (· != 0)
  else if i = 0x7000 ∧ sub = 7 then decide ((wordsOf 2 b).sum ≤ 256)
  else true

/-- Reserved bits of a BLOB: the port masks of the route tables (Table 11-10). -/
def blobMask (i : Nat) (b : Bytes) : Bytes :=
  if i = 0x4100 ∨ i = 0x4101 then (wordsOf 8 b).flatMap fun w => leBytes 8 (w % 2 ^ 36) else b

/-! Effects of a write. -/

/-- A destination whose entry is written starts anew: SEQ at 0 (R409); records still queued are lost (R410). -/
def State.restartDest (s : State) (k : Nat) : State :=
  let d := s.dest k
  d.queue.foldl (fun t _ => t.countLost k) (s.setDest k { seq := 0, lossDue := d.lossDue || !d.queue.isEmpty, queue := [] })

/-- What follows the write of a scalar. -/
def State.afterScalar (s : State) (i sub : Nat) : State :=
  if i = 0x1020 ∧ sub = 3 then s.restartDest 1
  else if 0x7100 ≤ i ∧ i ≤ 0x7103 ∧ sub = 1 then s.evalShadow (i - 0x7100)
  else s

/-- What follows the write of a BLOB. -/
def State.afterBlob (s : State) (i sub : Nat) : State :=
  if 0x1010 ≤ i ∧ i ≤ 0x1013 ∧ sub = 7 then
    (List.range 8).foldl (fun t k => t.restartDest (subscriberKey (i - 0x1010) k)) s
  else s

/-- A scalar object written (R392). -/
def writeScalar (q i sub v : Nat) (s : State) : CmdRes :=
  if 0x3020 ≤ i ∧ i ≤ 0x302F ∧ sub = 5 then writeScrubPeriod (i - 0x3020) v s
  else if i = 0x3100 then writeSegment (sub - 1) v s
  else if 0x3200 ≤ i ∧ i ≤ 0x3250 then writeSetting (i - 0x3200) sub v s
  else if i = 0x9001 then writeStateCap v s
  else if s.objBusy q i sub then (stBusy, s)
  else if ¬ s.scalarOk i sub v then (stRefused, s)
  else (stDone, (s.odSet q i sub (scalarMask i sub v)).afterScalar i sub)

/-- A BLOB object written (R392, R397). -/
def writeBlob (q i sub : Nat) (b : Bytes) (s : State) : CmdRes :=
  if 0x3010 ≤ i ∧ i ≤ 0x301F then writeTurnTable ((i - 0x3010) % 8) (decide (0x3018 ≤ i)) b s
  else if s.objBusy q i sub then (stBusy, s)
  else if ¬ blobOk i sub b then (stRefused, s)
  else (stDone, (s.blobSet q i sub (blobMask i b)).afterBlob i sub)

/-- The port command, OD 0x4010 + p, :02: 1 enables, 0 disables (R337). How many of the port's trainings have left the last
second is a free value, as a write carries none (R338, log 73). -/
def cmdPort (p v token : Nat) (s : State) : CmdRes :=
  if (s.port p).fenced then (stBusy, s)
  else if v = 1 then
    let d := s.draw 64
    cmdPortEnable p v token (d.1.toNat % ((s.port p).trains + 1)) d.2
  else cmdPortDisable p v token s

/-! The plan (R404). -/

/-- One partition's row of the plan (Table 13-13). -/
structure PlanRow where
  /-- TOWERS -/
  towers : Nat
  /-- PRESENT -/
  present : Bool
  /-- GFIRST -/
  first : Nat
  /-- GCOUNT -/
  count : Nat
  /-- PORTS -/
  ports : Nat
deriving DecidableEq, Repr

/-- The plan's row of partition `q`. -/
def planRow (b : Bytes) (q : Nat) : PlanRow :=
  { towers := fieldAt b (16 * q) 1, present := bitAt (fieldAt b (16 * q + 1) 1) 0, first := fieldAt b (16 * q + 2) 2,
    count := fieldAt b (16 * q + 4) 2, ports := fieldAt b (16 * q + 8) 8 % 2 ^ 36 }

/-- The present partitions whose mask has bit `k`. -/
def planHolders (rows : List PlanRow) (f : PlanRow → Nat) (k : Nat) : Nat := rows.countP fun r => r.present && (f r).testBit k

/-- Two present rows' group ranges do not overlap. -/
def groupsApart (a b : PlanRow) : Bool :=
  !a.present || !b.present || decide (a.first + a.count ≤ b.first) || decide (b.first + b.count ≤ a.first)

/-- The plan keeps every rule of R404. -/
def State.planOk (s : State) (b : Bytes) : Bool :=
  let rows := (List.range 4).map (planRow b)
  let q0 := planRow b 0
  q0.present &&
  (List.range 8).all (fun t => planHolders rows (·.towers) t = 1) &&
  (List.range 36).all (fun p => planHolders rows (·.ports) p = 1) &&
  rows.all (fun r =>
    if r.present then r.towers != 0 && r.count != 0 && decide (r.first + r.count ≤ 4096)
    else r.towers = 0 && r.first = 0 && r.count = 0 && r.ports = 0) &&
  rows.zipIdx.all (fun x => rows.zipIdx.all fun y => x.2 = y.2 || groupsApart x.1 y.1) &&
  (s.segments.filter (·.valid)).all (fun g => q0.towers.testBit (g.dome / 2))

/-- The present layout of partition `q`. -/
def State.layoutRow (s : State) (q : Nat) : PlanRow :=
  let i := 0x1010 + q
  { towers := s.odGet 0 i 2, present := s.present q, first := s.odGet 0 i 4, count := s.odGet 0 i 5, ports := s.odGet 0 i 3 }

/-- Partitions the plan changes (R404). -/
def State.planChanged (s : State) (b : Bytes) : List Nat := (List.range 4).filter fun q => planRow b q != s.layoutRow q

/-- Domes whose partition the plan changes. -/
def State.movedDomes (s : State) (b : Bytes) : List Nat :=
  (List.range 16).filter fun d => (List.range 4).any fun q =>
    (planRow b q).towers.testBit (d / 2) != (s.layoutRow q).towers.testBit (d / 2)

/-- Towers a changed partition holds before or after. -/
def State.planTowers (s : State) (b : Bytes) (ch : List Nat) : List Nat :=
  (List.range 8).filter fun t => ch.any fun q => (planRow b q).towers.testBit t || (s.layoutRow q).towers.testBit t

/-- The object with key `k` is a per-partition object of a changed partition, other than its owners (R404 step 2). -/
def resetsKey (ch tw : List Nat) (k : Nat) : Bool :=
  let i := k / 256 % 65536
  let sub := k % 256
  match odFind i sub with
  | none => false
  | some r =>
    match r.scope with
    | .part => ch.contains (k / 2 ^ 24)
    | .perQ => ch.contains (i - r.lo) && !(i ≤ 0x1013 && sub = 6)
    | .tower => ownTowerOnly i && tw.contains (i - r.lo)
    | .dev => false
    | .dome => false
    | .edge => false
    | .port => false

/-- Per-partition objects of the changed partitions at their defaults; a BLOB so changed moves to its next generation (R397,
R404 step 2). -/
def State.resetObjects (s : State) (ch tw : List Nat) : State :=
  let gone := (s.blobs.map (·.1)).filter (resetsKey ch tw)
  { s with
    od := s.od.filter fun e => !resetsKey ch tw e.1
    blobs := s.blobs.filter fun e => !resetsKey ch tw e.1
    blobGen := gone.foldl (fun m k => mapSet 0 m k ((mapGet 0 m k + 1) % 2 ^ 32)) s.blobGen }

/-- A partition's record written from the plan (Table 13-12). -/
def State.setLayout (s : State) (q : Nat) (r : PlanRow) : State :=
  let i := 0x1010 + q
  ((((((s.odSet 0 i 1 (if r.present then 1 else 0)).odSet 0 i 2 r.towers).odSet 0 i 3 r.ports).odSet 0 i 4 r.first).odSet 0 i 5
    r.count).odSet q 0x6400 5 r.first).odSet q 0x6400 6 r.count

/-- The partition of a per-partition object, from its key and the instance named; 4 for a device-wide object. -/
def keyPart (obj q : Nat) : Nat :=
  match odFind (obj / 256) (obj % 256) with
  | none => 4
  | some r => if r.scope = .part then q else if perPartition r (obj / 256) then obj / 256 - r.lo else 4

/-- Work in progress of the changed partitions discarded (R404 step 1). -/
def State.dropWork (s : State) (ch tw : List Nat) : State :=
  let asks := s.asks.filter fun a => ch.contains a.q
  { s with
    asks := s.asks.filter fun a => !ch.contains a.q
    biWaits := s.biWaits.filter fun w => !asks.any fun a => a.unit = w.unit && inRanges a.rs w.line
    parts := s.parts.filter fun e => !ch.contains e.1
    fetches := s.fetches.filterMap fun f =>
      if ¬ ch.contains f.q then some f else if f.asked = 0 then none else some { f with failed := true, reqs := [] }
    sessions := s.sessions.filter fun x => !ch.contains (keyPart x.obj x.q)
    running := s.running.filter fun r => !ch.contains (keyPart r.obj r.q)
    colCmd := s.colCmd.filter fun e => !ch.contains e.1
    halCmd := s.halCmd.filter fun e => !tw.contains e.1
    dests := s.dests.filter fun e => !(16 ≤ e.1 && ch.contains ((e.1 - 16) / 8)) }

/-- The moved domes' lines hold zeros, and the fill keeps the domes from granting until it ends (R404 step 3). -/
def State.zeroDomes (s : State) (ds : List Nat) : State :=
  { s with
    dome := s.dome.filter fun e => !ds.contains (domeOf e.1)
    poison := s.poison.filter fun e => !ds.contains (domeOf (64 * e.1))
    zeroFill := ds }

/-- The plan takes effect at one moment (R404). -/
def State.takePlan (s : State) (b : Bytes) : State :=
  let ch := s.planChanged b
  let tw := s.planTowers b ch
  let moved := s.movedDomes b
  let s1 := (s.dropWork ch tw).resetObjects ch tw
  let s2 := ch.foldl (fun t q => t.setLayout q (planRow b q)) s1
  let s3 := (s2.odSet 0 0x1000 0 ((List.range 4).countP s2.present)).zeroDomes moved
  (ch.filter s3.present).foldl State.evalShadow s3

/-- A write of OD 0x1001:02 (R404). -/
def cmdApplyPlan (val token : Nat) (s : State) : CmdRes :=
  let b := s.blobGet 0 0x1001 1
  if s.stillRuns 0x100102 0 then (stBusy, s)
  else if ¬ s.planOk b then (stDone, s.completeDev 0x1001 2 1 token val [])
  else if (s.planChanged b).any s.jobRuns then (stBusy, s)
  else
    let s1 := s.takePlan b
    if s.movedDomes b = [] then (stDone, s1.completeDev 0x1001 2 0 token val [])
    else (stDone, s1.startRunning { obj := 0x100102, q := 0, token := token, value := val, qsel := 0x80 })

/-- APPLY_PLAN (R404). -/
def execApplyPlan (val token : Nat) (s : State) : Res := runDevCmd s (cmdApplyPlan val token s)

/-- PLAN_ZERO_FILL_COMPLETE (R404 steps 3 and 4). -/
def execPlanZeroFillComplete (s : State) : Res :=
  .next (if s.served then
    match s.runningOf 0x100102 0 with
    | none => s
    | some r => (({ s with zeroFill := [] } : State).endRunning 0x100102 0).completeDev 0x1001 2 0 r.token r.value []
  else s)

/-! Commands (R394). -/

/-- The action of a command object other than the preload's (R394). A start command comes here once its table read is granted
(`startServed`), or as an entry of a preload, which applies it at once (log 74). -/
def runAction (q i sub v token : Nat) (s : State) : CmdRes :=
  if s.stillRuns (i * 256 + sub) q then (stBusy, s)
  else if i = 0x1001 then cmdApplyPlan v token s
  else if i = 0x2020 ∧ sub = 2 then (startServed q v token s).getD (cmdStartJob q v token s)
  else if i = 0x2020 then cmdStopJob q v token s
  else if i = 0x2120 then cmdClearRangeCounters q v token s
  else if i = 0x2301 then cmdClearArrayCounters q v token s
  else if i = 0x2401 then cmdClearTackleCounters q v token s
  else if i = 0x2500 then cmdStartPruning q v token s
  else if i = 0x2501 then cmdClearPruningCounters q v token s
  else if 0x3200 ≤ i ∧ i ≤ 0x3250 then cmdReEnable (i - 0x3200) v token s
  else if 0x4010 ≤ i ∧ i ≤ 0x4033 then cmdPort (i - 0x4010) v token s
  else if i = 0x5001 then cmdCancelBatch q v token s
  else if i = 0x5003 then cmdClearRoutingCounters q v token s
  else if i = 0x6401 then cmdStartUpdate q v token s
  else if i = 0x6402 then cmdAbandonUpdate q v token s
  else if i = 0x6403 then cmdClearBoomCounters q v token s
  else if 0x7120 ≤ i ∧ i ≤ 0x7123 then cmdStartRestore (i - 0x7120) v token s
  else (stBusy, s)

/-- A write whose rights and size are checked (R391, R392): another requester's session makes it busy (R396). -/
def writeObject (rq : Requester) (t : Target) (i sub token : Nat) (b : Bytes) (s : State) : CmdRes :=
  if s.sessionElse (reqCode rq) t.q (i * 256 + sub) then (stBusy, s)
  else if t.row.right = .cmd then runAction t.q i sub (leNat b) token s
  else if t.row.ty.isBytes then writeBlob t.q i sub b s
  else if t.row.ty = .bool ∧ 1 < leNat b then (stRefused, s)
  else writeScalar t.q i sub (leNat b) s

/-! The preload (R405, R406). -/

/-- An entry of a preload image (R405). -/
structure Preset where
  /-- INDEX -/
  index : Nat
  /-- SUB -/
  sub : Nat
  /-- QSEL -/
  qsel : Nat
  /-- the value -/
  data : Bytes
deriving DecidableEq, Repr

/-- `n` entries and nothing else (R405). -/
def parsePresets : Nat → Bytes → Option (List Preset)
  | 0, b => if b.isEmpty then some [] else none
  | n + 1, b =>
    let len := fieldAt b 4 2
    let whole := 8 * ceilDiv (8 + len) 8
    if b.length < whole ∨ fieldAt b 6 2 ≠ 0 then none
    else (parsePresets n (b.drop whole)).map fun l =>
      ({ index := fieldAt b 0 2, sub := fieldAt b 2 1, qsel := fieldAt b 3 1, data := (b.drop 8).take len } : Preset) :: l

/-- SIGNED of the header. -/
def preloadSigned (img : Bytes) : Bool := bitAt (fieldAt img 2 2) 0

/-- Bytes of the header and the entries. -/
def preloadBody (img : Bytes) : Bytes := img.take (32 + fieldAt img 8 4)

/-- The entries, when header and length are as R405 says. -/
def State.preloadEntries (s : State) (img : Bytes) : Option (List Preset) :=
  let body := fieldAt img 8 4
  if img.length = 32 + body + (if preloadSigned img then 512 else 0) ∧ fieldAt img 0 2 = 1 ∧
      fieldAt img 12 2 = s.odGet 0 1 4 ∧ ((img.drop 14).take 18).all (· = 0)
  then parsePresets (fieldAt img 4 4) ((img.drop 32).take body) else none

/-- Why the image's signature refuses it: cause as Table 16-3, none when it stands (R406). -/
def State.preloadRefused (s : State) (img : Bytes) : Option Nat :=
  if preloadSigned img then
    (if s.platKey = [] then some 2
     else if pssVerify s.platKey (sha512 (preloadBody img)) (img.drop (preloadBody img).length) then none else some 1)
  else if bitAt (s.odGet 0 0xA000 5) 0 then some 4 else none

/-- The status an entry is checked for before anything is applied: 0x05, 0x03, 0x04 or 0x06 (R406). -/
def State.checkPreset (s : State) (rq : Requester) (e : Preset) : Nat :=
  if e.qsel % 128 / 4 ≠ 0 then stMalformed
  else match s.lookup rq e.index e.sub e.qsel with
    | .error st => st
    | .ok t =>
      if ¬ s.mayWrite rq t e.index e.sub then stDenied
      else if ¬ sizeFits t.row e.index e.sub e.data.length then stMismatch
      else stDone

/-- The entries applied in order until one is refused: its status, the number applied, the state (R406). -/
def applyPresets (rq : Requester) (token : Nat) : List Preset → Nat → State → Nat × Nat × State
  | [], n, s => (stDone, n, s)
  | e :: r, n, s =>
    match s.lookup rq e.index e.sub e.qsel with
    | .error st => (st, n, s)
    | .ok t =>
      let w := writeObject rq t e.index e.sub token e.data s
      if w.1 = stDone then applyPresets rq token r (n + 1) w.2 else (w.1, n, s)

/-- A write of OD 0x1100:02 (R406). The completion carries the number of the first entry not applied in bytes 16 to 19. -/
def cmdApplyPreload (rq : Requester) (q val token : Nat) (s : State) : CmdRes :=
  let img := s.blobGet q 0x1100 1
  let done := fun (t : State) (st n : Nat) => (stDone, t.complete q 0x1100 2 st token val (leBytes 4 n))
  match s.preloadEntries img with
  | none => done s stMalformed 0
  | some es =>
    match s.preloadRefused img with
    | some cause =>
      done (s.raise 0x0701 (spireUnit 7) q (islSpire 7)
        (leBytes 1 6 ++ leBytes 1 cause ++ leBytes 2 0 ++ leBytes 4 (fieldAt img 0 2))) stSignature 0
    | none =>
      match es.find? fun e => s.checkPreset rq e != stDone with
      | some e => done s (s.checkPreset rq e) 0
      | none =>
        let r := applyPresets rq token es 0 s
        done (if r.1 = stDone ∧ q = 0 then r.2.2.measure 6 (sha512 img) else r.2.2) r.1 r.2.1

/-- APPLY_PRELOAD (R406). -/
def execApplyPreload (rq : Requester) (q val token : Nat) (s : State) : Res := runCmd q s (cmdApplyPreload rq q val token s)

/-- A write checked as `writeObject`, the preload command among the commands. -/
def writeAny (rq : Requester) (t : Target) (i sub token : Nat) (b : Bytes) (s : State) : CmdRes :=
  if i = 0x1100 ∧ sub = 2 then cmdApplyPreload rq t.q (leNat b) token s else writeObject rq t i sub token b s

end Sys2Proof.Machine
end

