-- ==== Sys2Proof/Machine/Merec.lean ====
section
/-! DEFINITION. The Merec protocol (13.3): requests and answers as bytes (R390), the checks in their order (R391), the six
operations (Table 13-7), write sessions (R396), deferred answers (R393), and the transports' answers (R399). -/

namespace Sys2Proof.Machine

open Sys2Proof

/-! Requests and answers as bytes (Tables 13-5, 13-6). -/

/-- The operations of Table 13-7. -/
inductive MOp where
  | read
  | write
  | readSeg
  | writeSeg
  | readRec
  | describe
deriving DecidableEq, Repr

/-- OP (Table 13-7). -/
def MOp.code : MOp → Nat
  | .read => 1 | .write => 2 | .readSeg => 3 | .writeSeg => 4 | .readRec => 5 | .describe => 6

/-- The operation with code `n`. -/
def MOp.ofCode (n : Nat) : Option MOp :=
  match n with
  | 1 => some .read | 2 => some .write | 3 => some .readSeg | 4 => some .writeSeg | 5 => some .readRec | 6 => some .describe
  | _ => none

/-- The operation carries DATA in its request. -/
def MOp.carries : MOp → Bool
  | .write => true
  | .writeSeg => true
  | .read => false
  | .readSeg => false
  | .readRec => false
  | .describe => false

/-- The operation works on a part of a BLOB, so OFFSET may be nonzero. -/
def MOp.segment : MOp → Bool
  | .readSeg => true
  | .writeSeg => true
  | .read => false
  | .write => false
  | .readRec => false
  | .describe => false

/-- The operation and its fields; none where the header is short, or OP or FLAGS is outside Table 13-5. -/
def parseMerec (b : Bytes) : Option (MOp × Merec) :=
  let flags := fieldAt b 1 1
  if b.length < 16 ∨ 1 < flags then none
  else (MOp.ofCode (fieldAt b 0 1)).map fun op =>
    (op, { last := flags = 1, token := fieldAt b 2 2, index := fieldAt b 4 2, sub := fieldAt b 6 1, qsel := fieldAt b 7 1,
           offset := fieldAt b 8 4, length := fieldAt b 12 4, data := b.drop 16 })

/-- The bytes of a request (Table 13-5). -/
def merecBytes (op : MOp) (m : Merec) : Bytes :=
  leBytes 1 op.code ++ leBytes 1 (if m.last then 1 else 0) ++ leBytes 2 m.token ++ leBytes 2 m.index ++ leBytes 1 m.sub ++
  leBytes 1 m.qsel ++ leBytes 4 m.offset ++ leBytes 4 m.length ++ m.data

/-- An answer (Table 13-6). -/
structure Ans where
  /-- STATUS -/
  status : Nat
  /-- QSEL as resolved -/
  qsel : Nat
  /-- GEN -/
  gen : Nat := 0
  /-- TOTAL -/
  total : Nat := 0
  /-- DATA -/
  data : Bytes := []
deriving DecidableEq, Repr

/-- The answer's bytes (Table 13-6). -/
def ansBytes (op : Nat) (m : Merec) (a : Ans) : Bytes :=
  leBytes 1 (op % 128 + 128) ++ leBytes 1 a.status ++ leBytes 2 m.token ++ leBytes 2 m.index ++ leBytes 1 m.sub ++
  leBytes 1 a.qsel ++ leBytes 4 m.offset ++ leBytes 4 a.data.length ++ leBytes 4 a.gen ++ leBytes 4 a.total ++ a.data

/-- The answer to bytes that are no request: status 0x05, the header fields echoed as far as the bytes go. -/
def malformedBytes (b : Bytes) : Bytes :=
  ansBytes (fieldAt b 0 1) { token := fieldAt b 2 2, index := fieldAt b 4 2, sub := fieldAt b 6 1, offset := fieldAt b 8 4 }
    { status := stMalformed, qsel := unresolvedQsel (fieldAt b 4 2) (fieldAt b 6 1) (fieldAt b 7 1) }

/-! The checks (R391). -/

/-- Status 0x05: reserved bits, OFFSET or LAST outside the segment operations, or a length outside the transport's limits, the
request's own among them (R399). -/
def malformed (op : MOp) (rq : Requester) (m : Merec) : Bool :=
  m.qsel % 128 / 4 != 0 || (m.last && op != .writeSeg) || (!op.segment && m.offset != 0) ||
  (op.carries && m.data.length != m.length) || decide (largestSegment rq < m.length) || decide (largestSegment rq < m.data.length)

/-- Rights (0x04): a read of what nobody may read, a write of what the requester may not write (R386). -/
def State.denied (s : State) (op : MOp) (rq : Requester) (t : Target) (m : Merec) : Bool :=
  match op with
  | .read => !t.row.right.readable
  | .readSeg => !t.row.right.readable
  | .write => !s.mayWrite rq t m.index m.sub
  | .writeSeg => !s.mayWrite rq t m.index m.sub
  | .readRec => false
  | .describe => false

/-- Entries of a record as READ RECORD returns them (R398). -/
def State.recordBytes (s : State) (t : Target) (i : Nat) : Bytes :=
  (recordSubs i).flatMap fun k =>
    match odFind i k with
    | none => []
    | some r =>
      let x : Target := { t with row := r }
      let b := if r.right.readable then s.valueBytes x i k else List.replicate r.ty.size 0
      if r.ty = .blob then leBytes 4 b.length
      else if r.ty = .str then leBytes 1 b.length ++ b
      else b

/-- Status 0x06: LENGTH does not fit the type or size, or the operation does not fit the object (Tables 13-7, 13-8). -/
def State.mismatched (s : State) (op : MOp) (rq : Requester) (t : Target) (m : Merec) : Bool :=
  let n := s.totalOf t m.index m.sub
  match op with
  | .read =>
    if t.row.ty.isBytes then decide (largestSegment rq < n) || (m.length != 0 && decide (m.length < n))
    else m.length != 0 && m.length != n
  | .write => !sizeFits t.row m.index m.sub m.data.length
  | .readSeg => t.row.ty != .blob
  | .writeSeg => t.row.ty != .blob
  | .readRec => m.sub != 0 || (recordSubs m.index).isEmpty || decide (largestSegment rq < (s.recordBytes t m.index).length)
  | .describe => false

/-! Sessions (R396). -/

/-- The object key of a request. -/
def objKeyOf (m : Merec) : Nat := m.index * 256 + m.sub

/-- The requester's session on the object. -/
def State.sessionOf (s : State) (rq q obj : Nat) : Option Session := s.sessions.find? fun x => x.req = rq && x.q = q && x.obj = obj

/-- The requester's session on the object closed. -/
def State.closeSession (s : State) (rq q obj : Nat) : State :=
  { s with sessions := s.sessions.filter fun x => !(x.req = rq && x.q = q && x.obj = obj) }

/-- WRITE SEGMENT on an open session, or opening one, with the bytes received so far: extended, or applied on LAST, which
closes it (R396). A refused LAST changes nothing (R391): its session stays open. -/
def State.extend (s : State) (rq : Requester) (t : Target) (m : Merec) (sofar : Bytes) : CmdRes :=
  let c := reqCode rq
  let o := objKeyOf m
  let s1 := s.closeSession c t.q o
  let all := sofar ++ m.data
  if m.last then
    if ¬ sizeFits t.row m.index m.sub all.length then (stMismatch, s)
    else
      let r := writeAny rq t m.index m.sub m.token all s1
      if r.1 = stDone then r else (r.1, s)
  else (stDone, { s1 with sessions := s1.sessions ++ [{ req := c, q := t.q, obj := o, data := all, token := m.token }] })

/-- WRITE SEGMENT (R396): busy while another requester's session is open, or beyond four sessions. -/
def State.writeSegmentOn (s : State) (rq : Requester) (t : Target) (m : Merec) : CmdRes :=
  let c := reqCode rq
  let o := objKeyOf m
  let mine := s.sessionOf c t.q o
  if m.offset = 0 then
    if s.sessionElse c t.q o then (stBusy, s)
    else if mine.isNone ∧ 4 ≤ s.sessions.countP fun x => x.req = c then (stBusy, s)
    else s.extend rq t m []
  else match mine with
    | none => (stSegment, s)
    | some x => if m.offset = x.data.length then s.extend rq t m x.data else (stSegment, s.closeSession c t.q o)

/-! Execution (R392). -/

/-- DATA of DESCRIBE (Table 13-7). -/
def describeBytes (r : OdRow) : Bytes := leBytes 1 r.ty.code ++ leBytes 1 r.right.code ++ leBytes 2 0 ++ leBytes 4 r.largest

/-- The operation on an object that every check before 0x08 has passed. -/
def State.perform (s : State) (op : MOp) (rq : Requester) (t : Target) (m : Merec) : CmdRes × Bytes :=
  match op with
  | .read => ((stDone, s), s.valueBytes t m.index m.sub)
  | .write => (writeAny rq t m.index m.sub m.token m.data s, [])
  | .readSeg =>
    let v := s.valueBytes t m.index m.sub
    if v.length < m.offset + m.length then ((stSegment, s), []) else ((stDone, s), (v.drop m.offset).take m.length)
  | .writeSeg => (s.writeSegmentOn rq t m, [])
  | .readRec => ((stDone, s), s.recordBytes t m.index)
  | .describe => ((stDone, s), describeBytes t.row)

/-- TOTAL of an answer about object `t`: the present size of its value, of the record for READ RECORD. -/
def State.totalFor (s : State) (op : MOp) (t : Target) (m : Merec) : Nat :=
  if op = .readRec then (s.recordBytes t m.index).length else s.totalOf t m.index m.sub

/-- The answer about object `t`, in the state it is given from. -/
def State.ansFor (s : State) (op : MOp) (t : Target) (m : Merec) (status : Nat) (data : Bytes) : Ans :=
  { status := status, qsel := t.qsel, gen := s.genOf t m.index m.sub, total := s.totalFor op t m, data := data }

/-- A request executed: its answer and the state after it (R391, R392). -/
def State.execMerec (s : State) (op : MOp) (rq : Requester) (m : Merec) : Ans × State :=
  if malformed op rq m then ({ status := stMalformed, qsel := s.ansQsel rq m.index m.sub m.qsel }, s)
  else match s.lookup rq m.index m.sub m.qsel with
    | .error st => ({ status := st, qsel := s.ansQsel rq m.index m.sub m.qsel }, s)
    | .ok t =>
      if s.denied op rq t m then (s.ansFor op t m stDenied [], s)
      else if s.mismatched op rq t m then (s.ansFor op t m stMismatch [], s)
      else
        let r := s.perform op rq t m
        (r.1.2.ansFor op t m r.1.1 r.2, r.1.2)

/-! Whose request runs (R392). -/

/-- The mailbox request that runs next: one accepted before a Function Level Reset first (12 R359). -/
def State.mailboxNext (s : State) : Option Bytes :=
  match s.cxl.mbxDropped with
  | b :: _ => some b
  | [] => s.cxl.mbxJob

/-- The Shroud request that runs next: the first delivered, as the management lane is one queue (log 75). -/
def State.shroudNext (s : State) : Option Packet := s.delivery.find? fun k => k.kind = 1

/-- The request runs now: the management mailbox edge has granted its requester's turn, and it is the one that waits there. What
an MCTP endpoint asks shows in no register of the device: its row is the request (log 75). -/
def State.turnOf (s : State) (op : MOp) (rq : Requester) (m : Merec) : Bool :=
  match rq with
  | .cxl => s.mgmtTurn = some 0 && (match s.mailboxNext with | some b => parseMerec b = some (op, m) | none => false)
  | .shroud lid => s.mgmtTurn = some 1 &&
      (match s.shroudNext with | some k => k.slid = lid && parseMerec k.payload = some (op, m) | none => false)
  | .mctp _ => s.mgmtTurn = some 2

/-- The request is the one in the mailbox, acknowledged or not, and it runs now. -/
def State.inMailbox (s : State) (op : MOp) (m : Merec) : Bool :=
  s.cxl.mbxDropped.isEmpty && (s.cxl.mbxState = 1 || s.cxl.mbxState = 2) && s.turnOf op .cxl m

/-! Answers on the three transports (R399). -/

/-- An answer noted as given: its requester and bytes. -/
def State.noteAnswer (s : State) (rq : Requester) (b : Bytes) : State := { s with answers := s.answers ++ [(reqCode rq, b)] }

/-- Bytes put into the answer buffer, and state 3 (R370); the answer leaves through the CXL egress (R377). -/
def State.mailboxDone (s : State) (b : Bytes) : State :=
  ((s.modCxl fun c => { c with
    mbxState := 3, mbxJob := none, mbxAns := none, mbxLate := false, mbxAlen := BitVec.ofNat 32 b.length,
    mbxAnsBuf := memWrite c.mbxAnsBuf 0 b }).toHost 1 { kind := 14, data := b }).noteAnswer .cxl b

/-- The mailbox's request has run, with answer `b`: in state 2 the answer is to come; in state 1 it is given, or state 2 is
entered, as `later` says (R370). -/
def State.mailboxRan (s : State) (b : Bytes) (later : Bool) : State :=
  if s.cxl.mbxState = 2 ∨ later then s.modCxl fun c => { c with mbxState := 2, mbxJob := none, mbxAns := some b }
  else s.mailboxDone b

/-- An answer sent to its requester (Table 13-9), `qd` and `qs` the partitions of a Shroud answer. -/
def State.sendAnswer (s : State) (rq : Requester) (qd qs : Nat) (b : Bytes) : State :=
  match rq with
  | .cxl => s.mailboxRan b false
  | .shroud lid => (s.noteAnswer rq b).sendPacket 5 qs 0x02 lid qd 0 b
  | .mctp eid => (s.noteAnswer rq b).emit 5 eid (mctpFrame 0x02 b) 0

/-- Deferred requests the requester holds (R393). -/
def State.deferredBy (s : State) (rq : Requester) : Nat := s.deferred.countP fun d => d.req = reqCode rq

/-- A READ of a scalar, whose answer is never deferred (R393). -/
def scalarRead (op : MOp) (m : Merec) : Bool :=
  op = .read && (match odFind m.index m.sub with | some r => !r.ty.isBytes | none => true)

/-- A command write, whose notice follows its answer (R394). -/
def commandWrite (op : MOp) (m : Merec) : Bool :=
  op = .write && (match odFind m.index m.sub with | some r => r.right = .cmd | none => false)

/-- The busy answer about the object the request means, which it leaves as it is (R391, R393). -/
def State.busyAns (s : State) (op : MOp) (rq : Requester) (m : Merec) : Ans :=
  match s.lookup rq m.index m.sub m.qsel with
  | .ok t => s.ansFor op t m stBusy []
  | .error _ => { status := stBusy, qsel := s.ansQsel rq m.index m.sub m.qsel }

/-- The request executed, but for a ninth request of a requester that holds 8 deferred ones, which is busy (R393). -/
def State.answerMerec (s : State) (op : MOp) (rq : Requester) (m : Merec) : Ans × State :=
  let r := s.execMerec op rq m
  if 8 ≤ s.deferredBy rq ∧ ¬ scalarRead op m ∧ (r.1.status = stDone ∨ r.1.status = stBusy ∨ r.1.status = stRefused) then
    (s.busyAns op rq m, s)
  else r

/-- The answer is given at once whatever happens: a refusal, the READ of a scalar, or a command's (R393, R394). -/
def atOnce (op : MOp) (m : Merec) (a : Ans) : Bool := a.status != stDone || scalarRead op m || commandWrite op m

/-- The first answer, final or deferred (R393): whether a request that was done is answered at once is a free value. On the
mailbox, state 2 stands in for the deferred answer (R370). -/
def State.respond (s : State) (op : MOp) (rq : Requester) (qd qs : Nat) (m : Merec) (a : Ans) : State :=
  let b := ansBytes op.code m a
  if atOnce op m a then s.sendAnswer rq qd qs b
  else
    let d := s.draw 1
    if d.1 = 0 then d.2.sendAnswer rq qd qs b
    else if rq = .cxl then d.2.mailboxRan b true
    else
      let t : State := { d.2 with deferred := d.2.deferred ++ [{ req := reqCode rq, qdst := qd, qsrc := qs, answer := b }] }
      t.sendAnswer rq qd qs (ansBytes op.code m { a with status := stDeferred, data := [] })

/-- The dictionary takes requests: it is served, or in the recovery state answers as R479 says. -/
def State.answers? (s : State) : Bool := s.served || s.boot = .recovery

/-- The grant is used: the request leaves the place where it waited. -/
def State.takeTurn (s : State) (rq : Requester) : State :=
  let t : State := { s with mgmtTurn := none }
  match rq with
  | .cxl => match s.cxl.mbxDropped with
    | [] => t
    | _ :: l => t.modCxl fun c => { c with mbxDropped := l }
  | .shroud _ => match t.takeDelivered fun k => k.kind = 1 with
    | some (_, u) => u
    | none => t
  | .mctp eid => { t with mctpEid := eid }

/-- Partitions of the answer to the request that runs next: those of its packet, the other way round (Table 13-9). -/
def State.answerTo (s : State) (rq : Requester) : Nat × Nat :=
  match rq with
  | .shroud _ => (s.shroudNext.map fun k => (k.qsrc, k.qdst)).getD (0, 0)
  | .cxl => (0, 0)
  | .mctp _ => (0, 0)

/-- A write of the start-job command that passes every check and whose table read still waits for the dome ports: the
partition (03 R86, 10 R317). -/
def State.startWaits (s : State) (op : MOp) (rq : Requester) (m : Merec) : Option Nat :=
  if op = .write ∧ m.index = 0x2020 ∧ m.sub = 2 ∧ ¬ malformed op rq m ∧ s.deferredBy rq < 8 then
    match s.lookup rq m.index m.sub m.qsel with
    | .ok t => if ¬ s.denied op rq t m ∧ ¬ s.mismatched op rq t m ∧ (startServed t.q (leNat m.data) m.token s).isNone then some t.q
        else none
    | .error _ => none
  else none

/-- The request runs: it leaves its place, executes and is answered; the answer to one accepted before a Function Level Reset is
discarded (12 R359). -/
def State.runMerec (s : State) (op : MOp) (rq : Requester) (m : Merec) : State :=
  let k := s.answerTo rq
  let r := (s.takeTurn rq).answerMerec op rq m
  if rq = .cxl ∧ s.cxl.mbxDropped ≠ [] then r.2 else r.2.respond op rq k.1 k.2 m r.1

/-- A request whose turn has come runs; a start command first waits for its table read. -/
def State.serveMerec (s : State) (op : MOp) (rq : Requester) (m : Merec) : State :=
  if s.turnOf op rq m then
    match s.startWaits op rq m with
    | some q => s.askTable q
    | none => s.runMerec op rq m
  else s

/-- A request row: nothing is answered while the dictionary is not served. -/
def merecRow (op : MOp) (rq : Requester) (m : Merec) (s : State) : Res := .next (if s.answers? then s.serveMerec op rq m else s)

/-- READ (R390). -/
def execRead (rq : Requester) (m : Merec) (s : State) : Res := merecRow .read rq m s
/-- WRITE (R392). -/
def execWrite (rq : Requester) (m : Merec) (s : State) : Res := merecRow .write rq m s
/-- READ_SEGMENT (R397). -/
def execReadSegment (rq : Requester) (m : Merec) (s : State) : Res := merecRow .readSeg rq m s
/-- WRITE_SEGMENT (R396). -/
def execWriteSegment (rq : Requester) (m : Merec) (s : State) : Res := merecRow .writeSeg rq m s
/-- READ_RECORD (R398). -/
def execReadRecord (rq : Requester) (m : Merec) (s : State) : Res := merecRow .readRec rq m s
/-- DESCRIBE (R390). -/
def execDescribe (rq : Requester) (m : Merec) (s : State) : Res := merecRow .describe rq m s

/-- The mailbox's deferred answer is ready: state 3, and vector 0 if IRQ is 1 (R370). -/
def State.mailboxReady (s : State) : State :=
  match s.cxl.mbxState, s.cxl.mbxAns with
  | 2, some b => if s.cxl.mbxIrq then (s.mailboxDone b).msix 0 else s.mailboxDone b
  | _, _ => s

/-- MAILBOX_ANSWER_READY (R370). -/
def execMailboxAnswerReady (s : State) : Res := .next (if s.answers? then s.mailboxReady else s)

/-- DEFERRED_ANSWER (R393): the requester's oldest deferred request; on the mailbox, state 2 stands in for it. -/
def execDeferredAnswer (rq : Requester) (s : State) : Res :=
  .next (if s.answers? then
    if rq = .cxl then s.mailboxReady
    else match s.deferred.find? fun d => d.req = reqCode rq with
      | some d => ({ s with deferred := s.deferred.erase d } : State).sendAnswer rq d.qdst d.qsrc d.answer
      | none => s
  else s)

/-- DICTIONARY_DEADLINE (R393): 2 µs, 2,000 cycles of the management cores; the responder is the dictionary. It is no deadline
of Table 12-9, so OD 0x1800:0D does not count it. -/
def execDictionaryDeadline (delay : Nat) (s : State) : Res :=
  .next (if s.served ∧ 2000 < delay then s.raiseOpen 0x0501 (spireUnit 2) 4 (islSpire 0) [spireUnit 2, delay] else s)

/-- SESSION_TIMEOUT (R396): 100 ms without a segment. -/
def execSessionTimeout (rq : Requester) (q obj : Nat) (s : State) : Res :=
  .next (if s.served then s.closeSession (reqCode rq) q obj else s)

/-- Bytes that are no request are answered with status 0x05 when their turn comes (R391, R399). -/
def State.refuseNext (s : State) : State :=
  if ¬ s.answers? then s
  else match s.mgmtTurn with
    | some 0 => match s.mailboxNext with
      | some b =>
        if (parseMerec b).isSome then s
        else if s.cxl.mbxDropped ≠ [] then s.takeTurn .cxl
        else (s.takeTurn .cxl).sendAnswer .cxl 0 0 (malformedBytes b)
      | none => s
    | some 1 => match s.shroudNext with
      | some k =>
        if (parseMerec k.payload).isSome then s
        else (s.takeTurn (.shroud k.slid)).sendAnswer (.shroud k.slid) k.qsrc k.qdst (malformedBytes k.payload)
      | none => s
    | _ => s

/-- A mailbox request that still waits in state 1 may be acknowledged, with state 2, before it runs: a free value says when
(12 R370). -/
def State.ackMailbox (s : State) : State :=
  if s.answers? && s.cxl.mbxState = 1 && s.cxl.mbxJob.isSome then
    let d := s.draw 1
    if d.1 = 0 then d.2 else d.2.modCxl fun c => { c with mbxState := 2 }
  else s

end Sys2Proof.Machine
end

