-- ==== Sys2Proof/Machine/Mailbox.lean ====
section
/-! DEFINITION. The command mailbox (12.6) and the writes of BAR0's registers (12 R362, Table 12-4). -/

namespace Sys2Proof.Machine

open Sys2Proof

/-- A mailbox request is in progress: state 1 or 2. -/
def State.mailboxBusy (s : State) : Bool := s.cxl.mbxState = 1 || s.cxl.mbxState = 2

/-- The request MBX_LEN describes; none where it is outside 1 to 4,096 (R370, R371). -/
def State.mailboxCopy (s : State) : Option Bytes :=
  let n := s.cxl.mbxLen.toNat
  if 1 ≤ n ∧ n ≤ 4096 then some (memRead s.cxl.mbxReqBuf 0 n) else none

/-- MBX_CTRL written with DOORBELL = 1 (R370, R371): the request is copied, or, with MBX_LEN outside its range, answered as
malformed at once. -/
def State.ringDoorbell (s : State) (seq : BitVec 16) (irq : Bool) : State :=
  if s.mailboxBusy then
    s.modCxl fun c => { c with mbxIrq := irq, mbxIgnored := min 255 (c.mbxIgnored + 1) }
  else
    let s1 := s.modCxl fun c => { c with
      mbxSeqCtl := seq, mbxIrq := irq, mbxSeq := seq, mbxIgnored := 0, mbxState := 1, mbxJob := some (s.mailboxCopy.getD []),
      mbxAns := none, mbxLate := false }
    if s.mailboxCopy.isNone ∧ s.answers? then s1.mailboxDone (malformedBytes []) else s1

/-- DOORBELL (R370). -/
def execDoorbell (seq : BitVec 16) (irq : Bool) (s : State) : Res := .next (s.barWrite 0x30000 fun s => s.ringDoorbell seq irq)

/-- MAILBOX_ACK_TIMEOUT (R372): the state is still 1 after 1 µs, 1,000 cycles of the management cores; once per request (R380). -/
def execMailboxAckTimeout (delay : Nat) (s : State) : Res :=
  .next (if s.answers? && s.cxl.mbxState = 1 && !s.cxl.mbxLate && decide (1000 < delay) then
    (s.modCxl fun c => { c with mbxLate := true }).hostDeadline (spireUnit 1) 4 (islSpire 0) delay
  else s)

/-! BAR0 (R362). -/

/-- A 32-bit half of a 64-bit register written. -/
def setHalf (w : BitVec 64) (high : Bool) (v : BitVec 32) : BitVec 64 :=
  if high then v ++ w.extractLsb' 0 32 else w.extractLsb' 32 32 ++ v

/-- A word of the MSI-X table written; a vector unmasked sends what is pending (R377). -/
def State.writeMsix (s : State) (o : Nat) (v : BitVec 32) : State :=
  let put := fun (m : List Host.Cell) (k : Nat) (x : Byte) => mapSet (if k % 16 = 12 then 1 else 0) m k x
  if o % 16 = 12 then
    if v.getLsbD 0 then s.modCxl fun c => { c with msixTable := put c.msixTable o 1 }
    else s.unmask (o / 16)
  else s.modCxl fun c => { c with
    msixTable := ((leBytes 4 v.toNat).zipIdx).foldl (fun m x => put m (o + x.2) x.1) c.msixTable }

/-- RING_CTRL written (Table 12-7, R374). -/
def State.writeRingCtrl (s : State) (v : BitVec 32) : State :=
  let log2 := v.toNat % 32
  let mirror := v.getLsbD 9
  if v.getLsbD 8 then s.enableRing log2 mirror else s.disableRing log2 mirror

/-- An aligned 32-bit write at BAR0 offset `o` (Table 12-4). -/
def State.write32 (s : State) (o : Nat) (v : BitVec 32) : State :=
  if o < 0x10000 then s.modCxl fun c => { c with bar := memWrite c.bar o (leBytes 4 v.toNat) }
  else if 0x20000 ≤ o ∧ o < 0x20400 then s.writeMsix (o - 0x20000) v
  else if o = 0x30000 then
    if v.getLsbD 0 then s.ringDoorbell (v.extractLsb' 16 16) (v.getLsbD 1)
    else
      let s1 := s.modCxl fun c => { c with mbxIrq := v.getLsbD 1 }
      if s.mailboxBusy then s1 else s1.modCxl fun c => { c with mbxSeqCtl := v.extractLsb' 16 16 }
  else if o = 0x30008 then (if s.mailboxBusy then s else s.modCxl fun c => { c with mbxLen := v })
  else if 0x31000 ≤ o ∧ o < 0x32000 then
    if s.mailboxBusy then s else s.modCxl fun c => { c with mbxReqBuf := memWrite c.mbxReqBuf (o - 0x31000) (leBytes 4 v.toNat) }
  else if o = 0x34000 ∨ o = 0x34004 then
    if s.cxl.ringEnable then s else s.modCxl fun c => { c with ringBase := setHalf c.ringBase (o = 0x34004) v }
  else if o = 0x34008 then s.writeRingCtrl v
  else if o = 0x34010 then s.writeCons v
  else if o = 0x34018 ∨ o = 0x3401C then
    if s.cxl.ringEnable then s else s.modCxl fun c => { c with ringPaddr := setHalf c.ringPaddr (o = 0x3401C) v }
  else s

/-- An access of a register: aligned, of 32 or 64 bits (R362). -/
def accessFits (o size : Nat) : Bool := (size = 4 && o % 4 = 0) || (size = 8 && o % 8 = 0)

/-- A register write, of 64 bits the lower half first (R362). -/
def State.writeRegister (s : State) (o size : Nat) (v : BitVec 64) : State :=
  let s1 := s.write32 o (v.extractLsb' 0 32)
  if size = 8 then s1.write32 (o + 4) (v.extractLsb' 32 32) else s1

/-- REGISTER_WRITE (R362): one of another size completes with Unsupported Request. -/
def execRegisterWrite (off size : Nat) (val : BitVec 64) (s : State) : Res :=
  .next (if accessFits off size then s.barWrite off fun s => s.writeRegister off size val
    else if s.barOk || s.barUr then s.ioAnswer off [] 1 else s)

/-- MBX_CTRL as read (Table 12-5): DOORBELL and the reserved bits read zero (R12). -/
def Cxl.mbxCtrl (c : Cxl) : Nat := c.mbxSeqCtl.toNat * 2 ^ 16 + (if c.mbxIrq then 2 else 0)

/-- MBX_STATUS (Table 12-6). -/
def Cxl.mbxStatus (c : Cxl) : Nat := c.mbxSeq.toNat * 2 ^ 16 + c.mbxIgnored % 256 * 2 ^ 8 + c.mbxState % 8

/-- RING_CTRL as read (Table 12-7): the reserved bits read zero (R12). -/
def Cxl.ringCtrl (c : Cxl) : Nat := c.ringLog2 % 32 + (if c.ringEnable then 2 ^ 8 else 0) + (if c.ringMirror then 2 ^ 9 else 0)

/-- The aligned 32-bit word at BAR0 offset `o` as a read finds it (Table 12-4); unlisted offsets read zero (R362). The component
registers' contents are CXL's own (log 23). -/
def State.read32 (s : State) (o : Nat) : Bytes :=
  let c := s.cxl
  let word := fun (n : Nat) => leBytes 4 n
  if o < 0x10000 then word (Config.componentWord o (BitVec.ofNat 32 (memNat c.bar o 4))).toNat
  else if 0x20000 ≤ o ∧ o < 0x20400 then (List.range 4).map fun k => s.msixByte (o - 0x20000 + k)
  else if 0x31000 ≤ o ∧ o < 0x32000 then memRead c.mbxReqBuf (o - 0x31000) 4
  else if 0x32000 ≤ o ∧ o < 0x33000 then memRead c.mbxAnsBuf (o - 0x32000) 4
  else match o with
    | 0x21000 => word (c.msixPba.toNat % 2 ^ 32)
    | 0x21004 => word (c.msixPba.toNat / 2 ^ 32)
    | 0x30000 => word c.mbxCtrl
    | 0x30004 => word c.mbxStatus
    | 0x30008 => word c.mbxLen.toNat
    | 0x3000C => word c.mbxAlen.toNat
    | 0x34000 => word (c.ringBase.toNat % 2 ^ 32)
    | 0x34004 => word (c.ringBase.toNat / 2 ^ 32)
    | 0x34008 => word c.ringCtrl
    | 0x3400C => word c.ringProd.toNat
    | 0x34010 => word c.ringCons.toNat
    | 0x34018 => word (c.ringPaddr.toNat % 2 ^ 32)
    | 0x3401C => word (c.ringPaddr.toNat / 2 ^ 32)
    | 0x34020 => word (s.odGet 0 0x0011 0 % 16)
    | _ => word 0

/-- What a read of `size` bytes at BAR0 offset `o` returns; none where it completes with Unsupported Request (R356, R358, R362).
The opcode table has no row for a read: it changes nothing (log 45). -/
def State.readRegister (s : State) (o size : Nat) : Option Bytes :=
  if ¬ s.barOk ∨ ¬ accessFits o size then none
  else some (if size = 8 then s.read32 o ++ s.read32 (o + 4) else s.read32 o)

end Sys2Proof.Machine
end

