-- ==== Sys2Proof/Machine/SlotRows.lean ====
section
/-! DEFINITION. The slot instructions (03 Table 3-5, 04 Table 4-6, 06 Table 6-1, 03 3.7, 3.8): one meaning per row. A row
brings to issue the bundle at its spar's program counter, provided that bundle's slot holds the row's opcode, selector
and fields; the effect of each opcode is its `eff…` definition, called by `effSlot` (Machine/Issue.lean). -/

namespace Sys2Proof.Machine

open Sys2Proof

/-! Slot 0: scalar operations and branches. -/

/-- SC_ADD (R76): Slot-0 scalar add of two registers or a register and an immediate. -/
def execScAdd (sp : Nat) (f : Fields) (s : State) : Res :=
  issueRow 0 0x01 sp f s

/-- SC_SUB (R76): Slot-0 scalar subtract. -/
def execScSub (sp : Nat) (f : Fields) (s : State) : Res :=
  issueRow 0 0x02 sp f s

/-- SC_AND (R76): Slot-0 scalar bitwise and. -/
def execScAnd (sp : Nat) (f : Fields) (s : State) : Res :=
  issueRow 0 0x03 sp f s

/-- SC_OR (R76): Slot-0 scalar bitwise or. -/
def execScOr (sp : Nat) (f : Fields) (s : State) : Res :=
  issueRow 0 0x04 sp f s

/-- SC_XOR (R76): Slot-0 scalar bitwise xor. -/
def execScXor (sp : Nat) (f : Fields) (s : State) : Res :=
  issueRow 0 0x05 sp f s

/-- SC_SHL (R76): Slot-0 scalar shift left by B[5:0]. -/
def execScShl (sp : Nat) (f : Fields) (s : State) : Res :=
  issueRow 0 0x06 sp f s

/-- SC_SHR (R76): Slot-0 scalar logical shift right. -/
def execScShr (sp : Nat) (f : Fields) (s : State) : Res :=
  issueRow 0 0x07 sp f s

/-- SC_SAR (R76): Slot-0 scalar arithmetic shift right. -/
def execScSar (sp : Nat) (f : Fields) (s : State) : Res :=
  issueRow 0 0x08 sp f s

/-- SC_MIN (R76): Slot-0 signed or unsigned scalar minimum. -/
def execScMin (sp : Nat) (f : Fields) (s : State) : Res :=
  issueRow 0 0x09 sp f s

/-- SC_MAX (R76): Slot-0 signed or unsigned scalar maximum. -/
def execScMax (sp : Nat) (f : Fields) (s : State) : Res :=
  issueRow 0 0x0A sp f s

/-- SC_CMP (R76): Slot-0 scalar comparison that writes 1 or 0 for the condition in MOD[7:4]. -/
def execScCmp (sp : Nat) (f : Fields) (s : State) : Res :=
  issueRow 0 0x0B sp f s

/-- SC_MUL (R76): Slot-0 low 64 bits of the 128-bit product. -/
def execScMul (sp : Nat) (f : Fields) (s : State) : Res :=
  issueRow 0 0x0C sp f s

/-- SC_MULH (R76): Slot-0 high 64 bits of the 128-bit product. -/
def execScMulh (sp : Nat) (f : Fields) (s : State) : Res :=
  issueRow 0 0x0D sp f s

/-- SC_DIV (R78): Slot-0 quotient, with defined results for division by zero and overflow. -/
def execScDiv (sp : Nat) (f : Fields) (s : State) : Res :=
  issueRow 0 0x0E sp f s

/-- SC_REM (R78): Slot-0 remainder, with the sign of the dividend. -/
def execScRem (sp : Nat) (f : Fields) (s : State) : Res :=
  issueRow 0 0x0F sp f s

/-- SC_LI (R76): Slot-0 load of an immediate into a scalar register. -/
def execScLi (sp : Nat) (f : Fields) (s : State) : Res :=
  issueRow 0 0x10 sp f s

/-- BR (R81): Unconditional branch to an immediate or register target. -/
def execBr (sp : Nat) (f : Fields) (s : State) : Res :=
  issueRow 0 0x20 sp f s

/-- BR_NZ (R81): Branch taken when s[C] is non-zero. -/
def execBrNz (sp : Nat) (f : Fields) (s : State) : Res :=
  issueRow 0 0x21 sp f s

/-- BR_Z (R81): Branch taken when s[C] is zero. -/
def execBrZ (sp : Nat) (f : Fields) (s : State) : Res :=
  issueRow 0 0x22 sp f s

/-- BR_LINK (R81): Branch that writes the index of the next bundle to s[D]. -/
def execBrLink (sp : Nat) (f : Fields) (s : State) : Res :=
  issueRow 0 0x23 sp f s

/-- SC_CFG (R107): Reads a self-description item into a scalar register. -/
def execScCfg (sp : Nat) (f : Fields) (s : State) : Res :=
  issueRow 0 0x30 sp f s

/-- SC_CYC (R76): Reads the island's cycle count into a scalar register. -/
def execScCyc (sp : Nat) (f : Fields) (s : State) : Res :=
  issueRow 0 0x31 sp f s

/-- SC_HALT (R88): Requests the end of the spar's part of the job once its operations complete. -/
def execScHalt (sp : Nat) (f : Fields) (s : State) : Res :=
  issueRow 0 0x3F sp f s

/-! Slot 1: address operations and loops. -/

/-- AD_ADD (R76): Slot-1 address add of a scalar register or an immediate. -/
def execAdAdd (sp : Nat) (f : Fields) (s : State) : Res :=
  issueRow 1 0x01 sp f s

/-- AD_INCM (R76): Slot-1 address increment that wraps against a bound. -/
def execAdIncm (sp : Nat) (f : Fields) (s : State) : Res :=
  issueRow 1 0x02 sp f s

/-- AD_LI (R76): Slot-1 load of an immediate into an address register. -/
def execAdLi (sp : Nat) (f : Fields) (s : State) : Res :=
  issueRow 1 0x03 sp f s

/-- AD_FROMS (R76): Copies a scalar register into an address register. -/
def execAdFroms (sp : Nat) (f : Fields) (s : State) : Res :=
  issueRow 1 0x04 sp f s

/-- AD_TOS (R76): Copies an address register into a scalar register. -/
def execAdTos (sp : Nat) (f : Fields) (s : State) : Res :=
  issueRow 1 0x05 sp f s

/-- LP_BEGIN (R82): Activates a hardware loop counter with a body and a count, skipping the body when the count is zero. -/
def execLpBegin (sp : Nat) (f : Fields) (s : State) : Res :=
  issueRow 1 0x10 sp f s

/-- LP_BREAK (R82): Deactivates a hardware loop counter. -/
def execLpBreak (sp : Nat) (f : Fields) (s : State) : Res :=
  issueRow 1 0x11 sp f s

/-- LP_GET (R76): Copies a loop counter into a scalar register. -/
def execLpGet (sp : Nat) (f : Fields) (s : State) : Res :=
  issueRow 1 0x12 sp f s

/-! Slot 2: local memory. -/

/-- LD_S (R76): Slot-2 scalar load of 1 to 8 bytes from scratch. -/
def execLdS (sp : Nat) (f : Fields) (s : State) : Res :=
  issueRow 2 0x01 sp f s

/-- ST_S (R76): Slot-2 scalar store of 1 to 8 bytes to scratch. -/
def execStS (sp : Nat) (f : Fields) (s : State) : Res :=
  issueRow 2 0x02 sp f s

/-- LD_V (R76): Slot-2 load of 1,024 bytes into a vector register. -/
def execLdV (sp : Nat) (f : Fields) (s : State) : Res :=
  issueRow 2 0x03 sp f s

/-- ST_V (R76): Slot-2 store of a vector register to scratch. -/
def execStV (sp : Nat) (f : Fields) (s : State) : Res :=
  issueRow 2 0x04 sp f s

/-- ST_VT (R164): Stores 256 FP32 lanes through a tensor descriptor, converting by its policy entry. -/
def execStVt (sp : Nat) (f : Fields) (s : State) : Res :=
  issueRow 2 0x05 sp f s

/-- LD_P (R76): Loads a predicate register from scratch. -/
def execLdP (sp : Nat) (f : Fields) (s : State) : Res :=
  issueRow 2 0x06 sp f s

/-- ST_P (R76): Stores a predicate register to scratch. -/
def execStP (sp : Nat) (f : Fields) (s : State) : Res :=
  issueRow 2 0x07 sp f s

/-- LD_M (R76): Loads an array mask register from scratch. -/
def execLdM (sp : Nat) (f : Fields) (s : State) : Res :=
  issueRow 2 0x08 sp f s

/-- ST_M (R76): Stores an array mask register to scratch. -/
def execStM (sp : Nat) (f : Fields) (s : State) : Res :=
  issueRow 2 0x09 sp f s

/-- LD_T (R151): Loads a 64-byte tensor descriptor into a t register. -/
def execLdT (sp : Nat) (f : Fields) (s : State) : Res :=
  issueRow 2 0x0A sp f s

/-! Slot 3: the cell array. -/

/-- MLD (R119): Issues a stationary tile load, direct or transposed, from scratch or dome into the background set or staging buffer. -/
def execMld (sp : Nat) (f : Fields) (s : State) : Res :=
  issueRow 3 0x01 sp f s

/-- MMX (R110): Issues an array product of a streamed tile against the stationary tile into accumulator entries. -/
def execMmx (sp : Nat) (f : Fields) (s : State) : Res :=
  issueRow 3 0x02 sp f s

/-- MEW (R134): Issues an element-wise operation on accumulator entries from the stationary set or a scratch tile. -/
def execMew (sp : Nat) (f : Fields) (s : State) : Res :=
  issueRow 3 0x03 sp f s

/-- MWB (R144): Issues a write-back of accumulator rows through a descriptor to scratch, optionally clearing them. -/
def execMwb (sp : Nat) (f : Fields) (s : State) : Res :=
  issueRow 3 0x04 sp f s

/-- MAL (R141): Allocates an accumulator region at the top of the allocation stack. -/
def execMal (sp : Nat) (f : Fields) (s : State) : Res :=
  issueRow 3 0x05 sp f s

/-- MFR (R141): Frees the most recent live accumulator region. -/
def execMfr (sp : Nat) (f : Fields) (s : State) : Res :=
  issueRow 3 0x06 sp f s

/-! Slot 4: vector unit A. -/

/-- VA_ADD (R48): Lane-wise vector add. -/
def execVaAdd (sp : Nat) (f : Fields) (s : State) : Res :=
  issueRow 4 0x01 sp f s

/-- VA_SUB (R48): Lane-wise vector subtract. -/
def execVaSub (sp : Nat) (f : Fields) (s : State) : Res :=
  issueRow 4 0x02 sp f s

/-- VA_MUL (R48): Lane-wise vector multiply. -/
def execVaMul (sp : Nat) (f : Fields) (s : State) : Res :=
  issueRow 4 0x03 sp f s

/-- VA_FMA (R48): Lane-wise fused multiply-add. -/
def execVaFma (sp : Nat) (f : Fields) (s : State) : Res :=
  issueRow 4 0x04 sp f s

/-- VA_MIN (R79): Lane-wise vector minimum. -/
def execVaMin (sp : Nat) (f : Fields) (s : State) : Res :=
  issueRow 4 0x05 sp f s

/-- VA_MAX (R79): Lane-wise vector maximum. -/
def execVaMax (sp : Nat) (f : Fields) (s : State) : Res :=
  issueRow 4 0x06 sp f s

/-- VA_CMP (R500): Lane-wise comparison that writes a predicate register. -/
def execVaCmp (sp : Nat) (f : Fields) (s : State) : Res :=
  issueRow 4 0x07 sp f s

/-- VA_SEL (R500): Selects whole lanes of two vectors by a predicate. -/
def execVaSel (sp : Nat) (f : Fields) (s : State) : Res :=
  issueRow 4 0x08 sp f s

/-- VA_AND (R76): Lane-wise bitwise and. -/
def execVaAnd (sp : Nat) (f : Fields) (s : State) : Res :=
  issueRow 4 0x09 sp f s

/-- VA_OR (R76): Lane-wise bitwise or. -/
def execVaOr (sp : Nat) (f : Fields) (s : State) : Res :=
  issueRow 4 0x0A sp f s

/-- VA_XOR (R76): Lane-wise bitwise xor. -/
def execVaXor (sp : Nat) (f : Fields) (s : State) : Res :=
  issueRow 4 0x0B sp f s

/-- VA_MOV (R76): Vector register move. -/
def execVaMov (sp : Nat) (f : Fields) (s : State) : Res :=
  issueRow 4 0x0C sp f s

/-! Slot 5: vector unit B. -/

/-- VB_SFU (R80): Correctly rounded special function on 256 FP32 lanes. -/
def execVbSfu (sp : Nat) (f : Fields) (s : State) : Res :=
  issueRow 5 0x01 sp f s

/-- VB_CVT (R79): Packs 256 FP32 lanes into a narrow format with a policy entry and rounding key. -/
def execVbCvt (sp : Nat) (f : Fields) (s : State) : Res :=
  issueRow 5 0x02 sp f s

/-- VB_WID (R49): Widens packed data to FP32. -/
def execVbWid (sp : Nat) (f : Fields) (s : State) : Res :=
  issueRow 5 0x03 sp f s

/-- VB_RED (R79): Pairwise sum, maximum or minimum over 256 lanes into a scalar register. -/
def execVbRed (sp : Nat) (f : Fields) (s : State) : Res :=
  issueRow 5 0x04 sp f s

/-- VB_PERM (R76): Permutes vector lanes by an index vector. -/
def execVbPerm (sp : Nat) (f : Fields) (s : State) : Res :=
  issueRow 5 0x05 sp f s

/-- VB_BCAST (R76): Broadcasts a scalar to every lane. -/
def execVbBcast (sp : Nat) (f : Fields) (s : State) : Res :=
  issueRow 5 0x06 sp f s

/-- VB_ACC (R145): Reads 256 accumulator entries into a vector register. -/
def execVbAcc (sp : Nat) (f : Fields) (s : State) : Res :=
  issueRow 5 0x07 sp f s

/-- VB_PLOG (R76): Logical combination of two predicate registers. -/
def execVbPlog (sp : Nat) (f : Fields) (s : State) : Res :=
  issueRow 5 0x08 sp f s

/-! Slot 6: the tackle engines. -/

/-- TG_GATHER (R177): Gathers source rows named by an index list into consecutive destination rows. -/
def execTgGather (sp : Nat) (f : Fields) (s : State) : Res :=
  issueRow 6 0x01 sp f s

/-- TG_UNPERM (R183): Adds weighted source rows back into accumulator rows of their tokens in rank order. -/
def execTgUnperm (sp : Nat) (f : Fields) (s : State) : Res :=
  issueRow 6 0x02 sp f s

/-- TK_SCATTER (R178): Scatters consecutive source rows to destination rows named by an index list. -/
def execTkScatter (sp : Nat) (f : Fields) (s : State) : Res :=
  issueRow 6 0x03 sp f s

/-- TK_SCATADD (R182): Adds source rows into accumulator rows named by an index list. -/
def execTkScatadd (sp : Nat) (f : Fields) (s : State) : Res :=
  issueRow 6 0x04 sp f s

/-- TK_PERM (R170): Places each token's row at the destination rows of its K choices. -/
def execTkPerm (sp : Nat) (f : Fields) (s : State) : Res :=
  issueRow 6 0x05 sp f s

/-- TK_ROWFEED (R186): Queues a row list or block list for later array instructions. -/
def execTkRowfeed (sp : Nat) (f : Fields) (s : State) : Res :=
  issueRow 6 0x06 sp f s

/-- TK_CLAIM (R191): Sends a claim of the next index to a dome work counter. -/
def execTkClaim (sp : Nat) (f : Fields) (s : State) : Res :=
  if f.mod.toNat % 4 ≠ 1 ∧ f.mod.toNat % 4 ≠ 2 then issueRow 6 0x07 sp f s else .next s

/-- TK_CLAIM_RESET (R191): Resets a work counter with a new start and count, advancing its epoch. -/
def execTkClaimReset (sp : Nat) (f : Fields) (s : State) : Res :=
  if f.mod.toNat % 4 = 1 then issueRow 6 0x07 sp f s else .next s

/-- TK_CLAIM_QUERY (R191): Queries a work counter's epoch, claimed and completed counts. -/
def execTkClaimQuery (sp : Nat) (f : Fields) (s : State) : Res :=
  if f.mod.toNat % 4 = 2 then issueRow 6 0x07 sp f s else .next s

/-- TK_DONE (R194): Sends a completion of a claimed index to its counter's ledger. -/
def execTkDone (sp : Nat) (f : Fields) (s : State) : Res :=
  issueRow 6 0x08 sp f s

/-! Slot 7: transfers and fences. -/

/-- TX_DLD (R94): Issues a transfer from dome to scratch. -/
def execTxDld (sp : Nat) (f : Fields) (s : State) : Res :=
  issueRow 7 0x01 sp f s

/-- TX_DST (R94): Issues a plain transfer from scratch to dome. -/
def execTxDst (sp : Nat) (f : Fields) (s : State) : Res :=
  if f.mod.toNat / 16 = 0 then issueRow 7 0x02 sp f s else .next s

/-- TX_DST_ATOMIC (R311): Issues a near-memory atomic transfer selected by MOD[7:4]. -/
def execTxDstAtomic (sp : Nat) (f : Fields) (s : State) : Res :=
  if f.mod.toNat / 16 ≠ 0 then issueRow 7 0x02 sp f s else .next s

/-- TX_SEND (R92): Appends scratch bytes to the stream of a channel entry. -/
def execTxSend (sp : Nat) (f : Fields) (s : State) : Res :=
  issueRow 7 0x03 sp f s

/-- TX_RECV (R92): Consumes bytes from an inbound endpoint into scratch. -/
def execTxRecv (sp : Nat) (f : Fields) (s : State) : Res :=
  issueRow 7 0x04 sp f s

/-- TX_FQ_WRITE (R348): Sends a remote write of scratch bytes to another device's dome. -/
def execTxFqWrite (sp : Nat) (f : Fields) (s : State) : Res :=
  if f.mod.toNat % 4 ≠ 1 ∧ f.mod.toNat % 4 ≠ 2 then issueRow 7 0x05 sp f s else .next s

/-- TX_FQ_WRITE_ARRIVAL (R349): Sends a remote write that asks for an arrival record. -/
def execTxFqWriteArrival (sp : Nat) (f : Fields) (s : State) : Res :=
  if f.mod.toNat % 4 = 1 then issueRow 7 0x05 sp f s else .next s

/-- TX_FQ_READ (R348): Sends a remote read of another device's dome into scratch. -/
def execTxFqRead (sp : Nat) (f : Fields) (s : State) : Res :=
  if f.mod.toNat % 4 = 2 then issueRow 7 0x05 sp f s else .next s

/-- TX_IFILL (R87): Starts copying bundles from dome into the instruction store. -/
def execTxIfill (sp : Nat) (f : Fields) (s : State) : Res :=
  issueRow 7 0x06 sp f s

/-- TX_CHTAB (R91): Loads the channel table from scratch once earlier transfers retire. -/
def execTxChtab (sp : Nat) (f : Fields) (s : State) : Res :=
  issueRow 7 0x07 sp f s

/-- TX_WAIT (R94): Waits until at most a given number of transfers are outstanding. -/
def execTxWait (sp : Nat) (f : Fields) (s : State) : Res :=
  issueRow 7 0x08 sp f s

/-- FC_LOCAL (R97): Local fence that waits for every earlier operation, latches the step number and ends the phase. -/
def execFcLocal (sp : Nat) (f : Fields) (s : State) : Res :=
  issueRow 7 0x10 sp f s

/-- FC_PHASE (R98): Local fence followed by a wait at a barrier group. -/
def execFcPhase (sp : Nat) (f : Fields) (s : State) : Res :=
  issueRow 7 0x11 sp f s

/-- NO_OPERATION (R71): a bundle whose every slot holds OP 0x00 issues. A bundle that holds no defined opcode but an undefined one
has no row of its own; it comes to issue by this command, and is invalid (R104, log 13). -/
def execNoOperation (sp : Nat) (s : State) : Res :=
  if s.canIssue sp && ((s.spar sp).bundle.zipIdx.all fun wk => wk.1.op = 0 || (slotRegs wk.2 wk.1).isNone) then .next (issue sp s)
  else .next s

end Sys2Proof.Machine
end

