-- ==== Sys2Proof/Machine/Spdm.lean ====
section
/-! DEFINITION. Attestation (16.7): the SPDM responder on DOE and on the Shroud management lane (R485-R487), and the DOE
instances' IDE keying and CDAT (12 R378, R379). The message codes and layouts are those of the named standards (log 31);
signatures, nonces and key-exchange data are free values. -/

namespace Sys2Proof.Machine

open Sys2Proof

/-! Messages. -/

/-- Bytes of a free value. -/
def State.freeBytes (s : State) (n : Nat) : Bytes × State :=
  let d := s.draw (8 * n)
  (leBytes n d.1.toNat, d.2)

/-- An SPDM 1.2 message head. -/
def spdmHead (code p1 p2 : Nat) : Bytes := [0x12] ++ leBytes 1 code ++ leBytes 1 p1 ++ leBytes 1 p2

/-- ERROR with a code. -/
def spdmError (code data : Nat) : Bytes := spdmHead 0x7F code data

/-- InvalidRequest. -/
def errInvalid : Nat := 0x01
/-- Busy. -/
def errBusy : Nat := 0x03
/-- UnexpectedRequest. -/
def errUnexpected : Nat := 0x04
/-- Unspecified. -/
def errUnspecified : Nat := 0x05
/-- UnsupportedRequest. -/
def errUnsupported : Nat := 0x07
/-- VersionMismatch. -/
def errVersion : Nat := 0x41

/-- VERSION: 1.2 only (R485). -/
def versionMsg : Bytes := [0x10, 0x04, 0, 0, 0, 1, 0x00, 0x12]

/-- Capability flags of Table 16-4: CERT, CHAL, MEAS with signature, ENCRYPT, MAC, KEY_EX, HBEAT. -/
def spdmCaps : Nat := 0x22D6

/-- ALGORITHMS: the one choice of Table 16-4. -/
def algorithmsMsg : Bytes :=
  spdmHead 0x63 3 0 ++ leBytes 2 48 ++ [1, 0] ++ leBytes 4 8 ++ leBytes 4 0x40 ++ leBytes 4 4 ++ List.replicate 12 0 ++
  [0, 0, 0, 0] ++ [2, 0x20] ++ leBytes 2 0x10 ++ [3, 0x20] ++ leBytes 2 2 ++ [5, 0x20] ++ leBytes 2 1

/-- Length of the DER element at the front, header included, up to 65,535 content bytes. -/
def derLength (b : Bytes) : Nat :=
  let l := fieldAt b 1 1
  if l < 0x80 then 2 + l
  else if l = 0x81 then 3 + fieldAt b 2 1
  else 4 + fieldAt b 2 1 * 256 + fieldAt b 3 1

/-- The certificate chain of the flash, in the form SPDM carries it: length, root hash, certificates (R484). -/
def State.certChain (s : State) : Bytes :=
  let c := (flashObject s.flash 7).getD []
  leBytes 2 (68 + c.length) ++ [0, 0] ++ sha512 (c.take (derLength c)) ++ c

/-- Value of a measurement block (Table 16-5). -/
def State.measurement (s : State) (k : Nat) : Bytes := (s.blobGet 0 0xA010 k).take (if k = 7 then 16 else 64)

/-- DMTF value type of a block: 0 immutable ROM, 1 mutable firmware, 2 hardware configuration, 3 firmware configuration; raw
bit 0x80. -/
def measureType (k : Nat) : Nat :=
  match k with
  | 1 => 0 | 2 => 1 | 3 => 3 | 4 => 2 | 5 => 2 | 6 => 3 | _ => 0x83

/-- A measurement block. -/
def State.measureBlock (s : State) (k : Nat) : Bytes :=
  let v := s.measurement k
  leBytes 1 k ++ [1] ++ leBytes 2 (3 + v.length) ++ leBytes 1 (measureType k) ++ leBytes 2 v.length ++ v

/-- Indices of Table 16-5. -/
def measureIndices : List Nat := [1, 2, 3, 4, 5, 6, 7]

/-! The responder. -/

/-- An answer and the connection state after it: 0 none, 1 version, 2 capabilities, 3 algorithms, 4 key exchange, 5 session. -/
abbrev SpdmRes := Nat × Bytes × State

/-- CHALLENGE_AUTH. -/
def State.challenge (s : State) (st p2 : Nat) : SpdmRes :=
  let nonce := s.freeBytes 32
  let sig := nonce.2.freeBytes 512
  (st, spdmHead 0x03 0 1 ++ sha512 s.certChain ++ nonce.1 ++ (if p2 = 0 then [] else sha512 (measureIndices.flatMap s.measureBlock)) ++
    leBytes 2 0 ++ sig.1, sig.2)

/-- MEASUREMENTS: `sel` 0 asks for the count, 0xFF for all, else for one block (R487). -/
def State.measurements (s : State) (st : Nat) (signed : Bool) (sel : Nat) : SpdmRes :=
  let ks := if sel = 0 then [] else if sel = 0xFF then measureIndices else [sel]
  let r := ks.flatMap s.measureBlock
  let nonce := s.freeBytes 32
  let sig := if signed then nonce.2.freeBytes 512 else ([], nonce.2)
  (st, spdmHead 0x60 (if sel = 0 then 7 else 0) 0 ++ leBytes 1 ks.length ++ leBytes 3 r.length ++ r ++ nonce.1 ++ leBytes 2 0 ++ sig.1,
    sig.2)

/-- A request belongs inside a session: in its handshake FINISH alone, then END_SESSION, KEY_UPDATE, HEARTBEAT and what may be
asked in a session too (DSP0274; log 31). -/
def inSession (st code : Nat) : Bool :=
  if st = 4 then code = 0xE5
  else code = 0xEC || code = 0xE9 || code = 0xE8 || code = 0x81 || code = 0x82 || code = 0xE0

/-- A request answered that the connection state `st` allows; `doe`: it came over DOE; `sec`: inside its secured session
(R485, R486). -/
def State.spdmServe (s : State) (st : Nat) (doe sec : Bool) (b : Bytes) : SpdmRes :=
  let code := fieldAt b 1 1
  let p1 := fieldAt b 2 1
  let p2 := fieldAt b 3 1
  let err := fun (e d : Nat) => ((st, spdmError e d, s) : SpdmRes)
  let need := fun (k : Nat) (r : SpdmRes) => if st < k then err errUnexpected 0 else r
  let session := fun (r : SpdmRes) => if sec then r else err errUnexpected 0
  let signed := fun (r : SpdmRes) => if s.identity.isSome then r else err errUnspecified 0
  if b.length < 4 then err errInvalid 0
  else if sec ∧ ¬ inSession st code then err errUnexpected 0
  else if code = 0x84 then (1, versionMsg, s)
  else if fieldAt b 0 1 ≠ 0x12 then err errVersion 0
  else match code with
    | 0xE1 =>
      let ct := s.freeBytes 1
      need 1 (2, spdmHead 0x61 0 0 ++ [0] ++ ct.1 ++ [0, 0] ++ leBytes 4 spdmCaps ++ leBytes 4 16368 ++ leBytes 4 16368, ct.2)
    | 0xE3 => need 2 (3, algorithmsMsg, s)
    | 0x81 => need 3 (st, spdmHead 0x01 0 1 ++ sha512 s.certChain, s)
    | 0x82 =>
      if p1 % 16 ≠ 0 then need 3 (err errInvalid 0)
      else
        let c := s.certChain
        let off := fieldAt b 4 2
        let n := min (fieldAt b 6 2) (c.length - off)
        if c.length ≤ off then need 3 (err errInvalid 0)
        else need 3 (st, spdmHead 0x02 0 0 ++ leBytes 2 n ++ leBytes 2 (c.length - off - n) ++ (c.drop off).take n, s)
    | 0x83 => if p1 ≠ 0 then need 3 (err errInvalid 0) else need 3 (signed (s.challenge st p2))
    | 0xE0 =>
      if p2 ≠ 0 ∧ p2 ≠ 0xFF ∧ 7 < p2 then need 3 (err errInvalid 0)
      else if bitAt p1 0 then need 3 (signed (s.measurements st true p2))
      else need 3 (s.measurements st false p2)
    | 0xE4 =>
      if ¬ doe then err errUnsupported code
      else
        let x := s.freeBytes 739
        need 3 (signed (4, spdmHead 0x64 0 0 ++ x.1, x.2))
    | 0xE5 =>
      let x := s.freeBytes 64
      session (5, spdmHead 0x65 0 0 ++ x.1, x.2)
    | 0xEC => session (3, spdmHead 0x6C 0 0, s)
    | 0xE9 => session (st, spdmHead 0x69 p1 p2, s)
    | 0xE8 => session (st, spdmHead 0x68 0 0, s)
    | _ => err errUnsupported code

/-- The root of trust answers: firmware runs, and the unit is in service. -/
def State.spdmUp (s : State) : Bool :=
  s.fwReady && s.boot != .contained && s.boot != .stopped && s.boot != .recovery && !s.unitOut (spireUnit 7)

/-- A request over DOE instance 0, as an object of type 1, or of type 2 inside the secured session; the answer is of the same
type (R378). -/
def State.spdmOnDoe (s : State) (sec : Bool) (b : Bytes) : State :=
  let r := s.spdmServe s.cxl.spdmDoe true sec b
  (r.2.2.modCxl fun c => { c with spdmDoe := r.1 }).emit 8 0 r.2.1 (if sec then 2 else 1)

/-- Connection state of a Shroud source; none when it has no connection. -/
def State.spdmPeer (s : State) (lid : Nat) : Option Nat := (s.cxl.spdmPeers.find? fun x => x.1 = lid).map (·.2)

/-- Connection state of a Shroud source set. -/
def State.setPeer (s : State) (lid st : Nat) : State :=
  s.modCxl fun c => { c with spdmPeers := (c.spdmPeers.filter fun x => x.1 != lid) ++ [(lid, st)] }

/-- A request over the Shroud management lane (R486): a ninth source is told Busy, which is counted. -/
def State.spdmOnShroud (s : State) (lid : Nat) (b : Bytes) : State :=
  let k := match s.takeDelivered fun k => k.kind = 4 && k.slid = lid && k.payload = b with
    | some (k, t) => ((k.qsrc, k.qdst), t)
    | none => ((0, 0), s)
  let send := fun (t : State) (a : Bytes) => t.sendPacket 7 k.1.2 0x04 lid k.1.1 0 a
  match s.spdmPeer lid with
  | none =>
    if 8 ≤ s.cxl.spdmPeers.length then send (k.2.odAdd 0 0xA000 7 1) (spdmError errBusy 0)
    else
      let r := k.2.spdmServe 0 false false b
      send (r.2.2.setPeer lid r.1) r.2.1
  | some st =>
    let r := k.2.spdmServe st false false b
    send (r.2.2.setPeer lid r.1) r.2.1

/-- SPDM_REQUEST (R485, R486): from a Shroud source, or over DOE. -/
def execSpdmRequest (src : Option Nat) (data : List (BitVec 8)) (s : State) : Res :=
  .next (if s.spdmUp then
    match src with
    | some lid => s.spdmOnShroud lid data
    | none => if s.cxl.link = 2 ∨ s.cxl.link = 3 then s.spdmOnDoe false data else s
  else s)

/-- SPDM_CONNECTION_IDLE (R486): idle for 10 s. -/
def execSpdmConnectionIdle (lid : Nat) (s : State) : Res :=
  .next (if s.spdmUp then s.modCxl fun c => { c with spdmPeers := c.spdmPeers.filter fun x => x.1 != lid } else s)

/-! DOE (12 R378, R379). -/

/-- The stream an IDE_KM or CXL_IDE_KM message names: 0 CXL.io, 1 CXL.cachemem. -/
def ideStream (b : Bytes) : Nat := if fieldAt b 0 1 = 0 then 0 else 1

/-- A stream enters the secure state, when its key is programmed (R379); requests to the host that waited for it go out. -/
def State.ideGo (s : State) (k : Nat) : State :=
  if (s.cxl.ideKeys.map (·.1)).contains k then
    (s.modCxl fun c => if k = 0 then { c with ideIo := true, ideIoBad := false }
      else { c with ideMem := true, ideMemBad := false }).showIde.flushBi.fetchPump
  else s

/-- A stream leaves the secure state. -/
def State.ideStop (s : State) (k : Nat) : State :=
  (s.modCxl fun c => if k = 0 then { c with ideIo := false, ideKeys := mapDel c.ideKeys 0 }
    else { c with ideMem := false, ideKeys := mapDel c.ideKeys 1 }).showIde

/-- An IDE key management message inside the administrator's secured session (R378, R379). -/
def State.ideMessage (s : State) (b : Bytes) : State :=
  let k := ideStream b
  let answer := fun (t : State) (code : Nat) => t.emit 8 0 (b.take 1 ++ leBytes 1 code ++ (b.drop 2).take 6) 2
  match fieldAt b 1 1 with
  | 0 => let x := s.freeBytes 16
         x.2.emit 8 0 (b.take 1 ++ [1] ++ x.1) 2
  | 2 => answer (s.modCxl fun c => { c with ideKeys := mapSet [] c.ideKeys k ((b.drop 8).take 32) }) 3
  | 4 => answer (s.ideGo k) 6
  | 5 => answer (s.ideStop k) 6
  | _ => s

/-- A secured object of DOE instance 0, as its session decrypts it: an SPDM 1.2 message, or key management of the IDE streams,
which the established session carries (R378). Without a session there is no key to read it with. -/
def State.securedObject (s : State) (b : Bytes) : State :=
  if s.cxl.spdmDoe < 4 then s
  else if fieldAt b 0 1 = 0x12 then s.spdmOnDoe true b
  else if s.cxl.spdmDoe = 5 then s.ideMessage b
  else s

/-- The byte that makes a CDAT table sum to zero. -/
def cdatSum (b : Bytes) : Byte := 0 - b.foldl (· + ·) 0

/-- CDAT (R378): the header, the DSMAS entry of the committed window, a DSLBIS entry for latency and one for each direction's
bandwidth. -/
def State.cdat (s : State) : List Bytes :=
  let dslbis := fun (ty base val : Nat) => [1, 0, 24, 0, 0, 0] ++ leBytes 1 ty ++ [0] ++ leBytes 8 base ++ leBytes 2 val ++ List.replicate 6 0
  let body := [[0, 0, 24, 0, 0, 0, 0, 0] ++ leBytes 8 0 ++ leBytes 8 (if s.cxl.hdmCommitted then s.cxl.hdmSize else 0),
    dslbis 1 1000 700, dslbis 4 1000 121, dslbis 5 1000 121]
  let head := fun (x : Byte) => leBytes 4 112 ++ [1, x] ++ List.replicate 10 0
  head (cdatSum (head 0 ++ body.flatten)) :: body

/-- A CDAT read: the entry of the handle asked for, and the next handle. -/
def State.cdatRead (s : State) (b : Bytes) : State :=
  let h := fieldAt b 2 2
  match s.cdat[h]? with
  | some e => s.emit 8 1 ([0, 0] ++ leBytes 2 (if h = 4 then 0xFFFF else h + 1) ++ e) 2
  | none => s

/-- A discovery answer: vendor, type, next index. -/
def discovery (l : List (Nat × Nat)) (i : Nat) : Bytes :=
  match l[i]? with
  | some x => leBytes 2 x.1 ++ leBytes 1 x.2 ++ leBytes 1 (if i + 1 = l.length then 0 else i + 1)
  | none => leBytes 2 0xFFFF ++ [0, 0]

/-- DOE_REQUEST (R378): object types 0 discovery, on instance 0 1 SPDM and 2 secured SPDM, on instance 1 2 CDAT. -/
def execDoeRequest (inst ty : Nat) (data : List (BitVec 8)) (s : State) : Res :=
  .next (if (s.cxl.link = 2 ∨ s.cxl.link = 3) ∧ s.fwReady ∧ data.length ≤ 16384 ∧ ¬ s.unitOut (spireUnit 0) then
    if inst = 0 ∧ ty = 0 then s.emit 8 0 (discovery [(1, 0), (1, 1), (1, 2)] (fieldAt data 0 1)) 0
    else if inst = 1 ∧ ty = 0 then s.emit 8 1 (discovery [(1, 0), (0x1E98, 2)] (fieldAt data 0 1)) 0
    else if inst = 0 ∧ ty = 1 then (if s.spdmUp then s.spdmOnDoe false data else s)
    else if inst = 0 ∧ ty = 2 then (if s.spdmUp then s.securedObject data else s)
    else if inst = 1 ∧ ty = 2 then s.cdatRead data
    else s
  else s)

end Sys2Proof.Machine
end

