-- ==== Sys2Proof/Machine/Dispatch.lean ====
section
/-! DEFINITION. The meaning of each command: one arm per row of spec/opcode_table.json. -/

namespace Sys2Proof.Machine

open Sys2Proof

/-- The command's effect on everything but the queue. -/
def exec (i : Instr) (s : State) : Host.Outcome State Fault Refusal :=
  match i with
  | .scAdd sp f => Sys2Proof.Machine.execScAdd sp f s
  | .scSub sp f => Sys2Proof.Machine.execScSub sp f s
  | .scAnd sp f => Sys2Proof.Machine.execScAnd sp f s
  | .scOr sp f => Sys2Proof.Machine.execScOr sp f s
  | .scXor sp f => Sys2Proof.Machine.execScXor sp f s
  | .scShl sp f => Sys2Proof.Machine.execScShl sp f s
  | .scShr sp f => Sys2Proof.Machine.execScShr sp f s
  | .scSar sp f => Sys2Proof.Machine.execScSar sp f s
  | .scMin sp f => Sys2Proof.Machine.execScMin sp f s
  | .scMax sp f => Sys2Proof.Machine.execScMax sp f s
  | .scCmp sp f => Sys2Proof.Machine.execScCmp sp f s
  | .scMul sp f => Sys2Proof.Machine.execScMul sp f s
  | .scMulh sp f => Sys2Proof.Machine.execScMulh sp f s
  | .scDiv sp f => Sys2Proof.Machine.execScDiv sp f s
  | .scRem sp f => Sys2Proof.Machine.execScRem sp f s
  | .scLi sp f => Sys2Proof.Machine.execScLi sp f s
  | .br sp f => Sys2Proof.Machine.execBr sp f s
  | .brNz sp f => Sys2Proof.Machine.execBrNz sp f s
  | .brZ sp f => Sys2Proof.Machine.execBrZ sp f s
  | .brLink sp f => Sys2Proof.Machine.execBrLink sp f s
  | .scCfg sp f => Sys2Proof.Machine.execScCfg sp f s
  | .scCyc sp f => Sys2Proof.Machine.execScCyc sp f s
  | .scHalt sp f => Sys2Proof.Machine.execScHalt sp f s
  | .haltComplete sp => Sys2Proof.Machine.execHaltComplete sp s
  | .sequentialFetchOverrun sp => Sys2Proof.Machine.execSequentialFetchOverrun sp s
  | .adAdd sp f => Sys2Proof.Machine.execAdAdd sp f s
  | .adIncm sp f => Sys2Proof.Machine.execAdIncm sp f s
  | .adLi sp f => Sys2Proof.Machine.execAdLi sp f s
  | .adFroms sp f => Sys2Proof.Machine.execAdFroms sp f s
  | .adTos sp f => Sys2Proof.Machine.execAdTos sp f s
  | .lpBegin sp f => Sys2Proof.Machine.execLpBegin sp f s
  | .lpBreak sp f => Sys2Proof.Machine.execLpBreak sp f s
  | .lpGet sp f => Sys2Proof.Machine.execLpGet sp f s
  | .ldS sp f => Sys2Proof.Machine.execLdS sp f s
  | .stS sp f => Sys2Proof.Machine.execStS sp f s
  | .ldV sp f => Sys2Proof.Machine.execLdV sp f s
  | .stV sp f => Sys2Proof.Machine.execStV sp f s
  | .stVt sp f => Sys2Proof.Machine.execStVt sp f s
  | .ldP sp f => Sys2Proof.Machine.execLdP sp f s
  | .stP sp f => Sys2Proof.Machine.execStP sp f s
  | .ldM sp f => Sys2Proof.Machine.execLdM sp f s
  | .stM sp f => Sys2Proof.Machine.execStM sp f s
  | .ldT sp f => Sys2Proof.Machine.execLdT sp f s
  | .mld sp f => Sys2Proof.Machine.execMld sp f s
  | .mmx sp f => Sys2Proof.Machine.execMmx sp f s
  | .mew sp f => Sys2Proof.Machine.execMew sp f s
  | .mwb sp f => Sys2Proof.Machine.execMwb sp f s
  | .mal sp f => Sys2Proof.Machine.execMal sp f s
  | .mfr sp f => Sys2Proof.Machine.execMfr sp f s
  | .arrayInstructionStart sp => Sys2Proof.Machine.execArrayInstructionStart sp s
  | .arrayRowLands sp => Sys2Proof.Machine.execArrayRowLands sp s
  | .stationaryLoadComplete sp => Sys2Proof.Machine.execStationaryLoadComplete sp s
  | .stagedTileMove sp => Sys2Proof.Machine.execStagedTileMove sp s
  | .malClear sp => Sys2Proof.Machine.execMalClear sp s
  | .mwbReadStart sp => Sys2Proof.Machine.execMwbReadStart sp s
  | .vaAdd sp f => Sys2Proof.Machine.execVaAdd sp f s
  | .vaSub sp f => Sys2Proof.Machine.execVaSub sp f s
  | .vaMul sp f => Sys2Proof.Machine.execVaMul sp f s
  | .vaFma sp f => Sys2Proof.Machine.execVaFma sp f s
  | .vaMin sp f => Sys2Proof.Machine.execVaMin sp f s
  | .vaMax sp f => Sys2Proof.Machine.execVaMax sp f s
  | .vaCmp sp f => Sys2Proof.Machine.execVaCmp sp f s
  | .vaSel sp f => Sys2Proof.Machine.execVaSel sp f s
  | .vaAnd sp f => Sys2Proof.Machine.execVaAnd sp f s
  | .vaOr sp f => Sys2Proof.Machine.execVaOr sp f s
  | .vaXor sp f => Sys2Proof.Machine.execVaXor sp f s
  | .vaMov sp f => Sys2Proof.Machine.execVaMov sp f s
  | .vbSfu sp f => Sys2Proof.Machine.execVbSfu sp f s
  | .vbCvt sp f => Sys2Proof.Machine.execVbCvt sp f s
  | .vbWid sp f => Sys2Proof.Machine.execVbWid sp f s
  | .vbRed sp f => Sys2Proof.Machine.execVbRed sp f s
  | .vbPerm sp f => Sys2Proof.Machine.execVbPerm sp f s
  | .vbBcast sp f => Sys2Proof.Machine.execVbBcast sp f s
  | .vbAcc sp f => Sys2Proof.Machine.execVbAcc sp f s
  | .vbPlog sp f => Sys2Proof.Machine.execVbPlog sp f s
  | .tgGather sp f => Sys2Proof.Machine.execTgGather sp f s
  | .tgUnperm sp f => Sys2Proof.Machine.execTgUnperm sp f s
  | .tkScatter sp f => Sys2Proof.Machine.execTkScatter sp f s
  | .tkScatadd sp f => Sys2Proof.Machine.execTkScatadd sp f s
  | .tkPerm sp f => Sys2Proof.Machine.execTkPerm sp f s
  | .tkRowfeed sp f => Sys2Proof.Machine.execTkRowfeed sp f s
  | .tkClaim sp f => Sys2Proof.Machine.execTkClaim sp f s
  | .tkClaimReset sp f => Sys2Proof.Machine.execTkClaimReset sp f s
  | .tkClaimQuery sp f => Sys2Proof.Machine.execTkClaimQuery sp f s
  | .tkDone sp f => Sys2Proof.Machine.execTkDone sp f s
  | .tackleOperationStart sp => Sys2Proof.Machine.execTackleOperationStart sp s
  | .indexBlockValidated sp => Sys2Proof.Machine.execIndexBlockValidated sp s
  | .conflictQueueServe sp bank => Sys2Proof.Machine.execConflictQueueServe sp bank s
  | .workCounterOp sp => Sys2Proof.Machine.execWorkCounterOp sp s
  | .counterResultArrival sp => Sys2Proof.Machine.execCounterResultArrival sp s
  | .txDld sp f => Sys2Proof.Machine.execTxDld sp f s
  | .txDst sp f => Sys2Proof.Machine.execTxDst sp f s
  | .txDstAtomic sp f => Sys2Proof.Machine.execTxDstAtomic sp f s
  | .txSend sp f => Sys2Proof.Machine.execTxSend sp f s
  | .txRecv sp f => Sys2Proof.Machine.execTxRecv sp f s
  | .channelBytesArrive sp ep n => Sys2Proof.Machine.execChannelBytesArrive sp ep n s
  | .txFqWrite sp f => Sys2Proof.Machine.execTxFqWrite sp f s
  | .txFqWriteArrival sp f => Sys2Proof.Machine.execTxFqWriteArrival sp f s
  | .txFqRead sp f => Sys2Proof.Machine.execTxFqRead sp f s
  | .txIfill sp f => Sys2Proof.Machine.execTxIfill sp f s
  | .ifillComplete sp => Sys2Proof.Machine.execIfillComplete sp s
  | .txChtab sp f => Sys2Proof.Machine.execTxChtab sp f s
  | .txWait sp f => Sys2Proof.Machine.execTxWait sp f s
  | .transferRetire sp => Sys2Proof.Machine.execTransferRetire sp s
  | .fcLocal sp f => Sys2Proof.Machine.execFcLocal sp f s
  | .fcPhase sp f => Sys2Proof.Machine.execFcPhase sp f s
  | .barrierRelease q g => Sys2Proof.Machine.execBarrierRelease q g s
  | .phaseTimeout sp => Sys2Proof.Machine.execPhaseTimeout sp s
  | .startJob q val token => Sys2Proof.Machine.execStartJob q val token s
  | .jobFillComplete q => Sys2Proof.Machine.execJobFillComplete q s
  | .stopJob q val token => Sys2Proof.Machine.execStopJob q val token s
  | .clearRangeCounters q val token => Sys2Proof.Machine.execClearRangeCounters q val token s
  | .clearArrayCounters q val token => Sys2Proof.Machine.execClearArrayCounters q val token s
  | .clearTackleCounters q val token => Sys2Proof.Machine.execClearTackleCounters q val token s
  | .startPruning q val token => Sys2Proof.Machine.execStartPruning q val token s
  | .pruningRequestComplete t => Sys2Proof.Machine.execPruningRequestComplete t s
  | .clearPruningCounters q val token => Sys2Proof.Machine.execClearPruningCounters q val token s
  | .edgeArbitrate e asks mark => Sys2Proof.Machine.execEdgeArbitrate e asks mark s
  | .starve e r wait => Sys2Proof.Machine.execStarve e r wait s
  | .grantOverhold e => Sys2Proof.Machine.execGrantOverhold e s
  | .domeLineRead line err reader => Sys2Proof.Machine.execDomeLineRead line err reader s
  | .patrolScrubRead d err => Sys2Proof.Machine.execPatrolScrubRead d err s
  | .scrubPeriodWrite d val => Sys2Proof.Machine.execScrubPeriodWrite d val s
  | .turnTableWrite t remote data => Sys2Proof.Machine.execTurnTableWrite t remote data s
  | .arbiterSettingWrite e sub val => Sys2Proof.Machine.execArbiterSettingWrite e sub val s
  | .reEnable e val token => Sys2Proof.Machine.execReEnable e val token s
  | .windowSegmentWrite idx val => Sys2Proof.Machine.execWindowSegmentWrite idx val s
  | .openBatch t => Sys2Proof.Machine.execOpenBatch t s
  | .unitSelectionComplete q tag gen t => Sys2Proof.Machine.execUnitSelectionComplete q tag gen t s
  | .countingFrame => Sys2Proof.Machine.execCountingFrame s
  | .assignmentComplete q tag gen => Sys2Proof.Machine.execAssignmentComplete q tag gen s
  | .dispatchRowArrival => Sys2Proof.Machine.execDispatchRowArrival s
  | .returnRows t => Sys2Proof.Machine.execReturnRows t s
  | .returnRowArrival => Sys2Proof.Machine.execReturnRowArrival s
  | .cancel t => Sys2Proof.Machine.execCancel t s
  | .cancelBatch q val token => Sys2Proof.Machine.execCancelBatch q val token s
  | .cancelFrame => Sys2Proof.Machine.execCancelFrame s
  | .actmask t => Sys2Proof.Machine.execActmask t s
  | .fence t => Sys2Proof.Machine.execFence t s
  | .tierFetchLine idx data bad => Sys2Proof.Machine.execTierFetchLine idx data bad s
  | .clearRoutingCounters q val token => Sys2Proof.Machine.execClearRoutingCounters q val token s
  | .reduceScatter q => Sys2Proof.Machine.execReduceScatter q s
  | .allGather q => Sys2Proof.Machine.execAllGather q s
  | .allReduce q => Sys2Proof.Machine.execAllReduce q s
  | .allToAll q => Sys2Proof.Machine.execAllToAll q s
  | .localPass q => Sys2Proof.Machine.execLocalPass q s
  | .normReduction q => Sys2Proof.Machine.execNormReduction q s
  | .collectiveDataFrame => Sys2Proof.Machine.execCollectiveDataFrame s
  | .collectiveAbortFrame => Sys2Proof.Machine.execCollectiveAbortFrame s
  | .normContributionFrame => Sys2Proof.Machine.execNormContributionFrame s
  | .normTotalsFrame => Sys2Proof.Machine.execNormTotalsFrame s
  | .update q => Sys2Proof.Machine.execUpdate q s
  | .startUpdate q val token => Sys2Proof.Machine.execStartUpdate q val token s
  | .updateScanComplete q => Sys2Proof.Machine.execUpdateScanComplete q s
  | .voteFrame => Sys2Proof.Machine.execVoteFrame s
  | .walkerGroupComplete q => Sys2Proof.Machine.execWalkerGroupComplete q s
  | .mixdone q => Sys2Proof.Machine.execMixdone q s
  | .updateCommit q => Sys2Proof.Machine.execUpdateCommit q s
  | .abandonUpdate q val token => Sys2Proof.Machine.execAbandonUpdate q val token s
  | .clearBoomCounters q val token => Sys2Proof.Machine.execClearBoomCounters q val token s
  | .packetArrival p errs data ctl crc parity => Sys2Proof.Machine.execPacketArrival p errs data ctl crc parity s
  | .fabricDeadline p seq delay => Sys2Proof.Machine.execFabricDeadline p seq delay s
  | .linkStatus p nak ack returned old => Sys2Proof.Machine.execLinkStatus p nak ack returned old s
  | .ackTimeout p old => Sys2Proof.Machine.execAckTimeout p old s
  | .train p msg old => Sys2Proof.Machine.execTrain p msg old s
  | .auditTimer p => Sys2Proof.Machine.execAuditTimer p s
  | .audit p => Sys2Proof.Machine.execAudit p s
  | .auditAnswer p occ ret old => Sys2Proof.Machine.execAuditAnswer p occ ret old s
  | .laserLoss k => Sys2Proof.Machine.execLaserLoss k s
  | .laserRestore k old => Sys2Proof.Machine.execLaserRestore k old s
  | .packetForward p vl => Sys2Proof.Machine.execPacketForward p vl s
  | .portEnable p val token old => Sys2Proof.Machine.execPortEnable p val token old s
  | .portDisable p val token => Sys2Proof.Machine.execPortDisable p val token s
  | .remoteWriteRequest => Sys2Proof.Machine.execRemoteWriteRequest s
  | .remoteReadRequest => Sys2Proof.Machine.execRemoteReadRequest s
  | .remoteAnswer => Sys2Proof.Machine.execRemoteAnswer s
  | .routeTableWrite slot idx mask => Sys2Proof.Machine.execRouteTableWrite slot idx mask s
  | .perstNAssert => Sys2Proof.Machine.execPerstNAssert s
  | .perstNRelease => Sys2Proof.Machine.execPerstNRelease s
  | .hostLink => Sys2Proof.Machine.execHostLink s
  | .configRequest id write addr data => Sys2Proof.Machine.execConfigRequest id write addr data s
  | .cxlMemRead id hpa own => Sys2Proof.Machine.execCxlMemRead id hpa own s
  | .cxlMemWrite id hpa data poison => Sys2Proof.Machine.execCxlMemWrite id hpa data poison s
  | .birsp line => Sys2Proof.Machine.execBirsp line s
  | .hostSnoop hpa => Sys2Proof.Machine.execHostSnoop hpa s
  | .hostDeadline responder delay => Sys2Proof.Machine.execHostDeadline responder delay s
  | .functionLevelReset => Sys2Proof.Machine.execFunctionLevelReset s
  | .hdmDecoderCommit base size oneWay bi => Sys2Proof.Machine.execHdmDecoderCommit base size oneWay bi s
  | .ideFail mem => Sys2Proof.Machine.execIdeFail mem s
  | .doorbell seq irq => Sys2Proof.Machine.execDoorbell seq irq s
  | .mailboxAnswerReady => Sys2Proof.Machine.execMailboxAnswerReady s
  | .mailboxAckTimeout delay => Sys2Proof.Machine.execMailboxAckTimeout delay s
  | .ringEnable log2 mirror => Sys2Proof.Machine.execRingEnable log2 mirror s
  | .ringDisable log2 mirror => Sys2Proof.Machine.execRingDisable log2 mirror s
  | .ringConsWrite val => Sys2Proof.Machine.execRingConsWrite val s
  | .msixUnmask vec => Sys2Proof.Machine.execMsixUnmask vec s
  | .registerWrite off size val => Sys2Proof.Machine.execRegisterWrite off size val s
  | .doeRequest inst ty data => Sys2Proof.Machine.execDoeRequest inst ty data s
  | .spdmRequest src data => Sys2Proof.Machine.execSpdmRequest src data s
  | .spdmConnectionIdle lid => Sys2Proof.Machine.execSpdmConnectionIdle lid s
  | .read rq m => Sys2Proof.Machine.execRead rq m s
  | .write rq m => Sys2Proof.Machine.execWrite rq m s
  | .readSegment rq m => Sys2Proof.Machine.execReadSegment rq m s
  | .writeSegment rq m => Sys2Proof.Machine.execWriteSegment rq m s
  | .readRecord rq m => Sys2Proof.Machine.execReadRecord rq m s
  | .describe rq m => Sys2Proof.Machine.execDescribe rq m s
  | .deferredAnswer rq => Sys2Proof.Machine.execDeferredAnswer rq s
  | .dictionaryDeadline delay => Sys2Proof.Machine.execDictionaryDeadline delay s
  | .sessionTimeout rq q obj => Sys2Proof.Machine.execSessionTimeout rq q obj s
  | .applyPlan val token => Sys2Proof.Machine.execApplyPlan val token s
  | .applyPreload rq q val token => Sys2Proof.Machine.execApplyPreload rq q val token s
  | .faultRecordArrival pathFault => Sys2Proof.Machine.execFaultRecordArrival pathFault s
  | .targetedTestStart unit => Sys2Proof.Machine.execTargetedTestStart unit s
  | .testStartTimeout unit => Sys2Proof.Machine.execTestStartTimeout unit s
  | .targetedTestEnd unit res expired => Sys2Proof.Machine.execTargetedTestEnd unit res expired s
  | .sliceDue t => Sys2Proof.Machine.execSliceDue t s
  | .sliceStart t => Sys2Proof.Machine.execSliceStart t s
  | .sliceDefer t => Sys2Proof.Machine.execSliceDefer t s
  | .sliceEnd t res => Sys2Proof.Machine.execSliceEnd t res s
  | .riskScore old => Sys2Proof.Machine.execRiskScore old s
  | .shadowDataPiece => Sys2Proof.Machine.execShadowDataPiece s
  | .shadowEndPiece => Sys2Proof.Machine.execShadowEndPiece s
  | .shadowCommitPiece => Sys2Proof.Machine.execShadowCommitPiece s
  | .shadowCompletionTimeout q => Sys2Proof.Machine.execShadowCompletionTimeout q s
  | .startRestore q val token => Sys2Proof.Machine.execStartRestore q val token s
  | .restoreRequest => Sys2Proof.Machine.execRestoreRequest s
  | .restoreDataPiece => Sys2Proof.Machine.execRestoreDataPiece s
  | .restoreEndPiece => Sys2Proof.Machine.execRestoreEndPiece s
  | .avsbusPoll g rd => Sys2Proof.Machine.execAvsbusPoll g rd s
  | .vdoneTimeout g => Sys2Proof.Machine.execVdoneTimeout g s
  | .regulatorStatusRetry g status => Sys2Proof.Machine.execRegulatorStatusRetry g status s
  | .vralertAssert g in10ms => Sys2Proof.Machine.execVralertAssert g in10ms s
  | .vralertRelease g => Sys2Proof.Machine.execVralertRelease g s
  | .alertReleaseWaitExpiry g status => Sys2Proof.Machine.execAlertReleaseWaitExpiry g status s
  | .alertReminder g => Sys2Proof.Machine.execAlertReminder g s
  | .slowNAssert in10ms => Sys2Proof.Machine.execSlowNAssert in10ms s
  | .slowNRelease => Sys2Proof.Machine.execSlowNRelease s
  | .inputUnmask idx asserted => Sys2Proof.Machine.execInputUnmask idx asserted s
  | .stateCapWrite val => Sys2Proof.Machine.execStateCapWrite val s
  | .islandsFrequencyAck => Sys2Proof.Machine.execIslandsFrequencyAck s
  | .vdoneRead => Sys2Proof.Machine.execVdoneRead s
  | .thermalReading readings => Sys2Proof.Machine.execThermalReading readings s
  | .thermalStepUp => Sys2Proof.Machine.execThermalStepUp s
  | .thermalTrip sensor temp => Sys2Proof.Machine.execThermalTrip sensor temp s
  | .oscillatorTrim => Sys2Proof.Machine.execOscillatorTrim s
  | .supplyDroop island => Sys2Proof.Machine.execSupplyDroop island s
  | .pwrgdAssert orderOk => Sys2Proof.Machine.execPwrgdAssert orderOk s
  | .pwrgdDeassert => Sys2Proof.Machine.execPwrgdDeassert s
  | .rstNAssert => Sys2Proof.Machine.execRstNAssert s
  | .rstNRelease straps flash puf => Sys2Proof.Machine.execRstNRelease straps flash puf s
  | .firmwareStart v0a v0b fails marginal => Sys2Proof.Machine.execFirmwareStart v0a v0b fails marginal s
  | .domeTrainingComplete failed => Sys2Proof.Machine.execDomeTrainingComplete failed s
  | .tapBypass => Sys2Proof.Machine.execTapBypass s
  | .tapIdcode => Sys2Proof.Machine.execTapIdcode s
  | .tapSamplePreload cells => Sys2Proof.Machine.execTapSamplePreload cells s
  | .tapExtest => Sys2Proof.Machine.execTapExtest s
  | .tapHighz => Sys2Proof.Machine.execTapHighz s
  | .tapClamp => Sys2Proof.Machine.execTapClamp s
  | .noOperation sp => Sys2Proof.Machine.execNoOperation sp s
  | .supplyRecovery island stretched => Sys2Proof.Machine.execSupplyRecovery island stretched s
  | .scrubPeriodEnd d => Sys2Proof.Machine.execScrubPeriodEnd d s
  | .cxlLinkUp cxl rate width => Sys2Proof.Machine.execCxlLinkUp cxl rate width s
  | .hotReset => Sys2Proof.Machine.execHotReset s
  | .peerTrainingLost p old => Sys2Proof.Machine.execPeerTrainingLost p old s
  | .fabricReadyTimeout => Sys2Proof.Machine.execFabricReadyTimeout s
  | .planZeroFillComplete => Sys2Proof.Machine.execPlanZeroFillComplete s

end Sys2Proof.Machine
end

