-- ==== Sys2Proof/Machine/Tick.lean ====
section
/-! DEFINITION. What the block does of itself when no command waits (logs 5 and 20): every island's cycle counter advances,
the STATUS messages that ports owe are sent (11 R333), bytes that are no dictionary request are refused (13 R391), and the
oldest queued notice of each Shroud subscriber and of the MCTP destination leaves its queue (13 R408). -/

namespace Sys2Proof.Machine

open Sys2Proof

/-- Islands run: the device is neither without power, held in reset, contained nor stopped (15 R455, R456, R462, R470, 14 R427). -/
def State.islandsRun (s : State) : Bool :=
  match s.boot with
  | .off => false
  | .reset => false
  | .contained => false
  | .stopped => false
  | _ => true

/-- The oldest queued record of destination `k` leaves its queue. -/
def State.popDest (s : State) (k : Nat) : Option (Notice × State) :=
  let d := s.dest k
  match d.queue with
  | [] => none
  | n :: r => some (n, s.setDest k { d with queue := r })

/-- The oldest notice for the MCTP endpoint is sent (Table 13-9). -/
def State.sendMctpNotice (s : State) : State :=
  match s.popDest 1 with
  | none => s
  | some (n, t) => t.emit 5 s.mctpDest (mctpFrame 0x03 n.bytes) 0

/-- The oldest notice for Shroud subscriber `k` is sent as a KIND 0x03 frame holding one record (Table 13-17). -/
def State.sendShroudNotice (s : State) (k : Nat) : State :=
  match s.popDest k with
  | none => s
  | some (n, t) =>
    let q := (k - 16) / 8
    t.sendPacket 5 q 0x03 (fieldAt (s.blobGet 0 (0x1010 + q) 7) (4 * (k % 8)) 2) q 0 n.bytes

/-- Subscribers with a queued notice. -/
def State.waitingSubscribers (s : State) : List Nat := (s.dests.filter fun e => 16 ≤ e.1 && !e.2.queue.isEmpty).map (·.1)

/-- Ports that owe their peer a STATUS. -/
def State.owingPorts (s : State) : List Nat := (s.ports.filter fun e => e.2.statusDue && s.portUp e.1).map (·.1)

/-- What a spar waits for in one cycle: a tile for an instruction with SWAP that could start otherwise, a row whose bytes are
not in the feeder queues, full conflict queues, and a lane at one of them (Tables 4-9, 6-7). -/
def Spar.stalls (x : Spar) : List Nat :=
  [ if x.stream.head?.any (fun o => o.kind = .mmx && o.swap) && x.streamedOut && !x.partWaits && x.swapIn.isNone then 1 else 0
  , if x.rows.head?.any (fun r => r.wants != 0 && r.op.queued.isEmpty) then 1 else 0
  , x.banks.countP fun b => decide (64 ≤ b.2.length)
  , if x.tackle.any (fun r => !r.reqs.isEmpty) then 1 else 0 ]

/-- One cycle of every spar's waits counted (R117, R138, R149, R198). -/
def State.countStalls (s : State) : State :=
  s.spars.foldl (fun u e =>
    let w := e.2.stalls
    let add := fun (u : State) (i sub n : Nat) => if n = 0 then u else u.odAdd 0 i sub n
    add (add (add (add u (0x2310 + sparTower e.1) 2 (w.getD 0 0)) (0x2310 + sparTower e.1) 3 (w.getD 1 0))
      (0x2310 + sparTower e.1) 9 (w.getD 2 0)) (0x2410 + sparTower e.1) 5 (w.getD 3 0)) s

/-- Answers and notices of other devices that have been delivered: the management cores take them out of their buffer, and ask
nothing of which they would be the answer (11 Table 11-5, R350). -/
def State.dropAnswers (s : State) : State := { s with delivery := s.delivery.filter fun k => k.kind != 2 && k.kind != 3 }

/-- The block idles: a cycle passes, waits are counted, packets and reads that waited for room move on, the management mailbox
is served and queued notices are sent. -/
def State.tick (s : State) : State :=
  if s.islandsRun then
    let s1 := s.owingPorts.foldl (fun u p => u.sendStatus p false) { s with cyc := s.cyc + 1 }.countStalls
    let s2 := s1.dropAnswers.pumpInject.fetchPump.refuseNext.ackMailbox
    s.waitingSubscribers.foldl State.sendShroudNotice s2.sendMctpNotice
  else s

end Sys2Proof.Machine
end

