-- ==== Sys2Proof/Safety.lean ====
section
/-! DEFINITION. What counts as a safe run of the block, and the conditions on a state in whose terms the claims are made: a
slot instruction that issues alone, a device in service, and memories in their canonical form. -/

namespace Sys2Proof.Safety

open Sys2Proof Sys2Proof.Machine

/-- The step answers a next state. -/
abbrev continues (o : Host.Outcome State Fault Refusal) : Prop := ∃ t, o = .next t

/-- Every memory of the device is in its canonical form: dome memory, and every spar's scratch memory and instruction
store (10 R297, 03 R66). -/
abbrev memoriesWf (s : State) : Prop :=
  Memory.wf s.dome ∧ ∀ i, Memory.wf (s.spar i).scratch ∧ Memory.wf (s.spar i).istore

/-- Spar `i` brings to issue a bundle whose only instruction is `op`, `f` in slot `k` (03 R69-R74): the spar runs its job and
nothing holds it back, the guard holds (R72), no register or unit is waited for (R73), and no check of the bundle fails
(R104). No active loop ends at this bundle (R83). -/
abbrev issuesAlone (s : State) (i k : Nat) (op : BitVec 8) (f : Fields) : Prop :=
  s.canIssue i = true ∧ (s.spar i).bundle = soloBundle k ⟨op, f⟩ ∧ guardOn (s.spar i) f = true ∧
  bundleWaits (s.spar i) (soloBundle k ⟨op, f⟩) = false ∧
  bundleFault s (s.spar i) i (soloBundle k ⟨op, f⟩) = none ∧
  ∀ l ∈ (s.spar i).loops, l.last ≠ (s.spar i).pc

/-- The spar after its bundle: `y` with the program counter at the next bundle (03 R81). -/
abbrev stepped (y : Spar) : Spar := { y with pc := y.pc + 1, waiting := false }

/-- The command, whose slot-`k` instruction issues alone, changes its spar to `g` of it and nothing else. -/
abbrev changesSpar (c : Nat → Fields → Instr) (k : Nat) (op : BitVec 8) (g : Spar → Fields → Spar) : Prop :=
  ∀ s i f, issuesAlone s i k op f → exec (c i f) s = .next (s.modSpar i fun x => g x f)

/-- The slot-0 or slot-1 command writes `v` of its spar to s[D] (s0 keeps reading zero, 03 R75) and changes nothing else. -/
abbrev writesScalar (c : Nat → Fields → Instr) (k : Nat) (op : BitVec 8) (v : Spar → Fields → W64) : Prop :=
  changesSpar c k op fun x f => stepped (x.sset f.d.toNat (v x f))

/-- The slot-1 command writes `v` of its spar to a[D] and changes nothing else. -/
abbrev writesAddress (c : Nat → Fields → Instr) (k : Nat) (op : BitVec 8) (v : Spar → Fields → W64) : Prop :=
  changesSpar c k op fun x f => stepped (x.aset f.d.toNat (v x f))

/-- The slot-4 or slot-5 command writes v[D], lane `j` being `w` of its spar, and changes nothing else. -/
abbrev writesVector (c : Nat → Fields → Instr) (k : Nat) (op : BitVec 8) (w : Spar → Fields → Nat → W32) : Prop :=
  ∀ s i f, issuesAlone s i k op f →
    ∃ v, exec (c i f) s = .next (s.modSpar i fun x => stepped (x.vset f.d.toNat v)) ∧ ∀ j < 256, lane v j = w (s.spar i) f j

/-- Spar `i` runs and waits at an `fc.phase` on group `g`, alone in its bundle, at which no active loop ends (03 R98). -/
abbrev atFence (s : State) (i g : Nat) : Prop :=
  (s.spar i).run = .running ∧ (∀ l ∈ (s.spar i).loops, l.last ≠ (s.spar i).pc) ∧
  ∃ f, (s.spar i).bundle = soloBundle 7 ⟨0x11, f⟩ ∧ f.immBits 0 4 = g ∧ guardOn (s.spar i) f = true

/-- Spar `i` after its fence: its phase count is one more, the step number latched, and it is at its next bundle (03 R97-R99). -/
abbrev pastFence (s : State) (i : Nat) : Spar :=
  stepped { s.spar i with
    phase := (s.spar i).phase + 1, step := BitVec.ofNat 64 (s.odGet (s.sparPart i) 0x6400 3), barrier := none }

/-- The states agree in everything but the spars. -/
abbrev sameBeyondSpars (s u : State) : Prop := { u with spars := s.spars } = s

/-- A row of the opcode table that is a slot instruction: its command, its slot, its opcode, and the fields that select it. -/
structure SlotRow where
  /-- the command -/
  cmd : Nat → Fields → Instr
  /-- the slot -/
  slot : Nat
  /-- OP -/
  op : BitVec 8
  /-- the selector it stands for -/
  sel : Fields → Bool := fun _ => true

/-- The slot instructions of the opcode table (03 Table 3-5, 04 Table 4-6, 06 Table 6-1, 03 3.7 and 3.8). -/
abbrev slotRows : List SlotRow :=
  [⟨.scAdd, 0, 0x01, fun _ => true⟩, ⟨.scSub, 0, 0x02, fun _ => true⟩, ⟨.scAnd, 0, 0x03, fun _ => true⟩,
   ⟨.scOr, 0, 0x04, fun _ => true⟩, ⟨.scXor, 0, 0x05, fun _ => true⟩, ⟨.scShl, 0, 0x06, fun _ => true⟩,
   ⟨.scShr, 0, 0x07, fun _ => true⟩, ⟨.scSar, 0, 0x08, fun _ => true⟩, ⟨.scMin, 0, 0x09, fun _ => true⟩,
   ⟨.scMax, 0, 0x0A, fun _ => true⟩, ⟨.scCmp, 0, 0x0B, fun _ => true⟩, ⟨.scMul, 0, 0x0C, fun _ => true⟩,
   ⟨.scMulh, 0, 0x0D, fun _ => true⟩, ⟨.scDiv, 0, 0x0E, fun _ => true⟩, ⟨.scRem, 0, 0x0F, fun _ => true⟩,
   ⟨.scLi, 0, 0x10, fun _ => true⟩, ⟨.br, 0, 0x20, fun _ => true⟩, ⟨.brNz, 0, 0x21, fun _ => true⟩,
   ⟨.brZ, 0, 0x22, fun _ => true⟩, ⟨.brLink, 0, 0x23, fun _ => true⟩, ⟨.scCfg, 0, 0x30, fun _ => true⟩,
   ⟨.scCyc, 0, 0x31, fun _ => true⟩, ⟨.scHalt, 0, 0x3F, fun _ => true⟩] ++
  [⟨.adAdd, 1, 0x01, fun _ => true⟩, ⟨.adIncm, 1, 0x02, fun _ => true⟩, ⟨.adLi, 1, 0x03, fun _ => true⟩,
   ⟨.adFroms, 1, 0x04, fun _ => true⟩, ⟨.adTos, 1, 0x05, fun _ => true⟩, ⟨.lpBegin, 1, 0x10, fun _ => true⟩,
   ⟨.lpBreak, 1, 0x11, fun _ => true⟩, ⟨.lpGet, 1, 0x12, fun _ => true⟩, ⟨.ldS, 2, 0x01, fun _ => true⟩,
   ⟨.stS, 2, 0x02, fun _ => true⟩, ⟨.ldV, 2, 0x03, fun _ => true⟩, ⟨.stV, 2, 0x04, fun _ => true⟩,
   ⟨.stVt, 2, 0x05, fun _ => true⟩, ⟨.ldP, 2, 0x06, fun _ => true⟩, ⟨.stP, 2, 0x07, fun _ => true⟩,
   ⟨.ldM, 2, 0x08, fun _ => true⟩, ⟨.stM, 2, 0x09, fun _ => true⟩, ⟨.ldT, 2, 0x0A, fun _ => true⟩,
   ⟨.mld, 3, 0x01, fun _ => true⟩, ⟨.mmx, 3, 0x02, fun _ => true⟩, ⟨.mew, 3, 0x03, fun _ => true⟩,
   ⟨.mwb, 3, 0x04, fun _ => true⟩, ⟨.mal, 3, 0x05, fun _ => true⟩, ⟨.mfr, 3, 0x06, fun _ => true⟩] ++
  [⟨.vaAdd, 4, 0x01, fun _ => true⟩, ⟨.vaSub, 4, 0x02, fun _ => true⟩, ⟨.vaMul, 4, 0x03, fun _ => true⟩,
   ⟨.vaFma, 4, 0x04, fun _ => true⟩, ⟨.vaMin, 4, 0x05, fun _ => true⟩, ⟨.vaMax, 4, 0x06, fun _ => true⟩,
   ⟨.vaCmp, 4, 0x07, fun _ => true⟩, ⟨.vaSel, 4, 0x08, fun _ => true⟩, ⟨.vaAnd, 4, 0x09, fun _ => true⟩,
   ⟨.vaOr, 4, 0x0A, fun _ => true⟩, ⟨.vaXor, 4, 0x0B, fun _ => true⟩, ⟨.vaMov, 4, 0x0C, fun _ => true⟩,
   ⟨.vbSfu, 5, 0x01, fun _ => true⟩, ⟨.vbCvt, 5, 0x02, fun _ => true⟩, ⟨.vbWid, 5, 0x03, fun _ => true⟩,
   ⟨.vbRed, 5, 0x04, fun _ => true⟩, ⟨.vbPerm, 5, 0x05, fun _ => true⟩, ⟨.vbBcast, 5, 0x06, fun _ => true⟩,
   ⟨.vbAcc, 5, 0x07, fun _ => true⟩, ⟨.vbPlog, 5, 0x08, fun _ => true⟩] ++
  [⟨.tgGather, 6, 0x01, fun _ => true⟩, ⟨.tgUnperm, 6, 0x02, fun _ => true⟩, ⟨.tkScatter, 6, 0x03, fun _ => true⟩,
   ⟨.tkScatadd, 6, 0x04, fun _ => true⟩, ⟨.tkPerm, 6, 0x05, fun _ => true⟩, ⟨.tkRowfeed, 6, 0x06, fun _ => true⟩,
   ⟨.tkClaim, 6, 0x07, fun f => f.mod.toNat % 4 != 1 && f.mod.toNat % 4 != 2⟩, ⟨.tkClaimReset, 6, 0x07, fun f => f.mod.toNat % 4 = 1⟩,
   ⟨.tkClaimQuery, 6, 0x07, fun f => f.mod.toNat % 4 = 2⟩, ⟨.tkDone, 6, 0x08, fun _ => true⟩,
   ⟨.txDld, 7, 0x01, fun _ => true⟩, ⟨.txDst, 7, 0x02, fun f => f.fmt = 0⟩, ⟨.txDstAtomic, 7, 0x02, fun f => f.fmt != 0⟩,
   ⟨.txSend, 7, 0x03, fun _ => true⟩, ⟨.txRecv, 7, 0x04, fun _ => true⟩,
   ⟨.txFqWrite, 7, 0x05, fun f => f.mod.toNat % 4 != 1 && f.mod.toNat % 4 != 2⟩, ⟨.txFqWriteArrival, 7, 0x05, fun f => f.mod.toNat % 4 = 1⟩,
   ⟨.txFqRead, 7, 0x05, fun f => f.mod.toNat % 4 = 2⟩, ⟨.txIfill, 7, 0x06, fun _ => true⟩, ⟨.txChtab, 7, 0x07, fun _ => true⟩,
   ⟨.txWait, 7, 0x08, fun _ => true⟩, ⟨.fcLocal, 7, 0x10, fun _ => true⟩, ⟨.fcPhase, 7, 0x11, fun _ => true⟩]

/-- The record of a fault of spar `i`: its code, its source, and the payload of Table 3-10 (03 R106). -/
abbrev isSparRecord (r : Notice) (i code bundle slot cause block value : Nat) (phase : W32) : Prop :=
  r.ty = 1 ∧ r.code = code ∧ r.source = sparUnit i ∧
  r.payload = padTo 40 (leBytes 2 bundle ++ leBytes 1 slot ++ leBytes 1 cause ++ leBytes 4 block ++ leBytes 8 value ++ leBytes 4 phase.toNat)

/-- The state with one fault record more on its way to the management cores (14 R416). -/
abbrev raised (s : State) (n : Notice) : State := { s with faultQ := s.faultQ ++ [n] }

/-- A spar as an error of its own leaves it (03 R102): it issues no further bundle; its registers and its other state are kept. -/
abbrev stoppedSpar (x : Spar) : Spar := { x with run := .stopped, waiting := false, barrier := none }

/-- The mailbox holds the answer `b` (12 R370): given, in state 3, or still to come, in state 2. -/
abbrev mailboxHolds (u : State) (b : Bytes) : Prop :=
  (u.cxl.mbxState = 3 ∧ u.cxl.mbxAlen = BitVec.ofNat 32 b.length ∧ memRead u.cxl.mbxAnsBuf 0 b.length = b) ∨
  (u.cxl.mbxState = 2 ∧ u.cxl.mbxAns = some b)

/-- The rows of the dictionary's operations (13 Table 13-7). -/
abbrev merecRows : List ((Requester → Merec → Instr) × MOp) :=
  [(.read, .read), (.write, .write), (.readSegment, .readSeg), (.writeSegment, .writeSeg), (.readRecord, .readRec), (.describe, .describe)]

/-- The fields of a request fit their widths (13 Table 13-5). -/
abbrev merecFits (m : Merec) : Prop :=
  m.token < 2 ^ 16 ∧ m.index < 2 ^ 16 ∧ m.sub < 256 ∧ m.qsel < 256 ∧ m.offset < 2 ^ 32 ∧ m.length < 2 ^ 32

/-- The device runs and spire unit `k` is in service. -/
abbrev spireUp (s : State) (k : Nat) : Prop := s.live = true ∧ s.unitOut (spireUnit k) = false

/-- Nothing stands between a unit and dome memory: no line is poisoned, the host holds no line, and every dome grants
(10 R309, R316, 12 R366). -/
abbrev quietMemory (s : State) : Prop := s.poison = [] ∧ s.cxl.tracker = [] ∧ ∀ d, s.domeHeld d = false

/-- The unit's access to the ranges, asked for before, can be served now: every dome grants, the host holds no line, the unit is
not cut off, and every slot of the access has been granted (10 R300, R316, R317, R320). -/
abbrev portOpen (s : State) (unit : Nat) (rs : List (Nat × Nat)) : Prop :=
  (∀ d, s.domeHeld d = false) ∧ s.cxl.tracker = [] ∧ s.unitCut unit rs = false ∧ s.granted unit rs = true

/-- Nothing stands between the unit and the ranges: its access is open, and no line of dome is poisoned (10 R309). -/
abbrev cleanPort (s : State) (unit : Nat) (rs : List (Nat × Nat)) : Prop := s.poison = [] ∧ portOpen s unit rs

/-- As `portOpen`, for the accesses of several units. -/
abbrev portsOpen (s : State) (l : List (Nat × List (Nat × Nat))) : Prop := ∀ a ∈ l, portOpen s a.1 a.2

/-- The grant of the next slot of dome port `d`, no lock being open (10 R317): of the requesters that ask, as `asks` lets them. -/
abbrev portGrant (s : State) (d : Nat) (asks : BitVec 16) : Option (Nat × Edge) :=
  let v := s.takeWrites d asks
  pickGrant v d ((List.range 16).filter fun r => edgeHas d r && !v.cutOff d r && v.asksAt d asks r)

/-- An event went out: when the spar belongs to the partition, its endpoint's channel bytes grew by these 64 first
(07 R208). -/
abbrev eventSent (s u : State) (q spar ep : Nat) (bytes : Bytes) : Prop :=
  s.sparPart spar = q → ∃ more, mapGet [] (u.spar spar).inflight ep = mapGet [] (s.spar spar).inflight ep ++ padTo 64 bytes ++ more

/-- The event of a batch (07 Table 7-2) went out. -/
abbrev batchEventSent (s u : State) (q : Nat) (b : Batch) (code status j : Nat) : Prop :=
  eventSent s u q b.evSpar b.evEp (leBytes 1 code ++ leBytes 1 status ++ leBytes 2 b.tag ++ leBytes 1 b.gen ++ leBytes 3 0 ++ leBytes 4 j)

/-- The Halyard unit of tower `t` has the command `r`, of code `code`, at the head of its stream (07 R208). -/
abbrev halCommand (s : State) (t : Nat) (r : Bytes) (code : Nat) : Prop :=
  spireUp s 3 ∧ s.towerOut 9 t = false ∧ s.halHead t = some r ∧ fieldAt r 0 1 = code

/-- The command `r` names the open batch `b` of the tower's partition. -/
abbrev halNames (s : State) (t : Nat) (r : Bytes) (b : Batch) : Prop :=
  s.batchOf (s.towerPart t) (fieldAt r 2 2) (fieldAt r 4 1) = some b

/-- Pairs whose counting frames partition `q` holds (07 R219), as GEN and TAG stand in a frame. -/
abbrev heldPairs (s : State) (q : Nat) : List Nat := ((s.part q).held.map fun m => fieldAt m.payload 1 3).foldl setIns []

/-- The collective queue of partition `q` has the command `r` of operation `op` at its head, its fixed fields as Table 8-3 states (08 R253). -/
abbrev colCommand (s : State) (q : Nat) (r : Bytes) (op : Nat) : Prop :=
  spireUp s 4 ∧ s.colHeadCmd q = some r ∧ colFieldsOk r = true ∧ fieldAt r 1 1 = op

/-- TAGs that are not open whose frames partition `q` holds (08 R258). -/
abbrev heldTags (s : State) (q : Nat) : List Nat := ((s.part q).colHeld.map fun m => fieldAt m.payload 4 4).foldl setIns []

/-- Updates, by AGROUP and T, whose votes partition `q` holds (09 R280). -/
abbrev heldVotes (s : State) (q : Nat) : List (Nat × Nat) := ((s.part q).votes.map fun w => (w.agroup, w.t)).eraseDups

/-- The rows of the collective engine's operations (08 Table 8-5). -/
abbrev colRows : List ((Nat → Instr) × Nat) :=
  [(.reduceScatter, 1), (.allGather, 2), (.allReduce, 3), (.allToAll, 4), (.localPass, 5), (.normReduction, 6)]

/-- DONE of a collective (08 Table 8-4) went out. -/
abbrev doneSent (s u : State) (c : ColOp) (status : Nat) : Prop :=
  eventSent s u c.q c.evspar c.evep (leBytes 1 0x81 ++ leBytes 1 status ++ leBytes 2 0 ++ leBytes 4 c.tag ++ leBytes 8 c.step)

/-- The oldest delivered packet is `k`, and `r` are those behind it. -/
abbrev delivered (s : State) (k : Packet) (r : List Packet) : Prop := s.delivery = k :: r

/-- COMMIT of an update (09 Table 9-2) went out, when a spar asked for the update. -/
abbrev commitSent (s u : State) (q : Nat) (w : Upd) (status group : Nat) : Prop :=
  ∀ e, w.ev = some e → eventSent s u q e.1 e.2 (leBytes 1 0x91 ++ leBytes 1 status ++ leBytes 2 group ++ leBytes 4 0 ++ leBytes 8 w.t)

/-- Writes applied to a memory one after another. -/
abbrev writeAll (m : List Host.Cell) (ws : List (Nat × Bytes)) : List Host.Cell := ws.foldl (fun m w => memWrite m w.1 w.2) m

/-- The management cores' fault handling has the record `n` next, and `r` behind it (14 R416). -/
abbrev faultNext (s : State) (n : Notice) (r : List Notice) : Prop := s.handling = true ∧ s.faultQ = n :: r

/-- Case `k` has closed with class `cls` (14 R417): its entry is free, and its object says so. -/
abbrev caseClosed (u : State) (k cls : Nat) : Prop :=
  u.case k = {} ∧ u.odGet 0 (0x8010 + k) 4 = cls ∧ u.odGet 0 (0x8010 + k) 2 = 0

/-- The device is contained (14 R427): islands stopped, FAULT_N asserted, every port in state 0. -/
abbrev containedState (u : State) : Prop := u.boot = .contained ∧ u.faultN = true ∧ ∀ p < 36, u.odGet 0 (0x4010 + p) 1 = 0

/-- A record of code `code` is on its way to the management cores. -/
abbrev faultRaised (u : State) (code : Nat) : Prop := ∃ n ∈ u.faultQ, n.code = code

/-- A record of code `code` that carries the values `vals` is on its way to the management cores. -/
abbrev faultCarries (u : State) (code : Nat) (vals : List Nat) : Prop := ∃ n ∈ u.faultQ, n.code = code ∧ n.vals = vals

/-- What a reset or a loss of power never keeps, and containment never changes (14 R427, 15 R462): memory, the spars, the
partitions and the ports. -/
abbrev sameMachine (s u : State) : Prop := u.dome = s.dome ∧ u.poison = s.poison ∧ u.spars = s.spars ∧ u.parts = s.parts ∧ u.ports = s.ports

/-- The groups, the step number and the working sums of a partition's update are as they were (09 R282). -/
abbrev updateUndone (s u : State) (q : Nat) : Prop :=
  u.dome = s.dome ∧ u.odGet q 0x6400 3 = s.odGet q 0x6400 3 ∧ (u.part q).gradSum = (s.part q).gradSum ∧
  (u.part q).wSum = (s.part q).wSum ∧ (u.part q).uSum = (s.part q).uSum

end Sys2Proof.Safety
end

