-- ==== Sys2Proof/Certificates/Slice0/Obligations.lean ====
section
/-! DEFINITION. The statements about the block: what its commands do, by the rules of the spec, command family by command
family; what a step is; and what every step keeps. -/

open Sys2Proof Sys2Proof.Machine Sys2Proof.Safety

/-! The spar: scalar and address instructions, branches, loops, self-description, no-operations and guards (03). -/

/-- Slot-0 logic, shifts and immediates (03 R76, Table 3-5): s[D] takes the operation's result on s[A] and the second operand, s[B] or IMM; every
other register, every flag-like bit and all memory stay, and the program counter moves on by one.
Slot-0 comparisons and the high product (03 Table 3-5): minimum and maximum signed, or unsigned when MOD[1] = 1; the
condition codes of `sc.cmp` in MOD[7:4]; the high 64 bits of the 128-bit product. -/
def Obligations.ScalarResults : Prop :=
  (writesScalar .scAnd 0 0x03 (fun x f => x.sget f.a.toNat &&& srcB x f) ∧
  writesScalar .scOr 0 0x04 (fun x f => x.sget f.a.toNat ||| srcB x f) ∧
  writesScalar .scXor 0 0x05 (fun x f => x.sget f.a.toNat ^^^ srcB x f) ∧
  writesScalar .scShl 0 0x06 (fun x f => x.sget f.a.toNat <<< ((srcB x f).toNat % 64)) ∧
  writesScalar .scShr 0 0x07 (fun x f => x.sget f.a.toNat >>> ((srcB x f).toNat % 64)) ∧
  writesScalar .scSar 0 0x08 (fun x f => (x.sget f.a.toNat).sshiftRight ((srcB x f).toNat % 64)) ∧
  writesScalar .scLi 0 0x10 (fun _ f => f.imm)) ∧
  (writesScalar .scMin 0 0x09 (fun x f =>
    let a := x.sget f.a.toNat
    let b := x.sget f.b.toNat
    if (if f.modBit 1 then b.toNat < a.toNat else b.toInt < a.toInt) then b else a) ∧
  writesScalar .scMax 0 0x0A (fun x f =>
    let a := x.sget f.a.toNat
    let b := x.sget f.b.toNat
    if (if f.modBit 1 then a.toNat < b.toNat else a.toInt < b.toInt) then b else a) ∧
  writesScalar .scCmp 0 0x0B (fun x f =>
    let a := x.sget f.a.toNat
    let b := x.sget f.b.toNat
    let holds := match f.fmt with
      | 0 => decide (a = b)
      | 1 => decide (a ≠ b)
      | 2 => decide (a.toInt < b.toInt)
      | 3 => decide (a.toInt ≤ b.toInt)
      | 4 => decide (a.toNat < b.toNat)
      | _ => decide (a.toNat ≤ b.toNat)
    if holds then 1 else 0) ∧
  writesScalar .scMulh 0 0x0D (fun x f =>
    let a := x.sget f.a.toNat
    let b := x.sget f.b.toNat
    if f.modBit 1 then BitVec.ofNat 64 (a.toNat * b.toNat / 2 ^ 64) else BitVec.ofInt 64 (a.toInt * b.toInt / 2 ^ 64)))

/-- Scalar and address arithmetic (03 R78): sums, differences and products wrap modulo 2^64 (`ad.incm` then subtracts IMM[63:32]
when the sum reaches a[B], compared unsigned). A zero divisor gives a quotient with every bit set and a remainder equal to the dividend; signed
quotients round toward zero (the most negative number by -1 wraps to itself, with remainder 0), and the signed remainder has
the sign of the dividend. -/
def Obligations.WrappingArithmetic : Prop :=
  writesScalar .scAdd 0 0x01 (fun x f => x.sget f.a.toNat + srcB x f) ∧
  writesScalar .scSub 0 0x02 (fun x f => x.sget f.a.toNat - srcB x f) ∧
  writesScalar .scMul 0 0x0C (fun x f => x.sget f.a.toNat * x.sget f.b.toNat) ∧
  writesAddress .adAdd 1 0x01 (fun x f => x.aget f.a.toNat + srcB x f) ∧
  writesAddress .adIncm 1 0x02 (fun x f =>
    let sum := x.aget f.a.toNat + f.immLow
    if (x.aget f.b.toNat).toNat ≤ sum.toNat then sum - BitVec.ofNat 64 (f.immBits 32 32) else sum) ∧
  writesScalar .scDiv 0 0x0E (fun x f =>
    let a := x.sget f.a.toNat
    let b := x.sget f.b.toNat
    if b = 0 then BitVec.allOnes 64
    else if f.modBit 1 then BitVec.ofNat 64 (a.toNat / b.toNat) else BitVec.ofInt 64 (a.toInt.tdiv b.toInt)) ∧
  writesScalar .scRem 0 0x0F (fun x f =>
    let a := x.sget f.a.toNat
    let b := x.sget f.b.toNat
    if b = 0 then a
    else if f.modBit 1 then BitVec.ofNat 64 (a.toNat % b.toNat) else BitVec.ofInt 64 (a.toInt.tmod b.toInt))

/-- Branches (03 Table 3-5, R81): to IMM[8:0], or to s[A] when MOD[2] = 1; `br.nz` and `br.z` test s[C]; `br.link` writes the
index of the next bundle to s[D]; a branch not taken moves on to the next bundle.
Slot-1 moves (03 Table 3-5): an immediate, and copies between scalar and address registers.
Hardware loops (03 R82): `lp.begin` writes the count to l[X] and makes the loop the most recent active one, in place of one on
the same counter; a count of zero skips the body and activates nothing; `lp.break` deactivates, `lp.get` reads the counter. -/
def Obligations.ControlFlow : Prop :=
  (changesSpar .br 0 0x20 (fun x f => { x with pc := branchTarget x f, waiting := false }) ∧
  changesSpar .brNz 0 0x21 (fun x f =>
    { x with pc := if x.sget f.c.toNat ≠ 0 then branchTarget x f else x.pc + 1, waiting := false }) ∧
  changesSpar .brZ 0 0x22 (fun x f =>
    { x with pc := if x.sget f.c.toNat = 0 then branchTarget x f else x.pc + 1, waiting := false }) ∧
  changesSpar .brLink 0 0x23 (fun x f =>
    { x.sset f.d.toNat (BitVec.ofNat 64 (x.pc + 1)) with pc := branchTarget x f, waiting := false })) ∧
  (writesAddress .adLi 1 0x03 (fun _ f => f.imm) ∧
  writesAddress .adFroms 1 0x04 (fun x f => x.sget f.a.toNat) ∧
  writesScalar .adTos 1 0x05 (fun x f => x.aget f.a.toNat)) ∧
  (changesSpar .lpBegin 1 0x10 (fun x f =>
    let n := if f.modBit 2 then (x.sget f.a.toNat).toNat % 2 ^ 32 else f.immBits 0 32
    let last := x.pc + 1 + f.immBits 32 16
    { x.lset f.x.toNat (BitVec.ofNat 32 n) with
      loops := (if n = 0 then [] else [{ x := f.x.toNat, first := x.pc + 1, last := last }]) ++ x.loops.filter (·.x ≠ f.x.toNat)
      pc := if n = 0 then last + 1 else x.pc + 1
      waiting := false }) ∧
  changesSpar .lpBreak 1 0x11 (fun x f => stepped { x with loops := x.loops.filter (·.x ≠ f.x.toNat) }) ∧
  writesScalar .lpGet 1 0x12 (fun x f => (x.lget f.x.toNat).setWidth 64))

/-- `sc.cfg` (03 R107, Table 3-12) writes the item to s[D]; the two masks of a tower have a bit for each absent logical spar, and
read zero for a tower outside the partition. -/
def Obligations.SelfDescription : Prop :=
  ∀ s i f, issuesAlone s i 0 0x30 f →
    let q := s.sparPart i
    let item := f.immBits 0 16
    ∃ v : W64, exec (.scCfg i f) s = .next (s.modSpar i fun x => stepped (x.sset f.d.toNat v)) ∧
      (∀ n c, (n, c) ∈ [(0x00, 0x20000), (0x01, 8), (0x02, 128), (0x03, 32), (0x04, 128), (0x05, 2097152), (0x06, 65536), (0x07, 32),
          (0x08, 64), (0x09, 256), (0x0A, 512), (0x0B, 32), (0x0C, 32), (0x0D, 16), (0x0E, 16), (0x0F, 2), (0x10, 36), (0x11, 4),
          (0x12, 32)] → item = n → v = BitVec.ofNat 64 c) ∧
      (item = 0x100 → v = BitVec.ofNat 64 (i % 128)) ∧ (item = 0x101 → v = BitVec.ofNat 64 (i / 128)) ∧
      (item = 0x102 → v = BitVec.ofNat 64 q) ∧ (item = 0x103 → v = BitVec.ofNat 64 (s.towerMask q)) ∧
      (item = 0x104 → v = BitVec.ofNat 64 (s.odGet 0 0x4001 0)) ∧ (item = 0x105 → v = ((s.part q).jobNo).setWidth 64) ∧
      (∀ t < 8, ∀ h < 2, item = 0x110 + 2 * t + h →
        ∀ b < 64, v.getLsbD b = (decide (s.towerPart t = q) && s.absent (128 * t + 64 * h + b)))

/-- `sc.cyc` (03 Table 3-5) writes its island's cycle count to s[D]; `sc.halt` (03 R88) stops the spar once every operation it has
issued is complete.
The end of a job (03 R88): when the last started spar halts, the job state becomes 4 and the job's notice is sent; while a
started spar has not halted, nothing of the job changes. -/
def Obligations.RunAndHalt : Prop :=
  ((∀ s i f, issuesAlone s i 0 0x31 f →
    exec (.scCyc i f) s = .next (s.modSpar i fun x => stepped (x.sset f.d.toNat (BitVec.ofNat 64 (s.cycles (s.sparIsland i)))))) ∧
  (∀ s i f, issuesAlone s i 0 0x3F f → (s.spar i).quiet = false →
    exec (.scHalt i f) s = .next (s.modSpar i fun x => { stepped x with run := .halting })) ∧
  (∀ s i f, issuesAlone s i 0 0x3F f → (s.spar i).quiet = true →
    exec (.scHalt i f) s = .next
      ((s.modSpar i fun x => { stepped x with run := .halted, regions := [] }).endJob (s.sparPart i))) ∧
  (∀ (s : State) (i : Nat), s.live = true → (s.spar i).run = .halting → (s.spar i).quiet = true →
    exec (.haltComplete i) s = .next
      ((s.modSpar i fun x => { x with run := .halted, regions := [], barrier := none, waiting := false }).endJob (s.sparPart i)))) ∧
  (∀ (s : State) (q : Nat), s.jobRuns q = true →
    ((∀ i ∈ (s.part q).started, (s.spar i).run = .halted) → s.endJob q = (s.odSet q 0x2020 4 4).jobNotice q) ∧
    ((∃ i ∈ (s.part q).started, (s.spar i).run ≠ .halted) → s.endJob q = s))

/-- A bundle of no-operations (03 R71) changes only the program counter; at the end bundle of a loop (R83) the loop begun most
recently decrements its counter and issue continues at its first bundle, or, when the counter reaches zero, the loop is
deactivated and issue moves on. A bundle with no defined opcode but an undefined one comes to issue by the same command (the model's
reading, log 13), and raises BUNDLE_INVALID, cause 1, of its slot.
Guards (03 R72): a slot whose guard is false has no effect, and every fault it raises is BUNDLE_INVALID; its bundle, if it is
not held back by such a fault, moves on to the next, a branch not being taken. -/
def Obligations.GuardedOff : Prop :=
  ((∀ (s : State) (i k : Nat) (w : SlotWord), s.canIssue i = true → (s.spar i).bundle = soloBundle k w → k < 8 → w.op ≠ 0 →
    slotRegs k w = none → (s.spar i).fillWaits (s.spar i).pc = false →
    ∃ n : Notice, exec (.noOperation i) s = .next ((raised s n).modSpar i stoppedSpar) ∧
      isSparRecord n i 0x0106 (s.spar i).pc k 1 0 0 (s.spar i).phase) ∧
  (∀ (s : State) (i : Nat), s.canIssue i = true → ((s.spar i).bundle.all fun w => w.op = 0) = true → (s.spar i).fillWaits (s.spar i).pc = false →
    ((∀ l ∈ (s.spar i).loops, l.last ≠ (s.spar i).pc) → exec (.noOperation i) s = .next (s.modSpar i stepped)) ∧
    (∀ l r, (s.spar i).loops = l :: r → l.last = (s.spar i).pc → (s.spar i).lget l.x ≠ 1 →
      exec (.noOperation i) s = .next (s.modSpar i fun x => { x.lset l.x (x.lget l.x - 1) with pc := l.first, waiting := false })) ∧
    (∀ l r, (s.spar i).loops = l :: r → l.last = (s.spar i).pc → (s.spar i).lget l.x = 1 → (∀ m ∈ r, m.last ≠ (s.spar i).pc) →
      exec (.noOperation i) s = .next (s.modSpar i fun x => stepped { x.lset l.x 0 with loops := x.loops.filter (·.x ≠ l.x) })))) ∧
  (∀ r ∈ slotRows, ∀ s i f, r.sel f = true → s.canIssue i = true → (s.spar i).bundle = soloBundle r.slot ⟨r.op, f⟩ → f.gen = true →
    (((s.spar i).sget f.greg.toNat ≠ 0) ↔ f.gneg = true) →
    (∀ t ∈ slotFaults s (s.spar i) i (soloBundle r.slot ⟨r.op, f⟩) r.slot ⟨r.op, f⟩, t.code = 0x0106) ∧
    (bundleWaits (s.spar i) (soloBundle r.slot ⟨r.op, f⟩) = false →
      bundleFault s (s.spar i) i (soloBundle r.slot ⟨r.op, f⟩) = none → (∀ l ∈ (s.spar i).loops, l.last ≠ (s.spar i).pc) →
      exec (r.cmd i f) s = .next (s.modSpar i stepped)))

/-- Faults checked at issue are precise (03 R102, R104, R106): the record of the bundle's fault joins the faults raised, and the
faulting bundle has no other effect; the spar issues no further bundle.
Undefined opcodes, and opcodes whose operands lie outside their files, make their bundle invalid (03 R76, Table 3-11): causes
1 and 2 of BUNDLE_INVALID. A scratch access out of range or misaligned is ADDR_FAULT, cause 1 or 2 (R67, Table 3-11).
The faults that no bundle raises (03 R81, R100): a spar that would fetch bundle 512 records BUNDLE_INVALID, cause 5, with
bundle index 512 and SLOT 0xFF; a bundle that has waited for longer than the phase wait limit raises PHASE_TIMEOUT. -/
def Obligations.PreciseFaults : Prop :=
  (∀ r ∈ slotRows, ∀ s i f k t, r.sel f = true → s.canIssue i = true → (s.spar i).slotAt (s.spar i).pc r.slot = ⟨r.op, f⟩ →
    bundleWaits (s.spar i) (s.spar i).bundle = false → bundleFault s (s.spar i) i (s.spar i).bundle = some (k, t) →
    2 ≤ faultSev t.code →
    ∃ n : Notice, exec (r.cmd i f) s = .next ((raised s n).modSpar i stoppedSpar) ∧
      isSparRecord n i t.code (s.spar i).pc k t.cause 0 t.value (s.spar i).phase) ∧
  ((∀ s x i ws k w, w.op ≠ 0 → slotRegs k w = none → slotFaults s x i ws k w = [⟨0x0106, 1, 0⟩]) ∧
  (∀ s x i ws k w rd wr r, w.op ≠ 0 → slotRegs k w = some (rd, wr) → ((rd ++ wr).find? fun r => r.1.size ≤ r.2) = some r →
    ⟨0x0106, 2, r.2⟩ ∈ slotFaults s x i ws k w) ∧
  (∀ s x i ws f, guardOn x f = true → f.a.toNat < 32 → f.d.toNat < 32 → scratchBytes < slot2Addr x f + 1024 →
    ⟨0x0104, 1, slot2Addr x f⟩ ∈ slotFaults s x i ws 2 ⟨0x03, f⟩) ∧
  (∀ s x i ws f, guardOn x f = true → f.a.toNat < 32 → f.b.toNat < 32 → slot2Addr x f % 64 ≠ 0 →
    ⟨0x0104, 2, slot2Addr x f⟩ ∈ slotFaults s x i ws 2 ⟨0x04, f⟩)) ∧
  ((∀ (s : State) (i : Nat), s.live = true → (s.spar i).run = .running → (s.spar i).paused = false → (s.spar i).pc = 512 →
    ∃ n, exec (.sequentialFetchOverrun i) s = .next ((raised s n).modSpar i stoppedSpar) ∧
      isSparRecord n i 0x0106 512 0xFF 5 0 512 (s.spar i).phase) ∧
  (∀ (s : State) (i : Nat), s.live = true → (s.spar i).run = .running → (s.spar i).waiting = true →
    ∃ n, exec (.phaseTimeout i) s = .next ((raised s n).modSpar i stoppedSpar) ∧
      isSparRecord n i 0x0107 (s.spar i).pc 0xFF 0 0 0 (s.spar i).phase))

/-! The spar: scratch memory and the units that its slots start (03-06). -/

/-- Loads from scratch (03 Table 3-5): at a[A] plus IMM[31:0] sign-extended; `ld.s` extends 1 to 8 bytes by sign when MOD[0] = 1;
every load may post-increment a[A]. Nothing else changes.
Stores to scratch (03 Table 3-5): the register's bytes at a[A] plus IMM[31:0] sign-extended, with the post-increment; nothing
else changes.
`st.vt` (05 R164): the lanes of v[B] that fall inside the tensor of t[C] are converted by the descriptor's policy entry and
stored at their elements' addresses; no byte outside the addresses of those elements changes, and no other scratch memory. -/
def Obligations.ScratchAccesses : Prop :=
  (changesSpar .ldS 2 0x01 (fun x f =>
    let n := 2 ^ (f.mod.toNat / 4 % 4)
    let v := leNat (memRead x.scratch (slot2Addr x f) n)
    stepped (postInc x f (x.sset f.d.toNat (if f.modBit 0 then (BitVec.ofNat (8 * n) v).signExtend 64 else BitVec.ofNat 64 v)))) ∧
  changesSpar .ldV 2 0x03 (fun x f =>
    stepped (postInc x f (x.vset f.d.toNat (BitVec.ofNat 8192 (leNat (memRead x.scratch (slot2Addr x f) 1024)))))) ∧
  changesSpar .ldP 2 0x06 (fun x f =>
    stepped (postInc x f (x.pset f.d.toNat (BitVec.ofNat 256 (leNat (memRead x.scratch (slot2Addr x f) 32)))))) ∧
  changesSpar .ldM 2 0x08 (fun x f =>
    stepped (postInc x f (x.mset f.d.toNat (BitVec.ofNat 128 (leNat (memRead x.scratch (slot2Addr x f) 16)))))) ∧
  changesSpar .ldT 2 0x0A (fun x f =>
    stepped (postInc x f (x.tset f.d.toNat (BitVec.ofNat 512 (leNat (memRead x.scratch (slot2Addr x f) 64))))))) ∧
  (changesSpar .stS 2 0x02 (fun x f => stepped (postInc x f { x with
    scratch := memWrite x.scratch (slot2Addr x f) (leBytes (2 ^ (f.mod.toNat / 4 % 4)) (x.sget f.b.toNat).toNat) })) ∧
  changesSpar .stV 2 0x04 (fun x f => stepped (postInc x f { x with
    scratch := memWrite x.scratch (slot2Addr x f) (leBytes 1024 (x.vget f.b.toNat).toNat) })) ∧
  changesSpar .stP 2 0x07 (fun x f => stepped (postInc x f { x with
    scratch := memWrite x.scratch (slot2Addr x f) (leBytes 32 (x.pget f.b.toNat).toNat) })) ∧
  changesSpar .stM 2 0x09 (fun x f => stepped (postInc x f { x with
    scratch := memWrite x.scratch (slot2Addr x f) (leBytes 16 (x.mget f.b.toNat).toNat) }))) ∧
  (∀ s i f, issuesAlone s i 2 0x05 f → ∃ t, exec (.stVt i f) s = .next t ∧
    let x := s.spar i
    let d := Desc.of (x.tget f.c.toNat)
    (t.spar i).scratch = (storeItems (s.policy (s.sparPart i) d.policy x.step.toNat d.tid) d d.whole (vtItems x f d) x.scratch).1 ∧
    (t.spar i).pc = x.pc + 1 ∧ t.dome = s.dome ∧ (∀ j, j ≠ i → t.spar j = s.spar j) ∧
    (d.g = 0 → ∀ a, (∀ it ∈ vtItems x f d, a ∉ elemAddrs d d.whole it.1.1 it.1.2) →
      memByte (t.spar i).scratch a = memByte x.scratch a))

/-- What a store leaves alone (03 Table 3-5): every scratch byte outside the bytes it stores, the scratch of every other spar, and
dome memory; and the stored bytes read back as the register's. -/
def Obligations.StoreFrame : Prop :=
  ∀ c op n, (c, op, n) ∈ [((Instr.stV : Nat → Fields → Instr), (0x04 : BitVec 8), 1024), (.stP, 0x07, 32), (.stM, 0x09, 16)] →
    ∀ s i f, issuesAlone s i 2 op f → ∃ t, exec (c i f) s = .next t ∧
      (∀ a, a < slot2Addr (s.spar i) f ∨ slot2Addr (s.spar i) f + n ≤ a →
        memByte (t.spar i).scratch a = memByte (s.spar i).scratch a) ∧
      (∀ j, j ≠ i → t.spar j = s.spar j) ∧ t.dome = s.dome ∧
      memNat (t.spar i).scratch (slot2Addr (s.spar i) f) n =
        (if n = 1024 then ((s.spar i).vget f.b.toNat).toNat
         else if n = 32 then ((s.spar i).pget f.b.toNat).toNat else ((s.spar i).mget f.b.toNat).toNat)

/-- Array instructions as they issue (04 R110, R119, R134, R141, R144, Table 4-6): `mld` takes a load-queue entry with the operands it reads;
`mmx`, `mew` and `mwb` join the stream queue with theirs: accumulator base, descriptor, address, masks, and the tile's origin and extent
E; nothing else of the spar or of the block changes but what an `mmx` lets the feeder read.
Streamed rows and the feeder (04 R114, R115, R159; 05 R152): the rows of an `mmx` without a row list are its tile's extent E: TR, or
the low 32 bits of its bound register; in a plain row-ordered tensor its origin is the row and column its address names. From issue on
its rows are read into the feeder queues; the first `mmx` of an idle array has as many read as the queues' 1,024 entries take, in row
order. The queues never come to hold more than that.
Accumulator regions (04 R141): `mal` allocates its region directly above those that live, writes its base to a[D] and queues
its clear; `mfr` frees the region allocated most recently. -/
def Obligations.ArrayIssue : Prop :=
  (changesSpar .mld 3 0x01 (fun x f =>
    let t := mldTile x f
    let o := t.o.getD {}
    stepped { x with
      loads := x.loads ++ [{
        desc := x.tget f.b.toNat, addr := (x.aget f.a.toNat).toNat, dome := f.modBit 0, trans := f.modBit 1,
        e := t.e.getD 0, r0 := o.r0, c0 := o.c0, ebase := o.ebase, sbase := o.sbase,
        direct := x.loads.isEmpty && !x.active.any Tile.two, behind := x.stream.countP (fun a => a.kind = .mwb),
        num := x.opNum, bundle := x.pc }]
      opNum := x.opNum + 1 }) ∧
  (∀ s i f, issuesAlone s i 3 0x02 f → ∃ o : ArrOp, exec (.mmx i f) s = .next (s.modSpar i fun x =>
      stepped { ({ x with stream := x.stream ++ [o] } : Spar).fillFeeder with
        rowLists := if f.immBits 3 2 = 1 then x.rowLists.drop 1 else x.rowLists
        blockLists := if f.immBits 3 2 = 2 then (match x.blockLists with
          | l :: r => if l.idx.length ≤ 1 then r else { l with idx := l.idx.drop 1 } :: r
          | [] => []) else x.blockLists }) ∧
    o.kind = .mmx ∧ o.base = ((s.spar i).aget f.d.toNat).toNat ∧ o.desc = (s.spar i).tget f.b.toNat ∧
    o.rowMask = (s.spar i).mget f.c.toNat ∧ o.colMask = (s.spar i).mget f.x.toNat ∧ o.f1 = f.fmt ∧ o.f2 = f.low ∧
    o.swap = f.imm.getLsbD 0 ∧ o.colOrder = (f.imm.getLsbD 1 && f.immBits 3 2 != 1) ∧ o.fresh = f.imm.getLsbD 2 ∧
    o.bundle = (s.spar i).pc ∧ o.queued = [] ∧ o.fetched = 0 ∧
    (f.immBits 3 2 = 1 → ∀ l r, (s.spar i).rowLists = l :: r → o.list = l.idx ∧ o.skip = l.skip ∧ o.m = l.idx.length)) ∧
  changesSpar .mew 3 0x03 (fun x f =>
    let t := accTile x f false
    let o := t.o.getD {}
    stepped { x with stream := x.stream ++ [
      if f.imm.getLsbD 4 then
        { kind := .mew, base := (x.aget f.d.toNat).toNat, colMask := x.mget f.x.toNat, op := f.immBits 0 4, src := 1, bundle := x.pc,
          desc := x.tget f.b.toNat, addr := (x.aget f.a.toNat).toNat, m := t.e.getD 0, e := t.e.getD 0, r0 := o.r0, c0 := o.c0,
          ebase := o.ebase, sbase := o.sbase, pe := o.e }
      else { kind := .mew, base := (x.aget f.d.toNat).toNat, colMask := x.mget f.x.toNat, op := f.immBits 0 4, bundle := x.pc }] }) ∧
  changesSpar .mwb 3 0x04 (fun x f =>
    let t := accTile x f true
    let o := t.o.getD {}
    stepped { x with stream := x.stream ++ [
      { kind := .mwb, desc := x.tget f.b.toNat, addr := (x.aget f.a.toNat).toNat, base := (x.aget f.c.toNat).toNat,
        colMask := x.mget f.x.toNat, f2 := f.fmt, swap := f.imm.getLsbD 0, m := t.e.getD 0, bundle := x.pc, e := t.e.getD 0,
        r0 := o.r0, c0 := o.c0, ebase := o.ebase, sbase := o.sbase, pe := o.e }] })) ∧
  ((∀ s i f, issuesAlone s i 3 0x02 f → f.immBits 3 2 = 0 →
    let x := s.spar i
    let d := Desc.of (x.tget f.b.toNat)
    ∃ (u : State) (o : ArrOp) (r : List ArrOp), exec (.mmx i f) s = .next u ∧ (u.spar i).stream = r ++ [o] ∧ r.length = x.stream.length ∧
      (d.bsrc = 0 → o.m = d.tr) ∧ (d.bsrc = 1 → o.m = (x.sget d.breg).toNat % 2 ^ 32) ∧
      (d.plist = false → d.layout = 0 →
        let a := (x.aget f.a.toNat).toNat - d.base
        o.r0 = a / d.rstride ∧ o.c0 = a % d.rstride * 8 / d.bits) ∧
      (x.stream = [] → x.rows = [] → o.fetched = min o.m (1024 / o.rowRoom) ∧
        o.queued = (List.range o.fetched).map fun j => x.fetchRow o j)) ∧
  (∀ x : Spar, (x.rows.map (·.op.room)).sum + (x.stream.map ArrOp.room).sum ≤ 1024 →
    (x.fillFeeder.rows.map (·.op.room)).sum + (x.fillFeeder.stream.map ArrOp.room).sum ≤ 1024)) ∧
  ((∀ s i f, issuesAlone s i 3 0x05 f →
    let n := if f.modBit 2 then ((s.spar i).sget f.a.toNat).toNat else f.immBits 0 32
    exec (.mal i f) s = .next (s.modSpar i fun x =>
      let base := 65536 - (65536 - (x.regions.map (·.2)).sum)
      stepped { x.aset f.d.toNat (BitVec.ofNat 64 base) with
        regions := (base, n) :: x.regions
        stream := x.stream ++ [{ kind := .mal, base := base, m := n, bundle := x.pc }] })) ∧
  changesSpar .mfr 3 0x06 (fun x _ => stepped { x with regions := x.regions.drop 1 }))

/-- Lane-wise arithmetic of slot 4 (03 Table 3-5, 02 R48): every lane of v[D] is the operation on the lanes of v[A], v[B] and v[C]
by type: FP32 rounded once; two BF16 elements, each rounded; or I32 modulo 2^32. I32 minimum and maximum compare signed, the
model's choice (log 16).
Comparison, selection and bitwise operations of slot 4 (03 Table 3-5, 18 R500): bit j of p[D] is the condition on lane j;
`va.sel` takes whole lanes by bit j of p[X].
Vector unit B (03 Table 3-5, R79, R80; 04 R145): special functions, packing and widening, reductions, permutation, broadcast,
accumulator reads and predicate logic. `vb.cvt` also counts what it saturated in layer slot IMM[15:8] (02 R62). -/
def Obligations.VectorUnits : Prop :=
  (let lanes2 := fun (fop : W32 → W32 → W32) (bop : FVal → FVal → FVal) (iop : W32 → W32 → W32) (x : Spar) (f : Fields) (j : Nat) =>
    let a := lane (x.vget f.a.toNat) j
    let b := lane (x.vget f.b.toNat) j
    if f.fmt = 0xC then fop a b
    else if f.fmt = 0xA then
      ofHalves (toBf16 (bop (bf16Val (a.toNat % 65536)) (bf16Val (b.toNat % 65536))))
        (toBf16 (bop (bf16Val (a.toNat / 65536)) (bf16Val (b.toNat / 65536))))
    else iop a b
  writesVector .vaAdd 4 0x01 (lanes2 f32Add FVal.add fun a b => a + b) ∧
  writesVector .vaSub 4 0x02 (lanes2 f32Sub (fun a b => a.add b.neg) fun a b => a - b) ∧
  writesVector .vaMul 4 0x03 (lanes2 f32Mul FVal.mul fun a b => a * b) ∧
  writesVector .vaFma 4 0x04 (fun x f j =>
    let a := lane (x.vget f.a.toNat) j
    let b := lane (x.vget f.b.toNat) j
    let c := lane (x.vget f.c.toNat) j
    if f.fmt = 0xC then f32Fma a b c
    else if f.fmt = 0xA then
      ofHalves (toBf16 (((bf16Val (a.toNat % 65536)).mul (bf16Val (b.toNat % 65536))).add (bf16Val (c.toNat % 65536))))
        (toBf16 (((bf16Val (a.toNat / 65536)).mul (bf16Val (b.toNat / 65536))).add (bf16Val (c.toNat / 65536))))
    else a * b + c) ∧
  writesVector .vaMin 4 0x05 (lanes2 f32Min valMin fun a b => if b.toInt < a.toInt then b else a) ∧
  writesVector .vaMax 4 0x06 (lanes2 f32Max valMax fun a b => if a.toInt < b.toInt then b else a)) ∧
  ((∀ s i f, issuesAlone s i 4 0x07 f → ∃ v, exec (.vaCmp i f) s = .next (s.modSpar i fun x => stepped (x.pset f.d.toNat v)) ∧
    ∀ j < 256, v.getLsbD j = laneCmp f (lane ((s.spar i).vget f.a.toNat) j) (lane ((s.spar i).vget f.b.toNat) j)) ∧
  writesVector .vaSel 4 0x08 (fun x f j =>
    if (x.pget f.x.toNat).getLsbD j then lane (x.vget f.a.toNat) j else lane (x.vget f.b.toNat) j) ∧
  writesVector .vaAnd 4 0x09 (fun x f j => lane (x.vget f.a.toNat) j &&& lane (x.vget f.b.toNat) j) ∧
  writesVector .vaOr 4 0x0A (fun x f j => lane (x.vget f.a.toNat) j ||| lane (x.vget f.b.toNat) j) ∧
  writesVector .vaXor 4 0x0B (fun x f j => lane (x.vget f.a.toNat) j ^^^ lane (x.vget f.b.toNat) j) ∧
  writesVector .vaMov 4 0x0C (fun x f j => lane (x.vget f.a.toNat) j)) ∧
  (writesVector .vbSfu 5 0x01 (fun x f j => sfuApply f.low (lane (x.vget f.a.toNat) j)) ∧
  (∀ s i f, issuesAlone s i 5 0x02 f →
    let x := s.spar i
    let p := s.policy (s.sparPart i) (f.immBits 0 6) x.step.toNat ((x.sget f.b.toNat).toNat % 2 ^ 32)
    let c := convert f.fmt p ((List.range 256).map fun k => (((x.sget f.c.toNat).toNat + k) % 2 ^ 64, lane (x.vget f.a.toNat) k))
    exec (.vbCvt i f) s = .next (((s.modSpar i fun y => y.vset f.d.toNat
      (BitVec.ofNat 8192 (leNat (padTo 1024 (packElems f.fmt c.elems ++ c.scales.map fun e => BitVec.ofNat 8 e)))))
      |>.countRange (s.sparPart i) (f.immBits 8 8) c).modSpar i stepped)) ∧
  writesVector .vbWid 5 0x03 (fun x f j => widLane f.fmt (leBytes 1024 (x.vget f.a.toNat).toNat) j) ∧
  writesScalar .vbRed 5 0x04 (fun x f =>
    (reduceLanes (match f.low with | 0 => f32Add | 1 => f32Max | _ => f32Min)
      ((List.range 256).map (lane (x.vget f.a.toNat)))).setWidth 64) ∧
  writesVector .vbPerm 5 0x05 (fun x f j => lane (x.vget f.a.toNat) ((lane (x.vget f.b.toNat) j).toNat % 256)) ∧
  writesVector .vbBcast 5 0x06 (fun x f _ => (x.sget f.a.toNat).setWidth 32) ∧
  writesVector .vbAcc 5 0x07 (fun x f j => x.accGet (((x.aget f.b.toNat).toNat + j) % 65536)) ∧
  changesSpar .vbPlog 5 0x08 (fun x f => stepped (x.pset f.d.toNat (match f.low with
    | 0 => x.pget f.a.toNat &&& x.pget f.b.toNat
    | 1 => x.pget f.a.toNat ||| x.pget f.b.toNat
    | 2 => x.pget f.a.toNat ^^^ x.pget f.b.toNat
    | _ => x.pget f.a.toNat &&& ~~~x.pget f.b.toNat))))

/-- List operations as they issue (06 R168, R169, Table 6-1): each joins its engine's queue with the operands it read: the list
address, the descriptors or the accumulator base, the weight list, and the number of list positions s[X][31:0].
Work-counter operations as they issue (06 R168, R191, R192): one more outstanding operation on counter s[A][15:0], a claim, a
reset with start s[B] and count s[C], a query, or a completion of the claim word s[B]; its result is to go to s[D].
Transfers as they issue (03 R92, R94, 10 R311, R319): each joins the transfers outstanding with the addresses and the length it
read; a locked sequence is open after a transfer with MOD[0] = 1 and closed after one without.
`tx.chtab` (03 R91) loads the 32 channel entries from scratch; `tx.wait` (03 R94) only waits, until at most IMM[5:0] earlier
transfers are outstanding. -/
def Obligations.EngineIssue : Prop :=
  (∀ c op, (c, op) ∈ [((Instr.tgGather : Nat → Fields → Instr), (0x01 : BitVec 8)), (.tgUnperm, 0x02), (.tkScatter, 0x03),
      (.tkScatadd, 0x04), (.tkPerm, 0x05), (.tkRowfeed, 0x06)] →
    ∀ s i f, issuesAlone s i 6 op f → ∃ o : TkOp,
      exec (c i f) s = .next (s.modSpar i fun x => stepped { x with tackleQ := x.tackleQ ++ [o], opNum := x.opNum + 1 }) ∧
      o.op = op.toNat ∧ o.list = ((s.spar i).aget f.a.toNat).toNat ∧ o.n = ((s.spar i).sget f.x.toNat).toNat % 2 ^ 32 ∧
      o.src = (s.spar i).tget f.b.toNat ∧ (op = 1 ∨ op = 3 ∨ op = 5 → o.dst = (s.spar i).tget f.c.toNat) ∧
      (op = 2 ∨ op = 4 → o.base = ((s.spar i).aget f.d.toNat).toNat) ∧ (op = 2 → o.wlist = ((s.spar i).aget f.c.toNat).toNat) ∧
      (op ≠ 4 ∧ op ≠ 6 → o.srcDome = f.modBit 0) ∧ o.i16 = f.modBit 2 ∧ o.bundle = (s.spar i).pc) ∧
  (let claim := fun (o : CtrOp) (a b : W64) (x : Spar) (f : Fields) => stepped { x with claims := x.claims ++
    [{ op := o, ctr := (x.sget f.a.toNat).toNat % 65536, a := a, b := b, dest := f.d.toNat, bundle := x.pc }] }
  (∀ s i f, issuesAlone s i 6 0x07 f → f.mod.toNat % 4 = 0 →
    exec (.tkClaim i f) s = .next (s.modSpar i fun x => claim .claim 0 0 x f)) ∧
  (∀ s i f, issuesAlone s i 6 0x07 f → f.mod.toNat % 4 = 1 →
    exec (.tkClaimReset i f) s = .next (s.modSpar i fun x => claim .reset (x.sget f.b.toNat) (x.sget f.c.toNat) x f)) ∧
  (∀ s i f, issuesAlone s i 6 0x07 f → f.mod.toNat % 4 = 2 →
    exec (.tkClaimQuery i f) s = .next (s.modSpar i fun x => claim .query 0 0 x f)) ∧
  (∀ s i f, issuesAlone s i 6 0x08 f →
    exec (.tkDone i f) s = .next (s.modSpar i fun x => claim .done (x.sget f.b.toNat) 0 x f))) ∧
  ((∀ c op, (c, op) ∈ [((Instr.txDld : Nat → Fields → Instr), (0x01 : BitVec 8)), (.txDst, 0x02), (.txDstAtomic, 0x02)] →
    ∀ s i f, issuesAlone s i 7 op f → (c i f = .txDst i f → f.fmt = 0) → (c i f = .txDstAtomic i f → f.fmt ≠ 0) → ∃ t l,
      exec (c i f) s = .next (s.modSpar i fun x => stepped { x with xfers := (x.xfers ++ [t]), lockSeq := l, opNum := x.opNum + 1 }) ∧
      t.kind = (if op = 0x01 then XKind.dld else .dst) ∧ t.sa = ((s.spar i).aget f.a.toNat).toNat ∧
      t.da = ((s.spar i).aget f.b.toNat).toNat ∧ t.len = ((s.spar i).sget f.c.toNat).toNat ∧ t.lock = f.modBit 0 ∧
      t.code = (if op = 0x02 then f.fmt else 0) ∧ t.moved = 0 ∧ t.done = false ∧ (l.isSome = true ↔ f.modBit 0 = true)) ∧
  (∀ c op kind, (c, op, kind) ∈ [((Instr.txSend : Nat → Fields → Instr), (0x03 : BitVec 8), XKind.send), (.txRecv, 0x04, .recv)] →
    changesSpar c 7 op (fun x f => stepped { x with
      xfers := (x.xfers ++
        [{ kind := kind, sa := (x.aget f.a.toNat).toNat, len := (x.sget f.c.toNat).toNat, ep := f.immBits 0 5, bundle := x.pc, num := x.opNum }])
      opNum := x.opNum + 1 })) ∧
  (∀ c sel kind, (c, sel, kind) ∈ [((Instr.txFqWrite : Nat → Fields → Instr), 0, XKind.fqWrite), (.txFqWriteArrival, 1, .fqArrival),
      (.txFqRead, 2, .fqRead)] →
    ∀ s i f, issuesAlone s i 7 0x05 f → f.mod.toNat % 4 = sel →
      exec (c i f) s = .next (s.modSpar i fun x => stepped { x with
        xfers := (x.xfers ++
          [{ kind := kind, sa := (x.aget f.a.toNat).toNat, da := (x.aget f.d.toNat).toNat, len := (x.sget f.c.toNat).toNat,
             ep := f.immBits 0 5, route := x.sget f.b.toNat, bundle := x.pc, num := x.opNum }])
        opNum := x.opNum + 1 })) ∧
  changesSpar .txIfill 7 0x06 (fun x f => stepped { x with
    xfers := (x.xfers ++
      [{ kind := .ifill, sa := f.immBits 0 9, da := (x.aget f.b.toNat).toNat, len := 128 * f.immBits 16 10, bundle := x.pc, num := x.opNum }])
    opNum := x.opNum + 1 })) ∧
  ((∀ s i f, issuesAlone s i 7 0x07 f → ∃ m, exec (.txChtab i f) s = .next (s.modSpar i fun x => stepped { x with chtab := m }) ∧
    ∀ k < 32, mapGet 0 m k =
      BitVec.ofNat 64 (leNat (memRead (s.spar i).scratch (((s.spar i).aget f.a.toNat).toNat + 8 * k) 8))) ∧
  changesSpar .txWait 7 0x08 (fun x _ => stepped x) ∧
  (∀ x f, guardOn x f = true → f.immBits 0 6 < x.xfers.length → bundleWaits x (soloBundle 7 ⟨0x08, f⟩) = true))

/-- Fences (03 R97-R99): `fc.local` issues once every earlier operation of the spar is complete, adds one to the phase count and
latches the partition's step number. `fc.phase` waits at its group's barrier while another current member has not reached it; that of
the last current member lets every member issue: each adds one to its phase count, latches the step number and goes on at its next
bundle, and nothing else changes.
A barrier (03 R98) releases once every current member has reached an `fc.phase` on the group: each issues, its phase count grows
by one and it goes on at its next bundle, and nothing else changes. While one has not arrived, nothing happens. -/
def Obligations.Fences : Prop :=
  ((∀ s i f, issuesAlone s i 7 0x10 f → exec (.fcLocal i f) s = .next (s.modSpar i fun x => stepped { x with
    phase := x.phase + 1, step := BitVec.ofNat 64 (s.odGet (s.sparPart i) 0x6400 3), barrier := none })) ∧
  (∀ x f op, guardOn x f = true → op = 0x10 ∨ op = 0x11 → x.quiet = false → bundleWaits x (soloBundle 7 ⟨op, f⟩) = true) ∧
  (∀ s i f, issuesAlone s i 7 0x11 f → s.members (s.sparPart i) (f.immBits 0 4) = [i] →
    exec (.fcPhase i f) s = .next (s.modSpar i fun x => stepped { x with
      phase := x.phase + 1, step := BitVec.ofNat 64 (s.odGet (s.sparPart i) 0x6400 3), barrier := none })) ∧
  (∀ s i f, issuesAlone s i 7 0x11 f →
    let g := f.immBits 0 4
    let m := s.members (s.sparPart i) g
    i ∈ m → m.Nodup → (∀ j ∈ m, j ≠ i → (s.spar j).barrier = some g ∧ atFence s j g) →
    ∃ u, exec (.fcPhase i f) s = .next u ∧ (∀ j, u.spar j = if j ∈ m then pastFence s j else s.spar j) ∧ sameBeyondSpars s u) ∧
  (∀ s i j f, issuesAlone s i 7 0x11 f → j ≠ i → j ∈ s.members (s.sparPart i) (f.immBits 0 4) →
    (s.spar j).barrier ≠ some (f.immBits 0 4) →
    exec (.fcPhase i f) s = .next (s.modSpar i fun x => { x with waiting := true, barrier := some (f.immBits 0 4) }))) ∧
  ((∀ (s : State) (q g : Nat), s.live = true → s.members q g ≠ [] → (s.members q g).Nodup →
    (∀ i ∈ s.members q g, (s.spar i).barrier = some g ∧ atFence s i g ∧ s.sparPart i = q) →
    ∃ u, exec (.barrierRelease q g) s = .next u ∧
      (∀ i, u.spar i = if i ∈ s.members q g then pastFence s i else s.spar i) ∧ sameBeyondSpars s u) ∧
  (∀ (s : State) (q g i : Nat), s.live = true → i ∈ s.members q g → (s.spar i).barrier ≠ some g →
    exec (.barrierRelease q g) s = .next s))

/-- Start of array instructions (04 R110, R111, R115, R119, R149): once the one before it has streamed its last row, the `mmx` at the
head of the stream starts on the active tile, after activating the oldest loaded tile when SWAP = 1, counts in :04 of its tower's
record, and the feeder reads on; an `mew` from the stationary set starts with one row per contraction position. While the one before
it has rows to stream, nothing happens.
A row of a dense product (04 R110, R111, R117, R143, R149; 02 R43-R47): the row at the head of the feeder queues lands. Entry
base + 128 row + c of each enabled column takes the product of the streamed row and the tile's column added to its old value, or to +0
when FRESH; every other entry keeps its value, and so do scratch and dome. The instruction goes on with its next row, or ends; the
row's stream cycles are counted.
Stationary loads (04 R118, R119): the oldest load completes into the background set when it writes straight into it, from scratch, or
from dome once its access is granted and meets no poisoned line (10 R300, R309); a staged tile moves into the background set once that
is free.
Accumulator clears and write-backs (04 R141, R144): once every earlier row has landed, the `mal` at the head of the stream
clears its region, and the `mwb` at the head stores its rows through its descriptor and, with CLEAR, zeroes them (masked columns with
them, the model's choice, log 68); the instructions behind it stay, but for the rows the feeder reads from then on. -/
def Obligations.ArrayWork : Prop :=
  ((∀ (s : State) (i : Nat) o r t, s.live = true → (s.spar i).streamedOut = true → (s.spar i).stream = o :: r → o.kind = .mmx →
    o.swap = false → o.listBad = none → o.m ≠ 0 → (s.spar i).active = some t → t.sparse = false → t.two = false →
    exec (.arrayInstructionStart i) s = .next ((s.modSpar i fun x =>
      ({ x with stream := r, rows := x.rows ++ [{ op := o, tile := some t, total := o.m }] } : Spar).fillFeeder).arrayCount i 4 1)) ∧
  (∀ (s : State) (i : Nat) o r t l ls, s.live = true → (s.spar i).streamedOut = true → (s.spar i).stream = o :: r → o.kind = .mmx →
    o.swap = true → o.listBad = none → o.m ≠ 0 → (s.spar i).active = none → (s.spar i).loads = l :: ls → l.arrived = true →
    (s.spar i).back = some t → t.sparse = false →
    exec (.arrayInstructionStart i) s = .next ((s.modSpar i fun x =>
      ({ x with active := some t, second := none, back := none, loads := ls, stream := r,
                rows := x.rows ++ [{ op := o, tile := some t, total := o.m }] } : Spar).fillFeeder).arrayCount i 4 1)) ∧
  (∀ (s : State) (i : Nat) o r t, s.live = true → (s.spar i).streamedOut = true → (s.spar i).stream = o :: r → o.kind = .mew → o.src = 0 →
    (s.spar i).active = some t → t.two = false → loadDepth t.fmt ≠ 0 →
    exec (.arrayInstructionStart i) s = .next (s.modSpar i fun x =>
      { x with stream := r, rows := x.rows ++ [{ op := o, tile := some t, total := loadDepth t.fmt }] })) ∧
  (∀ (s : State) (i : Nat), s.live = true → (s.spar i).streamedOut = false → exec (.arrayInstructionStart i) s = .next s)) ∧
  (∀ (s : State) (i : Nat) r rs t p w ws, s.live = true → (s.spar i).rows = r :: rs → r.op.kind = .mmx → r.tile = some t → t.sparse = false →
    t.two = false → pairOf r.op.f1 r.op.f2 = some p → t.cols.length ≤ 128 → (s.spar i).active = none → r.op.queued = w :: ws →
    ∃ u, exec (.arrayRowLands i) s = .next u ∧
      (∀ c col, t.cols[c]? = some col → r.op.colMask.getLsbD c = true →
        let e := r.op.base + 128 * r.next + c
        let acc := if r.op.fresh then 0 else (s.spar i).accGet e
        let row := r.op.rowOperands w r.next 0 p.kt
        let col := (col.take p.kt).map fun v => v.map (opnd t.fmt)
        (u.spar i).accGet e = if p.c = 3 then colUpdate32 p.g acc col row else colUpdate p.g acc col row) ∧
      (∀ e, (e < r.op.base + 128 * r.next ∨ r.op.base + 128 * r.next + 128 ≤ e) → (u.spar i).accGet e = (s.spar i).accGet e) ∧
      (r.total ≤ r.next + 1 → (u.spar i).rows.length = rs.length) ∧
      (r.next + 1 < r.total → ∃ v vs, (u.spar i).rows = v :: vs ∧ vs.length = rs.length ∧ v.next = r.next + 1 ∧ v.total = r.total ∧
        v.tile = r.tile ∧ ∃ more, v.op.queued = ws ++ more) ∧
      (u.spar i).scratch = (s.spar i).scratch ∧ u.dome = s.dome ∧
      u.odGet 0 (0x2310 + i / 128) 1 = (s.odGet 0 (0x2310 + i / 128) 1 + p.c) % 2 ^ 64) ∧
  ((∀ (s : State) (i : Nat) l ls, s.live = true → (s.spar i).loads = l :: ls → l.arrived = false → l.dead = false → l.read = false →
    l.dome = false → l.behind = 0 → l.direct = true → (s.spar i).active = none → (s.spar i).back = none → (s.spar i).staging = none →
    (readTile (memByte (s.spar i).scratch) l).two = false →
    exec (.stationaryLoadComplete i) s = .next (s.modSpar i fun x => { x with
      back := some (readTile (memByte x.scratch) l),
      loads := { l with arrived := true, tile := readTile (memByte x.scratch) l } :: ls })) ∧
  (∀ (s : State) (i : Nat) l ls, s.live = true → (s.spar i).loads = l :: ls → l.arrived = false → l.dead = false → l.read = false →
    l.dome = true → l.direct = true → (s.spar i).active = none → (s.spar i).back = none → (s.spar i).staging = none →
    (readTile (memByte s.dome) l).two = false → s.poison = [] → (s.spar i).writesAhead l.num (loadRanges (memByte s.dome) l) = false →
    portOpen s i (loadRanges (memByte s.dome) l) →
    exec (.stationaryLoadComplete i) s = .next ((s.takeAsk i (loadRanges (memByte s.dome) l)).modSpar i fun x => { x with
      back := some (readTile (memByte s.dome) l), loads := { l with arrived := true, tile := readTile (memByte s.dome) l } :: ls })) ∧
  (∀ (s : State) (i : Nat) t, s.live = true → (s.spar i).staging = some t → t.part2 = false → (s.spar i).active = none →
    (s.spar i).back = none → exec (.stagedTileMove i) s = .next (s.modSpar i fun x => { x with back := some t, staging := none }))) ∧
  ((∀ (s : State) (i : Nat) o r, s.live = true → (s.spar i).stream = o :: r → o.kind = .mal → (s.spar i).rows = [] →
    ∃ u, exec (.malClear i) s = .next u ∧ (u.spar i).stream = r ∧
      (∀ e, (u.spar i).accGet e = if o.base ≤ e ∧ e < o.base + o.m then 0 else (s.spar i).accGet e) ∧
      (u.spar i).scratch = (s.spar i).scratch ∧ (u.spar i).regions = (s.spar i).regions) ∧
  (∀ (s : State) (i : Nat) o r, s.live = true → (s.spar i).stream = o :: r → o.kind = .mwb → (s.spar i).rows = [] →
    ∃ u, exec (.mwbReadStart i) s = .next u ∧
      ((u.spar i).stream.map fun (a : ArrOp) => { a with queued := [], fetched := 0 }) = (r.map fun (a : ArrOp) => { a with queued := [], fetched := 0 }) ∧
      (u.spar i).scratch = (storeItems (s.policy (s.sparPart i) (Desc.of o.desc).policy (s.spar i).step.toNat (Desc.of o.desc).tid)
        (Desc.of o.desc) o.origin (mwbItems (s.spar i) o) (s.spar i).scratch).1 ∧
      (∀ e, (u.spar i).accGet e = if o.swap = true ∧ o.base ≤ e ∧ e < o.base + 128 * o.m then 0 else (s.spar i).accGet e) ∧
      u.dome = s.dome))

/-- The tackle engines (06 R168, R175, R176, R186, R137, R138): an operation starts when none is in progress; the list of a
`tk.rowfeed` becomes a pending row list; an index outside its bound ends its operation before any access of its block, with
INDEX_FAULT and the block's number; a bank adds the head of its conflict queue to its entry.
Work counters (06 R191-R195, Table 6-5; 10 R314): once its dome's port has granted its transfer, the spar's oldest counter operation
is performed. A claim answers the counter's epoch with the next index, or with all ones once every index is claimed; a query leaves
the counter as it is; a reset starts the next epoch with its start and count; a completion answers 2 for another epoch, 3 for an index
not claimed, 1 for one completed before, and else 0, one more being completed. The result reaches s[D] in order. -/
def Obligations.TackleWork : Prop :=
  ((∀ (s : State) (i : Nat) o r, s.live = true → (s.spar i).tackle = none → (s.spar i).tackleQ = o :: r → o.n ≠ 0 →
    exec (.tackleOperationStart i) s = .next ((s.modSpar i fun x => { x with tackleQ := r, tackle := some { op := o } }).odAdd 0
      (0x2410 + i / 128) 1 1)) ∧
  (∀ (s : State) (i : Nat) r, s.live = true → (s.spar i).tackle = some r → r.op.op = 6 → r.op.fmode = false → r.block = 0 → r.reqs = [] →
    0 < r.op.n → r.op.n ≤ 4096 →
    ∃ u l, exec (.indexBlockValidated i) s = .next u ∧ (u.spar i).rowLists = (s.spar i).rowLists ++ [l] ∧ (u.spar i).tackle = none ∧
      l.idx = (List.range r.op.n).map (listIdx (s.spar i) r.op) ∧ l.bundle = r.op.bundle ∧ (u.spar i).scratch = (s.spar i).scratch) ∧
  (∀ (s : State) (i : Nat) r v, s.live = true → (s.spar i).run = .running → (s.spar i).tackle = some r → r.op.op ≠ 6 → r.reqs = [] →
    r.block < r.op.blocks → firstBad r.op.bound (blockIdx (s.spar i) r.op r.block) = some v →
    ∃ n, exec (.indexBlockValidated i) s = .next ((raised s n).modSpar i fun x => stoppedSpar { x with tackle := none }) ∧
      isSparRecord n i 0x0103 r.op.bundle 6 0 r.block (ofSigned 64 v) (s.spar i).phase) ∧
  (∀ (s : State) (i bank : Nat) r rs, s.live = true → mapGet [] (s.spar i).banks bank = r :: rs → ∃ u,
    exec (.conflictQueueServe i bank) s = .next u ∧ (u.spar i).accGet r.entry = f32Add ((s.spar i).accGet r.entry) r.val ∧
    (∀ e, e ≠ r.entry → (u.spar i).accGet e = (s.spar i).accGet e) ∧ (u.spar i).scratch = (s.spar i).scratch)) ∧
  ((∀ (s : State) (i : Nat) c r, s.live = true → (s.spar i).claims = c :: r → c.performed = false →
    portOpen s i [(c.ctr / 4096 * 2 ^ 37 + domeBytes, 1)] →
    let k := s.counter c.ctr
    let ix := c.a.toNat % 2 ^ 40
    let code : Nat := if c.a.toNat / 2 ^ 40 ≠ k.epoch then 2 else if ix < k.start ∨ k.next ≤ ix - k.start then 3
      else if ix - k.start ∈ k.ledger then 1 else 0
    ∃ u c', exec (.workCounterOp i) s = .next u ∧ (u.spar i).claims = c' :: r ∧ c'.performed = true ∧ c'.dest = c.dest ∧ c'.refused = c.refused ∧
      (∀ n, n ≠ c.ctr → u.counter n = s.counter n) ∧
      (c.op = .claim → u.counter c.ctr = (if k.next = k.count then k else { k with next := k.next + 1 }) ∧
        c'.result = BitVec.ofNat 64 (k.epoch * 2 ^ 40 + (if k.next = k.count then 0xFFFFFFFFFF else (k.start + k.next) % 2 ^ 40))) ∧
      (c.op = .query → u.counter c.ctr = k ∧ c'.result = BitVec.ofNat 64 (k.epoch * 2 ^ 40 + (k.completed * 2 ^ 16 + k.next))) ∧
      (c.op = .reset → u.counter c.ctr = { epoch := (k.epoch + 1) % 2 ^ 24, start := c.a.toNat, count := c.b.toNat } ∧
        c'.result = BitVec.ofNat 64 ((k.epoch + 1) % 2 ^ 24 * 2 ^ 40 + (k.next - k.completed))) ∧
      (c.op = .done → c'.result = BitVec.ofNat 64 code ∧
        u.counter c.ctr = if code = 0 then { k with ledger := setIns k.ledger (ix - k.start), completed := k.completed + 1 } else k)) ∧
  (∀ (s : State) (i : Nat) c r, s.live = true → (s.spar i).claims = c :: r → c.performed = true → c.refused = false →
    exec (.counterResultArrival i) s = .next (s.modSpar i fun x => ({ x with claims := r } : Spar).sset c.dest c.result)))

/-- Channels, retirement and fills (03 R84, R87, R92, R94): bytes reach an endpoint in the order sent; a complete transfer retires
in issue order, with DOME_UE if it met a poisoned line; a fill, its access granted, copies its bundles from dome into the instruction store. -/
def Obligations.TransferEvents : Prop :=
  (∀ (s : State) (i e n : Nat), s.live = true → (s.spar i).paused = false → (s.spar i).xfers = [] →
    ∃ u, exec (.channelBytesArrive i e n) s = .next u ∧
      mapGet [] (u.spar i).endpoints e = mapGet [] (s.spar i).endpoints e ++ (mapGet [] (s.spar i).inflight e).take n ∧
      mapGet [] (u.spar i).inflight e = (mapGet [] (s.spar i).inflight e).drop n) ∧
  (∀ (s : State) (i : Nat) t r, s.live = true → (s.spar i).xfers = t :: r → t.done = true → (∀ v ∈ r, v.settled = true) → t.ue = none →
    t.status = 0 → exec (.transferRetire i) s = .next (s.modSpar i fun x => { x with xfers := r })) ∧
  (∀ (s : State) (i : Nat) t r a, s.live = true → (s.spar i).run = .running → (s.spar i).xfers = t :: r → t.done = true →
    (∀ v ∈ r, v.settled = true) → t.ue = some a →
    ∃ n, exec (.transferRetire i) s = .next ((raised s n).modSpar i fun x => stoppedSpar { x with xfers := r }) ∧
      isSparRecord n i 0x0301 t.bundle 7 0 0 a (s.spar i).phase) ∧
  (∀ (s : State) (i : Nat) f, s.live = true → (s.spar i).fill = some f → s.poison = [] → portOpen s i [(f.da, 128 * f.count)] →
    ∃ u, exec (.ifillComplete i) s = .next u ∧ (u.spar i).fill = none ∧ u.dome = s.dome ∧
      (∀ k < 128 * f.count, memByte (u.spar i).istore k = memByte s.dome (f.da + k)) ∧
      (∀ k, 128 * f.count ≤ k → memByte (u.spar i).istore k = memByte (s.spar i).istore k))

/-! Jobs and pruning (03, 06). -/

/-- The start of a job (03 R84-R86, R190): with its read of the image table granted, the table valid and every entry valid, the job state becomes 1 and the spars
with a bundle count start: every register zero, bundle 0, no loop, no accumulator region, no channel entry, phase count zero,
their fill outstanding; their memories keep their contents. No started spar can issue before its fill completes.
When every started spar has filled its store (03 R85, R99), each runs and latches the partition's step number; before that
nothing happens.
The stop of a job by its command (03 R105): the job state becomes 3; every started spar that has not halted stops, and keeps
its registers. -/
def Obligations.JobLifecycle : Prop :=
  (∀ (s : State) (q val tok : Nat), s.served = true → s.present q = true → s.jobRuns q = false → s.startFenced q = false →
    s.tableBad q (s.odGet q 0x2020 1) = false → s.poison = [] → portOpen s manageUnit (s.tableRanges q) →
    (∀ i ∈ s.sparsOf q, (s.imageEntry (s.odGet q 0x2020 1) i).2 ≠ 0 →
      s.absent i = false ∧ s.entryBad q (s.imageEntry (s.odGet q 0x2020 1) i) = false) →
    ∃ u, exec (.startJob q val tok) s = .next u ∧ u.odGet q 0x2020 4 = 1 ∧ (u.part q).jobNo = BitVec.ofNat 32 val ∧ u.dome = s.dome ∧
      ∀ i ∈ s.sparsOf q, (s.imageEntry (s.odGet q 0x2020 1) i).2 ≠ 0 →
        i ∈ (u.part q).started ∧ (u.spar i).run = .filling ∧ u.canIssue i = false ∧
        (u.spar i).fill = some { da := (s.imageEntry (s.odGet q 0x2020 1) i).1, count := (s.imageEntry (s.odGet q 0x2020 1) i).2 } ∧
        (∀ r, (u.spar i).sget r = 0 ∧ (u.spar i).aget r = 0 ∧ (u.spar i).pget r = 0 ∧ (u.spar i).mget r = 0 ∧ (u.spar i).vget r = 0 ∧
          (u.spar i).lget r = 0 ∧ (u.spar i).tget r = 0 ∧ (u.spar i).chan r = 0 ∧ (u.spar i).accGet r = 0) ∧
        (u.spar i).pc = 0 ∧ (u.spar i).loops = [] ∧ (u.spar i).regions = [] ∧ (u.spar i).phase = 0 ∧
        (u.spar i).scratch = (s.spar i).scratch ∧ (u.spar i).istore = (s.spar i).istore) ∧
  ((∀ (s : State) (q : Nat), s.live = true → s.jobRuns q = true → s.filled q = true → (s.part q).started ≠ [] → (s.part q).started.Nodup →
    ∃ u, exec (.jobFillComplete q) s = .next u ∧
      ∀ i, u.spar i = if i ∈ (s.part q).started then
        { s.spar i with run := .running, step := BitVec.ofNat 64 (s.odGet q 0x6400 3) } else s.spar i) ∧
  (∀ (s : State) (q i : Nat), s.live = true → i ∈ (s.part q).started → (s.spar i).fill ≠ none → exec (.jobFillComplete q) s = .next s)) ∧
  (∀ (s : State) (q val tok : Nat), s.served = true → s.present q = true → s.jobRuns q = true → (s.part q).started.Nodup →
    ∃ u, exec (.stopJob q val tok) s = .next u ∧ u.odGet q 0x2020 4 = 3 ∧
      ∀ i, u.spar i = if i ∈ (s.part q).started then
        { s.spar i with run := if (s.spar i).run = .halted then .halted else .stopped, waiting := false, barrier := none } else s.spar i)

/-- Clear commands (02 R51, 04 R149, 06 R198, R205): the counters of the named slot, of every slot when the value is 0xFFFF, or of the
partition's towers, become zero; no other object changes before the completion notice is sent, and the cleared counters read zero
after it.
The clear-routing-counters command (07 R243): the counters of the named slot, or of every slot when the value is 0xFFFF, read
zero afterwards; no other object changes before the completion notice is sent. -/
def Obligations.CounterClears : Prop :=
  (∀ (s : State) (q val tok : Nat), s.served = true → s.present q = true →
    (∀ c obj base n, (c, obj, base, n) ∈ [((Instr.clearRangeCounters : Nat → Nat → Nat → Instr), 0x2120, 0x2200, 5),
        (.clearPruningCounters, 0x2501, 0x2600, 10)] → val < 256 ∨ val = 0xFFFF →
      ∃ z : State, exec (c q val tok) s = .next (z.complete q obj 0 0 tok val []) ∧
        (∀ v < 256, val = v ∨ val = 0xFFFF → ∀ k, 1 ≤ k → k ≤ n →
          z.odGet q (base + v) k = 0 ∧ (z.complete q obj 0 0 tok val []).odGet q (base + v) k = 0) ∧
        (∀ key, (∀ v < 256, val = v ∨ val = 0xFFFF → ∀ k, 1 ≤ k → k ≤ n → key ≠ odKey q (base + v) k) → ∀ d, mapGet d z.od key = mapGet d s.od key) ∧
        z.dome = s.dome ∧ z.spars = s.spars) ∧
    (∀ c obj base n, (c, obj, base, n) ∈ [((Instr.clearArrayCounters : Nat → Nat → Nat → Instr), 0x2301, 0x2310, 9),
        (.clearTackleCounters, 0x2401, 0x2410, 11)] →
      ∃ z : State, exec (c q val tok) s = .next (z.complete q obj 0 0 tok val []) ∧
        (∀ t ∈ s.towersOf q, ∀ k, 1 ≤ k → k ≤ n →
          z.odGet 0 (base + t) k = 0 ∧ (z.complete q obj 0 0 tok val []).odGet 0 (base + t) k = 0) ∧
        (∀ key, (∀ t ∈ s.towersOf q, ∀ k, 1 ≤ k → k ≤ n → key ≠ odKey 0 (base + t) k) → ∀ d, mapGet d z.od key = mapGet d s.od key) ∧
        z.dome = s.dome)) ∧
  (∀ (s : State) (q val tok : Nat), s.served = true → s.present q = true → val < 256 ∨ val = 0xFFFF →
    ∃ z : State, exec (.clearRoutingCounters q val tok) s = .next (z.complete q 0x5003 0 0 tok val []) ∧
      (∀ v < 256, val = v ∨ val = 0xFFFF → ∀ k, 1 ≤ k → k ≤ 16 →
        z.odGet q (0x5100 + v) k = 0 ∧ (z.complete q 0x5003 0 0 tok val []).odGet q (0x5100 + v) k = 0) ∧
      (∀ key, (∀ v < 256, val = v ∨ val = 0xFFFF → ∀ k, 1 ≤ k → k ≤ 16 → key ≠ odKey q (0x5100 + v) k) → ∀ d, mapGet d z.od key = mapGet d s.od key) ∧
      z.dome = s.dome ∧ z.spars = s.spars)

/-- Pruning requests (06 R199, R200): the command hands its record's address and slot to the tower's unit, which serves one
request at a time, its dome accesses granted; a request whose descriptors are not acceptable writes nothing and completes with status 1;
any other has every tile of its target written.
Sparse selection (04 R128, 06 R201): of a group of magnitudes in order, the number kept is the group's share, every kept one is
at least as large as every dropped one, and a kept one that equals a dropped one comes first. -/
def Obligations.PruningRequests : Prop :=
  ((∀ (s : State) (q val tok : Nat), s.served = true → s.present q = true → (s.part q).upd = none → val / 256 ∉ s.pruneBusy →
    val / 256 ∈ s.towersOf q → s.towerOut 0xA (val / 256) = false →
    exec (.startPruning q val tok) s = .next { s with
      prune := mapSet {} s.prune (val / 256) { q := q, addr := s.odGet q 0x2500 1, slot := val % 256, boom := false, token := tok }
      pruneBusy := setIns s.pruneBusy (val / 256) }) ∧
  (∀ (s : State) (t : Nat) r, s.live = true → t ∈ s.pruneBusy → s.towerOut 0xA t = false → mapGet {} s.prune t = r → r.boom = false →
    s.poison = [] → portOpen s (pruneUnit t) (s.pruneRanges r) →
    s.pruneValid r.q (Desc.ofBytes (memRead s.dome r.addr 64)) (Desc.ofBytes (memRead s.dome (r.addr + 64) 64)) = false →
    (s.part r.q).upd = none →
    exec (.pruningRequestComplete t) s = .next ((({ s.takeAsk (pruneUnit t) [(r.addr, 128)] with
      prune := mapDel s.prune t, pruneBusy := setDel s.pruneBusy t } : State).dropAsks (pruneUnit t) r.q).complete
      r.q 0x2500 2 1 r.token (t * 256 + r.slot) [])) ∧
  (∀ (s : State) (t : Nat) r src dst, s.live = true → t ∈ s.pruneBusy → s.towerOut 0xA t = false → mapGet {} s.prune t = r → r.boom = false →
    s.poison = [] → portOpen s (pruneUnit t) (s.pruneRanges r) →
    src = Desc.ofBytes (memRead s.dome r.addr 64) → dst = Desc.ofBytes (memRead s.dome (r.addr + 64) 64) →
    s.pruneValid r.q src dst = true → (s.part r.q).upd = none →
    ∃ u, exec (.pruningRequestComplete t) s = .next u ∧ t ∉ u.pruneBusy ∧
      u.dome = ((List.range dst.tiles).foldl (fun v k => (v.pruneTile r src dst (s.odGet r.q 0x6400 3) k).1)
        (s.takeAsk (pruneUnit t) (s.pruneRanges r))).dome)) ∧
  (∀ n ms, n ≤ ms.length → (keptOf n ms).length = n ∧ (keptOf n ms).Nodup ∧
    ∀ i ∈ keptOf n ms, ∀ j, j < ms.length → j ∉ keptOf n ms → ms.getD j 0 < ms.getD i 0 ∨ (ms.getD j 0 = ms.getD i 0 ∧ i < j))

/-! Dome memory (10). -/

/-- A read of a dome line (10 R306-R309): a clean line changes nothing; an error no single die confines leaves the line poisoned;
a management read of it counts it and raises DOME_UE with the line's address.
An error confined to one die (10 R306-R308): corrected and counted, the line keeping its bytes; the first of its die in the
scrub period raises DOME_CE, which carries the dome and the die; at the threshold the die is erased unless one is.
Patrol scrub (10 R307): the pass reads line after line, each read granted to the management requester, and is counted at its last; a new period, ended or set by a write of at
least 3,600 s, starts the counts of the dome's dies again and no other dome's. -/
def Obligations.DomeLines : Prop :=
  (∀ (s : State) (line : Nat), s.live = true → addrExists (64 * line) = true → mapGet false s.poison line = false →
    (∀ reader, exec (.domeLineRead line .clean reader) s = .next s) ∧
    (∀ err reader, err = .other ∨ (∃ a b, err = .twoDies a b) → reader ≠ 6 →
      exec (.domeLineRead line err reader) s = .next (s.setPoison line true)) ∧
    (∀ err, err = .other ∨ (∃ a b, err = .twoDies a b) → ∃ n,
      exec (.domeLineRead line err 6) s = .next (raised ((s.setPoison line true).odAdd 0 (0x3020 + domeOf (64 * line)) 2 1) n) ∧
      n.code = 0x0301 ∧ n.source = unitId 4 (domeOf (64 * line)) ∧ fieldAt n.payload 8 8 = 64 * line)) ∧
  (∀ (s : State) (line k reader : Nat), s.live = true → addrExists (64 * line) = true → mapGet false s.poison line = false →
    let d := domeOf (64 * line)
    let er := s.odGet 0 (0x3020 + d) 3
    let key := 16 * d + k
    let n := mapGet 0 s.eccCnt key + 1
    er = 0xFF ∨ er = k →
    ∃ u, exec (.domeLineRead line (.oneDie k) reader) s = .next u ∧ u.dome = s.dome ∧ u.poison = s.poison ∧
      u.odGet 0 (0x3020 + d) 1 = (s.odGet 0 (0x3020 + d) 1 + 1) % 2 ^ 64 ∧ mapGet 0 u.eccCnt key = n ∧
      (mapGet false s.ceSeen key = true → u.faultQ = s.faultQ) ∧
      (mapGet false s.ceSeen key = false → ∃ r, u.faultQ = s.faultQ ++ [r] ∧ r.code = 0x0302 ∧ r.source = unitId 4 d ∧
        r.vals = [d, k]) ∧
      u.odGet 0 (0x3020 + d) 3 = if s.odGet 0 (0x3020 + d) 4 ≤ n ∧ er = 0xFF then k else er) ∧
  ((∀ (s : State) (d : Nat), s.live = true →
    let l := d * 2 ^ 31 + mapGet 0 s.scrubAt d
    let v := s.takeAsk manageUnit [(64 * l, 64)]
    mapGet false s.poison l = false → portOpen s manageUnit [(64 * l, 64)] →
    exec (.patrolScrubRead d .clean) s = .next (if mapGet 0 s.scrubAt d + 1 = domeLines
      then ({ v with scrubAt := mapSet 0 s.scrubAt d 0 } : State).odAdd 0 (0x3020 + d) 6 1
      else { v with scrubAt := mapSet 0 s.scrubAt d (mapGet 0 s.scrubAt d + 1) })) ∧
  (∀ (s : State) (d : Nat), s.live = true → ∃ u, exec (.scrubPeriodEnd d) s = .next u ∧ u.dome = s.dome ∧
    (∀ k, k / 16 = d → mapGet 0 u.eccCnt k = 0 ∧ mapGet false u.ceSeen k = false) ∧
    (∀ k, k / 16 ≠ d → mapGet 0 u.eccCnt k = mapGet 0 s.eccCnt k ∧ mapGet false u.ceSeen k = mapGet false s.ceSeen k)) ∧
  (∀ (s : State) (d val : Nat), s.served = true → 3600 ≤ val → val < 2 ^ 32 → ∃ u, exec (.scrubPeriodWrite d val) s = .next u ∧
    u.odGet 0 (0x3020 + d) 5 = val ∧ mapGet 0 u.scrubAt d = 0 ∧ (∀ k, k / 16 = d → mapGet 0 u.eccCnt k = 0)) ∧
  (∀ (s : State) (d val : Nat), val < 3600 → exec (.scrubPeriodWrite d val) s = .next s))

/-- The order of grants (10 R317): of the requesters that ask and are not cut off, one of the lowest rank is granted, and none only
where there is none; the holder of its rank's turn keeps it while its weight is not used up.
Writes of an arbiter's objects (10 R315, R320, R321): a turn table is stored whole, its ports keeping the old one until their
next slot without a lock; a rank, weight or limit that fits is stored, another is refused; the re-enable command clears its
requester's cut-off; a window segment is stored while the decoder is not committed and the segments keep R315.
An arbiter's faults (10 R318, R320): a request that has waited longer than the limit raises STARVE, once until the requester's next
grant, which carries the edge, the requester, its rank and the wait; a lock held longer than the hold limit ends, its owner is cut off
at the edge, its transfers there complete without effect, and GRANT_OVERHOLD is raised with the edge and the requester. -/
def Obligations.GrantOrder : Prop :=
  (∀ (s : State) (e : Nat) asks, (∀ r ∈ asks, r < 16) →
    (pickGrant s e asks = none ↔ ∀ r ∈ asks, s.cutOff e r = true) ∧
    ∀ r g, pickGrant s e asks = some (r, g) →
      r ∈ asks ∧ s.cutOff e r = false ∧ (∀ r' ∈ asks, s.cutOff e r' = false → s.rankOf e r ≤ s.rankOf e r') ∧
      mapGet 0 g.turn (s.rankOf e r) = r ∧
      (let t := mapGet 0 (s.edge e).turn (s.rankOf e r)
       t ∈ asks → s.cutOff e t = false → s.rankOf e t = s.rankOf e r → mapGet 0 (s.edge e).run (s.rankOf e r) < s.weightOf e t →
         r = t ∧ mapGet 0 g.run (s.rankOf e r) = mapGet 0 (s.edge e).run (s.rankOf e r) + 1)) ∧
  ((∀ (s : State) (t : Nat) data, s.served = true → turnTableOk data = true → t < 8 → ∃ u, exec (.turnTableWrite t false data) s = .next u ∧
    u.blobGet 0 (0x3010 + t) 0 = data ∧ (∀ d, d = 2 * t ∨ d = 2 * t + 1 → (u.homeOf d).pos = (s.homeOf d).pos ∧
      (u.homeOf d).table = some ((s.homeOf d).table.getD (s.blobGet 0 (0x3010 + t) 0)))) ∧
  (∀ (s : State) (t : Nat) data, s.served = true → turnTableOk data = true → ∃ u, exec (.turnTableWrite t true data) s = .next u ∧
    u.blobGet 0 (0x3018 + t) 0 = data) ∧
  (∀ (s : State) (e sub val : Nat), s.served = true → settingFits e sub val = true → sub < 16 → ∃ u,
    exec (.arbiterSettingWrite e sub val) s = .next u ∧ u.odGet 0 (0x3200 + e) sub = val ∧ u.setting e sub =
      (if (s.edge e).lock.isSome ∨ (s.edge e).inUse.any (fun x => x.1 = sub) then s.setting e sub else val)) ∧
  (∀ (s : State) (e sub val : Nat), settingFits e sub val = false → exec (.arbiterSettingWrite e sub val) s = .next s) ∧
  (∀ (s : State) (e val tok : Nat), s.served = true → edgeHas e val = true → val < 16 → ∃ u, exec (.reEnable e val tok) s = .next u ∧
    u.cutOff e val = false ∧ ∀ r, r ≠ val → u.cutOff e r = s.cutOff e r) ∧
  (∀ (s : State) (i val : Nat), s.served = true → s.cxl.hdmCommitted = false →
    segmentsOk (s.towerMask 0) (s.segments.set i (segmentOf (val / 2 ^ 13 * 2 ^ 13 % 2 ^ 32))) = true →
    exec (.windowSegmentWrite i val) s = .next (s.odSet 0 0x3100 (i + 1) (val / 2 ^ 13 * 2 ^ 13 % 2 ^ 32))) ∧
  (∀ (s : State) (i val : Nat), s.cxl.hdmCommitted = true → exec (.windowSegmentWrite i val) s = .next s)) ∧
  ((∀ (s : State) (e r wait : Nat), s.live = true → edgeHas e r = true → s.setting e 1 < wait → wait = s.waitOf e r →
    r ∉ (s.edge e).starved → ∃ u n,
    exec (.starve e r wait) s = .next u ∧ u.faultQ = s.faultQ ++ [n] ∧ n.code = 0x0311 ∧ n.source = unitId 7 e ∧
    n.vals = [e, r, s.rankOf e r, wait] ∧
    r ∈ (u.edge e).starved ∧ u.odGet 0 (0x3200 + e) 5 = (s.odGet 0 (0x3200 + e) 5 + 1) % 2 ^ 64) ∧
  (∀ (s : State) (e r wait : Nat), r ∈ (s.edge e).starved → exec (.starve e r wait) s = .next s) ∧
  (∀ (s : State) (e r : Nat), s.live = true → (s.edge e).lock = some r → s.setting e 2 < (s.edge e).held → 0 < r → r < 8 → ∃ u n,
    exec (.grantOverhold e) s = .next u ∧ (u.edge e).lock = none ∧ u.cutOff e r = true ∧ u.faultQ = s.faultQ ++ [n] ∧ n.code = 0x0312 ∧
    n.vals = [e, r]) ∧
  (∀ (s : State) (e r i : Nat) t, s.live = true → (s.edge e).lock = some r → s.setting e 2 < (s.edge e).held → e < 16 → i < 1024 →
    r = sparRequester i e → (∀ j, j ≠ i → (s.spar j).xfers = []) → (s.spar i).xfers = [t] → t.kind = .dld ∨ t.kind = .dst →
    t.done = false → t.moved < t.len → domeOf t.da = e → ∃ u n,
    exec (.grantOverhold e) s = .next u ∧ (u.edge e).lock = none ∧ u.cutOff e r = true ∧ u.faultQ = s.faultQ ++ [n] ∧ n.code = 0x0312 ∧
    n.vals = [e, r] ∧ (u.spar i).xfers = [{ t with done := true, refused := true }] ∧ u.dome = s.dome) ∧
  (∀ (s : State) (e : Nat), (s.edge e).held ≤ s.setting e 2 → exec (.grantOverhold e) s = .next s))

/-- Granted slots of transfers (10 R300, R317): a slot granted to a spar's `tx.dld` moves the bytes of the next slot from dome to
scratch, one granted to its plain `tx.dst` moves them from scratch to dome; no other byte of either memory changes.
Accesses that move as one event (10 R300, R305, R317, R320, R322): an access that no slot is granted to yet is asked for and does
nothing else; that of a unit cut off at its port completes without effect; a slot granted to a walker, a pruning unit, a spire engine
or the management cores is one slot less to be granted to the oldest of its asks, is counted, and moves no byte.
Atomic elements (10 R311, Table 10-5): what a line holds after an atomic, element by element, by the code. -/
def Obligations.DomeTransfers : Prop :=
  (∀ (s : State) (d i r : Nat) (asks : BitVec 16) mark g t, s.boot = .ready → d < 16 → s.edgeBlocked d = false → s.cxl.tracker = [] →
    s.domeQ = [] → s.poison = [] → (s.edge d).lock = none →
    portGrant s d asks = some (r, g) → r = 0 ∨ 8 ≤ r → (s.takeWrites d asks).turnSpar d r = some i → s.waitingAt i d = some t → (s.spar i).xfers = [t] → t.lock = false →
    t.code = 0 → s.sparCutOff i t.da = false → t.da % 64 = 0 → t.len % 64 = 0 → t.moved % 64 = 0 →
    ∃ u, exec (.edgeArbitrate d asks mark) s = .next u ∧
      (t.kind = .dld → u.dome = s.dome ∧
        (∀ k < t.slotBytes, memByte (u.spar i).scratch (t.sa + t.moved + k) = memByte s.dome (t.da + t.moved + k)) ∧
        (∀ a, a < t.sa + t.moved ∨ t.sa + t.moved + t.slotBytes ≤ a →
          memByte (u.spar i).scratch a = memByte (s.spar i).scratch a)) ∧
      (t.kind = .dst → (u.spar i).scratch = (s.spar i).scratch ∧
        (∀ k < t.slotBytes, memByte u.dome (t.da + t.moved + k) = memByte (s.spar i).scratch (t.sa + t.moved + k)) ∧
        (∀ a, a < t.da + t.moved ∨ t.da + t.moved + t.slotBytes ≤ a → memByte u.dome a = memByte s.dome a))) ∧
  ((∀ (s : State) unit q rs no k, portNeed rs ≠ [] → (∀ d, s.domeHeld d = false) → s.cxl.tracker = [] →
    (s.unitCut unit rs = true → s.portGate unit q rs no k = no (s.takeAsk unit rs)) ∧
    (s.unitCut unit rs = false → s.askFor unit rs = none →
      s.portGate unit q rs no k = { s with asks := s.asks ++ [{ unit := unit, q := q, rs := rs, left := portNeed rs }] })) ∧
  (∀ (s : State) (d r : Nat) (asks : BitVec 16) mark g a, s.boot = .ready → d < 16 → s.edgeBlocked d = false → s.cxl.tracker = [] →
    s.domeQ = [] → (s.edge d).lock = none → portGrant s d asks = some (r, g) → r ∈ [1, 2, 3, 6] →
    (s.takeWrites d asks).reqAsk d r = some a →
    ∃ u, exec (.edgeArbitrate d asks mark) s = .next u ∧
      u.asks = s.asks.map (fun b => if b = a then { a with left := takeSlot d a.left } else b) ∧
      u.odGet 0 (0x3200 + d) 7 = (s.odGet 0 (0x3200 + d) 7 + 1) % 2 ^ 64 ∧ u.dome = s.dome ∧ u.spars = s.spars ∧
      ((u.edge d).lock = if mark then some r else none))) ∧
  ((∀ m bs : Bytes, m.length = 64 → bs.length = 64 → (atomicLine 1 m bs).length = 64 ∧ ∀ j < 16,
    fieldAt (atomicLine 1 m bs) (4 * j) 4 = (fieldAt m (4 * j) 4 + fieldAt bs (4 * j) 4) % 2 ^ 32) ∧
  (∀ m bs : Bytes, m.length = 64 → bs.length = 64 → ∀ j < 8,
    fieldAt (atomicLine 2 m bs) (8 * j) 8 = (fieldAt m (8 * j) 8 + fieldAt bs (8 * j) 8) % 2 ^ 64) ∧
  (∀ m bs : Bytes, m.length = 64 → bs.length = 64 → ∀ j < 16,
    fieldAt (atomicLine 5 m bs) (4 * j) 4 = min (fieldAt m (4 * j) 4) (fieldAt bs (4 * j) 4)) ∧
  (∀ m bs : Bytes, m.length = 64 → bs.length = 64 → ∀ j < 8,
    fieldAt (atomicLine 0xB m bs) (8 * j) 8 = fieldAt m (8 * j) 8 ^^^ fieldAt bs (8 * j) 8))

/-! The Shroud fabric (11). -/

/-- Training (11 R329, R345): the first TRAIN is kept; the second identical one ends training, with SEQ at 0, credits at the pools
exchanged, and the state the peer's identity gives. A peer that trains again, or light that is lost, takes the port down, the first
with LINK_DOWN, cause 3, and this device's own TRAIN sent; light that returns trains it.
A port's command (11 R355, R338): enabled it trains, ending a hold-down; disabled it goes to state 0. The fabric is ready at the
latest when its wait ends (16 R478). -/
def Obligations.LinkStates : Prop :=
  ((∀ (s : State) (p old : Nat) m, s.boot = .ready → s.portState p = 1 → m.ver = 1 → unitId 5 p ∉ s.testing → (s.port p).lastTrain ≠ some m →
    exec (.train p m old) s = .next (s.modPort p fun t => { t with lastTrain := some m })) ∧
  (∀ (s : State) (p old : Nat) m, s.boot = .ready → s.portState p = 1 → m.ver = 1 → unitId 5 p ∉ s.testing → (s.port p).lastTrain = some m →
    ∃ u, exec (.train p m old) s = .next u ∧ (u.port p).txSeq = 0 ∧ (u.port p).rxSeq = 0 ∧ (u.port p).consumed = [] ∧
      (u.port p).ackDue = [] ∧ u.odGet 0 (0x4010 + p) 3 = m.lid ∧ u.odGet 0 (0x4010 + p) 4 = m.port ∧
      u.portState p = (if m.lid = s.ownLid then 5
        else if (s.odGet 0 (0x4010 + p) 5).testBit 31 = true ∧
          (s.odGet 0 (0x4010 + p) 5 / 256 % 65536 ≠ m.lid ∨ s.odGet 0 (0x4010 + p) 5 % 256 ≠ m.port) then 6 else 2)) ∧
  (∀ (s : State) (p old : Nat), s.boot = .ready → s.portUp p = true → (s.port p).fenced = false → s.dark p = false →
    (s.port p).trains - old + 1 < 5 →
    ∃ u n m, exec (.peerTrainingLost p old) s = .next u ∧ u.portState p = 1 ∧ (u.port p).replay = [] ∧
      u.faultQ = s.faultQ ++ [n] ∧ n.code = 0x0402 ∧ n.source = unitId 5 p ∧ n.vals.head? = some 3 ∧
      u.out = s.out ++ [m, m] ∧ m.kind = 12 ∧ m.addr = p) ∧
  (∀ (s : State) (k p : Nat), s.boot = .ready → p / 3 = k → s.portUp p = true →
    ∃ u, exec (.laserLoss k) s = .next u ∧ u.portState p = 4 ∧ k ∈ u.laserDark) ∧
  (∀ (s : State) (k p old : Nat), s.boot = .ready → p / 3 = k → s.portState p = 4 → (s.port p).fenced = false →
    (s.port p).trains - old + 1 < 5 →
    ∃ u, exec (.laserRestore k old) s = .next u ∧ u.portState p = 1 ∧ k ∉ u.laserDark)) ∧
  ((∀ (s : State) (p tok old : Nat), s.served = true → s.portState p = 3 → (s.port p).fenced = false → s.dark p = false →
    ∃ u, exec (.portEnable p 1 tok old) s = .next u ∧ u.portState p = 1) ∧
  (∀ (s : State) (p tok : Nat), s.served = true → (s.port p).fenced = false →
    ∃ u, exec (.portDisable p 0 tok) s = .next u ∧ u.portState p = 0) ∧
  (∀ (s : State), s.boot = .ready → ∃ u, exec .fabricReadyTimeout s = .next u ∧ (u.odGet 0 0x0011 0).testBit 3 = true))

/-- Packets received (11 R326, R327, R331, R334, R335): the packet expected next, all its flits good, joins its lane's ingress buffer and
is acknowledged; any other good packet is discarded and its credits return, and makes a STATUS due only when it is within 32,768 behind
the one expected; one that fails its CRC is discarded and, once for each packet expected, asked for again. The codewords corrected are
counted.
Acknowledgement and retry (11 R332-R336): an ACK frees the packets it covers and credits return; without an ACK in time every
unacknowledged packet, from the oldest on, is to be sent again, each once the port holds its credits, which is a retry of that packet; the
third failed retry fails the link with LINK_DOWN, cause 1; an ACK past its deadline raises FABRIC_DEADLINE once, with SEQ and delay.
Credit audits (11 R354): an idle port sends an AUDIT and holds its packets; an AUDIT is answered with the occupied and returned
credits of each lane; the peer's answer that balances every lane ends the audit; a lane that does not balance raises CREDIT_LEAK, which
carries the lane, the pool and the three parts of the balance, and the port trains again. -/
def Obligations.LinkProtocol : Prop :=
  ((∀ (s : State) (p : Nat) errs data ctl crc par ws, ws = lineWords errs data ctl crc par → s.boot = .ready → s.portUp p = true → arrivalGood ws = true → arrivalSeq ws = (s.port p).rxSeq →
    laneOf (arrivalPacket ws).kind = some (arrivalPacket ws).vl →
    let k := arrivalPacket ws
    ∃ u, exec (.packetArrival p errs data ctl crc par) s = .next u ∧
      mapGet [] (u.port p).ingress k.vl = mapGet [] (s.port p).ingress k.vl ++ [{ seq := (s.port p).rxSeq, pkt := k }] ∧
      (u.port p).rxSeq = ((s.port p).rxSeq + 1) % 65536 ∧ (u.port p).ackDue = (s.port p).ackDue ++ [(s.port p).rxSeq] ∧
      u.odGet 0 (0x4010 + p) 8 = (s.odGet 0 (0x4010 + p) 8 + 1) % 2 ^ 64 ∧
      u.odGet 0 (0x4010 + p) 0xA = (s.odGet 0 (0x4010 + p) 0xA + wordsCorrected ws) % 2 ^ 64) ∧
  (∀ (s : State) (p : Nat) errs data ctl crc par ws, ws = lineWords errs data ctl crc par → s.boot = .ready → s.portUp p = true → arrivalGood ws = true → arrivalSeq ws ≠ (s.port p).rxSeq →
    let k := arrivalPacket ws
    let behind := ((s.port p).rxSeq + 65536 - arrivalSeq ws % 65536) % 65536
    ∃ u, exec (.packetArrival p errs data ctl crc par) s = .next u ∧ (u.port p).ingress = (s.port p).ingress ∧ (u.port p).rxSeq = (s.port p).rxSeq ∧
      mapGet 0 (u.port p).returned k.vl = (mapGet 0 (s.port p).returned k.vl + packetFlits k) % 2 ^ 32 ∧
      ((u.port p).statusDue = true ↔ (s.port p).statusDue = true ∨ (1 ≤ behind ∧ behind ≤ 32768))) ∧
  (∀ (s : State) (p : Nat) errs data ctl crc par ws, ws = lineWords errs data ctl crc par → s.boot = .ready → s.portUp p = true → flitsOf 1 ws ≠ [] → arrivalGood ws = false →
    arrivalSeq ws = (s.port p).rxSeq →
    ∃ u m, exec (.packetArrival p errs data ctl crc par) s = .next u ∧ (u.port p).ingress = (s.port p).ingress ∧
      (u.port p).rxSeq = (s.port p).rxSeq ∧ (u.port p).nakFor = some (s.port p).rxSeq ∧ u.out = s.out ++ [m] ∧ m.kind = 12 ∧ m.addr = p)) ∧
  ((∀ (s : State) (p ack old : Nat) ret, s.boot = .ready → s.portUp p = true → (∀ r ∈ (s.port p).replay, r.due = false) →
    exec (.linkStatus p none ack ret old) s = .next (s.modPort p fun t =>
    { t with replay := t.replay.dropWhile fun r => seqAtOrBefore r.seq ack
             retSeen := ret.zipIdx.foldl (fun a x => mapSet 0 a x.2 (x.1 % 2 ^ 32)) t.retSeen })) ∧
  (∀ (s : State) (p old : Nat) r rs, s.boot = .ready → s.portUp p = true → (s.port p).replay = r :: rs → r.retries < 3 →
    ∃ u, exec (.ackTimeout p old) s = .next u ∧ u.portState p = 2 ∧
      (u.port p).replay.map (fun x => (x.seq, x.pkt)) = (s.port p).replay.map (fun x => (x.seq, x.pkt)) ∧
      (∀ k x y : Nat, ((s.port p).replay[k]?).map (·.retries) = some x → ((u.port p).replay[k]?).map (·.retries) = some y → y = x ∨ y = x + 1) ∧
      (packetFlits r.pkt ≤ available (s.port p) r.pkt.vl →
        (u.port p).replay.head? = some { r with due := false, retries := r.retries + 1 })) ∧
  (∀ (s : State) (p old : Nat) r rs, s.boot = .ready → s.portUp p = true → (s.port p).replay = r :: rs → r.retries = 3 →
    (s.port p).fenced = false → s.dark p = false → (s.port p).trains - old + 1 < 5 →
    ∃ u n, exec (.ackTimeout p old) s = .next u ∧ u.portState p = 1 ∧ u.faultQ = s.faultQ ++ [n] ∧ n.code = 0x0402 ∧
      n.vals.head? = some 1) ∧
  (∀ (s : State) (p seq delay : Nat), s.boot = .ready → seq ∈ (s.port p).ackDue → 1562 < delay →
    ∃ u n, exec (.fabricDeadline p seq delay) s = .next u ∧ (u.port p).ackDue = (s.port p).ackDue.erase seq ∧
      u.faultQ = s.faultQ ++ [n] ∧ n.code = 0x0403 ∧ n.vals = [seq, delay])) ∧
  ((∀ (s : State) (p : Nat), s.boot = .ready → s.portUp p = true → (s.port p).replay = [] → (s.port p).auditing = false →
    ∃ u m, exec (.auditTimer p) s = .next u ∧ (u.port p).auditing = true ∧ u.out = s.out ++ [m] ∧ m.kind = 12 ∧ m.addr = p ∧
      ∀ v, u.canSend p v = false) ∧
  (∀ (s : State) (p : Nat), s.boot = .ready → s.portUp p = true → exec (.audit p) s = .next { s with out := s.out ++ [
    { kind := 12, addr := p, data := lineBytes [controlFlit (padTo 8 [0x03] ++ laneWords (occupied (s.port p)) ++
        laneWords fun v => mapGet 0 (s.port p).returned v)], flag := 0 }] }) ∧
  (∀ (s : State) (p old : Nat) occ ret, s.boot = .ready → s.portUp p = true → (s.port p).auditing = true →
    (∀ v < 4, creditsOk (s.port p) occ ret v = true) →
    exec (.auditAnswer p occ ret old) s = .next (s.modPort p fun t => { t with auditing := false })) ∧
  (∀ (s : State) (p old v : Nat) occ ret, s.boot = .ready → s.portUp p = true → (s.port p).auditing = true →
    v < 4 → creditsOk (s.port p) occ ret v = false → (s.port p).fenced = false → s.dark p = false → (s.port p).trains - old + 1 < 5 →
    ∃ u, exec (.auditAnswer p occ ret old) s = .next u ∧ u.portState p = 1 ∧ ∃ n ∈ u.faultQ, n.code = 0x0401 ∧ n.source = unitId 5 p ∧
      n.vals = [v, mapGet 0 (s.port p).pools v, available (s.port p) v,
        (ret.getD v 0 + 2 ^ 32 - mapGet 0 (s.port p).retSeen v) % 2 ^ 32, occ.getD v 0]))

/-- Store and forward (11 R340, R343): a packet for this device leaves its ingress buffer for local delivery, its credits returning;
one for another device loses a hop and joins the egress queue of its route; one whose hops are spent is discarded and counted.
A route table entry is stored whole (R351, R355).
Remote accesses (11 R348, R349): a request that a window of its partition grants waits at its dome port; one that no window
grants touches no memory, is counted and answered; an answer completes its transfer, a read's data going to scratch. -/
def Obligations.PacketRouting : Prop :=
  ((∀ (s : State) (p v : Nat) r rs, s.boot = .ready → mapGet [] (s.port p).ingress v = r :: rs → r.stale = false → r.pkt.dlid = s.ownLid →
    r.pkt.kind ≠ 0x10 → s.standby = false → s.deliveryRoom r.pkt = true →
    ∃ u, exec (.packetForward p v) s = .next u ∧ u.delivery = s.delivery ++ [r.pkt] ∧ mapGet [] (u.port p).ingress v = rs ∧
      mapGet 0 (u.port p).returned v = (mapGet 0 (s.port p).returned v + packetFlits r.pkt) % 2 ^ 32) ∧
  (∀ (s : State) (p v k : Nat) r rs, s.boot = .ready → mapGet [] (s.port p).ingress v = r :: rs → r.pkt.dlid ≠ s.ownLid → r.pkt.hops ≠ 0 →
    s.routePort { r.pkt with hops := r.pkt.hops - 1 } none = some k → s.egressRoom k { r.pkt with hops := r.pkt.hops - 1 } = true →
    ∃ u, exec (.packetForward p v) s = .next u ∧ mapGet [] (u.port p).ingress v = rs ∧
      mapGet [] (u.port k).egress r.pkt.vl = mapGet [] (s.port k).egress r.pkt.vl ++ [{ r.pkt with hops := r.pkt.hops - 1 }]) ∧
  (∀ (s : State) (p v : Nat) r rs, s.boot = .ready → mapGet [] (s.port p).ingress v = r :: rs → r.pkt.dlid ≠ s.ownLid → r.pkt.hops = 0 →
    ∃ u, exec (.packetForward p v) s = .next u ∧ mapGet [] (u.port p).ingress v = rs ∧ u.delivery = s.delivery ∧
      u.odGet 0 0x4102 2 = (s.odGet 0 0x4102 2 + 1) % 2 ^ 64) ∧
  (∀ (s : State) (slot : Bool) (i mask : Nat), s.served = true → i < 256 →
    (s.blobGet 0 (if slot then 0x4101 else 0x4100) 0).length = 2048 →
    ∃ u, exec (.routeTableWrite slot i mask) s = .next u ∧
      fieldAt (u.blobGet 0 (if slot then 0x4101 else 0x4100) 0) (8 * i) 8 = mask % 2 ^ 36 ∧
      ∀ j < 256, j ≠ i → fieldAt (u.blobGet 0 (if slot then 0x4101 else 0x4100) 0) (8 * j) 8 =
        fieldAt (s.blobGet 0 (if slot then 0x4101 else 0x4100) 0) (8 * j) 8)) ∧
  ((∀ (s : State) k r, s.live = true → s.delivery = k :: r → k.kind = 0x20 ∨ k.kind = 0x21 → s.standby = false →
    s.present k.qdst = true → s.rangeInMap k.qdst (accessOf k).addr (accessOf k).len = true →
    (∃ w < 16, s.windowGrants (accessOf k) w = true) →
    exec (if k.kind = 0x20 then .remoteWriteRequest else .remoteReadRequest) s = .next { s with
      delivery := r
      domeQ := mapSet [] s.domeQ (domeOf (accessOf k).addr) (mapGet [] s.domeQ (domeOf (accessOf k).addr) ++
        [{ accessOf k with slots := slotsOf (accessOf k).addr (accessOf k).len }]) }) ∧
  (∀ (s : State) k r, s.live = true → s.delivery = k :: r → k.kind = 0x20 ∨ k.kind = 0x21 → s.standby = false →
    s.present k.qdst = true → s.rangeInMap k.qdst (accessOf k).addr (accessOf k).len = true →
    (∀ w < 16, s.windowGrants (accessOf k) w = false) →
    ∃ u, exec (if k.kind = 0x20 then .remoteWriteRequest else .remoteReadRequest) s = .next u ∧ u.dome = s.dome ∧ u.domeQ = s.domeQ ∧
      u.odGet k.qdst 0x4210 0 = (s.odGet k.qdst 0x4210 0 + 1) % 2 ^ 64) ∧
  (∀ (s : State) k r i n x, s.live = true → s.delivery = k :: r → k.kind = 0x22 →
    s.tierAnswer k = false → s.matchAnswer k.qdst k.slid (fieldAt k.payload 0 2) = some (i, n, x) → fieldAt k.payload 2 1 = 0 → x.kind = .fqRead →
    (s.spar i).xfers = [x] → n = 0 →
    ∃ u, exec .remoteAnswer s = .next u ∧ u.delivery = r ∧
      (∀ j < x.len, memByte (u.spar i).scratch (x.sa + j) = (k.payload.getD (16 + j) 0)) ∧
      (u.spar i).xfers = [{ x with done := true, status := 0, moved := x.len }]))

/-! The CXL port (12). -/

/-- Resets and links of the host port (12 R358-R360, 15 R462): PERST_N and a hot reset return the host registers and the ring to
their reset values and leave dome memory, the spars and the objects' memory alone; the link trains after PERST_N's release or a
hot reset, and comes up in CXL or in PCIe mode; a link lost unbidden trains again and raises HOST_LINK.
A function level reset (12 R359) returns BAR0's host registers, the MSI-X table and the ring to their reset values; the link, the
decoder, the tracker, dome memory, the spars and every object (13 R387) stay as they are; the records queued for the ring are lost. -/
def Obligations.HostLink : Prop :=
  ((∀ s, ∃ u, exec .perstNAssert s = .next u ∧ u.cxl.perst = true ∧ u.cxl.link = 0 ∧ u.cxl.mbxState = 0 ∧ u.cxl.ringEnable = false ∧
    u.cxl.tracker = [] ∧ u.cxl.hdmCommitted = false ∧ u.dome = s.dome ∧ u.spars = s.spars ∧ u.parts = s.parts ∧ u.ports = s.ports) ∧
  (∀ s : State, s.cxl.perst = true → ∃ u, exec .perstNRelease s = .next u ∧ u.cxl.perst = false ∧ u.cxl.link = 1) ∧
  (∀ (s : State) w, s.cxl.link = 1 → w = 4 ∨ w = 8 ∨ w = 16 → ∃ u v, exec (.cxlLinkUp true 64 w) s = .next u ∧ u.cxl.link = 3 ∧
    u.odGet 0 0x1800 1 = 3 ∧ u.odGet 0 0x1800 3 = w ∧ exec (.cxlLinkUp false 32 w) s = .next v ∧ v.cxl.link = 2) ∧
  (∀ s : State, s.cxl.link = 2 ∨ s.cxl.link = 3 → ∃ u, exec .hotReset s = .next u ∧ u.cxl.link = 1 ∧ u.cxl.mbxState = 0 ∧
    u.cxl.ringEnable = false ∧ u.dome = s.dome ∧ u.spars = s.spars) ∧
  (∀ s : State, s.cxl.link = 2 ∨ s.cxl.link = 3 → ∃ u n, exec .hostLink s = .next u ∧ u.cxl.link = 1 ∧ u.cxl.hostReqs = [] ∧
    u.faultQ = s.faultQ ++ [n] ∧ n.code = 0x0503 ∧ n.source = spireUnit 0 ∧ n.part = 0)) ∧
  (∀ s : State, s.cxl.link = 2 ∨ s.cxl.link = 3 → ∃ u, exec .functionLevelReset s = .next u ∧ u.cxl.link = s.cxl.link ∧
    u.cxl.mbxState = 0 ∧ u.cxl.mbxJob = none ∧ u.cxl.mbxLen = 0 ∧ u.cxl.ringEnable = false ∧ u.cxl.ringLog2 = 6 ∧ u.cxl.msixTable = [] ∧
    u.cxl.msixPba = 0 ∧ u.cxl.hdmCommitted = s.cxl.hdmCommitted ∧ u.cxl.hdmBase = s.cxl.hdmBase ∧ u.cxl.tracker = s.cxl.tracker ∧
    u.cxl.msixOn = false ∧ u.cxl.msixMask = false ∧ (u.dest 0).queue = [] ∧ u.od = s.od ∧ u.blobs = s.blobs ∧ u.dome = s.dome ∧
    u.spars = s.spars ∧ u.boot = s.boot)

/-- Configuration requests (12 R358, R361): before the firmware is ready they are answered with Request Retry Status; the identity
and the class read as the spec gives them; BAR0 keeps the address bits above 2 MiB.
Register writes (12 R356, R358, R362, Table 12-4): an aligned write of 32 or 64 bits reaches its register; the ring's base is not
changed while the ring is enabled; a write of another alignment, and any write while BAR0 is not served, completes with Unsupported
Request.
Register reads (00 R12; 12 R356, R362, Tables 12-4 to 12-7): a read returns what was last written to a register that can be read
back; DOORBELL and the reserved bits read zero, as does an offset the table does not list; a read of another size or alignment, or while
BAR0 is not served, completes with Unsupported Request. -/
def Obligations.HostRegisters : Prop :=
  ((∀ (s : State) id w a d, s.cxl.link = 3 → s.fwReady = false →
    exec (.configRequest id w a d) s = .next (s.emit 4 id [] 2)) ∧
  (∀ (s : State) id d, s.cxl.link = 3 → s.fwReady = true →
    exec (.configRequest id false 0 d) s = .next (s.emit 4 id [0x1E, 0x2B, 0x51, 0x0A] 0) ∧
    exec (.configRequest id false 8 d) s = .next (s.emit 4 id [0xA1, 0x00, 0x00, 0x12] 0)) ∧
  (∀ (s : State) id d, s.cxl.link = 3 → s.fwReady = true → ∃ u, exec (.configRequest id true 0x10 d) s = .next u ∧
    memNat u.cxl.cfg 0x10 4 = (d &&& 0xFFE00000).toNat)) ∧
  ((∀ (s : State) v, s.barOk = true → s.mailboxBusy = false →
    exec (.registerWrite 0x30008 4 v) s = .next { s with cxl := { s.cxl with mbxLen := v.extractLsb' 0 32 } }) ∧
  (∀ (s : State) o v, s.barOk = true → s.mailboxBusy = false → 0x31000 ≤ o → o < 0x32000 → o % 4 = 0 → ∃ u,
    exec (.registerWrite o 4 v) s = .next u ∧ memNat u.cxl.mbxReqBuf (o - 0x31000) 4 = v.toNat % 2 ^ 32 ∧
    ∀ a, a < o - 0x31000 ∨ o - 0x31000 + 4 ≤ a → memByte u.cxl.mbxReqBuf a = memByte s.cxl.mbxReqBuf a) ∧
  (∀ (s : State) v, s.barOk = true → s.cxl.ringEnable = false →
    exec (.registerWrite 0x34000 8 v) s = .next { s with cxl := { s.cxl with ringBase := v } }) ∧
  (∀ (s : State) v, s.barOk = true → s.cxl.ringEnable = true → exec (.registerWrite 0x34000 8 v) s = .next s) ∧
  (∀ (s : State) o v, s.barOk = true → o % 4 ≠ 0 → exec (.registerWrite o 4 v) s = .next (s.emit 4 o [] 1)) ∧
  (∀ (s : State) o v, s.barOk = false → s.barUr = true → exec (.registerWrite o 4 v) s = .next (s.emit 4 o [] 1))) ∧
  ((∀ (s : State) v, s.barOk = true → s.mailboxBusy = false → ∃ u, exec (.registerWrite 0x30008 4 v) s = .next u ∧
    u.readRegister 0x30008 4 = some (leBytes 4 (v.toNat % 2 ^ 32))) ∧
  (∀ (s : State) o v, s.barOk = true → s.mailboxBusy = false → 0x31000 ≤ o → o < 0x32000 → o % 4 = 0 → ∃ u,
    exec (.registerWrite o 4 v) s = .next u ∧ u.readRegister o 4 = some (leBytes 4 (v.toNat % 2 ^ 32))) ∧
  (∀ (s : State) v, s.barOk = true → s.cxl.ringEnable = false → ∃ u, exec (.registerWrite 0x34000 8 v) s = .next u ∧
    u.readRegister 0x34000 8 = some (leBytes 8 v.toNat)) ∧
  (∀ (s : State), s.barOk = true → ∃ b, s.readRegister 0x30000 4 = some b ∧ fieldAt b 0 1 % 2 = 0 ∧ fieldAt b 0 2 / 4 = 0 ∧
    fieldAt b 2 2 = s.cxl.mbxSeqCtl.toNat) ∧
  (∀ (s : State), s.barOk = true → s.cxl.mbxState < 8 → ∃ b, s.readRegister 0x30004 4 = some b ∧ fieldAt b 0 1 = s.cxl.mbxState ∧
    fieldAt b 1 1 = s.cxl.mbxIgnored % 256 ∧ fieldAt b 2 2 = s.cxl.mbxSeq.toNat) ∧
  (∀ (s : State), s.barOk = true → s.readRegister 0x34020 4 = some (leBytes 4 (s.odGet 0 0x0011 0 % 16))) ∧
  (∀ (s : State) o, s.barOk = true → 0x35000 ≤ o → o % 4 = 0 → s.readRegister o 4 = some [0, 0, 0, 0]) ∧
  (∀ (s : State) o n, s.barOk = false ∨ (n ≠ 4 ∧ n ≠ 8) ∨ o % 4 ≠ 0 → s.readRegister o n = none))

/-- CXL.mem (12 R363-R366): a read outside the committed decoder answers all ones with poison and is counted, a write there is
discarded and counted; one inside waits at its dome's port as requester 4. The decoder commits only with the window's size,
one way and back-invalidation.
The window (12 R315, R363): offset x of the window lies in the first segment whose end, in the order of the segments, it does not
reach; every address it gives lies inside a valid segment.
Coherence, snoops, deadlines and integrity (12 R316, R366, R367, R379, R380): a BIRsp removes the line's entry, and the accesses that
waited for it are answered; a snoop is answered; an awaited CXL.mem read later than 10,000 cycles is counted and raised, once, with its
responder and delay; a failed IDE stream leaves the secure state, loses its keys and raises its fault. -/
def Obligations.HostMemory : Prop :=
  ((∀ (s : State) id hpa own, s.memOk = true → s.boot = .ready → s.hpaTo (hpa / 64 * 64) = none →
    exec (.cxlMemRead id hpa own) s = .next (((s.odAdd 0 0x1800 5 1).toHost 0
      { kind := 3, addr := id, data := List.replicate 64 0xFF, flag := 1 }).odAdd 0 0x1800 7 1)) ∧
  (∀ (s : State) id hpa own a, s.memOk = true → s.boot = .ready → s.hpaTo (hpa / 64 * 64) = some a → domeOf a ∉ s.domeOff →
    ∃ u x, exec (.cxlMemRead id hpa own) s = .next u ∧ mapGet [] u.domeQ (domeOf a) = mapGet [] s.domeQ (domeOf a) ++ [x] ∧
      x.what = .read ∧ x.req = 4 ∧ x.addr = a ∧ x.id = id ∧ u.dome = s.dome) ∧
  (∀ (s : State) id hpa d p, s.memOk = true → s.boot = .ready → s.hpaTo (hpa / 64 * 64) = none →
    exec (.cxlMemWrite id hpa d p) s = .next (s.odAdd 0 0x1800 5 1)) ∧
  (∀ (s : State) id hpa d p a, s.memOk = true → s.boot = .ready → s.hpaTo (hpa / 64 * 64) = some a → domeOf a ∉ s.domeOff →
    ∃ u x, exec (.cxlMemWrite id hpa d p) s = .next u ∧ mapGet [] u.domeQ (domeOf a) = mapGet [] s.domeQ (domeOf a) ++ [x] ∧
      x.what = .write ∧ x.addr = a + hpa % 64 ∧ x.data = d.take (64 - hpa % 64) ∧ x.poison = p ∧ u.dome = s.dome) ∧
  (∀ (s : State) base, s.barOk = true → exec (.hdmDecoderCommit base s.windowBytes true true) s = .next { s with cxl := { s.cxl with
    hdmBase := base, hdmSize := s.windowBytes, hdmCommitted := true, hdmErr := false } }) ∧
  (∀ (s : State) base size w b, s.barOk = true → size ≠ s.windowBytes ∨ w = false ∨ b = false →
    exec (.hdmDecoderCommit base size w b) s = .next { s with cxl := { s.cxl with hdmCommitted := false, hdmErr := true } })) ∧
  ((∀ g r x, g.valid = true → x < g.len * 2 ^ 30 → windowAddr x (g :: r) = some (g.dome * 2 ^ 37 + g.start * 2 ^ 30 + x)) ∧
  (∀ g r x, g.valid = true → g.len * 2 ^ 30 ≤ x → windowAddr x (g :: r) = windowAddr (x - g.len * 2 ^ 30) r) ∧
  (∀ l x, (windowAddr x l).isSome = true ↔ x < ((l.filter (·.valid)).map (·.len)).sum * 2 ^ 30) ∧
  (∀ l x a, windowAddr x l = some a → ∃ g ∈ l, g.valid = true ∧ g.dome * 2 ^ 37 + g.start * 2 ^ 30 ≤ a ∧
    a < g.dome * 2 ^ 37 + (g.start + g.len) * 2 ^ 30)) ∧
  ((∀ (s : State) line, line ∈ s.cxl.biPending → line ∉ s.cxl.biUnsent → exec (.birsp line) s = .next { s with
    cxl := { s.cxl with biPending := s.cxl.biPending.erase line, tracker := s.cxl.tracker.erase line, lateBi := s.cxl.lateBi.erase line }
    biWaits := s.biWaits.map fun w => if w.line = line then { w with answered := true } else w }) ∧
  (∀ (s : State) hpa, s.memOk = true → exec (.hostSnoop hpa) s = .next (s.emit 7 hpa [] 0)) ∧
  (∀ (s : State) d delay, s.cxl.link = 3 → s.boot ≠ .contained → s.boot ≠ .stopped → d < 16 → 10000 < delay →
    ((∃ a ∈ mapGet [] s.domeQ d, a.what = .read ∧ a.req = 4 ∧ a.late = false) → ∃ u n, exec (.hostDeadline (unitId 4 d) delay) s = .next u ∧
      u.odGet 0 0x1800 0xD = (s.odGet 0 0x1800 0xD + 1) % 2 ^ 64 ∧ u.faultQ = s.faultQ ++ [n] ∧ n.code = 0x0501 ∧
      n.source = unitId 4 d ∧ n.vals = [unitId 4 d, delay]) ∧
    ((∀ a ∈ mapGet [] s.domeQ d, a.what = .read → a.req = 4 → a.late = true) → exec (.hostDeadline (unitId 4 d) delay) s = .next s)) ∧
  (∀ (s : State) r delay, delay ≤ 10000 → exec (.hostDeadline r delay) s = .next s) ∧
  (∀ s : State, s.cxl.ideMem = true → ∃ u n, exec (.ideFail true) s = .next u ∧ u.cxl.ideMem = false ∧ u.memOk = false ∧
    u.cxl.ideIo = s.cxl.ideIo ∧ (∀ e ∈ u.cxl.ideKeys, e.1 ≠ 1) ∧ u.faultQ = s.faultQ ++ [n] ∧ n.code = 0x0502) ∧
  (∀ s : State, s.cxl.ideIo = true → ∃ u n, exec (.ideFail false) s = .next u ∧ u.cxl.ideIo = false ∧ u.barOk = false ∧
    u.cxl.ideMem = s.cxl.ideMem ∧ (∀ e ∈ u.cxl.ideKeys, e.1 ≠ 0) ∧ u.faultQ = s.faultQ ++ [n] ∧ n.code = 0x0502))

/-- The mailbox (12 R370-R372, R377): a doorbell on a free mailbox copies the request and shows its SEQ, in state 1; one while a request
is in progress is ignored and counted, at most 255; one with MBX_LEN outside 1 to 4,096 brings state 3 with the malformed-request
answer; the answer of a deferred request brings state 3, leaves through the egress, and signals vector 0 when IRQ is 1; a request still in state 1 after 1,000 cycles misses its deadline once, with the delay.
The notice ring and MSI-X (12 R374-R377): enabling starts both indices and SEQ at 0; a consumer index beyond the producer is
discarded and counted; disabling discards and counts the queued records; a pending vector is sent when it is unmasked and MSI-X is
enabled and not masked, and else stays pending. -/
def Obligations.MailboxAndRing : Prop :=
  ((∀ (s : State) seq irq b, s.barOk = true → s.mailboxBusy = false → s.mailboxCopy = some b →
    exec (.doorbell seq irq) s = .next { s with cxl := { s.cxl with
      mbxSeqCtl := seq, mbxIrq := irq, mbxSeq := seq, mbxIgnored := 0, mbxState := 1, mbxJob := some b, mbxAns := none,
      mbxLate := false } }) ∧
  (∀ (s : State) seq irq, s.barOk = true → s.mailboxBusy = true →
    exec (.doorbell seq irq) s = .next { s with cxl := { s.cxl with mbxIrq := irq, mbxIgnored := min 255 (s.cxl.mbxIgnored + 1) } }) ∧
  (∀ (s : State) seq irq, s.barOk = true → s.answers? = true → s.mailboxBusy = false →
    s.cxl.mbxLen.toNat < 1 ∨ 4096 < s.cxl.mbxLen.toNat →
    ∃ u, exec (.doorbell seq irq) s = .next u ∧ u.cxl.mbxSeq = seq ∧ mailboxHolds u (malformedBytes [])) ∧
  (∀ (s : State) b (t : State), s.answers? = true → s.cxl.mbxState = 2 → s.cxl.mbxAns = some b →
    t = { s with
      cxl := { s.cxl with
        mbxState := 3, mbxJob := none, mbxAns := none, mbxLate := false, mbxAlen := BitVec.ofNat 32 b.length,
        mbxAnsBuf := memWrite s.cxl.mbxAnsBuf 0 b
        hostOut := mapSet [] s.cxl.hostOut 1 (mapGet [] s.cxl.hostOut 1 ++ [{ kind := 14, data := b }]) }
      answers := s.answers ++ [(0, b)] } →
    exec .mailboxAnswerReady s = .next (if s.cxl.mbxIrq then t.msix 0 else t)) ∧
  (∀ (s : State) delay, s.answers? = true → s.cxl.mbxState = 1 → s.cxl.mbxLate = false → 1000 < delay →
    ∃ u n, exec (.mailboxAckTimeout delay) s = .next u ∧ u.cxl.mbxLate = true ∧ u.faultQ = s.faultQ ++ [n] ∧ n.code = 0x0501 ∧
      n.source = spireUnit 1 ∧ n.vals = [spireUnit 1, delay]) ∧
  (∀ (s : State) delay, s.cxl.mbxLate = true → exec (.mailboxAckTimeout delay) s = .next s)) ∧
  ((∀ (s : State) l m, s.barOk = true → s.cxl.ringEnable = false → 6 ≤ l → l ≤ 16 → ∃ u, exec (.ringEnable l m) s = .next u ∧
    u.cxl.ringEnable = true ∧ u.cxl.ringLog2 = l ∧ u.cxl.ringProd = 0 ∧ u.cxl.ringCons = 0 ∧ (u.dest 0).seq = 0) ∧
  (∀ (s : State) l m, s.barOk = true → s.cxl.ringEnable = true → ∃ u, exec (.ringDisable l m) s = .next u ∧ u.cxl.ringEnable = false ∧
    (u.dest 0).queue = [] ∧ u.odGet 0 0x1800 0xA = (s.odGet 0 0x1800 0xA + (s.dest 0).queue.length) % 2 ^ 64) ∧
  (∀ (s : State) v, s.barOk = true → (v - s.cxl.ringCons).toNat ≤ (s.cxl.ringProd - s.cxl.ringCons).toNat →
    exec (.ringConsWrite v) s = .next { s with cxl := { s.cxl with ringCons := v } }) ∧
  (∀ (s : State) v, s.barOk = true → (s.cxl.ringProd - s.cxl.ringCons).toNat < (v - s.cxl.ringCons).toNat →
    exec (.ringConsWrite v) s = .next (s.odAdd 0 0x1800 0xB 1)) ∧
  (∀ (s : State) v, s.barOk = true → v < 64 → (∀ w < 64, w ≠ v → s.cxl.msixPba.getLsbD w = true → s.msixMasked w = true) →
    ∃ u, exec (.msixUnmask v) s = .next u ∧ u.msixMasked v = false ∧
      (s.cxl.msixOn = true ∧ s.cxl.msixMask = false ∧ s.cxl.msixPba.getLsbD v = true → u.cxl.msixPba.getLsbD v = false ∧
        ∃ m, mapGet [] u.cxl.hostOut 2 = mapGet [] s.cxl.hostOut 2 ++ [m] ∧ m.kind = 1 ∧ m.addr = v) ∧
      (s.cxl.msixOn = false ∨ s.cxl.msixMask = true ∨ s.cxl.msixPba.getLsbD v = false →
        u.cxl.msixPba = s.cxl.msixPba ∧ u.cxl.hostOut = s.cxl.hostOut)))

/-! The object dictionary (13). -/

/-- The bytes of a Merec request (13 R390, Table 13-5) read back as the request: every operation, and every field at every value its
width admits. -/
def Obligations.MerecEncoding : Prop :=
  ∀ op m, merecFits m → parseMerec (merecBytes op m) = some (op, m)

/-- Reads of the dictionary over the mailbox (13 R391-R398, Table 13-7): a request that passes every check is answered with status
0x00 and the object's value, the part asked for, the record, or the object's description; no object changes.
Refused requests (13 R391): the first check that fails gives the status, malformed before absent or denied, rights before sizes;
nothing is executed, and the answer says so at once, or, to a request acknowledged before, when its answer comes.
Writes (13 R391, R392, R396): a write that passes the checks, and is no start command whose table read waits for the domes, is
executed and answered with its status; a scalar object takes its
value, less its reserved bits; while the object is busy, or for a value it refuses, nothing is written. -/
def Obligations.DictionaryOperations : Prop :=
  (∀ (s : State) m t, s.served = true → s.deferredBy .cxl < 8 → s.lookup .cxl m.index m.sub m.qsel = .ok t →
    let ans := fun (op : MOp) (st : Nat) (d : Bytes) => ansBytes op.code m
      { status := st, qsel := t.qsel, gen := s.genOf t m.index m.sub, total := s.totalFor op t m, data := d }
    let ok := fun (op : MOp) => s.inMailbox op m = true ∧ malformed op .cxl m = false ∧ s.denied op .cxl t m = false ∧
      s.mismatched op .cxl t m = false
    (ok .read → ∃ u, exec (.read .cxl m) s = .next u ∧ mailboxHolds u (ans .read 0 (s.valueBytes t m.index m.sub)) ∧
      u.od = s.od ∧ u.blobs = s.blobs) ∧
    (ok .readSeg → m.offset + m.length ≤ (s.valueBytes t m.index m.sub).length →
      ∃ u, exec (.readSegment .cxl m) s = .next u ∧
        mailboxHolds u (ans .readSeg 0 (((s.valueBytes t m.index m.sub).drop m.offset).take m.length)) ∧ u.od = s.od ∧ u.blobs = s.blobs) ∧
    (ok .readSeg → (s.valueBytes t m.index m.sub).length < m.offset + m.length →
      ∃ u, exec (.readSegment .cxl m) s = .next u ∧ mailboxHolds u (ans .readSeg 8 [])) ∧
    (ok .readRec → ∃ u, exec (.readRecord .cxl m) s = .next u ∧ mailboxHolds u (ans .readRec 0 (s.recordBytes t m.index)) ∧
      u.od = s.od ∧ u.blobs = s.blobs) ∧
    (ok .describe → ∃ u, exec (.describe .cxl m) s = .next u ∧ mailboxHolds u (ans .describe 0
      (leBytes 1 t.row.ty.code ++ leBytes 1 t.row.right.code ++ leBytes 2 0 ++ leBytes 4 t.row.largest)) ∧ u.od = s.od ∧ u.blobs = s.blobs)) ∧
  (∀ c op, (c, op) ∈ merecRows → ∀ (s : State) m, s.served = true → s.inMailbox op m = true →
    (malformed op .cxl m = true → ∃ u, exec (c .cxl m) s = .next u ∧ (s.cxl.mbxState = 1 → u.cxl.mbxState = 3) ∧
      mailboxHolds u (ansBytes op.code m { status := 5, qsel := s.ansQsel .cxl m.index m.sub m.qsel }) ∧ u.od = s.od ∧ u.blobs = s.blobs ∧ u.sessions = s.sessions) ∧
    (∀ e, malformed op .cxl m = false → s.lookup .cxl m.index m.sub m.qsel = .error e → e ≠ 0 → e ≠ 2 → e ≠ 7 →
      ∃ u, exec (c .cxl m) s = .next u ∧ (s.cxl.mbxState = 1 → u.cxl.mbxState = 3) ∧ mailboxHolds u (ansBytes op.code m { status := e, qsel := s.ansQsel .cxl m.index m.sub m.qsel }) ∧
        u.od = s.od ∧ u.blobs = s.blobs ∧ u.sessions = s.sessions) ∧
    (∀ t, malformed op .cxl m = false → s.lookup .cxl m.index m.sub m.qsel = .ok t → s.denied op .cxl t m = true →
      ∃ u a, exec (c .cxl m) s = .next u ∧ (s.cxl.mbxState = 1 → u.cxl.mbxState = 3) ∧ a.status = 4 ∧ a.data = [] ∧ mailboxHolds u (ansBytes op.code m a) ∧
        u.od = s.od ∧ u.blobs = s.blobs ∧ u.sessions = s.sessions) ∧
    (∀ t, malformed op .cxl m = false → s.lookup .cxl m.index m.sub m.qsel = .ok t → s.denied op .cxl t m = false →
      s.mismatched op .cxl t m = true → ∃ u a, exec (c .cxl m) s = .next u ∧ (s.cxl.mbxState = 1 → u.cxl.mbxState = 3) ∧ a.status = 6 ∧ a.data = [] ∧
        mailboxHolds u (ansBytes op.code m a) ∧ u.od = s.od ∧ u.blobs = s.blobs ∧ u.sessions = s.sessions)) ∧
  ((∀ (s : State) m t, s.served = true → s.deferredBy .cxl < 8 → s.inMailbox .write m = true → malformed .write .cxl m = false →
    s.lookup .cxl m.index m.sub m.qsel = .ok t → s.denied .write .cxl t m = false → s.mismatched .write .cxl t m = false →
    s.startWaits .write .cxl m = none →
    let r := writeAny .cxl t m.index m.sub m.token m.data (s.takeTurn .cxl)
    ∃ u a, exec (.write .cxl m) s = .next u ∧ mailboxHolds u (ansBytes 2 m a) ∧ a.status = r.1 ∧ a.data = [] ∧
      u.od = r.2.od ∧ u.blobs = r.2.blobs ∧ u.dome = r.2.dome ∧ u.spars = r.2.spars ∧ u.parts = r.2.parts) ∧
  (∀ (s : State) q v, v % 64 ≠ 0 → writeScalar q 0x2500 1 v s = (7, s)) ∧
  (∀ (s : State) q v, v % 64 = 0 → writeScalar q 0x2500 1 v s = (0, s.odSet q 0x2500 1 v)))

/-- Objects in use (02 R52, 03 R90): while the partition's job runs, writes of the rounding policies, the seed, the barrier groups, the
wait limit and the image table, and the start command, are refused with the busy answer and change nothing; at other times they
are applied. -/
def Obligations.SettingsInUse : Prop :=
  (∀ (s : State) (q k v tok : Nat) b, s.jobRuns q = true →
    writeScalar q 0x2100 k v s = (2, s) ∧ writeScalar q 0x2101 0 v s = (2, s) ∧ writeBlob q 0x2010 k b s = (2, s) ∧
    writeScalar q 0x2011 0 v s = (2, s) ∧ writeScalar q 0x2020 1 v s = (2, s) ∧ cmdStartJob q v tok s = (2, s)) ∧
  (∀ (s : State) (q k v : Nat) b, s.jobRuns q = false →
    writeScalar q 0x2100 k v s = (0, s.odSet q 0x2100 k (v % 4)) ∧ writeScalar q 0x2101 0 v s = (0, s.odSet q 0x2101 0 v) ∧
    writeBlob q 0x2010 k b s = (0, s.blobSet q 0x2010 k b) ∧ (v ≠ 0 → writeScalar q 0x2011 0 v s = (0, s.odSet q 0x2011 0 v)) ∧
    writeScalar q 0x2020 1 v s = (0, s.odSet q 0x2020 1 v) ∧ (s.startFenced q = false → (cmdStartJob q v 0 s).1 = 0 ∨
      ∃ i ∈ s.sparsOf q, s.absent i = true))

/-- Segmented writes (13 R396): a first segment opens a session with its bytes; the next must begin where the last ended, and adds its
bytes; one that does not ends the session with status 0x08; a last one after which the bytes do not fit the object is refused and
changes nothing (R391); a session that waits too long ends.
Deferred answers and the dictionary's deadline (13 R393): the requester's oldest deferred request is answered with what it was
executed to, over MCTP behind the message type, the vendor ID (its byte order PRESUMED, log 79) and the body byte of an answer; an answer
awaited beyond 2,000 cycles is raised with its delay. -/
def Obligations.WriteSessions : Prop :=
  ((∀ (s : State) t m, m.offset = 0 → m.last = false → s.sessions = [] →
    s.writeSegmentOn .cxl t m = (0, { s with sessions :=
      [{ req := 0, q := t.q, obj := m.index * 256 + m.sub, data := m.data, token := m.token }] })) ∧
  (∀ (s : State) t m x, m.offset = x.data.length → m.offset ≠ 0 → m.last = false → s.sessions = [x] → x.req = 0 → x.q = t.q →
    x.obj = m.index * 256 + m.sub →
    s.writeSegmentOn .cxl t m = (0, { s with sessions := [{ x with data := x.data ++ m.data, token := m.token }] })) ∧
  (∀ (s : State) t m x, m.offset ≠ x.data.length → m.offset ≠ 0 → s.sessions = [x] → x.req = 0 → x.q = t.q →
    x.obj = m.index * 256 + m.sub → s.writeSegmentOn .cxl t m = (8, { s with sessions := [] })) ∧
  (∀ (s : State) t m x, m.offset = x.data.length → m.offset ≠ 0 → m.last = true → s.sessions = [x] → x.req = 0 → x.q = t.q →
    x.obj = m.index * 256 + m.sub → sizeFits t.row m.index m.sub (x.data ++ m.data).length = false →
    s.writeSegmentOn .cxl t m = (6, s)) ∧
  (∀ (s : State) m t, s.served = true → s.deferredBy .cxl < 8 → s.inMailbox .writeSeg m = true → malformed .writeSeg .cxl m = false →
    s.lookup .cxl m.index m.sub m.qsel = .ok t → s.denied .writeSeg .cxl t m = false → s.mismatched .writeSeg .cxl t m = false →
    let r := (s.takeTurn .cxl).writeSegmentOn .cxl t m
    ∃ u a, exec (.writeSegment .cxl m) s = .next u ∧ mailboxHolds u (ansBytes 4 m a) ∧ a.status = r.1 ∧
      u.sessions = r.2.sessions ∧ u.od = r.2.od ∧ u.blobs = r.2.blobs) ∧
  (∀ (s : State) rq q obj, s.served = true → exec (.sessionTimeout rq q obj) s = .next { s with
    sessions := s.sessions.filter fun x => !(x.req = reqCode rq && x.q = q && x.obj = obj) })) ∧
  ((∀ (s : State) eid d r, s.served = true → s.deferred = d :: r → d.req = 0x20000 + eid →
    exec (.deferredAnswer (.mctp eid)) s = .next { s with
      deferred := r
      answers := s.answers ++ [(0x20000 + eid, d.answer)]
      out := s.out ++ [{ kind := 5, addr := eid, data := [0x7E, 0x2B, 0x1E, 0x02] ++ d.answer, flag := 0 }] }) ∧
  (∀ (s : State) delay, s.served = true → 2000 < delay → ∃ u n, exec (.dictionaryDeadline delay) s = .next u ∧
    u.od = s.od ∧ u.faultQ = s.faultQ ++ [n] ∧ n.code = 0x0501 ∧ n.source = spireUnit 2 ∧ n.vals = [spireUnit 2, delay]) ∧
  (∀ (s : State) delay, delay ≤ 2000 → exec (.dictionaryDeadline delay) s = .next s))

/-- The partition plan (13 R404): a plan that breaks a rule changes nothing and completes with status 1; one that is good takes effect
at one moment, every partition then being as its row says, and the moved domes hold zeros and grant nothing until their fill
ends.
The preload (13 R405, R406): an image that is not well formed, or whose signature refuses it, applies nothing; of one whose
entries all pass their checks, the entries are written in order until one is refused, and the completion names the first not
applied. -/
def Obligations.PartitionPlan : Prop :=
  ((∀ (s : State) val tok, s.served = true → s.stillRuns 0x100102 0 = false → s.planOk (s.blobGet 0 0x1001 1) = false →
    exec (.applyPlan val tok) s = .next (s.completeDev 0x1001 2 1 tok val [])) ∧
  (∀ (s : State) val tok, s.served = true → s.stillRuns 0x100102 0 = false → s.planOk (s.blobGet 0 0x1001 1) = true →
    (∀ q < 4, s.jobRuns q = false) → s.movedDomes (s.blobGet 0 0x1001 1) ≠ [] →
    ∃ u, exec (.applyPlan val tok) s = .next u ∧
      (∀ q < 4, u.present q = (planRow (s.blobGet 0 0x1001 1) q).present ∧ u.towerMask q = (planRow (s.blobGet 0 0x1001 1) q).towers) ∧
      (∀ d ∈ s.movedDomes (s.blobGet 0 0x1001 1), u.domeHeld d = true ∧ ∀ a, domeOf a = d → memByte u.dome a = 0) ∧
      (∀ a, domeOf a ∉ s.movedDomes (s.blobGet 0 0x1001 1) → memByte u.dome a = memByte s.dome a) ∧ u.stillRuns 0x100102 0 = true) ∧
  (∀ (s : State) r, s.served = true → s.runningOf 0x100102 0 = some r → ∃ u, exec .planZeroFillComplete s = .next u ∧
    u.zeroFill = [] ∧ u.stillRuns 0x100102 0 = false ∧ u.dome = s.dome)) ∧
  ((∀ (s : State) rq q val tok, s.served = true → s.present q = true → s.preloadEntries (s.blobGet q 0x1100 1) = none →
    exec (.applyPreload rq q val tok) s = .next (s.complete q 0x1100 2 5 tok val (leBytes 4 0))) ∧
  (∀ (s : State) rq q val tok es c, s.served = true → s.present q = true → s.preloadEntries (s.blobGet q 0x1100 1) = some es →
    s.preloadRefused (s.blobGet q 0x1100 1) = some c → ∃ u, exec (.applyPreload rq q val tok) s = .next u ∧ u.blobs = s.blobs ∧
      (∃ n, u.faultQ = s.faultQ ++ [n] ∧ n.code = 0x0701)) ∧
  (∀ (s : State) rq q val tok es st n t, s.served = true → s.present q = true → s.preloadEntries (s.blobGet q 0x1100 1) = some es →
    s.preloadRefused (s.blobGet q 0x1100 1) = none → (∀ e ∈ es, s.checkPreset rq e = 0) → q ≠ 0 → applyPresets rq tok es 0 s = (st, n, t) →
    exec (.applyPreload rq q val tok) s = .next (t.complete q 0x1100 2 st tok val (leBytes 4 n))) ∧
  (∀ rq tok e r n (s : State) t, s.lookup rq e.index e.sub e.qsel = .ok t →
    (writeObject rq t e.index e.sub tok e.data s).1 ≠ 0 →
    applyPresets rq tok (e :: r) n s = ((writeObject rq t e.index e.sub tok e.data s).1, n, s)) ∧
  (∀ rq tok e r n (s : State) t, s.lookup rq e.index e.sub e.qsel = .ok t →
    (writeObject rq t e.index e.sub tok e.data s).1 = 0 →
    applyPresets rq tok (e :: r) n s = applyPresets rq tok r (n + 1) (writeObject rq t e.index e.sub tok e.data s).2))

/-- Notices (13 R409-R411): a record of an event already queued is merged into it; otherwise it is queued under the destination's
next SEQ; one that finds the queue full is lost, counted, takes a SEQ, and the next one queued says so. -/
def Obligations.NoticeDelivery : Prop :=
  (∀ (s : State) n k q, mergeInto n (s.dest k).queue = some q → (s.deliverTo n k).dest k = { s.dest k with queue := q }) ∧
  (∀ (s : State) n k, mergeInto n (s.dest k).queue = none → s.destFull k = false →
    (s.deliverTo n k).dest k = ⟨((s.dest k).seq + 1) % 2 ^ 32, false,
      (s.dest k).queue ++ [{ n with seq := (s.dest k).seq, loss := (s.dest k).lossDue }]⟩) ∧
  (∀ (s : State) n k, mergeInto n (s.dest k).queue = none → s.destFull k = true →
    (s.deliverTo n k).dest k = { s.dest k with seq := ((s.dest k).seq + 1) % 2 ^ 32, lossDue := true } ∧
    ∀ i sub, (i, sub) = (if k = 0 then (0x1800, 0xA) else if k = 1 then (0x1020, 4) else (0x1010 + (k - 16) / 8, 8)) →
      (s.deliverTo n k).odGet 0 i sub = (s.odGet 0 i sub + 1) % 2 ^ 64) ∧
  (∀ n q r, mergeInto n q = some r → r.length = q.length ∧ ∃ m ∈ q, sameEvent n m = true)

/-! Expert routing (07). -/

/-- Opening (07 R208, R209, R224): an OPEN whose record cannot be read is discarded and counted; the first OPENs of a batch are
held until every named tower's has come; the last has the record and the expert map checked, OPENED carries the lowest
status that applies, and with status 0 the batch is open and its selection may begin.
Counting frames (07 R219, R220): entries for an open batch are kept by exchange and round; frames for up to 16 pairs not yet
open are held; those of a cancelled pair, and of one pair more, are counted as stale.
The assignment's end (07 R221, R223, R225, R241, R243): the batch closes, CLOSED goes out, and its choices are counted: taken by
regular rows, by the pool, or dropped; a drop raises ROUTE_DROP with the pair, the layer slot and the number dropped. -/
def Obligations.BatchLifecycle : Prop :=
  ((∀ (s : State) (t : Nat) r, halCommand s t r 1 → fieldAt r 8 8 % 64 ≠ 0 ∨ s.rangeInMap (s.towerPart t) (fieldAt r 8 8) 192 = false →
    exec (.openBatch t) s = .next ((s.halPop t).staleRows (s.towerPart t) 1)) ∧
  (∀ (s : State) (t q a k : Nat) r rec, halCommand s t r 1 → q = s.towerPart t → a = fieldAt r 8 8 → a % 64 = 0 → s.rangeInMap q a 192 = true →
    cleanPort s (engineUnit 0) [(a, 192)] → rec = s.domeRead a 192 → s.openingOf q (fieldAt rec 0 2) (fieldAt rec 2 1) = none →
    k ∈ s.towersOf q → k ≠ t → k < 8 → (fieldAt rec 7 1).testBit k = true →
    exec (.openBatch t) s = .next (((s.takeAsk (engineUnit 0) [(a, 192)]).halPop t).modPart q fun p => { p with
      batches := p.batches ++ [{ tag := fieldAt rec 0 2, gen := fieldAt rec 2 1, record := rec, opens := [(t, a)] }] })) ∧
  (∀ (s : State) (t q a : Nat) r rec (b : Batch), halCommand s t r 1 → q = s.towerPart t → a = fieldAt r 8 8 → a % 64 = 0 →
    s.rangeInMap q a 192 = true → cleanPort s (engineUnit 0) [(a, 192), (fieldAt rec 48 8, 32 * fieldAt rec 12 2)] → rec = s.domeRead a 192 → s.openingOf q (fieldAt rec 0 2) (fieldAt rec 2 1) = none →
    (∀ k ∈ s.towersOf q, (fieldAt rec 7 1).testBit k = true → k = t) →
    (∀ m ∈ (s.part q).held, fieldAt m.payload 1 1 = fieldAt rec 2 1 → fieldAt m.payload 2 2 ≠ fieldAt rec 0 2) →
    b = { tag := fieldAt rec 0 2, gen := fieldAt rec 2 1, record := rec, opens := [(t, a)],
          emap := (List.range (fieldAt rec 12 2)).map (emapEntry (s.domeRead (fieldAt rec 48 8) (32 * fieldAt rec 12 2))) } →
    s.recordFieldsOk q b = true → b.replay = false →
    ∃ u, exec (.openBatch t) s = .next u ∧ batchEventSent s u q b 0x81 (s.openStatus q b) 0 ∧
      (s.openStatus q b = 0 → u.batchOf q b.tag b.gen = some { b with phase := .scoring, opens := [] }))) ∧
  ((∀ (s : State) k r b, spireUp s 3 → delivered s k r → k.kind = 0x11 → fieldAt k.payload 0 1 = 3 → s.present k.qdst = true →
    s.batchOf k.qdst (fieldAt k.payload 2 2) (fieldAt k.payload 1 1) = some b → b.phase = .scoring →
    exec .countingFrame s = .next (({ s with delivery := r } : State).putBatch k.qdst (b.takeCount (k.payload.drop 32)))) ∧
  (∀ (s : State) k r, spireUp s 3 → delivered s k r → k.kind = 0x11 → fieldAt k.payload 0 1 = 3 → s.present k.qdst = true →
    s.batchOf k.qdst (fieldAt k.payload 2 2) (fieldAt k.payload 1 1) = none →
    (fieldAt k.payload 2 2, fieldAt k.payload 1 1) ∉ (s.part k.qdst).cancelled →
    fieldAt k.payload 1 3 ∈ heldPairs s k.qdst ∨ (heldPairs s k.qdst).length < 16 →
    exec .countingFrame s = .next (({ s with delivery := r } : State).modPart k.qdst fun p => { p with held := p.held ++ [k] })) ∧
  (∀ (s : State) k r, spireUp s 3 → delivered s k r → k.kind = 0x11 → fieldAt k.payload 0 1 = 3 → s.present k.qdst = true →
    s.batchOf k.qdst (fieldAt k.payload 2 2) (fieldAt k.payload 1 1) = none →
    (fieldAt k.payload 2 2, fieldAt k.payload 1 1) ∈ (s.part k.qdst).cancelled ∨
      (fieldAt k.payload 1 3 ∉ heldPairs s k.qdst ∧ 16 ≤ (heldPairs s k.qdst).length) →
    exec .countingFrame s = .next (({ s with delivery := r } : State).staleRows k.qdst 1))) ∧
  (∀ (s : State) (q tag gen : Nat) b c n, spireUp s 3 → s.batchOf q tag gen = some b → b.phase = .assigning →
    c = b.assigned (s.batchGroup q b) → n = b.n - b.choices.length →
    cleanPort s (engineUnit 0) (writeRanges (b.assignWrites (s.batchGroup q b)) ++ s.dispatchRanges q c) →
    ∃ u, exec (.assignmentComplete q tag gen) s = .next u ∧ batchEventSent s u q b 0x82 0 0 ∧
      (∀ sub x, (sub, x) ∈ [(1, 1), (2, b.n * b.k), (3, c.served.countP fun x => !x.pool), (4, c.served.countP fun x => x.pool),
          (5, (b.assignAll (s.batchGroup q b)).1.drops), (6, n)] → 0 < x →
        u.odGet q (0x5100 + b.layer) sub = (s.odGet q (0x5100 + b.layer) sub + x) % 2 ^ 64) ∧
      (0 < (b.assignAll (s.batchGroup q b)).1.drops →
        faultCarries u 0x0121 [b.tag, b.gen, b.layer, (b.assignAll (s.batchGroup q b)).1.drops]) ∧
      ∀ d, u.batchOf q tag gen = some d → d.phase = .closed)

/-- Selection (07 R213-R216): a unit that finishes has chosen for every token of its range; a token's choices are distinct
unmasked experts, as many as K says or as there are, none of a lower selection score than a later one or than an expert not
chosen, and a non-finite token has none.
Assignment (07 R217, R218, R221): over a device's tokens in order, no expert gets more rows than the device's grant, every
regular row's slot lies under CAP and every pool row's under POOL, and return positions count the served choices. -/
def Obligations.ExpertSelection : Prop :=
  ((∀ (s : State) (q tag gen t row : Nat) b toks rs, spireUp s 3 → s.towerOut 9 t = false → s.batchOf q tag gen = some b →
    b.phase = .scoring → t < 8 → b.tmask.testBit t = true → t ∉ b.units →
    (∃ k < 8, b.tmask.testBit k = true ∧ k ≠ t ∧ k ∉ b.units) → toks = b.tokens ((maskBits b.tmask 8).findIdx (· = t)) → toks ≠ [] →
    row = b.e * b.scoreBytes → rs = (b.addr 32 + toks.headD 0 * row, toks.length * row) :: (if b.biasen then [(b.addr 40, 4 * b.e)] else []) →
    cleanPort s (engineUnit 0) rs → (∀ k ∈ toks, ∀ x ∈ b.choices, x.1 ≠ k) →
    ∃ c, exec (.unitSelectionComplete q tag gen t) s = .next ((s.takeAsk (engineUnit 0) rs).putBatch q c) ∧ t ∈ c.units ∧
      c.phase = .scoring ∧ c.record = b.record ∧
      (∀ k ∈ toks, (c.choices.find? fun x => x.1 = k).map (·.2) =
        b.choose (if b.biasen then s.domeRead (b.addr 40) (4 * b.e) else []) (s.domeRead (b.addr 32 + k * row) row)) ∧
      ∀ k, k ∉ toks → c.choices.find? (fun x => x.1 = k) = b.choices.find? (fun x => x.1 = k)) ∧
  (∀ (b : Batch) bias row c, b.choose bias row = some c →
    c.length = min b.k b.unmasked.length ∧ c.Nodup ∧ (∀ e ∈ c, e ∈ b.unmasked ∧ badScore (b.selScore bias row e) = false) ∧
    (c.Pairwise fun e f => (f32Val (b.selScore bias row e)).lt (f32Val (b.selScore bias row f)) = false) ∧
    ∀ e ∈ c, ∀ f ∈ b.unmasked, f ∉ c → (f32Val (b.selScore bias row e)).lt (f32Val (b.selScore bias row f)) = false) ∧
  (∀ (b : Batch) bias row e, e ∈ b.unmasked → badScore (b.score row e) = true → b.choose bias row = none)) ∧
  (∀ (b : Batch) g (toks : List Nat) (a : Assign), a = (toks.foldl (b.assignToken g) (({}, [], [], []) : Assign × Bytes × Bytes × Bytes)).1 →
    a.count = a.served.length ∧ (∀ e, (a.served.countP fun x => !x.pool && x.expert = e) ≤ b.grant e) ∧
    ∀ x ∈ a.served, if x.pool then x.slot < b.pool else x.slot < b.cap)

/-- Rows (07 R225, R229, R232): a row of an open batch is written at its place, its origin word beside it (the position in it is
the sender's, which the spec places nowhere in the packet: log 24), and counted; a returned row at RETBASE by its position, and with
the last one RETURNS in the books, and RETURNED; the rows
of a pair that names no open batch are counted as stale, raise STALE_RETURN once with the pair and the kind, and write
nothing.
Returning (07 R229): RETURN takes its command, counts every row it sends back, and its local experts have returned. -/
def Obligations.RowExchange : Prop :=
  ((∀ (s : State) k r b w row a i p, spireUp s 3 → delivered s k r → k.kind = 0x10 → fieldAt k.payload 0 1 = 1 →
    s.rowBatch k = some b → b.phase = .scoring → b.replay = false → packetRows k.payload = [(w, row)] → bitAt w 16 = false →
    b.place s.ownLid (bitsOf w 0 16) false (bitsOf w 20 20) = some (a, i) →
    slotKey (bitsOf w 0 16) false (bitsOf w 20 20) ∉ b.rxKeys →
    p = (Config.returnPos (fieldAt k.payload 6 2) b.tag b.gen w).toNat →
    cleanPort s (engineUnit 0) [(a, row.length), (b.addr 176 + 8 * i, 8)] →
    ∃ u c, exec .dispatchRowArrival s = .next u ∧ u.delivery = r ∧ u.rowBatch k = some c ∧ c.rxReg = b.rxReg + 1 ∧
      u.odGet k.qdst (0x5100 + b.layer) 7 = (s.odGet k.qdst (0x5100 + b.layer) 7 + 1) % 2 ^ 64 ∧
      u.dome = memWrite (memWrite s.dome a row) (b.addr 176 + 8 * i)
        (leBytes 8 (p + rankIn (s.batchGroup k.qdst b) (fieldAt k.payload 6 2) * 2 ^ 32))) ∧
  (∀ (s : State) k r b w row, spireUp s 3 → delivered s k r → k.kind = 0x10 → fieldAt k.payload 0 1 = 2 →
    s.rowBatch k = some b → b.phase = .closed → b.returned = false → b.arrives s.ownLid = false → packetRows k.payload = [(w, row)] →
    w % 2 ^ 32 < b.served.length → w % 2 ^ 32 ∉ b.retGot →
    (b.returns + 1 < b.served.length → cleanPort s (engineUnit 0) [(b.addr 96 + w % 2 ^ 32 * b.stride, row.length)] →
      ∃ u c, exec .returnRowArrival s = .next u ∧ u.delivery = r ∧ u.rowBatch k = some c ∧ c.returns = b.returns + 1 ∧
        u.odGet k.qdst (0x5100 + b.layer) 9 = (s.odGet k.qdst (0x5100 + b.layer) 9 + 1) % 2 ^ 64 ∧
        u.dome = memWrite s.dome (b.addr 96 + w % 2 ^ 32 * b.stride) row) ∧
    (b.served.length ≤ b.returns + 1 →
      cleanPort s (engineUnit 0) [(b.addr 96 + w % 2 ^ 32 * b.stride, row.length), (b.addr 152 + 56, 8)] →
      ∃ u, exec .returnRowArrival s = .next u ∧ u.delivery = r ∧ batchEventSent s u k.qdst b 0x85 0 0 ∧
        u.odGet k.qdst (0x5100 + b.layer) 9 = (s.odGet k.qdst (0x5100 + b.layer) 9 + 1) % 2 ^ 64 ∧
        u.dome = memWrite (memWrite s.dome (b.addr 96 + w % 2 ^ 32 * b.stride) row) (b.addr 152 + 56) (leBytes 8 (b.returns + 1)))) ∧
  (∀ (s : State) k r, spireUp s 3 → delivered s k r → k.kind = 0x10 → s.rowBatch k = none → s.present k.qdst = true →
    0 < fieldAt k.payload 10 2 →
    ∃ u, exec (if fieldAt k.payload 0 1 = 2 then .returnRowArrival else .dispatchRowArrival) s = .next u ∧ u.delivery = r ∧
      u.dome = s.dome ∧ u.odGet k.qdst 0x5100 0xA = (s.odGet k.qdst 0x5100 0xA + fieldAt k.payload 10 2) % 2 ^ 64 ∧
      if (fieldAt k.payload 2 2, fieldAt k.payload 1 1) ∈ (s.part k.qdst).staleSeen then u.faultQ = s.faultQ
      else ∃ n, u.faultQ = s.faultQ ++ [n] ∧ n.code = 0x0131 ∧
        n.vals = [fieldAt k.payload 2 2, fieldAt k.payload 1 1, fieldAt k.payload 0 1])) ∧
  (∀ (s : State) (t q : Nat) r b js src, halCommand s t r 2 → halNames s t r b → q = s.towerPart t →
    js = b.toReturn s.ownLid (fieldAt r 8 4) (fieldAt r 12 4) → src = b.returnRows s.ownLid js → 0 < src.length →
    cleanPort s (engineUnit 0) (s.returnRanges q b src) →
    ∃ u, exec (.returnRows t) s = .next u ∧ u.odGet q (0x5100 + b.layer) 8 = (s.odGet q (0x5100 + b.layer) 8 + src.length) % 2 ^ 64 ∧
      mapGet [] u.halCmd t = (mapGet [] s.halCmd t).drop 64 ∧
      ∀ c, u.batchOf q b.tag b.gen = some c → c.retRows = b.retRows + src.length ∧ ∀ j ∈ js, j ∈ c.retExp)

/-- Cancelling (07 R208, R233, R234): by a spar's command, by the dictionary or by a frame, an open pair is retired with CANCELLED; a
pair that is not open is remembered, and a spar's command of it counts as a stale row.
The predictor and the combine fence (07 R237, R239): ACTMASK updates the local expert's block counters, each up to 15 by 4
where its block was active and down by 1 where not; FENCE sends a TIER event for a cold expert, with status 0 when it has landed;
with status 1 it counts a miss and raises TIER_MISS with the pair, the layer slot and the expert.
The slow tier (07 R236, 12 R367, R369): a line fetched from host memory is written at its landing place and nowhere else; one that
came bad ends its fetch and is counted; the bytes a Shroud device answers are written where their read lands, and its refusal
ends the fetch. -/
def Obligations.BatchCommands : Prop :=
  ((∀ (s : State) (t : Nat) r b, halCommand s t r 3 → halNames s t r b →
    ∃ u, exec (.cancel t) s = .next u ∧ u.batchOf (s.towerPart t) b.tag b.gen = none ∧ batchEventSent s u (s.towerPart t) b 0x86 0 0 ∧
      mapGet [] u.halCmd t = (mapGet [] s.halCmd t).drop 64) ∧
  (∀ (s : State) (q val tok : Nat) b, s.served = true → s.present q = true → s.batchOf q (bitsOf val 8 16) (val % 256) = some b →
    ∃ u, exec (.cancelBatch q val tok) s = .next u ∧ u.batchOf q b.tag b.gen = none ∧ batchEventSent s u q b 0x86 0 0) ∧
  (∀ (s : State) k r b, spireUp s 3 → delivered s k r → k.kind = 0x11 → fieldAt k.payload 0 1 = 4 → s.present k.qdst = true →
    s.batchOf k.qdst (fieldAt k.payload 2 2) (fieldAt k.payload 1 1) = some b →
    ∃ u, exec .cancelFrame s = .next u ∧ u.delivery = r ∧ u.inject = s.inject ∧ u.batchOf k.qdst b.tag b.gen = none ∧
      batchEventSent s u k.qdst b 0x86 0 0) ∧
  (∀ (s : State) (t q : Nat) r tag gen, halCommand s t r 3 → q = s.towerPart t → tag = fieldAt r 2 2 → gen = fieldAt r 4 1 →
    s.batchOf q tag gen = none →
    ∃ u, exec (.cancel t) s = .next u ∧ (tag, gen) ∈ (u.part q).cancelled ∧ (u.part q).cancelled.length ≤ 16 ∧
      u.odGet q 0x5100 0xA = (s.odGet q 0x5100 0xA + 1) % 2 ^ 64 ∧ mapGet [] u.halCmd t = (mapGet [] s.halCmd t).drop 64)) ∧
  ((∀ (s : State) (t j : Nat) r b, halCommand s t r 4 → halNames s t r b → j = fieldAt r 8 4 → j < b.locals s.ownLid →
    b.addr 168 ≠ 0 → cleanPort s (engineUnit 0) [(b.addr 160 + 8 * j, 8), (b.addr 168 + 32 * j, 32)] →
    ∃ u, exec (.actmask t) s = .next u ∧ mapGet [] u.halCmd t = (mapGet [] s.halCmd t).drop 64 ∧
      ∀ k < 64, bitsOf (memNat u.dome (b.addr 168 + 32 * j) 32) (4 * k) 4 =
        if (fieldAt r 16 8).testBit k then min 15 (bitsOf (memNat s.dome (b.addr 168 + 32 * j) 32) (4 * k) 4 + 4)
        else bitsOf (memNat s.dome (b.addr 168 + 32 * j) 32) (4 * k) 4 - 1) ∧
  (∀ (s : State) (t q j : Nat) r b e, halCommand s t r 5 → halNames s t r b → b.coldLocals s.ownLid = [e] → q = s.towerPart t →
    j = (b.ent e).loc →
    ∃ u, exec (.fence t) s = .next u ∧ mapGet [] u.halCmd t = (mapGet [] s.halCmd t).drop 64 ∧
      if (s.fetchOf q b j).any (fun f => f.started && !f.failed && f.left = 0) then batchEventSent s u q b 0x84 0 j
      else batchEventSent s u q b 0x84 1 j ∧ u.odGet q (0x5100 + b.layer) 0xD = (s.odGet q (0x5100 + b.layer) 0xD + 1) % 2 ^ 64 ∧
        faultCarries u 0x0141 [b.tag, b.gen, b.layer, j])) ∧
  ((∀ (s : State) (i : Nat) data f, spireUp s 3 → s.fetches[i]? = some f → f.src = 0 → f.failed = false → 0 < f.asked →
    s.rangeInMap f.q f.land 64 = true → data.length = 64 → cleanPort s (engineUnit 0) [(f.land, 64)] →
    ∃ u, exec (.tierFetchLine i data false) s = .next u ∧ u.dome = memWrite s.dome f.land data) ∧
  (∀ (s : State) (i : Nat) data f, spireUp s 3 → s.fetches[i]? = some f → f.src = 0 → f.failed = false → 0 < f.asked →
    ∃ u, exec (.tierFetchLine i data true) s = .next u ∧ u.dome = s.dome ∧ u.odGet 0 0x1800 9 = (s.odGet 0 0x1800 9 + 1) % 2 ^ 64) ∧
  (∀ (s : State) (i : Nat) data bad f k r tag a n, spireUp s 3 → s.fetches[i]? = some f → f.src ≠ 0 → f.failed = false →
    delivered s k r → s.tierAnswer k = true → tag = fieldAt k.payload 0 2 → s.fetchFor k.qdst k.slid tag = some i →
    f.reqs.find? (fun x => x.1 = tag) = some (tag, a, n) → s.rangeInMap f.q a n = true →
    (fieldAt k.payload 2 1 = 0 → cleanPort s (engineUnit 0) [(a, n)] →
      ∃ u, exec (.tierFetchLine i data bad) s = .next u ∧ u.delivery = r ∧ u.dome = memWrite s.dome a (sliceBytes k.payload 16 n)) ∧
    (fieldAt k.payload 2 1 ≠ 0 → ∃ u, exec (.tierFetchLine i data bad) s = .next u ∧ u.delivery = r ∧ u.dome = s.dome ∧
      u.odGet 0 0x1800 9 = (s.odGet 0 0x1800 9 + 1) % 2 ^ 64)))

/-! Collectives (08) and Boom (09). -/

/-- Collective commands (08 R253, R254, Table 8-4): one whose fixed fields break Table 8-3 completes with status 1; one that does not meet its conditions completes at once with its status; a member
alone in its group completes with status 0; a member of a larger group waits for the others with its collective open.
LOCAL_PASS (08 R255): the output of an S16 tensor is its input. -/
def Obligations.CollectiveCommands : Prop :=
  (∀ row ∈ colRows, ∀ (s : State) (q : Nat) r (c : ColOp),
    (spireUp s 4 → s.colHeadCmd q = some r → fieldAt r 0 1 < 0x10 → colFieldsOk r = false →
      exec (row.1 q) s = .next ((s.colPop q).colDone (colOf q r) 1)) ∧
    (colCommand s q r row.2 →
    c = { colOf q r with rank := rankIn (s.members' (colOf q r)) s.ownLid } →
    (∀ st, s.colStatus c = some st → exec (row.1 q) s = .next ((s.colPop q).colDone c st)) ∧
    (s.colStatus c = none → cleanPort s (engineUnit 1) (colReads c (s.members' c).length ++ colWrites c (s.members' c).length) →
      (∀ m ∈ (s.part q).colHeld, fieldAt m.payload 4 4 ≠ c.tag) →
      (s.members' c = [s.ownLid] → c.upper = 0xFF →
        ∃ u, exec (row.1 q) s = .next u ∧ doneSent s u c 0 ∧ u.colTag q c.tag = none ∧
          u.odGet q 0x6001 1 = (s.odGet q 0x6001 1 + 1) % 2 ^ 64) ∧
      (2 ≤ (s.members' c).length → (c.op = 1 → shard c.blocks (s.members' c).length c.rank ≠ []) →
        (c.op = 2 → (shard c.blocks (s.members' c).length c.rank).length < c.blocks) →
        ∃ u d, exec (row.1 q) s = .next u ∧ u.colTag q c.tag = some d ∧ d.op = c.op ∧ d.step = c.step ∧ u.spars = s.spars)))) ∧
  (∀ (s : State) (q : Nat) r (c : ColOp), colCommand s q r 5 → c = { colOf q r with rank := 0 } → s.colStatus c = none →
    cleanPort s (engineUnit 1) (colReads c 1 ++ colWrites c 1) → (∀ m ∈ (s.part q).colHeld, fieldAt m.payload 4 4 ≠ c.tag) → c.ifmt = 0 → c.ofmt = 0 →
    ∃ u, exec (.localPass q) s = .next u ∧ doneSent s u c 0 ∧ ∀ k < 65 * c.blocks, memByte u.dome (c.dst + k) = memByte s.dome (c.src + k))

/-- Frames of a collective (08 R256-R259): for up to 16 TAGs not open they are held, one for another is counted and dropped; a frame
that does not match its collective ends it with the status and the fault of R258, both compared values in it, and abort
frames go out: for another STEP, status 3 and STEP_SKEW; a copied block is written to its place, once.
Aborts and the norm reduction (08 R258, R259, R269): an abort frame ends its collective with the frame's status, and its fault is
raised with the frame's two values; a contribution
is noted; the totals give the member its norm and clip factor, and end the reduction. -/
def Obligations.CollectiveFrames : Prop :=
  ((∀ (s : State) k r, spireUp s 4 → delivered s k r → k.kind = 0x18 → fieldAt k.payload 0 1 = 1 → s.present k.qdst = true →
    s.colTag k.qdst (fieldAt k.payload 4 4) = none →
    exec .collectiveDataFrame s = .next (if fieldAt k.payload 4 4 ∈ heldTags s k.qdst ∨ (heldTags s k.qdst).length < 16 then
        ({ s with delivery := r } : State).modPart k.qdst fun p => { p with colHeld := p.colHeld ++ [k] }
      else ({ s with delivery := r } : State).odAdd k.qdst 0x6001 3 1)) ∧
  (∀ (s : State) k r c x, spireUp s 4 → delivered s k r → k.kind = 0x18 → fieldAt k.payload 0 1 = 1 → s.present k.qdst = true →
    portOpen s (engineUnit 1) (s.frameRanges c k) → s.colTag k.qdst (fieldAt k.payload 4 4) = some c → c.q = k.qdst →
    s.frameFault c k.payload = some x →
    (fieldAt k.payload 16 8 ≠ c.step → x = (3, 0x0201, c.step, fieldAt k.payload 16 8)) ∧
    ∃ u, exec .collectiveDataFrame s = .next u ∧ doneSent s u c x.1 ∧ u.colTag k.qdst c.tag = none ∧ u.dome = s.dome ∧
      (u.part c.q).errSince = true ∧ u.odGet c.q 0x6001 2 = (s.odGet c.q 0x6001 2 + 1) % 2 ^ 64 ∧ faultCarries u x.2.1 [x.2.2.1, x.2.2.2]) ∧
  (∀ (s : State) k r c b, spireUp s 4 → delivered s k r → k.kind = 0x18 → fieldAt k.payload 0 1 = 1 → s.present k.qdst = true →
    cleanPort s (engineUnit 1) [(c.dst + 128 * b, 128)] → s.colTag k.qdst (fieldAt k.payload 4 4) = some c → c.q = k.qdst → s.frameFault c k.payload = none → c.op = 2 → c.ofmt = 1 →
    fieldAt k.payload 2 1 = 1 → b = fieldAt k.payload 24 4 → fieldAt k.payload 28 4 = 1 →
    b ∈ shard c.blocks (s.members' c).length (fieldAt k.payload 12 2) → b ∉ c.wrote → c.wrote.length + 1 < c.blocks →
    ∃ u d, exec .collectiveDataFrame s = .next u ∧ u.dome = memWrite s.dome (c.dst + 128 * b) (sliceBytes (k.payload.drop 64) 0 128) ∧
      u.colTag k.qdst c.tag = some d ∧ b ∈ d.wrote)) ∧
  ((∀ (s : State) k r c, spireUp s 4 → delivered s k r → k.kind = 0x19 → fieldAt k.payload 0 1 = 2 → s.present k.qdst = true →
    s.colTag k.qdst (fieldAt k.payload 4 4) = some c → c.q = k.qdst →
    ∃ u, exec .collectiveAbortFrame s = .next u ∧ doneSent s u c (fieldAt k.payload 34 1) ∧ u.colTag k.qdst c.tag = none ∧
      u.odGet c.q 0x6001 2 = (s.odGet c.q 0x6001 2 + 1) % 2 ^ 64 ∧
      faultCarries u (fieldAt k.payload 32 2) [fieldAt k.payload 40 8, fieldAt k.payload 48 8]) ∧
  (∀ (s : State) k r c d, spireUp s 4 → delivered s k r → k.kind = 0x19 → fieldAt k.payload 0 1 = 3 → s.present k.qdst = true →
    s.colTag k.qdst (fieldAt k.payload 4 4) = some c → c.q = k.qdst → c.op = 6 → s.frameFault c k.payload = none →
    d = { c with entries := putEntries c.entries (normKey (fieldAt k.payload 14 1 % 2) (fieldAt k.payload 12 2)) (fieldAt k.payload 24 4)
                  (frameEntries k.payload) } →
    c.totals = [] → levelHere d 0 (s.members' c).length = false →
    exec .normContributionFrame s = .next (({ s with delivery := r } : State).putCol d)) ∧
  (∀ (s : State) k r c m tot n, spireUp s 4 → delivered s k r → k.kind = 0x19 → fieldAt k.payload 0 1 = 4 → s.present k.qdst = true →
    s.colTag k.qdst (fieldAt k.payload 4 4) = some c → c.q = k.qdst → c.op = 6 → c.rank ≠ 0 → s.frameFault c k.payload = none →
    m = putEntries c.totals id (fieldAt k.payload 24 4) (frameEntries k.payload) → (∀ i < 256, ∃ e ∈ m, e.1 = i) →
    tot = (List.range 256).map (fun i => mapGet 0 m i) → (∀ e ∈ tot, e % 2 ^ 640 ≠ normMark) →
    n = toF32 (FVal.fin false (tot.map (· % 2 ^ 640)).sum (-300)).sqrt →
    ∃ u, exec .normTotalsFrame s = .next u ∧ doneSent s u c 0 ∧ u.colTag k.qdst c.tag = none ∧ (u.part c.q).gnorm = some n ∧
      (u.part c.q).clip = some (clipFactor n (BitVec.ofNat 32 (s.odGet c.q 0x6300 2)) (BitVec.ofNat 32 (s.odGet c.q 0x6300 3)))))

/-- Widening an S16 element to FP32 is exact (02 R59): for every exponent of a finite block and every
mantissa Pasyn produces (R57) the FP32 value equals m × 2^(e - 141). (A mantissa of -32,768 at the largest exponent is beyond FP32's range; log 33.) The smallest
non-zero element is an FP32 subnormal and the largest lies below the FP32 maximum. -/
def Obligations.S16Widening : Prop :=
  (∀ (e : Nat) (m : Int), e < 255 → -32767 ≤ m → m ≤ 32767 →
    (f32Val (toF32 (ofInt m ((e : Int) - 141)))).eqv (ofInt m ((e : Int) - 141)) = true) ∧
  (toF32 (ofInt 1 (-141))).toNat < 2 ^ 23 ∧ toF32 (ofInt 1 (-141)) ≠ 0 ∧
  (f32Val (toF32 (ofInt 32767 113))).lt (f32Val 0x7F7FFFFF) = true

/-- Opening an update (09 R277, Table 9-2): it takes the step number and awaits its scan; a second one completes with status 2, or the
dictionary's command is busy.
Boom's commands (09 R282, R296): an update not yet applied is abandoned with status 5, one being applied is not; the counters
are cleared. -/
def Obligations.UpdateOpening : Prop :=
  ((∀ (s : State) (q : Nat) r, spireUp s 5 → s.colHeadCmd q = some r → fieldAt r 0 1 = 0x10 → (s.part q).upd = none →
    ∃ u w, exec (.update q) s = .next u ∧ (u.part q).upd = some w ∧ w.st = 1 ∧ w.t = s.odGet q 0x6400 3 ∧ w.agroup = fieldAt r 1 1 ∧
      w.gcount = fieldAt r 2 2 ∧ w.glist = fieldAt r 8 8 ∧ u.odGet q 0x6400 8 = 1 ∧ mapGet [] u.colCmd q = (mapGet [] s.colCmd q).drop 64) ∧
  (∀ (s : State) (q : Nat) r, spireUp s 5 → s.colHeadCmd q = some r → fieldAt r 0 1 = 0x10 → (s.part q).upd ≠ none →
    ∃ u, exec (.update q) s = .next u ∧ (u.part q).upd = (s.part q).upd ∧
      eventSent s u q (fieldAt r 16 2 % 1024) (fieldAt r 18 1) (leBytes 1 0x91 ++ leBytes 1 2 ++ leBytes 2 0 ++ leBytes 4 0 ++
        leBytes 8 (s.odGet q 0x6400 3)) ∧ u.odGet q 0x6404 2 = (s.odGet q 0x6404 2 + 1) % 2 ^ 64) ∧
  (∀ (s : State) (q val tok : Nat), s.served = true → s.present q = true → (s.part q).upd = none →
    ∃ u w, exec (.startUpdate q val tok) s = .next u ∧ (u.part q).upd = some w ∧ w.st = 1 ∧ w.t = s.odGet q 0x6400 3 ∧
      w.agroup = val % 256 ∧ w.gcount = 0 ∧ u.odGet q 0x6400 8 = 1) ∧
  (∀ (s : State) (q val tok : Nat), (s.part q).upd ≠ none → exec (.startUpdate q val tok) s = .next s)) ∧
  ((∀ (s : State) (q val tok : Nat) w, s.served = true → s.present q = true → (s.part q).upd = some w → w.st ≠ 3 →
    ∃ u, exec (.abandonUpdate q val tok) s = .next u ∧ (u.part q).upd = none ∧ commitSent s u q w 5 0 ∧ u.dome = s.dome) ∧
  (∀ (s : State) (q val tok : Nat) w, (s.part q).upd = some w → w.st = 3 → exec (.abandonUpdate q val tok) s = .next s) ∧
  (∀ (s : State) (q val tok : Nat), s.served = true → s.present q = true →
    ∃ u, exec (.clearBoomCounters q val tok) s = .next u ∧ ∀ k, 1 ≤ k → k ≤ 9 → u.odGet q 0x6404 k = 0))

/-- The scan (09 R278, R279, Table 9-3): an invalid command ends its update with status 1, and so does a record that breaks Table
9-3, with its group's number; where every gradient is finite an update of no agreement group goes on to be applied; a non-finite
gradient or clip factor, an error since the last commit, or a poisoned line read ends it with status 3, and the groups, the step
number and the working sums are unchanged.
Votes (09 R280, R281): one from a rank that is not its sender's is counted and dropped; one for an update not open is held, for 16
of them, and one more is counted and dropped; the last of a group of two decides: a differing step or agreement word ends the update
with status 4 and STEP_SKEW with the own and the differing value, a member not ready with status 3, and otherwise the update is
applied. -/
def Obligations.UpdateOutcomes : Prop :=
  (∀ (s : State) (q : Nat) w, spireUp s 5 → (s.part q).upd = some w → w.st = 1 → ∀ c, (w.clip.orElse fun _ => (s.part q).clip) = some c →
    (s.updCmdBad q w = true → ∃ u, exec (.updateScanComplete q) s = .next u ∧ (u.part q).upd = none ∧ commitSent s u q w 1 0xFFFF ∧
      u.dome = s.dome) ∧
    (∀ gs, s.updCmdBad q w = false → s.listedGroups q w = some gs → portsOpen s (s.scanAccess q w gs) →
      (w.gcount ≠ 0 → s.meetsPoison [(w.glist, 2 * w.gcount)] = false) →
      (∀ g, s.firstBad q w.t gs = some g →
        ∃ u, exec (.updateScanComplete q) s = .next u ∧ (u.part q).upd = none ∧ commitSent s u q w 1 g ∧ updateUndone s u q) ∧
      (s.firstBad q w.t gs = none → w.agroup = 0xFF → s.poison = [] →
        ((∀ n ∈ gs, s.gradBad (s.grp q n) = false) → finiteW c = true → (s.part q).errSince = false →
          ∃ u v, exec (.updateScanComplete q) s = .next u ∧ (u.part q).upd = some v ∧ v.st = 3 ∧ v.groups = gs ∧ v.next = gs ∧
            u.dome = s.dome) ∧
        ((∃ n ∈ gs, s.gradBad (s.grp q n) = true) ∨ finiteW c = false ∨ (s.part q).errSince = true →
          ∃ u, exec (.updateScanComplete q) s = .next u ∧ (u.part q).upd = none ∧ commitSent s u q w 3 0 ∧ updateUndone s u q)) ∧
      (s.firstBad q w.t gs = none → w.agroup = 0xFF → (∃ a ∈ s.scanAccess q w gs, s.meetsPoison a.2 = true) →
        ∃ u, exec (.updateScanComplete q) s = .next u ∧ (u.part q).upd = none ∧ commitSent s u q w 3 0 ∧ updateUndone s u q ∧
          faultRaised u 0x0301))) ∧
  ((∀ (s : State) k r, spireUp s 5 → delivered s k r → k.kind = 0x1A → s.present k.qdst = true →
    (s.colGroup k.qdst (fieldAt k.payload 3 1)).getD (fieldAt k.payload 4 2) 0 ≠ k.slid →
    exec .voteFrame s = .next (({ s with delivery := r } : State).odAdd k.qdst 0x6404 2 1)) ∧
  (∀ (s : State) k r g n, spireUp s 5 → delivered s k r → k.kind = 0x1A → s.present k.qdst = true → fieldAt k.payload 3 1 ≤ 15 →
    g = s.colGroup k.qdst (fieldAt k.payload 3 1) → n = fieldAt k.payload 4 2 → n < g.length → g.getD n 0 = k.slid →
    (s.part k.qdst).upd = none →
    if (fieldAt k.payload 3 1, fieldAt k.payload 8 8) ∈ heldVotes s k.qdst ∨ (heldVotes s k.qdst).length < 16 then
      ∃ u v, exec .voteFrame s = .next u ∧ (u.part k.qdst).votes = (s.part k.qdst).votes ++ [v] ∧ v.rank = n ∧ v.t = fieldAt k.payload 8 8 ∧
        v.word = fieldAt k.payload 16 8
    else exec .voteFrame s = .next (({ s with delivery := r } : State).odAdd k.qdst 0x6001 3 1)) ∧
  (∀ (s : State) k r w x y n, spireUp s 5 → delivered s k r → k.kind = 0x1A → s.present k.qdst = true → (s.part k.qdst).upd = some w →
    w.st = 2 → w.agroup = fieldAt k.payload 3 1 → w.agroup ≤ 15 → (s.part k.qdst).votes = [] → s.colGroup k.qdst w.agroup = [x, y] → x ≠ y →
    s.ownLid = x ∨ s.ownLid = y → k.slid ≠ s.ownLid → n = fieldAt k.payload 4 2 → n < 2 → [x, y].getD n 0 = k.slid →
    ∃ u, exec .voteFrame s = .next u ∧
      (if fieldAt k.payload 8 8 ≠ w.t ∨ fieldAt k.payload 16 8 ≠ w.word then
        (u.part k.qdst).upd = none ∧ commitSent s u k.qdst w 4 0 ∧ updateUndone s u k.qdst ∧
          faultCarries u 0x0201 (if fieldAt k.payload 8 8 = w.t then [w.word, fieldAt k.payload 16 8] else [w.t, fieldAt k.payload 8 8])
      else if w.ready = false ∨ fieldAt k.payload 1 1 ≠ 1 then
        (u.part k.qdst).upd = none ∧ commitSent s u k.qdst w 3 0 ∧ updateUndone s u k.qdst
      else ∃ v, (u.part k.qdst).upd = some v ∧ v.st = 3 ∧ v.next = w.groups ∧
        v.shadow = (w.shadow || decide (fieldAt k.payload 2 1 = 1)))))

/-- Applying a group (09 R283, R285, R286): of a dense group that neither mixes nor has a working copy, in an update not shadowed, the
walker writes the new weights and moments of every block and nothing else, and goes on to the next group; a value of any group that
is not finite ends the update with status 6 and the group's number.
Matrix mixing (09 R290): a MIXDONE that names no outstanding group is counted; one that does has the group's weights written
from O by the update's rule; a weight or a difference that is not finite ends the update with status 6 (R283).
The commit (09 R276, R278): the step number goes up by one, the update ends with status 0 and is counted. -/
def Obligations.UpdateApplied : Prop :=
  (∀ (s : State) (q num : Nat) w rest g blocks, spireUp s 5 → (s.part q).upd = some w → w.next = num :: rest → w.st = 3 →
    s.shadowHolds q w.t = false → s.poison = [] → portsOpen s (s.walkAccess q w num) → g = s.grp q num →
    blocks = ((s.rowPlans q w.t g).flatMap fun p => (List.range (g.rowLen / 32)).map fun i =>
      s.newBlock (s.ruleOf q w.t (w.clip.getD f32One) g) p (p.row * (g.rowLen / 32) + i)) →
    ((∀ x ∈ blocks, x.bad = false) → w.shadow = false → g.work = 0 → g.rule ≠ 3 → g.sparse = false →
      memRead (writeAll s.dome (blocks.flatMap (blockWrites g))) (s.groupAddr q num) 128 = g.raw →
      ∃ u v, exec (.walkerGroupComplete q) s = .next u ∧ (u.part q).upd = some v ∧ v.next = rest ∧ v.done = w.done ++ [num] ∧
        u.dome = writeAll s.dome (blocks.flatMap (blockWrites g)) ∧
        u.odGet q 0x6404 4 = (s.odGet q 0x6404 4 + g.elems) % 2 ^ 64) ∧
    ((∃ x ∈ blocks, x.bad = true) →
      ∃ u, exec (.walkerGroupComplete q) s = .next u ∧ (u.part q).upd = none ∧ commitSent s u q w 6 num)) ∧
  ((∀ (s : State) (q : Nat) r, spireUp s 5 → s.colHeadCmd q = some r → fieldAt r 0 1 = 0x11 →
    (∀ w, (s.part q).upd = some w → fieldAt r 2 2 ∉ w.mixOut) → exec (.mixdone q) s = .next ((s.colPop q).odAdd q 0x6404 9 1)) ∧
  (∀ (s : State) (q num : Nat) r w g rl (W U : Nat → W32), spireUp s 5 → s.colHeadCmd q = some r → fieldAt r 0 1 = 0x11 → num = fieldAt r 2 2 →
    (s.part q).upd = some w → num ∈ w.mixOut → w.shadow = false → g = s.grp q num → g.work = 0 → g.rowLen % 32 = 0 →
    cleanPort s (walkerUnit (domeOf g.master)) [(g.mixOut, 4 * g.elems), (g.master, 4 * g.elems)] →
    (g.master + 4 * g.elems ≤ s.groupAddr q num ∨ s.groupAddr q num + 128 ≤ g.master) → rl = s.ruleOf q w.t (w.clip.getD f32One) g →
    (∀ k, W k = BitVec.ofNat 32 (s.domeNat (g.master + 4 * k) 4)) →
    (∀ k, U k = f32Mul (g.f32 120) (BitVec.ofNat 32 (s.domeNat (g.mixOut + 4 * k) 4))) →
    ((∀ k < g.elems, finiteW (rl.weight (W k) (U k)) = true ∧ finiteW (f32Sub (rl.weight (W k) (U k)) (W k)) = true) →
      ∃ u v, exec (.mixdone q) s = .next u ∧ (u.part q).upd = some v ∧ v.mixOut = w.mixOut.erase num ∧ v.done = w.done ++ [num] ∧
        ∀ k < g.elems, memNat u.dome (g.master + 4 * k) 4 = (rl.weight (W k) (U k)).toNat) ∧
    ((∃ k < g.elems, finiteW (rl.weight (W k) (U k)) = false ∨ finiteW (f32Sub (rl.weight (W k) (U k)) (W k)) = false) →
      ∃ u, exec (.mixdone q) s = .next u ∧ (u.part q).upd = none ∧ commitSent s u q w 6 num))) ∧
  (∀ (s : State) (q : Nat) w, spireUp s 5 → (s.part q).upd = some w → w.ready' = true → s.shadowHolds q w.t = false →
    cleanPort s (engineUnit 2) (s.commitReads q w ++ s.formatWords q) → w.shadow = false →
    ∃ u, exec (.updateCommit q) s = .next u ∧ (u.part q).upd = none ∧ u.odGet q 0x6400 3 = (w.t + 1) % 2 ^ 64 ∧ u.odGet q 0x6400 8 = 0 ∧
      commitSent s u q w 0 0 ∧ u.odGet q 0x6404 1 = (s.odGet q 0x6404 1 + 1) % 2 ^ 64)

/-! Faults and survival (14). -/

/-- Faults (14 R416, R417, R419): a record of low severity is delivered; a record of an error opens a case, numbered, with its
unit's test awaited, and stops the partition's job; a second error of a unit with an open case fences the unit and closes
the case.
Containment (14 R426, R427): an error in the handling path, a sixty-fifth case, or a test that does not start contains the
device. -/
def Obligations.FaultHandling : Prop :=
  ((∀ (s : State) n r p, faultNext s n r → n.sev < 2 →
    exec (.faultRecordArrival p) s = .next ((({ s with faultQ := r } : State).countFault n.code).deliver n)) ∧
  (∀ (s : State) n r k, faultNext s n r → 2 ≤ n.sev → s.caseOf (s.caseUnit n.source) = none → s.openCases < 64 →
    ((List.range 64).find? fun k => !(s.case k).open_) = some k → hasTest (s.caseUnit n.source) = true → bootObject n = false →
    ∃ u, exec (.faultRecordArrival false) s = .next u ∧ (u.case k).open_ = true ∧ (u.case k).unit = s.caseUnit n.source ∧
      (u.case k).code = n.code ∧ (u.case k).num = s.odGet 0 0x8001 2 ∧ (u.case k).st = 2 ∧ u.odGet 0 (0x8010 + k) 2 = 2 ∧
      u.odGet 0 0x8001 2 = (s.odGet 0 0x8001 2 + 1) % 2 ^ 32 ∧
      (n.devwide = false → n.part < 4 → s.jobRuns n.part = true → u.jobState n.part = 2)) ∧
  (∀ (s : State) n r k, faultNext s n r → 2 ≤ n.sev → s.caseOf (s.caseUnit n.source) = some k → (s.case k).unit / 2 ^ 24 = 8 →
    ∃ u, exec (.faultRecordArrival false) s = .next u ∧ (s.case k).unit % 2 ^ 24 ∈ u.fencedSpire ∧ caseClosed u k 3)) ∧
  ((∀ (s : State) n r, faultNext s n r → 2 ≤ n.sev → ∃ u, exec (.faultRecordArrival true) s = .next u ∧ containedState u) ∧
  (∀ (s : State) n r, faultNext s n r → 2 ≤ n.sev → s.caseOf (s.caseUnit n.source) = none → 64 ≤ s.openCases →
    ∃ u, exec (.faultRecordArrival false) s = .next u ∧ containedState u) ∧
  (∀ (s : State) unit k, s.handling = true → s.caseOf (s.caseUnit unit) = some k → (s.case k).st = 2 →
    ∃ u, exec (.testStartTimeout unit) s = .next u ∧ containedState u))

/-- The contained state (14 R427): nothing the device does from then on changes its memory, its spars, its partitions or its ports,
until a device reset, a loss of power or a thermal trip (15 R470) ends the state. -/
def Obligations.ContainedState : Prop :=
  ∀ (c : Instr) (s u : State), s.boot = .contained → exec c s = .next u →
    (u.boot = .contained → sameMachine s u) ∧
    (s.pwrgd = true → s.rstN = false → c ≠ .rstNAssert → c ≠ .pwrgdDeassert → (∀ k temp, c ≠ .thermalTrip k temp) → u.boot = .contained)

/-- Targeted tests (14 R420-R423): a waiting case's unit is tested, a berth's spar pausing meanwhile; a passed test closes the case
as permanent for a precise fault, as transient within the limit, and otherwise the unit is fenced; a failed test fences it.
Periodic slices (14 R428-R432): the next berth in turn falls due, runs once it may, with its spar paused, and its outcome is
counted; one that could not run in time is deferred and counted. -/
def Obligations.TargetedTests : Prop :=
  ((∀ (s : State) unit x k, s.handling = true → x = s.caseUnit unit → s.caseOf x = some k → (s.case k).st = 2 → s.unitFenced x = false →
    x / 2 ^ 24 ≠ 3 → ∃ u, exec (.targetedTestStart unit) s = .next u ∧ (u.case k).st = 3 ∧ u.odGet 0 (0x8010 + k) 2 = 3 ∧ x ∈ u.testing) ∧
  (∀ (s : State) unit x k, s.handling = true → x = s.caseUnit unit → s.caseOf x = some k → (s.case k).st = 2 → s.unitFenced x = false →
    x / 2 ^ 24 = 3 → s.towerTests (x % 2 ^ 24 / 132) (x % 2 ^ 24) = false →
    portOpen s manageUnit [(s.saveRegion (x % 2 ^ 24 / 132), if s.saveRegion (x % 2 ^ 24 / 132) = 0 then 0 else saveBytes)] →
    ∃ u, exec (.targetedTestStart unit) s = .next u ∧ (u.case k).st = 3 ∧ x ∈ u.testing ∧
      ∀ i, s.sparAt (x % 2 ^ 24) = some i → (u.spar i).paused = true) ∧
  (∀ (s : State) unit x k gone, s.handling = true → x = s.caseUnit unit → s.caseOf x = some k → (s.case k).st = 3 → s.testing.Nodup →
    ∃ u, exec (.targetedTestEnd unit .pass gone) s = .next u ∧ x ∉ u.testing ∧
      caseClosed u k (if faultClass (s.case k).code = 0 then 1
        else if (dropTransients x gone s.transients).count x + 1 ≤ s.odGet 0 0x8001 4 then 2 else 3)) ∧
  (∀ (s : State) unit k p g gone, s.handling = true → s.caseOf (s.caseUnit unit) = some k → (s.case k).st = 3 →
    (s.case k).unit / 2 ^ 24 = 8 →
    ∃ u, exec (.targetedTestEnd unit (.fail p g) gone) s = .next u ∧ (s.case k).unit % 2 ^ 24 ∈ u.fencedSpire ∧ caseClosed u k 3)) ∧
  ((∀ (s : State) t b, s.live = true → s.slice t = none → s.nextBerth t (mapGet 0 s.sliceNext t) = some b → s.saveRegion t ≠ 0 →
    ∃ u, exec (.sliceDue t) s = .next u ∧ u.slice t = some { berth := b, due := true, active := false } ∧
      mapGet 0 u.sliceNext t = (b + 1) % 132) ∧
  (∀ (s : State) t x, s.live = true → s.slice t = some x → x.active = false → s.towerTests t (132 * t + x.berth) = false →
    s.caseOf (berthUnit t x.berth) = none → s.sliceReady (132 * t + x.berth) = true →
    portOpen s manageUnit [(s.saveRegion t, if s.saveRegion t = 0 then 0 else saveBytes)] →
    ∃ u, exec (.sliceStart t) s = .next u ∧ u.slice t = some { x with due := false, active := true } ∧
      ∀ i, s.sparAt (132 * t + x.berth) = some i → (u.spar i).paused = true) ∧
  (∀ (s : State) t x, s.live = true → s.slice t = some x → x.active = false →
    ∃ u, exec (.sliceDefer t) s = .next u ∧ u.slice t = none ∧ u.odGet 0 (0x8100 + t) 8 = (s.odGet 0 (0x8100 + t) 8 + 1) % 2 ^ 64) ∧
  (∀ (s : State) t x res sub, s.live = true → s.slice t = some x → x.active = true →
    (match res with | .pass => sub = 3 | .marginal => sub = 5 | .fail _ _ => sub = 4 | .external => False) →
    ∃ u, exec (.sliceEnd t res) s = .next u ∧ u.slice t = none ∧ u.odGet 0 (0x8100 + t) sub = (s.odGet 0 (0x8100 + t) sub + 1) % 2 ^ 64 ∧
      (∀ i, s.sparAt (132 * t + x.berth) = some i → (u.spar i).paused = false) ∧
      (sub = 4 → ∃ n, u.faultQ = s.faultQ ++ [n] ∧ n.code = 0x0601 ∧ n.source = berthUnit t x.berth)))

/-- The risk score (14 R433, R434): the score of the window that ends now is stored with its levels, the sample joins those of the
windows to come (that a sample is taken with each score is the model's choice, log 28), and each partition's shadow request follows it by the partition's mode.
Shadow pieces received (14 R440): a piece that is not from the partition's source is counted and dropped; a data piece is written
at its offset; END of a whole image makes it the image's generation, and END of another raises SHADOW_MISMATCH.
The sender hears (14 R441): a commit of the generation being sent makes it the last committed one; a mismatch is raised and the
completion is still awaited; a refused image, or a limit passed after END, loses the generation. -/
def Obligations.ShadowPieces : Prop :=
  (∀ (s : State) old l v, spireUp s 6 → l = s.riskLevels (s.riskInputs old) → v = s.riskScore l →
    ∃ u, exec (.riskScore old) s = .next u ∧ u.odGet 0 0x7000 1 = v ∧ v ≤ 255 ∧ u.blobGet 0 0x7000 5 = l.map (BitVec.ofNat 8) ∧
      u.riskHist = (s.riskSample :: s.riskHist).take 36000 ∧
      ∀ q < 4, s.present q = true → (u.part q).shReq =
        if s.odGet 0 (shadowIdx q) 1 = 1 then true else if s.odGet 0 (shadowIdx q) 1 = 2 then false
        else if s.odGet 0 0x7000 2 ≤ v then true else if v + s.odGet 0 0x7000 3 < s.odGet 0 0x7000 2 then false else (s.part q).shReq) ∧
  ((∀ (s : State) k r, spireUp s 6 → delivered s k r → k.kind = 0x1B → pieceCode k = 1 → s.fromSource k = false →
    exec .shadowDataPiece s = .next (({ s with delivery := r } : State).odAdd 0 (recvIdx k.qdst) 8 1)) ∧
  (∀ (s : State) k r h a, spireUp s 6 → delivered s k r → k.kind = 0x1B → pieceCode k = 1 → s.fromSource k = true →
    cleanPort s lookoutUnit [(a, (pieceData k).length)] → (s.part k.qdst).shRecv = some h → h.gen = pieceGen k → h.oldest ≤ h.gen → h.refused = false →
    a = s.imageBase k.qdst h.image + pieceOff k → pieceOff k + (pieceData k).length ≤ s.odGet 0 (recvIdx k.qdst) 3 →
    s.rangeInMap k.qdst a (pieceData k).length = true →
    ∃ u, exec .shadowDataPiece s = .next u ∧ u.delivery = r ∧ u.dome = memWrite s.dome a (pieceData k) ∧
      (u.part k.qdst).shRecv = some { h with bytes := h.bytes + (pieceData k).length }) ∧
  (∀ (s : State) k r h, spireUp s 6 → delivered s k r → k.kind = 0x1B → pieceCode k = 2 → s.fromSource k = true →
    (s.part k.qdst).shRecv = some h → h.gen = pieceGen k → h.oldest ≤ h.gen → h.refused = false → h.image < 2 →
    pieceOff k ≤ s.odGet 0 (recvIdx k.qdst) 3 →
    ∃ u, exec .shadowEndPiece s = .next u ∧ r <+: u.delivery ∧ (u.part k.qdst).shRecv = none ∧
      (if h.bytes = pieceOff k then u.odGet 0 (recvIdx k.qdst) (6 + h.image) = h.gen
       else u.odGet 0 (recvIdx k.qdst) (6 + h.image) = s.odGet 0 (recvIdx k.qdst) (6 + h.image) ∧ faultRaised u 0x0606))) ∧
  ((∀ (s : State) k r h i, spireUp s 6 → delivered s k r → k.kind = 0x1B → pieceCode k = 3 → s.present k.qdst = true → i = shadowIdx k.qdst →
    (s.part k.qdst).shSend = some h → h.gen = pieceGen k → s.odGet 0 i 2 = k.slid →
    (pieceStatus k = 0 → ∃ u, exec .shadowCommitPiece s = .next u ∧ (u.part k.qdst).shSend = none ∧ u.odGet 0 i 4 = h.gen ∧
      u.odGet 0 i 5 = 0 ∧ u.odGet 0 i 6 = (s.odGet 0 i 6 + 1) % 2 ^ 64) ∧
    (pieceStatus k = 1 → ∃ u, exec .shadowCommitPiece s = .next u ∧ (u.part k.qdst).shSend = some h ∧ faultRaised u 0x0606) ∧
    (pieceStatus k = 2 → ∃ u, exec .shadowCommitPiece s = .next u ∧ (u.part k.qdst).shSend = none ∧ faultRaised u 0x0606 ∧
      faultRaised u 0x0607 ∧ u.odGet 0 i 8 = (s.odGet 0 i 8 + 1) % 2 ^ 64)) ∧
  (∀ (s : State) (q : Nat) h, spireUp s 6 → (s.part q).shSend = some h →
    (h.ended = true → ∃ u, exec (.shadowCompletionTimeout q) s = .next u ∧ (u.part q).shSend = none ∧ faultRaised u 0x0607 ∧
      u.odGet 0 (shadowIdx q) 8 = (s.odGet 0 (shadowIdx q) 8 + 1) % 2 ^ 64) ∧
    (h.ended = false → exec (.shadowCompletionTimeout q) s = .next s)))

/-- Restores (14 R442): the command asks the buddy, unless the partition is at work; the buddy streams the image it holds, or refuses;
the pieces are held until the image is whole, and then the partition takes the generation's step. -/
def Obligations.Restores : Prop :=
  (∀ (s : State) (q val tok : Nat), s.served = true → s.present q = true → s.jobRuns q = false → (s.part q).batches = [] →
    (s.part q).cols = [] → (s.part q).upd = none → (s.part q).shSend = none → s.stillRuns ((0x7120 + q) * 256 + 3) q = false →
    ∃ u w, exec (.startRestore q val tok) s = .next u ∧ (u.part q).restore = some w ∧ w.gen = s.odGet 0 (0x7120 + q) 2 ∧
      u.stillRuns ((0x7120 + q) * 256 + 3) q = true) ∧
  (∀ (s : State) (q val tok : Nat), s.jobRuns q = true ∨ (s.part q).batches ≠ [] ∨ (s.part q).cols ≠ [] ∨ (s.part q).upd ≠ none →
    exec (.startRestore q val tok) s = .next s) ∧
  (∀ (s : State) k r, spireUp s 6 → delivered s k r → k.kind = 0x1B → pieceCode k = 4 → s.fromSource k = true →
    s.imageOf k.qdst (pieceGen k) = none →
    exec .restoreRequest s = .next (({ s with delivery := r } : State).sendPiece k.qdst k.slid k.qsrc 3 3 (pieceGen k) 0 [])) ∧
  (∀ (s : State) k r i n, spireUp s 6 → delivered s k r → k.kind = 0x1B → pieceCode k = 4 → s.fromSource k = true →
    s.imageOf k.qdst (pieceGen k) = some i → n = mapGet 0 (s.part k.qdst).imgBytes i →
    cleanPort s lookoutUnit [(s.imageBase k.qdst i, n)] →
    exec .restoreRequest s = .next ((({ s.takeAsk lookoutUnit [(s.imageBase k.qdst i, n)] with delivery := r } : State).sendRun k.qdst k.slid k.qsrc 5 (pieceGen k) 0
      (s.domeRead (s.imageBase k.qdst i) n)).sendPiece k.qdst k.slid k.qsrc 6 0 (pieceGen k) n [])) ∧
  (∀ (s : State) k r w, spireUp s 6 → delivered s k r → k.kind = 0x1B → pieceCode k = 5 → s.restoreOf k = some w →
    exec .restoreDataPiece s = .next (({ s with delivery := r } : State).modPart k.qdst fun p => { p with
      restore := some { w with bytes := w.bytes + (pieceData k).length, data := memWrite w.data (pieceOff k) (pieceData k) } })) ∧
  (∀ (s : State) k r w, spireUp s 6 → delivered s k r → k.kind = 0x1B → pieceCode k = 6 → s.restoreOf k = some w →
    cleanPort s lookoutUnit (s.restoreRanges k) →
    ∃ u, exec .restoreEndPiece s = .next u ∧ (u.part k.qdst).restore = none ∧
      (if w.bytes = pieceOff k then u.odGet 0 (0x7120 + k.qdst) 4 = 0 ∧ u.odGet k.qdst 0x6400 3 = w.gen ∧ (u.part k.qdst).cancelled = []
       else u.odGet 0 (0x7120 + k.qdst) 4 = 1 ∧ u.dome = s.dome))

/-! Power, boot and identity (15-17). -/

/-- Alert inputs (15 R448, R453, R465): an assertion is counted, raises the causes of state 3 and starts a downward change; a release
waits, and a status word without alert ends the cause; the record is sent again as a reminder while it lasts.
Regulators (15 R447, R448): a valid answer is recorded; without one, without VDone in time, or with an alert set the regulator is
at fault: counted, and VR_ALERT raised; a later status word without alert ends the fault. (Which status words carry an alert the
spec leaves open, log 29.) -/
def Obligations.Regulators : Prop :=
  ((∀ (s : State) (g n : Nat), s.handling = true → g < 4 →
    ∃ u, exec (.vralertAssert g n) s = .next u ∧ g ∈ u.power.alerts ∧ u.odGet 0 (inputIdx g) 1 = 1 ∧
      u.odGet 0 (railIdx g) 7 = (s.odGet 0 (railIdx g) 7 + 1) % 2 ^ 64 ∧
      (s.pState < 3 → u.power.move = .down ∧ u.power.target = 3)) ∧
  (∀ (s : State) (g : Nat), s.handling = true → g < 4 → s.masked g = false → g ∈ s.power.alerts →
    ∃ u, exec (.vralertRelease g) s = .next u ∧ u.odGet 0 (inputIdx g) 1 = 0 ∧ g ∈ u.power.alertWait ∧ g ∈ u.power.alerts) ∧
  (∀ (s : State) (g w : Nat), s.handling = true → g ∈ s.power.alertWait →
    ∃ u, exec (.alertReleaseWaitExpiry g (some w)) s = .next u ∧ g ∉ u.power.alertWait ∧
      (Config.statusAlert w = false → g ∉ u.power.alerts) ∧ (Config.statusAlert w = true → g ∈ u.power.regFaults)) ∧
  (∀ (s : State) (g : Nat), s.handling = true → g ∈ s.power.alertWait → g ∉ s.power.regFaults →
    ∃ u, exec (.alertReleaseWaitExpiry g none) s = .next u ∧ g ∈ u.power.regFaults ∧ u.power.alerts = s.power.alerts) ∧
  (∀ (s : State) (g : Nat) n, s.handling = true → (s.power.alertRec.find? fun e => e.1 = g) = some (g, n) → s.inputOn g = true →
    exec (.alertReminder g) s = .next (s.deliver { n with ty := 6 }))) ∧
  ((∀ (s : State) (g : Nat) rd, s.handling = true → rd.valid = true →
    ∃ u, exec (.avsbusPoll g rd) s = .next u ∧ u.odGet 0 (railIdx g) 3 = rd.volt % 2 ^ 16 ∧ u.odGet 0 (railIdx g) 4 = rd.cur % 2 ^ 16 ∧
      u.odGet 0 (railIdx g) 5 = ofSigned 8 rd.temp ∧
      u.odGet 0 (railIdx g) 6 = rd.status % 2 ^ 16 ∧
      (Config.statusAlert rd.status = false → u.power = s.power) ∧ (Config.statusAlert rd.status = true → g ∈ u.power.regFaults)) ∧
  (∀ (s : State) (g : Nat) rd, s.handling = true → rd.valid = false → g ∉ s.power.regFaults → (∀ e ∈ s.power.alertRec, e.1 ≠ g) →
    ∃ u, exec (.avsbusPoll g rd) s = .next u ∧ g ∈ u.power.regFaults ∧ faultRaised u 0x0801 ∧
      u.odGet 0 (railIdx g) 8 = (s.odGet 0 (railIdx g) 8 + 1) % 2 ^ 64) ∧
  (∀ (s : State) (g : Nat), s.handling = true → g ∈ s.power.vdoneWait → g ∉ s.power.regFaults → (∀ e ∈ s.power.alertRec, e.1 ≠ g) →
    ∃ u, exec (.vdoneTimeout g) s = .next u ∧ g ∈ u.power.regFaults ∧ faultRaised u 0x0801) ∧
  (∀ (s : State) (g w : Nat), s.handling = true → g ∈ s.power.regFaults →
    ∃ u, exec (.regulatorStatusRetry g (some w)) s = .next u ∧ u.odGet 0 (railIdx g) 6 = w % 2 ^ 16 ∧
      (Config.statusAlert w = false → g ∉ u.power.regFaults) ∧ (Config.statusAlert w = true → u.power = s.power)) ∧
  (∀ (s : State) (g : Nat), s.handling = true → exec (.regulatorStatusRetry g none) s = .next s))

/-- Performance states (15 R450, R451): a cap beyond 3 is refused, a lower one starts a downward change; the islands change their
periods first and the voltages follow; an upward change reaches the islands once both groups have their voltage.
Monitored inputs (15 R465, R466): SLOW_N lowers the state while it is asserted; more than 1,000 assertions in 10 ms mask an input
and raise INPUT_STORM; unmasked, its filtered level takes effect. -/
def Obligations.PerformanceStates : Prop :=
  ((∀ (s : State) (v : Nat), s.served = true → v ≤ 3 → ∃ u, exec (.stateCapWrite v) s = .next u ∧ u.odGet 0 0x9001 2 = v ∧
    (s.pState < v → u.power.move = .down ∧ v ≤ u.power.target)) ∧
  (∀ (s : State) (v : Nat), 3 < v → exec (.stateCapWrite v) s = .next s) ∧
  (∀ (s : State) (n : Nat), s.handling = true → s.power.move = .down → s.power.target = n → s.pState < n →
    ∃ u, exec .islandsFrequencyAck s = .next u ∧ u.pState = n ∧ u.odGet 0 0x9001 4 = (s.odGet 0 0x9001 4 + 1) % 2 ^ 64 ∧
      u.power.vdoneWait = [0, 1] ∧ (∀ g < 2, u.odGet 0 (railIdx g) 1 = s.railTarget g n) ∧
      ∀ t < 8, ∀ x, s.slice t = some x → x.active = true → u.slice t = none) ∧
  (∀ (s : State) (n : Nat), s.handling = true → s.power.vdoneWait ≠ [] → s.power.move = .up → s.power.target = n →
    ∃ u, exec .vdoneRead s = .next u ∧ u.pState = n ∧ u.odGet 0 0x9001 4 = (s.odGet 0 0x9001 4 + 1) % 2 ^ 64)) ∧
  ((∀ (s : State) (n : Nat), s.handling = true → ∃ u, exec (.slowNAssert n) s = .next u ∧ u.odGet 0 (inputIdx 4) 1 = 1 ∧
    u.odGet 0 (inputIdx 4) 3 = (s.odGet 0 (inputIdx 4) 3 + 1) % 2 ^ 64 ∧ (s.pState < 3 → u.power.move = .down ∧ u.power.target = 3) ∧
    (1000 < n → s.masked 4 = false → u.masked 4 = true ∧ faultRaised u 0x0803)) ∧
  (∀ (s : State), s.handling = true → ∃ u, exec .slowNRelease s = .next u ∧ u.odGet 0 (inputIdx 4) 1 = 0) ∧
  (∀ (s : State) (i : Nat) b, s.handling = true → s.masked i = true → ∃ u, exec (.inputUnmask i b) s = .next u ∧ u.masked i = false ∧
    u.level i = b) ∧
  (∀ (s : State) (i : Nat) b, s.masked i = false → exec (.inputUnmask i b) s = .next s))

/-- Temperature (15 R467-R470): a margin of 0 or less takes the controller to 3 and raises THERMAL once; a margin below the step-down
margin lowers it by one; a margin held above the step-up margin raises it by one; the trip stops the device for good.
Oscillators (15 R458, R459): a trim is counted for the islands of every clock record; an island in a droop stretches its cycles,
and at its end the stretched cycles are counted and its cycle counter lags by no more than them. -/
def Obligations.ThermalControl : Prop :=
  ((∀ (s : State) rs, s.handling = true → rs.length = 88 → (smallestMargin rs).2 ≤ 0 → s.power.excursion = false →
    ∃ u, exec (.thermalReading rs) s = .next u ∧ u.power.thermal = 3 ∧ u.power.excursion = true ∧ faultRaised u 0x0802 ∧
      u.odGet 0 0x9030 3 = (s.odGet 0 0x9030 3 + 1) % 2 ^ 64 ∧
      u.power.hotDomes = (List.range 16).filter fun d => decide (340 < rs.getD (36 + d) 0)) ∧
  (∀ (s : State) rs, s.handling = true → rs.length = 88 → 0 < (smallestMargin rs).2 → (smallestMargin rs).2 < s.marginOf 5 →
    ∃ u, exec (.thermalReading rs) s = .next u ∧ u.power.thermal = min 3 (s.power.thermal + 1)) ∧
  (∀ (s : State), s.handling = true → s.marginOf 6 ≤ toSigned 32 (s.odGet 0 0x9030 2) →
    ∃ u, exec .thermalStepUp s = .next u ∧ u.power.thermal = s.power.thermal - 1 ∧ u.power.excursion = false) ∧
  (∀ (s : State) k t, s.pwrgd = true → s.tripN = false → k < 88 → sensorTrip k ≤ t →
    ∃ u, exec (.thermalTrip k t) s = .next u ∧ u.boot = .stopped ∧ u.tripN = true ∧ u.faultN = true ∧ sameMachine s u)) ∧
  ((∀ (s : State), s.handling = true → ∃ u, exec .oscillatorTrim s = .next u ∧
    ∀ k < 9, u.odGet 0 (0x9020 + k) 3 = (s.odGet 0 (0x9020 + k) 3 + (if k < 8 then 135 else 24)) % 2 ^ 64) ∧
  (∀ (s : State) (i : Nat), s.handling = true → ∃ u, exec (.supplyDroop i) s = .next u ∧ i ∈ u.power.droop ∧ u.od = s.od) ∧
  (∀ (s : State) (i n : Nat), s.handling = true → i ∈ s.power.droop → 0 < n → ∃ u, exec (.supplyRecovery i n) s = .next u ∧
    i ∉ u.power.droop ∧ u.odGet 0 (clockIdx i) 1 = (s.odGet 0 (clockIdx i) 1 + 1) % 2 ^ 64 ∧
    u.odGet 0 (clockIdx i) 2 = (s.odGet 0 (clockIdx i) 2 + n) % 2 ^ 64 ∧ mapGet 0 s.cycLost i ≤ mapGet 0 u.cycLost i ∧
    mapGet 0 u.cycLost i ≤ mapGet 0 s.cycLost i + n))

/-- Power and resets (15 R455, R456, R462, R464): power in the order of the sequence holds the device in reset, and another order has
no defined behaviour; a reset leaves every object at its default and no dome contents; a loss of power stops everything.
Boot (16 R477-R483): at the release of RST_N the straps are taken, the identity key is unwrapped, and an accepted image runs, or the
recovery state is entered, as it is where the flash holds no image; the firmware makes the dictionary ready, sets the calibrated voltages and fences the failed berths; trained
domes hold zeros, and the device is in service. -/
def Obligations.PowerAndBoot : Prop :=
  ((∀ (s : State), s.pwrgd = false → exec (.pwrgdAssert true) s = .next { s with pwrgd := true, boot := .reset }) ∧
  (∀ (s : State), s.pwrgd = false → exec (.pwrgdAssert false) s = .fault .wrongPowerOrder) ∧
  (∀ (s : State), ∃ u, exec .pwrgdDeassert s = .next u ∧ u.boot = .off ∧ u.puf = none ∧ u.pwrgd = false ∧ u.tripN = false ∧ u.dome = [] ∧ u.od = [] ∧
    u.spars = []) ∧
  (∀ (s : State), ∃ u, exec .rstNAssert s = .next u ∧ u.rstN = true ∧ u.puf = s.puf ∧ u.dome = [] ∧ u.od = [] ∧ u.blobs = [] ∧ u.spars = [] ∧
    u.parts = [] ∧ u.faultN = s.tripN ∧ u.boot = if s.tripN then .stopped else if s.pwrgd then .reset else .off)) ∧
  ((∀ (s : State) st fl pf, s.rstN = true → s.pwrgd = true → s.tripN = false →
    ∃ u, exec (.rstNRelease st fl pf) s = .next u ∧ u.puf = some (s.puf.getD pf) ∧ u.rstN = false ∧ u.odGet 0 0x4001 0 = st.toNat ∧ u.flash = fl ∧
      u.identity = (match unwrapIdentity (s.puf.getD pf) fl with | .ok k => some (Config.publicKey k) | .error _ => s.identity) ∧
      (u.boot = .firmware ∨ (u.boot = .recovery ∧ u.faultN = true)) ∧
      (flashObject fl 1 = none → flashObject fl 2 = none → u.boot = .recovery)) ∧
  (∀ (s : State) st fl pf, s.rstN = true → s.pwrgd = false → exec (.rstNRelease st fl pf) s = .fault .wrongPowerOrder) ∧
  (∀ (s : State) a b fails marg, s.boot = .firmware → ∃ u, exec (.firmwareStart a b fails marg) s = .next u ∧ u.boot = .training ∧
    (u.odGet 0 0x0011 0).testBit 0 = true ∧ (u.odGet 0 0x0011 0).testBit 1 = true ∧ u.odGet 0 (railIdx 0) 2 = a ∧ u.odGet 0 (railIdx 1) 2 = b ∧
    ∀ t < 8, ∀ k < 132, 132 * t + k ∈ fails → (u.berthMap t).getD k 0 = 0xFF) ∧
  (∀ (s : State) failed, s.boot = .training → ∃ u, exec (.domeTrainingComplete failed) s = .next u ∧ u.boot = .ready ∧ u.dome = [] ∧
    u.poison = [] ∧ (u.odGet 0 0x0011 0).testBit 2 = true ∧ ∀ d ∈ failed, d ∈ u.domeOff))

/-- The test access port (17 R492): IDCODE shows the device's code; EXTEST, HIGHZ and CLAMP drive the pins only while RST_N is
asserted, and act as BYPASS otherwise.
Attestation (16 R485, R486): a version request begins a connection, over DOE or for a Shroud source; of Shroud sources at most 8
are served, and a ninth is told Busy and counted; a challenge before the algorithms are agreed is refused; an idle connection
ends. DOE answers discovery, and a heartbeat inside an established session (12 R378). -/
def Obligations.Attestation : Prop :=
  (∀ (s : State) cells,
    exec .tapBypass s = .next { s with tap := { s.tap with ir := 0, dr := 0, driven := [], highz := false } } ∧
    exec .tapIdcode s = .next { s with tap := { s.tap with ir := 1, dr := 0x10A51B5D, driven := [], highz := false } } ∧
    exec (.tapSamplePreload cells) s = .next { s with tap := { s.tap with ir := 2, preload := cells, driven := [], highz := false } } ∧
    (s.rstN = true →
      exec .tapExtest s = .next { s with tap := { s.tap with ir := 3, driven := s.tap.preload, highz := false } } ∧
      exec .tapHighz s = .next { s with tap := { s.tap with ir := 4, dr := 0, driven := [], highz := true } } ∧
      exec .tapClamp s = .next { s with tap := { s.tap with ir := 5, dr := 0, driven := s.tap.preload, highz := false } }) ∧
    (s.rstN = false → exec .tapExtest s = exec .tapBypass s ∧ exec .tapHighz s = exec .tapBypass s ∧ exec .tapClamp s = exec .tapBypass s)) ∧
  ((∀ (s : State) b, s.spdmUp = true → s.cxl.link = 3 → 4 ≤ b.length → fieldAt b 1 1 = 0x84 →
    ∃ u m, exec (.spdmRequest none b) s = .next u ∧ u.out = s.out ++ [m] ∧ m.kind = 8 ∧ m.data = [0x10, 0x04, 0, 0, 0, 1, 0x00, 0x12] ∧
      u.cxl.spdmDoe = 1) ∧
  (∀ (s : State) b, s.spdmUp = true → s.cxl.link = 3 → 4 ≤ b.length → fieldAt b 0 1 = 0x12 → fieldAt b 1 1 = 0x83 → s.cxl.spdmDoe < 3 →
    ∃ u m, exec (.spdmRequest none b) s = .next u ∧ u.out = s.out ++ [m] ∧ m.kind = 8 ∧ fieldAt m.data 1 1 = 0x7F ∧
      u.cxl.spdmDoe = s.cxl.spdmDoe) ∧
  (∀ (s : State) lid b, s.spdmUp = true → 4 ≤ b.length → fieldAt b 1 1 = 0x84 → s.spdmPeer lid = none → s.cxl.spdmPeers.length < 8 →
    ∃ u, exec (.spdmRequest (some lid) b) s = .next u ∧ u.spdmPeer lid = some 1 ∧ u.cxl.spdmPeers.length = s.cxl.spdmPeers.length + 1) ∧
  (∀ (s : State) lid b, s.spdmUp = true → s.spdmPeer lid = none → 8 ≤ s.cxl.spdmPeers.length →
    ∃ u, exec (.spdmRequest (some lid) b) s = .next u ∧ u.cxl.spdmPeers = s.cxl.spdmPeers ∧
      u.odGet 0 0xA000 7 = (s.odGet 0 0xA000 7 + 1) % 2 ^ 64) ∧
  (∀ (s : State) lid, s.spdmUp = true → ∃ u, exec (.spdmConnectionIdle lid) s = .next u ∧ u.spdmPeer lid = none ∧
    ∀ l, l ≠ lid → u.spdmPeer l = s.spdmPeer l) ∧
  (∀ (s : State) b, s.cxl.link = 3 → s.fwReady = true → b.length ≤ 16384 → s.unitOut (spireUnit 0) = false → fieldAt b 0 1 = 0 →
    ∃ m, exec (.doeRequest 0 0 b) s = .next { s with out := s.out ++ [m] } ∧ m.kind = 8 ∧ m.data = [1, 0, 0, 1]) ∧
  (∀ (s : State), s.spdmUp = true → s.cxl.link = 3 → s.unitOut (spireUnit 0) = false → s.cxl.spdmDoe = 5 →
    ∃ u m, exec (.doeRequest 0 2 [0x12, 0xE8, 0, 0]) s = .next u ∧ u.out = s.out ++ [m] ∧ m.kind = 8 ∧ m.data = [0x12, 0x68, 0, 0] ∧
      u.cxl.spdmDoe = 5))

/-! The block as a whole. -/

/-- A step takes the command at the front of the queue and answers what it does with the queue's rest; with none waiting the block
idles, its cycle counters advancing while its islands run (the model's own choice, logs 5 and 20). -/
def Obligations.StepRunsCommand : Prop :=
  (∀ (c : Instr) (s : State) r, s.pending = c :: r → step s = exec c { s with pending := r }) ∧
  (∀ (s : State), s.pending = [] → ∃ u, step s = .next u ∧ u.dome = s.dome ∧ u.spars = s.spars ∧
    u.cyc = if s.islandsRun then s.cyc + 1 else s.cyc)

/-- What a device reset leaves (13 R387, 10 R301, 14 Tables 14-6 and 14-12, 11 Table 11-10): the values the dictionary's tables state. -/
def Obligations.ResetState : Prop :=
  State.reset.pending = [] ∧ State.reset.odGet 0 0x0011 0 = 0 ∧ State.reset.present 0 = true ∧ State.reset.towerMask 0 = 0xFF ∧
  State.reset.present 1 = false ∧ State.reset.odGet 0 0x1010 5 = 4096 ∧ State.reset.blobGet 0 1 1 = [0x4F, 0x74, 0x61, 0x73, 0x74, 0x69, 0x64] ∧
  (∀ t < 8, ∀ k < 128, (State.reset.berthMap t).getD k 0 = BitVec.ofNat 8 k) ∧ (∀ i, (State.reset.spar i).sreg = []) ∧
  State.reset.rstN = true ∧ State.reset.faultN = false

/-- A device reset leaves every memory in canonical form (03 R66, 10 R297). (What an unlisted byte reads as is the model's own choice,
log 3.) -/
def Obligations.MemoriesAtReset : Prop :=
  memoriesWf State.reset ∧ State.reset.dome = []

/-- Memory stays memory (03 R66, 10 R297): every step keeps dome memory, every spar's scratch memory and every instruction store in
canonical form, one entry per address, addresses rising, so that each address reads as exactly one byte. (What an unlisted byte
reads as is the model's own choice, log 3.) -/
def Obligations.MemoriesCanonical : Prop :=
  ∀ (s u : State), memoriesWf s → step s = .next u → memoriesWf u

/-- A bundle (03 R69, R70): eight slots of 16 bytes, each with its opcode, guard, modifiers, registers and immediate, read back as
encoded from the instruction store at 128 times the program counter. -/
def Obligations.BundleEncoding : Prop :=
  (∀ v : SlotWord, decodeSlotNat (encodeSlotNat v) = v ∧ encodeSlotNat v < 2 ^ 128) ∧
  ∀ (x : Spar) (b : List SlotWord) (pc : Nat), b.length = 8 → x.pc = pc →
    ({ x with istore := memWrite x.istore (128 * pc) (encodeBundle b) } : Spar).bundle = b
end

