-- ==== Sys2Proof/Laws/Map.lean ====
section
/-! SUPPORT. The laws of the sparse map and of byte memory: a read after a write, a write after a write, and that every
operation keeps the canonical form. -/

namespace Sys2Proof.Machine

open Sys2Proof

variable {α : Type}

@[simp] theorem mapDel_nil (a : Nat) : mapDel ([] : List (Nat × α)) a = [] := rfl

/-- An entry put in and taken out again. -/
theorem mapDel_mapIns (m : List (Nat × α)) (a : Nat) (v : α) : mapDel (mapIns m a v) a = mapDel m a := by
  induction m with
  | nil => simp [mapIns, mapDel]
  | cons e r ih =>
    obtain ⟨k, w⟩ := e
    by_cases h : a < k
    · simp [mapIns, h, mapDel]
    · simp only [mapIns, h, if_false]
      simp only [mapDel, List.filter_cons] at ih ⊢
      rw [ih]

@[simp] theorem mapDel_mapDel (m : List (Nat × α)) (a : Nat) : mapDel (mapDel m a) a = mapDel m a := by
  simp [mapDel, List.filter_filter]

/-- Reading an entry after it is put in. -/
theorem mapGet_mapIns_self (d : α) (m : List (Nat × α)) (a : Nat) (v : α) : mapGet d (mapIns (mapDel m a) a v) a = v := by
  induction m with
  | nil => simp [mapIns, mapGet]
  | cons e r ih =>
    obtain ⟨k, w⟩ := e
    by_cases hk : k = a
    · simpa [mapDel, hk] using ih
    · have hd : mapDel ((k, w) :: r) a = (k, w) :: mapDel r a := by simp [mapDel, hk]
      rw [hd]
      by_cases h : a < k
      · simp [mapIns, h, mapGet]
      · simp [mapIns, h, mapGet, hk, ih]

theorem mapGet_mapIns_ne (d : α) (m : List (Nat × α)) {a b : Nat} (v : α) (h : a ≠ b) : mapGet d (mapIns m a v) b = mapGet d m b := by
  induction m with
  | nil => simp [mapIns, mapGet, h]
  | cons e r ih =>
    obtain ⟨k, w⟩ := e
    by_cases h1 : a < k
    · simp [mapIns, h1, mapGet, h]
    · simp [mapIns, h1, mapGet, ih]

theorem mapGet_mapDel_self (d : α) (m : List (Nat × α)) (a : Nat) : mapGet d (mapDel m a) a = d := by
  induction m with
  | nil => rfl
  | cons e r ih =>
    obtain ⟨k, w⟩ := e
    by_cases hk : k = a
    · simpa [mapDel, hk] using ih
    · have hd : mapDel ((k, w) :: r) a = (k, w) :: mapDel r a := by simp [mapDel, hk]
      simp [hd, mapGet, hk, ih]

theorem mapGet_mapDel_ne (d : α) (m : List (Nat × α)) {a b : Nat} (h : a ≠ b) : mapGet d (mapDel m a) b = mapGet d m b := by
  induction m with
  | nil => rfl
  | cons e r ih =>
    obtain ⟨k, w⟩ := e
    by_cases hk : k = a
    · have : ¬ k = b := by omega
      have hd : mapDel ((k, w) :: r) a = mapDel r a := by simp [mapDel, hk]
      simp [hd, mapGet, this, ih]
    · have hd : mapDel ((k, w) :: r) a = (k, w) :: mapDel r a := by simp [mapDel, hk]
      simp [hd, mapGet, ih]

theorem mem_mapIns {m : List (Nat × α)} {a : Nat} {v : α} {e : Nat × α} (h : e ∈ mapIns m a v) : e = (a, v) ∨ e ∈ m := by
  induction m with
  | nil => simpa [mapIns] using h
  | cons x r ih =>
    obtain ⟨k, w⟩ := x
    by_cases h1 : a < k
    · simpa [mapIns, h1] using h
    · simp only [mapIns, h1, if_false, List.mem_cons] at h ⊢
      rcases h with h | h
      · exact .inr (.inl h)
      · rcases ih h with h | h
        · exact .inl h
        · exact .inr (.inr h)

theorem mapIns_sorted {m : List (Nat × α)} {a : Nat} {v : α} (h : m.Pairwise fun x y => x.1 < y.1) (hn : ∀ e ∈ m, e.1 ≠ a) :
    (mapIns m a v).Pairwise fun x y => x.1 < y.1 := by
  induction m with
  | nil => simp [mapIns]
  | cons x r ih =>
    obtain ⟨k, w⟩ := x
    obtain ⟨h1, h2⟩ := List.pairwise_cons.1 h
    by_cases hk : a < k
    · simp only [mapIns, hk, if_true]
      refine List.pairwise_cons.2 ⟨fun e he => ?_, h⟩
      rcases List.mem_cons.1 he with rfl | he
      · exact hk
      · exact hk.trans (h1 e he)
    · simp only [mapIns, hk, if_false]
      refine List.pairwise_cons.2 ⟨fun e he => ?_, ih h2 fun e he => hn e (List.mem_cons_of_mem _ he)⟩
      rcases mem_mapIns he with rfl | he
      · have := hn (k, w) (List.mem_cons_self ..)
        simp only [ne_eq] at this ⊢
        omega
      · exact h1 e he

variable [DecidableEq α]

/-- A key reads as what it was set to. -/
@[simp] theorem mapGet_mapSet_self (d : α) (m : List (Nat × α)) (a : Nat) (v : α) : mapGet d (mapSet d m a v) a = v := by
  unfold mapSet
  split
  · next h => rw [mapGet_mapDel_self, h]
  · exact mapGet_mapIns_self d m a v

/-- The other keys read as before. -/
theorem mapGet_mapSet_ne (d e : α) (m : List (Nat × α)) {a b : Nat} (v : α) (h : a ≠ b) :
    mapGet e (mapSet d m a v) b = mapGet e m b := by
  unfold mapSet
  split
  · exact mapGet_mapDel_ne e m h
  · rw [mapGet_mapIns_ne e _ v h, mapGet_mapDel_ne e m h]

/-- The last of two writes to a key stands. -/
@[simp] theorem mapSet_mapSet (d : α) (m : List (Nat × α)) (a : Nat) (v w : α) : mapSet d (mapSet d m a v) a w = mapSet d m a w := by
  have h : mapDel (mapSet d m a v) a = mapDel m a := by
    unfold mapSet
    split
    · simp
    · simp [mapDel_mapIns]
  unfold mapSet at h ⊢
  rw [h]

/-! The canonical form. -/

theorem mapWf_nil (d : Nat → α) : mapWf d [] := ⟨List.Pairwise.nil, by simp⟩

theorem mapWf_mapDel {d : Nat → α} {m : List (Nat × α)} (h : mapWf d m) (a : Nat) : mapWf d (mapDel m a) :=
  ⟨h.1.filter _, fun e he => h.2 e (List.mem_of_mem_filter he)⟩

/-- Setting a key keeps the canonical form. -/
theorem mapWf_mapSet {d : Nat → α} {m : List (Nat × α)} (h : mapWf d m) (a : Nat) (v : α) : mapWf d (mapSet (d a) m a v) := by
  unfold mapSet
  split
  · exact mapWf_mapDel h a
  · next hv =>
    refine ⟨mapIns_sorted (mapWf_mapDel h a).1 fun e he => ?_, fun e he => ?_⟩
    · have := (List.mem_filter.1 he).2
      simpa using this
    · rcases mem_mapIns he with rfl | he
      · exact hv
      · exact (mapWf_mapDel h a).2 e he

/-- Keeping some entries keeps the canonical form. -/
theorem mapWf_filter {d : Nat → α} {m : List (Nat × α)} (h : mapWf d m) (p : Nat × α → Bool) : mapWf d (m.filter p) :=
  ⟨h.1.filter _, fun e he => h.2 e (List.mem_of_mem_filter he)⟩

/-! Byte memory. -/

theorem memWf_setByte {m : List Host.Cell} (h : mapWf (fun _ => (0 : Byte)) m) (a : Nat) (v : Byte) :
    mapWf (fun _ => (0 : Byte)) (memSetByte m a v) := mapWf_mapSet h a v

/-- A write of bytes keeps a memory's canonical form. -/
theorem memWf_write {m : List Host.Cell} (h : mapWf (fun _ => (0 : Byte)) m) (a : Nat) (b : Bytes) :
    mapWf (fun _ => (0 : Byte)) (memWrite m a b) := by
  induction b generalizing m a with
  | nil => exact h
  | cons x r ih => exact ih (memWf_setByte h a x) (a + 1)

/-- Outside the bytes written, memory reads as before. -/
theorem memByte_write_out (m : List Host.Cell) (a : Nat) (b : Bytes) {x : Nat} (h : x < a ∨ a + b.length ≤ x) :
    memByte (memWrite m a b) x = memByte m x := by
  induction b generalizing m a with
  | nil => rfl
  | cons y r ih =>
    simp only [List.length_cons] at h
    rw [memWrite, ih (memSetByte m a y) (a + 1) (by omega)]
    exact mapGet_mapSet_ne 0 0 m y (by omega)

/-- A written byte reads back. -/
theorem memByte_write_in (m : List Host.Cell) (a : Nat) (b : Bytes) {k : Nat} (h : k < b.length) :
    memByte (memWrite m a b) (a + k) = b[k] := by
  induction b generalizing m a k with
  | nil => simp at h
  | cons y r ih =>
    rw [memWrite]
    cases k with
    | zero =>
      rw [memByte_write_out _ _ _ (by omega)]
      simp [memByte, memSetByte]
    | succ k =>
      have := ih (memSetByte m a y) (a + 1) (k := k) (by simpa using h)
      simpa [Nat.add_assoc, Nat.add_comm 1 k] using this

/-- What was written reads back whole. -/
theorem memRead_write (m : List Host.Cell) (a : Nat) (b : Bytes) : memRead (memWrite m a b) a b.length = b := by
  apply List.ext_getElem
  · simp [memRead]
  · intro k h1 h2
    simp only [memRead, List.getElem_map, List.getElem_range]
    exact memByte_write_in m a b h2

end Sys2Proof.Machine
end

