-- ==== Sys2Proof/Laws/Issue.lean ====
section
/-! SUPPORT. What bringing one bundle to issue can do: the lemmas about slot instructions that issue alone. -/

namespace Sys2Proof.Machine

open Sys2Proof Sys2Proof.Safety

@[simp] theorem spar_setSpar (s : State) (i : Nat) (x : Spar) : (s.setSpar i x).spar i = x := by
  simp [State.spar, State.setSpar]

theorem spar_setSpar_ne (s : State) {i j : Nat} (x : Spar) (h : i ≠ j) : (s.setSpar i x).spar j = s.spar j := by
  simp [State.spar, State.setSpar, mapGet_mapSet_ne _ _ _ _ h]

@[simp] theorem spar_modSpar (s : State) (i : Nat) (g : Spar → Spar) : (s.modSpar i g).spar i = g (s.spar i) := by
  simp [State.modSpar]

@[simp] theorem setSpar_setSpar (s : State) (i : Nat) (x y : Spar) : (s.setSpar i x).setSpar i y = s.setSpar i y := by
  simp [State.setSpar]

/-- Two changes of one spar are one. -/
@[simp] theorem modSpar_modSpar (s : State) (i : Nat) (g h : Spar → Spar) :
    (s.modSpar i g).modSpar i h = s.modSpar i fun x => h (g x) := by
  simp [State.modSpar]

/-- A slot with OP 0 has no effect. -/
@[simp] theorem slotActs_zero (x : Spar) (f : Fields) : slotActs x ⟨0#8, f⟩ = false := by simp [slotActs]

/-- The effects of a bundle with one instruction are that instruction's. -/
theorem slotsEffect_solo {x : Spar} {i k : Nat} {op : BitVec 8} {f : Fields} {s : State} (hk : k < 8) (ho : op ≠ 0)
    (hg : guardOn x f = true) : slotsEffect x i (soloBundle k ⟨op, f⟩) s = effSlot k op.toNat x i f s := by
  have ha : slotActs x ⟨op, f⟩ = true := by
    have h : ¬op = 0#8 := ho
    simp [slotActs, h, hg]
  unfold slotsEffect soloBundle
  rcases (by omega : k = 0 ∨ k = 1 ∨ k = 2 ∨ k = 3 ∨ k = 4 ∨ k = 5 ∨ k = 6 ∨ k = 7) with
    rfl | rfl | rfl | rfl | rfl | rfl | rfl | rfl <;>
  simp [List.range_succ, List.zipIdx, ha]

/-- A slot of the bundle at the program counter. -/
theorem slotAt_of_bundle {x : Spar} {k : Nat} {w : SlotWord} (hk : k < 8) (h : x.bundle = soloBundle k w) : x.slotAt x.pc k = w := by
  have h1 : x.bundle[k]? = some (x.slotAt x.pc k) := by simp [Spar.bundle, hk]
  have h2 : (soloBundle k w)[k]? = some w := by simp [soloBundle, hk]
  rw [h, h2] at h1
  exact (Option.some.inj h1).symm

/-- A row whose instruction issues alone runs that instruction's effect, and the sequencer moves on (R73, R81). -/
theorem issueRow_alone {s : State} {i k : Nat} {op : BitVec 8} {f : Fields} (hk : k < 8) (ho : op ≠ 0)
    (hb : ¬(k = 7 ∧ op = 0x11)) (h : issuesAlone s i k op f) :
    issueRow k op i f s =
      .next (haltComplete i ((effSlot k op.toNat (s.spar i) i f s).modSpar i (advance (s.spar i) (soloBundle k ⟨op, f⟩)))) := by
  obtain ⟨hc, hw, hg, hn, hf, -⟩ := h
  have hs : s.slotIs i k op f = true := by simp [State.slotIs, slotAt_of_bundle hk hw]
  have hbar : barrierOf (s.spar i) (soloBundle k ⟨op, f⟩) = none := by
    rcases (by omega : k = 0 ∨ k = 1 ∨ k = 2 ∨ k = 3 ∨ k = 4 ∨ k = 5 ∨ k = 6 ∨ k = 7) with
      rfl | rfl | rfl | rfl | rfl | rfl | rfl | rfl <;> simp [barrierOf, soloBundle]
    simpa using fun _ h => absurd h (by simpa using hb)
  simp only [issueRow, hc, hs, Bool.and_self, if_true, issue, hw, hn, hf, hbar, issueNow, slotsEffect_solo hk ho hg]
  rfl

theorem loopBack_none (b : Nat) (l : List Loop) (y : Spar) (h : ∀ m ∈ l, m.last ≠ b) : loopBack b l y = (y, none) := by
  induction l with
  | nil => rfl
  | cons m r ih =>
    have h1 := h m (List.mem_cons_self ..)
    simp [loopBack, h1, ih fun m hm => h m (List.mem_cons_of_mem _ hm)]

/-- Past a bundle that is no branch, begins no loop and ends none, issue continues at the next bundle (R81). -/
theorem advance_next {x y : Spar} {k : Nat} {op : BitVec 8} {f : Fields} (hk : k < 8) (hp : y.pc = x.pc)
    (hl : ∀ m ∈ y.loops, m.last ≠ x.pc) (h0 : k = 0 → op ≠ 0x20 ∧ op ≠ 0x21 ∧ op ≠ 0x22 ∧ op ≠ 0x23) (h1 : k = 1 → op ≠ 0x10) :
    advance x (soloBundle k ⟨op, f⟩) y = stepped y := by
  have hb := loopBack_none x.pc y.loops y hl
  have n0 : k = 0 → ¬ branchTaken x ⟨op, f⟩ = true := by
    intro h
    obtain ⟨a, b, c, d⟩ := h0 h
    have t : ∀ n < 256, op ≠ BitVec.ofNat 8 n → op.toNat ≠ n := fun n hn h e => h (by rw [← e]; simp)
    have a' := t 0x20 (by omega) a
    have b' := t 0x21 (by omega) b
    have c' := t 0x22 (by omega) c
    have d' := t 0x23 (by omega) d
    simp only [branchTaken, Bool.and_eq_true, not_and]
    intro _
    simp
  have z : ∀ g, branchTaken x ⟨0#8, g⟩ = false := fun g => by simp [branchTaken]
  rcases (by omega : k = 0 ∨ k = 1 ∨ k = 2 ∨ k = 3 ∨ k = 4 ∨ k = 5 ∨ k = 6 ∨ k = 7) with
    rfl | rfl | rfl | rfl | rfl | rfl | rfl | rfl <;>
  simp_all [advance, soloBundle, List.range_succ, stepped]

/-- A spar that runs is not one that completes its halt. -/
theorem haltComplete_running {s : State} {i : Nat} (h : (s.spar i).run ≠ .halting) : haltComplete i s = s := by
  simp [haltComplete, h]

/-- A running spar's row whose effect changes only that spar, and leaves its place in the program, changes it so and moves on. -/
theorem changesSpar_of {c : Nat → Fields → Instr} {k : Nat} {op : BitVec 8} {g : Spar → Fields → Spar} (hk : k < 8) (ho : op ≠ 0)
    (hb : ¬(k = 7 ∧ op = 0x11)) (h0 : k = 0 → op ≠ 0x20 ∧ op ≠ 0x21 ∧ op ≠ 0x22 ∧ op ≠ 0x23) (h1 : k = 1 → op ≠ 0x10)
    (hc : ∀ i f s, exec (c i f) s = issueRow k op i f s)
    (he : ∀ i f s, effSlot k op.toNat (s.spar i) i f s = s.modSpar i fun x => g x f)
    (hp : ∀ x f, (g x f).pc = x.pc) (hl : ∀ x f, ∀ l ∈ (g x f).loops, l ∈ x.loops) (hr : ∀ x f, (g x f).run = x.run) :
    changesSpar c k op fun x f => stepped (g x f) := by
  intro s i f h
  have hrun : (s.spar i).run = .running := by
    have := h.1
    simp only [State.canIssue, Bool.and_eq_true, decide_eq_true_eq] at this
    exact this.1.1.1.2
  rw [hc, issueRow_alone hk ho hb h, he, modSpar_modSpar]
  rw [haltComplete_running]
  · congr 1
    simp only [State.modSpar]
    rw [advance_next hk (hp _ _) (fun m hm => h.2.2.2.2.2 m (hl _ _ m hm)) h0 h1]
  · simp only [spar_modSpar]
    rw [advance_next hk (hp _ _) (fun m hm => h.2.2.2.2.2 m (hl _ _ m hm)) h0 h1]
    simp [hr, hrun]

/-- A spar that may bring a bundle to issue runs. -/
theorem running_of_canIssue {s : State} {i : Nat} (h : s.canIssue i = true) : (s.spar i).run = .running := by
  simp only [State.canIssue, Bool.and_eq_true, decide_eq_true_eq] at h
  exact h.1.1.1.2

/-- A row whose instruction issues alone and is no branch or loop begin: whatever its effect `t`, if `t` leaves the spar's place
in the program, the row answers `t` with the program counter at the next bundle (R81). -/
theorem issueRow_effect {s t : State} {i k : Nat} {op : BitVec 8} {f : Fields} (hk : k < 8) (ho : op ≠ 0)
    (hb : ¬(k = 7 ∧ op = 0x11)) (h0 : k = 0 → op ≠ 0x20 ∧ op ≠ 0x21 ∧ op ≠ 0x22 ∧ op ≠ 0x23) (h1 : k = 1 → op ≠ 0x10)
    (h : issuesAlone s i k op f) (he : effSlot k op.toNat (s.spar i) i f s = t) (hp : (t.spar i).pc = (s.spar i).pc)
    (hl : ∀ l ∈ (t.spar i).loops, l ∈ (s.spar i).loops) (hr : (t.spar i).run = .running) :
    issueRow k op i f s = .next (t.modSpar i stepped) := by
  have ha : advance (s.spar i) (soloBundle k ⟨op, f⟩) (t.spar i) = stepped (t.spar i) :=
    advance_next hk hp (fun m hm => h.2.2.2.2.2 m (hl m hm)) h0 h1
  rw [issueRow_alone hk ho hb h, he]
  have hm : t.modSpar i (advance (s.spar i) (soloBundle k ⟨op, f⟩)) = t.modSpar i stepped := by
    simp only [State.modSpar, ha]
  rw [hm, haltComplete_running]
  simp [stepped, hr]

@[simp] theorem sset_pc (x : Spar) (i : Nat) (v : W64) : (x.sset i v).pc = x.pc := by unfold Spar.sset; split <;> rfl

@[simp] theorem sset_run (x : Spar) (i : Nat) (v : W64) : (x.sset i v).run = x.run := by unfold Spar.sset; split <;> rfl

@[simp] theorem sset_loops (x : Spar) (i : Nat) (v : W64) : (x.sset i v).loops = x.loops := by unfold Spar.sset; split <;> rfl

/-- A slot-0 or slot-1 row whose effect writes one scalar register. -/
theorem writesScalar_of {c : Nat → Fields → Instr} {op : BitVec 8} {v : Spar → Fields → W64} {k : Nat} (hk : k < 8) (ho : op ≠ 0)
    (hb : ¬(k = 7 ∧ op = 0x11)) (h0 : k = 0 → op ≠ 0x20 ∧ op ≠ 0x21 ∧ op ≠ 0x22 ∧ op ≠ 0x23) (h1 : k = 1 → op ≠ 0x10)
    (hc : ∀ i f s, exec (c i f) s = issueRow k op i f s)
    (he : ∀ i f s, effSlot k op.toNat (s.spar i) i f s = s.modSpar i fun x => x.sset f.d.toNat (v x f)) : writesScalar c k op v :=
  changesSpar_of hk ho hb h0 h1 hc he (fun x f => by simp) (fun x f l h => by simpa using h) (fun x f => by simp)

/-- A slot-1 row whose effect writes one address register. -/
theorem writesAddress_of {c : Nat → Fields → Instr} {op : BitVec 8} {v : Spar → Fields → W64} {k : Nat} (hk : k < 8) (ho : op ≠ 0)
    (hb : ¬(k = 7 ∧ op = 0x11)) (h0 : k = 0 → op ≠ 0x20 ∧ op ≠ 0x21 ∧ op ≠ 0x22 ∧ op ≠ 0x23) (h1 : k = 1 → op ≠ 0x10)
    (hc : ∀ i f s, exec (c i f) s = issueRow k op i f s)
    (he : ∀ i f s, effSlot k op.toNat (s.spar i) i f s = s.modSpar i fun x => x.aset f.d.toNat (v x f)) : writesAddress c k op v :=
  changesSpar_of hk ho hb h0 h1 hc he (fun _ _ => rfl) (fun _ _ _ h => h) (fun _ _ => rfl)

@[simp] theorem postInc_pc (x : Spar) (f : Fields) (y : Spar) : (postInc x f y).pc = y.pc := by unfold postInc; split <;> rfl

@[simp] theorem postInc_run (x : Spar) (f : Fields) (y : Spar) : (postInc x f y).run = y.run := by unfold postInc; split <;> rfl

@[simp] theorem postInc_loops (x : Spar) (f : Fields) (y : Spar) : (postInc x f y).loops = y.loops := by
  unfold postInc; split <;> rfl

@[simp] theorem postInc_scratch (x : Spar) (f : Fields) (y : Spar) : (postInc x f y).scratch = y.scratch := by
  unfold postInc; split <;> rfl

end Sys2Proof.Machine
end

