-- ==== Sys2Proof/Laws/State.lean ====
section
/-! SUPPORT. The fields of the state after each of its elementary updates: what an update leaves is left. -/

namespace Sys2Proof.Machine

open Sys2Proof

/-! `State.setSpar` -/

@[simp] theorem State.setSpar_pending (s : State) (i : Nat) (x : Spar) : (s.setSpar i x).pending = s.pending := rfl
@[simp] theorem State.setSpar_fresh (s : State) (i : Nat) (x : Spar) : (s.setSpar i x).fresh = s.fresh := rfl
@[simp] theorem State.setSpar_cyc (s : State) (i : Nat) (x : Spar) : (s.setSpar i x).cyc = s.cyc := rfl
@[simp] theorem State.setSpar_cycLost (s : State) (i : Nat) (x : Spar) : (s.setSpar i x).cycLost = s.cycLost := rfl
@[simp] theorem State.setSpar_parts (s : State) (i : Nat) (x : Spar) : (s.setSpar i x).parts = s.parts := rfl
@[simp] theorem State.setSpar_od (s : State) (i : Nat) (x : Spar) : (s.setSpar i x).od = s.od := rfl
@[simp] theorem State.setSpar_blobs (s : State) (i : Nat) (x : Spar) : (s.setSpar i x).blobs = s.blobs := rfl
@[simp] theorem State.setSpar_blobGen (s : State) (i : Nat) (x : Spar) : (s.setSpar i x).blobGen = s.blobGen := rfl
@[simp] theorem State.setSpar_dome (s : State) (i : Nat) (x : Spar) : (s.setSpar i x).dome = s.dome := rfl
@[simp] theorem State.setSpar_poison (s : State) (i : Nat) (x : Spar) : (s.setSpar i x).poison = s.poison := rfl
@[simp] theorem State.setSpar_eccCnt (s : State) (i : Nat) (x : Spar) : (s.setSpar i x).eccCnt = s.eccCnt := rfl
@[simp] theorem State.setSpar_ceSeen (s : State) (i : Nat) (x : Spar) : (s.setSpar i x).ceSeen = s.ceSeen := rfl
@[simp] theorem State.setSpar_scrubAt (s : State) (i : Nat) (x : Spar) : (s.setSpar i x).scrubAt = s.scrubAt := rfl
@[simp] theorem State.setSpar_counters (s : State) (i : Nat) (x : Spar) : (s.setSpar i x).counters = s.counters := rfl
@[simp] theorem State.setSpar_ctrResets (s : State) (i : Nat) (x : Spar) : (s.setSpar i x).ctrResets = s.ctrResets := rfl
@[simp] theorem State.setSpar_domeOff (s : State) (i : Nat) (x : Spar) : (s.setSpar i x).domeOff = s.domeOff := rfl
@[simp] theorem State.setSpar_zeroFill (s : State) (i : Nat) (x : Spar) : (s.setSpar i x).zeroFill = s.zeroFill := rfl
@[simp] theorem State.setSpar_edges (s : State) (i : Nat) (x : Spar) : (s.setSpar i x).edges = s.edges := rfl
@[simp] theorem State.setSpar_homePtr (s : State) (i : Nat) (x : Spar) : (s.setSpar i x).homePtr = s.homePtr := rfl
@[simp] theorem State.setSpar_remPtr (s : State) (i : Nat) (x : Spar) : (s.setSpar i x).remPtr = s.remPtr := rfl
@[simp] theorem State.setSpar_domeQ (s : State) (i : Nat) (x : Spar) : (s.setSpar i x).domeQ = s.domeQ := rfl
@[simp] theorem State.setSpar_biWaits (s : State) (i : Nat) (x : Spar) : (s.setSpar i x).biWaits = s.biWaits := rfl
@[simp] theorem State.setSpar_asks (s : State) (i : Nat) (x : Spar) : (s.setSpar i x).asks = s.asks := rfl
@[simp] theorem State.setSpar_turns (s : State) (i : Nat) (x : Spar) : (s.setSpar i x).turns = s.turns := rfl
@[simp] theorem State.setSpar_prune (s : State) (i : Nat) (x : Spar) : (s.setSpar i x).prune = s.prune := rfl
@[simp] theorem State.setSpar_pruneBusy (s : State) (i : Nat) (x : Spar) : (s.setSpar i x).pruneBusy = s.pruneBusy := rfl
@[simp] theorem State.setSpar_halCmd (s : State) (i : Nat) (x : Spar) : (s.setSpar i x).halCmd = s.halCmd := rfl
@[simp] theorem State.setSpar_colCmd (s : State) (i : Nat) (x : Spar) : (s.setSpar i x).colCmd = s.colCmd := rfl
@[simp] theorem State.setSpar_fqNext (s : State) (i : Nat) (x : Spar) : (s.setSpar i x).fqNext = s.fqNext := rfl
@[simp] theorem State.setSpar_fetches (s : State) (i : Nat) (x : Spar) : (s.setSpar i x).fetches = s.fetches := rfl
@[simp] theorem State.setSpar_rdCurr (s : State) (i : Nat) (x : Spar) : (s.setSpar i x).rdCurr = s.rdCurr := rfl
@[simp] theorem State.setSpar_ports (s : State) (i : Nat) (x : Spar) : (s.setSpar i x).ports = s.ports := rfl
@[simp] theorem State.setSpar_inject (s : State) (i : Nat) (x : Spar) : (s.setSpar i x).inject = s.inject := rfl
@[simp] theorem State.setSpar_outbox (s : State) (i : Nat) (x : Spar) : (s.setSpar i x).outbox = s.outbox := rfl
@[simp] theorem State.setSpar_delivery (s : State) (i : Nat) (x : Spar) : (s.setSpar i x).delivery = s.delivery := rfl
@[simp] theorem State.setSpar_flowCnt (s : State) (i : Nat) (x : Spar) : (s.setSpar i x).flowCnt = s.flowCnt := rfl
@[simp] theorem State.setSpar_laserDark (s : State) (i : Nat) (x : Spar) : (s.setSpar i x).laserDark = s.laserDark := rfl
@[simp] theorem State.setSpar_cxl (s : State) (i : Nat) (x : Spar) : (s.setSpar i x).cxl = s.cxl := rfl
@[simp] theorem State.setSpar_sessions (s : State) (i : Nat) (x : Spar) : (s.setSpar i x).sessions = s.sessions := rfl
@[simp] theorem State.setSpar_deferred (s : State) (i : Nat) (x : Spar) : (s.setSpar i x).deferred = s.deferred := rfl
@[simp] theorem State.setSpar_running (s : State) (i : Nat) (x : Spar) : (s.setSpar i x).running = s.running := rfl
@[simp] theorem State.setSpar_mgmtTurn (s : State) (i : Nat) (x : Spar) : (s.setSpar i x).mgmtTurn = s.mgmtTurn := rfl
@[simp] theorem State.setSpar_mctpEid (s : State) (i : Nat) (x : Spar) : (s.setSpar i x).mctpEid = s.mctpEid := rfl
@[simp] theorem State.setSpar_answers (s : State) (i : Nat) (x : Spar) : (s.setSpar i x).answers = s.answers := rfl
@[simp] theorem State.setSpar_dests (s : State) (i : Nat) (x : Spar) : (s.setSpar i x).dests = s.dests := rfl
@[simp] theorem State.setSpar_faultQ (s : State) (i : Nat) (x : Spar) : (s.setSpar i x).faultQ = s.faultQ := rfl
@[simp] theorem State.setSpar_cases (s : State) (i : Nat) (x : Spar) : (s.setSpar i x).cases = s.cases := rfl
@[simp] theorem State.setSpar_transients (s : State) (i : Nat) (x : Spar) : (s.setSpar i x).transients = s.transients := rfl
@[simp] theorem State.setSpar_fencedBerths (s : State) (i : Nat) (x : Spar) : (s.setSpar i x).fencedBerths = s.fencedBerths := rfl
@[simp] theorem State.setSpar_fencedTowers (s : State) (i : Nat) (x : Spar) : (s.setSpar i x).fencedTowers = s.fencedTowers := rfl
@[simp] theorem State.setSpar_fencedEdges (s : State) (i : Nat) (x : Spar) : (s.setSpar i x).fencedEdges = s.fencedEdges := rfl
@[simp] theorem State.setSpar_fencedSpire (s : State) (i : Nat) (x : Spar) : (s.setSpar i x).fencedSpire = s.fencedSpire := rfl
@[simp] theorem State.setSpar_slices (s : State) (i : Nat) (x : Spar) : (s.setSpar i x).slices = s.slices := rfl
@[simp] theorem State.setSpar_sliceNext (s : State) (i : Nat) (x : Spar) : (s.setSpar i x).sliceNext = s.sliceNext := rfl
@[simp] theorem State.setSpar_testing (s : State) (i : Nat) (x : Spar) : (s.setSpar i x).testing = s.testing := rfl
@[simp] theorem State.setSpar_power (s : State) (i : Nat) (x : Spar) : (s.setSpar i x).power = s.power := rfl
@[simp] theorem State.setSpar_boot (s : State) (i : Nat) (x : Spar) : (s.setSpar i x).boot = s.boot := rfl
@[simp] theorem State.setSpar_pwrgd (s : State) (i : Nat) (x : Spar) : (s.setSpar i x).pwrgd = s.pwrgd := rfl
@[simp] theorem State.setSpar_rstN (s : State) (i : Nat) (x : Spar) : (s.setSpar i x).rstN = s.rstN := rfl
@[simp] theorem State.setSpar_faultN (s : State) (i : Nat) (x : Spar) : (s.setSpar i x).faultN = s.faultN := rfl
@[simp] theorem State.setSpar_tripN (s : State) (i : Nat) (x : Spar) : (s.setSpar i x).tripN = s.tripN := rfl
@[simp] theorem State.setSpar_flash (s : State) (i : Nat) (x : Spar) : (s.setSpar i x).flash = s.flash := rfl
@[simp] theorem State.setSpar_riskHist (s : State) (i : Nat) (x : Spar) : (s.setSpar i x).riskHist = s.riskHist := rfl
@[simp] theorem State.setSpar_riskShort (s : State) (i : Nat) (x : Spar) : (s.setSpar i x).riskShort = s.riskShort := rfl
@[simp] theorem State.setSpar_straps (s : State) (i : Nat) (x : Spar) : (s.setSpar i x).straps = s.straps := rfl
@[simp] theorem State.setSpar_bootFaults (s : State) (i : Nat) (x : Spar) : (s.setSpar i x).bootFaults = s.bootFaults := rfl
@[simp] theorem State.setSpar_puf (s : State) (i : Nat) (x : Spar) : (s.setSpar i x).puf = s.puf := rfl
@[simp] theorem State.setSpar_identity (s : State) (i : Nat) (x : Spar) : (s.setSpar i x).identity = s.identity := rfl
@[simp] theorem State.setSpar_platKey (s : State) (i : Nat) (x : Spar) : (s.setSpar i x).platKey = s.platKey := rfl
@[simp] theorem State.setSpar_tap (s : State) (i : Nat) (x : Spar) : (s.setSpar i x).tap = s.tap := rfl
@[simp] theorem State.setSpar_out (s : State) (i : Nat) (x : Spar) : (s.setSpar i x).out = s.out := rfl

/-! `State.modSpar` -/

@[simp] theorem State.modSpar_pending (s : State) (i : Nat) (f : Spar → Spar) : (s.modSpar i f).pending = s.pending := rfl
@[simp] theorem State.modSpar_fresh (s : State) (i : Nat) (f : Spar → Spar) : (s.modSpar i f).fresh = s.fresh := rfl
@[simp] theorem State.modSpar_cyc (s : State) (i : Nat) (f : Spar → Spar) : (s.modSpar i f).cyc = s.cyc := rfl
@[simp] theorem State.modSpar_cycLost (s : State) (i : Nat) (f : Spar → Spar) : (s.modSpar i f).cycLost = s.cycLost := rfl
@[simp] theorem State.modSpar_parts (s : State) (i : Nat) (f : Spar → Spar) : (s.modSpar i f).parts = s.parts := rfl
@[simp] theorem State.modSpar_od (s : State) (i : Nat) (f : Spar → Spar) : (s.modSpar i f).od = s.od := rfl
@[simp] theorem State.modSpar_blobs (s : State) (i : Nat) (f : Spar → Spar) : (s.modSpar i f).blobs = s.blobs := rfl
@[simp] theorem State.modSpar_blobGen (s : State) (i : Nat) (f : Spar → Spar) : (s.modSpar i f).blobGen = s.blobGen := rfl
@[simp] theorem State.modSpar_dome (s : State) (i : Nat) (f : Spar → Spar) : (s.modSpar i f).dome = s.dome := rfl
@[simp] theorem State.modSpar_poison (s : State) (i : Nat) (f : Spar → Spar) : (s.modSpar i f).poison = s.poison := rfl
@[simp] theorem State.modSpar_eccCnt (s : State) (i : Nat) (f : Spar → Spar) : (s.modSpar i f).eccCnt = s.eccCnt := rfl
@[simp] theorem State.modSpar_ceSeen (s : State) (i : Nat) (f : Spar → Spar) : (s.modSpar i f).ceSeen = s.ceSeen := rfl
@[simp] theorem State.modSpar_scrubAt (s : State) (i : Nat) (f : Spar → Spar) : (s.modSpar i f).scrubAt = s.scrubAt := rfl
@[simp] theorem State.modSpar_counters (s : State) (i : Nat) (f : Spar → Spar) : (s.modSpar i f).counters = s.counters := rfl
@[simp] theorem State.modSpar_ctrResets (s : State) (i : Nat) (f : Spar → Spar) : (s.modSpar i f).ctrResets = s.ctrResets := rfl
@[simp] theorem State.modSpar_domeOff (s : State) (i : Nat) (f : Spar → Spar) : (s.modSpar i f).domeOff = s.domeOff := rfl
@[simp] theorem State.modSpar_zeroFill (s : State) (i : Nat) (f : Spar → Spar) : (s.modSpar i f).zeroFill = s.zeroFill := rfl
@[simp] theorem State.modSpar_edges (s : State) (i : Nat) (f : Spar → Spar) : (s.modSpar i f).edges = s.edges := rfl
@[simp] theorem State.modSpar_homePtr (s : State) (i : Nat) (f : Spar → Spar) : (s.modSpar i f).homePtr = s.homePtr := rfl
@[simp] theorem State.modSpar_remPtr (s : State) (i : Nat) (f : Spar → Spar) : (s.modSpar i f).remPtr = s.remPtr := rfl
@[simp] theorem State.modSpar_domeQ (s : State) (i : Nat) (f : Spar → Spar) : (s.modSpar i f).domeQ = s.domeQ := rfl
@[simp] theorem State.modSpar_biWaits (s : State) (i : Nat) (f : Spar → Spar) : (s.modSpar i f).biWaits = s.biWaits := rfl
@[simp] theorem State.modSpar_asks (s : State) (i : Nat) (f : Spar → Spar) : (s.modSpar i f).asks = s.asks := rfl
@[simp] theorem State.modSpar_turns (s : State) (i : Nat) (f : Spar → Spar) : (s.modSpar i f).turns = s.turns := rfl
@[simp] theorem State.modSpar_prune (s : State) (i : Nat) (f : Spar → Spar) : (s.modSpar i f).prune = s.prune := rfl
@[simp] theorem State.modSpar_pruneBusy (s : State) (i : Nat) (f : Spar → Spar) : (s.modSpar i f).pruneBusy = s.pruneBusy := rfl
@[simp] theorem State.modSpar_halCmd (s : State) (i : Nat) (f : Spar → Spar) : (s.modSpar i f).halCmd = s.halCmd := rfl
@[simp] theorem State.modSpar_colCmd (s : State) (i : Nat) (f : Spar → Spar) : (s.modSpar i f).colCmd = s.colCmd := rfl
@[simp] theorem State.modSpar_fqNext (s : State) (i : Nat) (f : Spar → Spar) : (s.modSpar i f).fqNext = s.fqNext := rfl
@[simp] theorem State.modSpar_fetches (s : State) (i : Nat) (f : Spar → Spar) : (s.modSpar i f).fetches = s.fetches := rfl
@[simp] theorem State.modSpar_rdCurr (s : State) (i : Nat) (f : Spar → Spar) : (s.modSpar i f).rdCurr = s.rdCurr := rfl
@[simp] theorem State.modSpar_ports (s : State) (i : Nat) (f : Spar → Spar) : (s.modSpar i f).ports = s.ports := rfl
@[simp] theorem State.modSpar_inject (s : State) (i : Nat) (f : Spar → Spar) : (s.modSpar i f).inject = s.inject := rfl
@[simp] theorem State.modSpar_outbox (s : State) (i : Nat) (f : Spar → Spar) : (s.modSpar i f).outbox = s.outbox := rfl
@[simp] theorem State.modSpar_delivery (s : State) (i : Nat) (f : Spar → Spar) : (s.modSpar i f).delivery = s.delivery := rfl
@[simp] theorem State.modSpar_flowCnt (s : State) (i : Nat) (f : Spar → Spar) : (s.modSpar i f).flowCnt = s.flowCnt := rfl
@[simp] theorem State.modSpar_laserDark (s : State) (i : Nat) (f : Spar → Spar) : (s.modSpar i f).laserDark = s.laserDark := rfl
@[simp] theorem State.modSpar_cxl (s : State) (i : Nat) (f : Spar → Spar) : (s.modSpar i f).cxl = s.cxl := rfl
@[simp] theorem State.modSpar_sessions (s : State) (i : Nat) (f : Spar → Spar) : (s.modSpar i f).sessions = s.sessions := rfl
@[simp] theorem State.modSpar_deferred (s : State) (i : Nat) (f : Spar → Spar) : (s.modSpar i f).deferred = s.deferred := rfl
@[simp] theorem State.modSpar_running (s : State) (i : Nat) (f : Spar → Spar) : (s.modSpar i f).running = s.running := rfl
@[simp] theorem State.modSpar_mgmtTurn (s : State) (i : Nat) (f : Spar → Spar) : (s.modSpar i f).mgmtTurn = s.mgmtTurn := rfl
@[simp] theorem State.modSpar_mctpEid (s : State) (i : Nat) (f : Spar → Spar) : (s.modSpar i f).mctpEid = s.mctpEid := rfl
@[simp] theorem State.modSpar_answers (s : State) (i : Nat) (f : Spar → Spar) : (s.modSpar i f).answers = s.answers := rfl
@[simp] theorem State.modSpar_dests (s : State) (i : Nat) (f : Spar → Spar) : (s.modSpar i f).dests = s.dests := rfl
@[simp] theorem State.modSpar_faultQ (s : State) (i : Nat) (f : Spar → Spar) : (s.modSpar i f).faultQ = s.faultQ := rfl
@[simp] theorem State.modSpar_cases (s : State) (i : Nat) (f : Spar → Spar) : (s.modSpar i f).cases = s.cases := rfl
@[simp] theorem State.modSpar_transients (s : State) (i : Nat) (f : Spar → Spar) : (s.modSpar i f).transients = s.transients := rfl
@[simp] theorem State.modSpar_fencedBerths (s : State) (i : Nat) (f : Spar → Spar) : (s.modSpar i f).fencedBerths = s.fencedBerths := rfl
@[simp] theorem State.modSpar_fencedTowers (s : State) (i : Nat) (f : Spar → Spar) : (s.modSpar i f).fencedTowers = s.fencedTowers := rfl
@[simp] theorem State.modSpar_fencedEdges (s : State) (i : Nat) (f : Spar → Spar) : (s.modSpar i f).fencedEdges = s.fencedEdges := rfl
@[simp] theorem State.modSpar_fencedSpire (s : State) (i : Nat) (f : Spar → Spar) : (s.modSpar i f).fencedSpire = s.fencedSpire := rfl
@[simp] theorem State.modSpar_slices (s : State) (i : Nat) (f : Spar → Spar) : (s.modSpar i f).slices = s.slices := rfl
@[simp] theorem State.modSpar_sliceNext (s : State) (i : Nat) (f : Spar → Spar) : (s.modSpar i f).sliceNext = s.sliceNext := rfl
@[simp] theorem State.modSpar_testing (s : State) (i : Nat) (f : Spar → Spar) : (s.modSpar i f).testing = s.testing := rfl
@[simp] theorem State.modSpar_power (s : State) (i : Nat) (f : Spar → Spar) : (s.modSpar i f).power = s.power := rfl
@[simp] theorem State.modSpar_boot (s : State) (i : Nat) (f : Spar → Spar) : (s.modSpar i f).boot = s.boot := rfl
@[simp] theorem State.modSpar_pwrgd (s : State) (i : Nat) (f : Spar → Spar) : (s.modSpar i f).pwrgd = s.pwrgd := rfl
@[simp] theorem State.modSpar_rstN (s : State) (i : Nat) (f : Spar → Spar) : (s.modSpar i f).rstN = s.rstN := rfl
@[simp] theorem State.modSpar_faultN (s : State) (i : Nat) (f : Spar → Spar) : (s.modSpar i f).faultN = s.faultN := rfl
@[simp] theorem State.modSpar_tripN (s : State) (i : Nat) (f : Spar → Spar) : (s.modSpar i f).tripN = s.tripN := rfl
@[simp] theorem State.modSpar_flash (s : State) (i : Nat) (f : Spar → Spar) : (s.modSpar i f).flash = s.flash := rfl
@[simp] theorem State.modSpar_riskHist (s : State) (i : Nat) (f : Spar → Spar) : (s.modSpar i f).riskHist = s.riskHist := rfl
@[simp] theorem State.modSpar_riskShort (s : State) (i : Nat) (f : Spar → Spar) : (s.modSpar i f).riskShort = s.riskShort := rfl
@[simp] theorem State.modSpar_straps (s : State) (i : Nat) (f : Spar → Spar) : (s.modSpar i f).straps = s.straps := rfl
@[simp] theorem State.modSpar_bootFaults (s : State) (i : Nat) (f : Spar → Spar) : (s.modSpar i f).bootFaults = s.bootFaults := rfl
@[simp] theorem State.modSpar_puf (s : State) (i : Nat) (f : Spar → Spar) : (s.modSpar i f).puf = s.puf := rfl
@[simp] theorem State.modSpar_identity (s : State) (i : Nat) (f : Spar → Spar) : (s.modSpar i f).identity = s.identity := rfl
@[simp] theorem State.modSpar_platKey (s : State) (i : Nat) (f : Spar → Spar) : (s.modSpar i f).platKey = s.platKey := rfl
@[simp] theorem State.modSpar_tap (s : State) (i : Nat) (f : Spar → Spar) : (s.modSpar i f).tap = s.tap := rfl
@[simp] theorem State.modSpar_out (s : State) (i : Nat) (f : Spar → Spar) : (s.modSpar i f).out = s.out := rfl

/-! `State.setPart` -/

@[simp] theorem State.setPart_pending (s : State) (q : Nat) (x : Part) : (s.setPart q x).pending = s.pending := rfl
@[simp] theorem State.setPart_fresh (s : State) (q : Nat) (x : Part) : (s.setPart q x).fresh = s.fresh := rfl
@[simp] theorem State.setPart_cyc (s : State) (q : Nat) (x : Part) : (s.setPart q x).cyc = s.cyc := rfl
@[simp] theorem State.setPart_cycLost (s : State) (q : Nat) (x : Part) : (s.setPart q x).cycLost = s.cycLost := rfl
@[simp] theorem State.setPart_spars (s : State) (q : Nat) (x : Part) : (s.setPart q x).spars = s.spars := rfl
@[simp] theorem State.setPart_od (s : State) (q : Nat) (x : Part) : (s.setPart q x).od = s.od := rfl
@[simp] theorem State.setPart_blobs (s : State) (q : Nat) (x : Part) : (s.setPart q x).blobs = s.blobs := rfl
@[simp] theorem State.setPart_blobGen (s : State) (q : Nat) (x : Part) : (s.setPart q x).blobGen = s.blobGen := rfl
@[simp] theorem State.setPart_dome (s : State) (q : Nat) (x : Part) : (s.setPart q x).dome = s.dome := rfl
@[simp] theorem State.setPart_poison (s : State) (q : Nat) (x : Part) : (s.setPart q x).poison = s.poison := rfl
@[simp] theorem State.setPart_eccCnt (s : State) (q : Nat) (x : Part) : (s.setPart q x).eccCnt = s.eccCnt := rfl
@[simp] theorem State.setPart_ceSeen (s : State) (q : Nat) (x : Part) : (s.setPart q x).ceSeen = s.ceSeen := rfl
@[simp] theorem State.setPart_scrubAt (s : State) (q : Nat) (x : Part) : (s.setPart q x).scrubAt = s.scrubAt := rfl
@[simp] theorem State.setPart_counters (s : State) (q : Nat) (x : Part) : (s.setPart q x).counters = s.counters := rfl
@[simp] theorem State.setPart_ctrResets (s : State) (q : Nat) (x : Part) : (s.setPart q x).ctrResets = s.ctrResets := rfl
@[simp] theorem State.setPart_domeOff (s : State) (q : Nat) (x : Part) : (s.setPart q x).domeOff = s.domeOff := rfl
@[simp] theorem State.setPart_zeroFill (s : State) (q : Nat) (x : Part) : (s.setPart q x).zeroFill = s.zeroFill := rfl
@[simp] theorem State.setPart_edges (s : State) (q : Nat) (x : Part) : (s.setPart q x).edges = s.edges := rfl
@[simp] theorem State.setPart_homePtr (s : State) (q : Nat) (x : Part) : (s.setPart q x).homePtr = s.homePtr := rfl
@[simp] theorem State.setPart_remPtr (s : State) (q : Nat) (x : Part) : (s.setPart q x).remPtr = s.remPtr := rfl
@[simp] theorem State.setPart_domeQ (s : State) (q : Nat) (x : Part) : (s.setPart q x).domeQ = s.domeQ := rfl
@[simp] theorem State.setPart_biWaits (s : State) (q : Nat) (x : Part) : (s.setPart q x).biWaits = s.biWaits := rfl
@[simp] theorem State.setPart_asks (s : State) (q : Nat) (x : Part) : (s.setPart q x).asks = s.asks := rfl
@[simp] theorem State.setPart_turns (s : State) (q : Nat) (x : Part) : (s.setPart q x).turns = s.turns := rfl
@[simp] theorem State.setPart_prune (s : State) (q : Nat) (x : Part) : (s.setPart q x).prune = s.prune := rfl
@[simp] theorem State.setPart_pruneBusy (s : State) (q : Nat) (x : Part) : (s.setPart q x).pruneBusy = s.pruneBusy := rfl
@[simp] theorem State.setPart_halCmd (s : State) (q : Nat) (x : Part) : (s.setPart q x).halCmd = s.halCmd := rfl
@[simp] theorem State.setPart_colCmd (s : State) (q : Nat) (x : Part) : (s.setPart q x).colCmd = s.colCmd := rfl
@[simp] theorem State.setPart_fqNext (s : State) (q : Nat) (x : Part) : (s.setPart q x).fqNext = s.fqNext := rfl
@[simp] theorem State.setPart_fetches (s : State) (q : Nat) (x : Part) : (s.setPart q x).fetches = s.fetches := rfl
@[simp] theorem State.setPart_rdCurr (s : State) (q : Nat) (x : Part) : (s.setPart q x).rdCurr = s.rdCurr := rfl
@[simp] theorem State.setPart_ports (s : State) (q : Nat) (x : Part) : (s.setPart q x).ports = s.ports := rfl
@[simp] theorem State.setPart_inject (s : State) (q : Nat) (x : Part) : (s.setPart q x).inject = s.inject := rfl
@[simp] theorem State.setPart_outbox (s : State) (q : Nat) (x : Part) : (s.setPart q x).outbox = s.outbox := rfl
@[simp] theorem State.setPart_delivery (s : State) (q : Nat) (x : Part) : (s.setPart q x).delivery = s.delivery := rfl
@[simp] theorem State.setPart_flowCnt (s : State) (q : Nat) (x : Part) : (s.setPart q x).flowCnt = s.flowCnt := rfl
@[simp] theorem State.setPart_laserDark (s : State) (q : Nat) (x : Part) : (s.setPart q x).laserDark = s.laserDark := rfl
@[simp] theorem State.setPart_cxl (s : State) (q : Nat) (x : Part) : (s.setPart q x).cxl = s.cxl := rfl
@[simp] theorem State.setPart_sessions (s : State) (q : Nat) (x : Part) : (s.setPart q x).sessions = s.sessions := rfl
@[simp] theorem State.setPart_deferred (s : State) (q : Nat) (x : Part) : (s.setPart q x).deferred = s.deferred := rfl
@[simp] theorem State.setPart_running (s : State) (q : Nat) (x : Part) : (s.setPart q x).running = s.running := rfl
@[simp] theorem State.setPart_mgmtTurn (s : State) (q : Nat) (x : Part) : (s.setPart q x).mgmtTurn = s.mgmtTurn := rfl
@[simp] theorem State.setPart_mctpEid (s : State) (q : Nat) (x : Part) : (s.setPart q x).mctpEid = s.mctpEid := rfl
@[simp] theorem State.setPart_answers (s : State) (q : Nat) (x : Part) : (s.setPart q x).answers = s.answers := rfl
@[simp] theorem State.setPart_dests (s : State) (q : Nat) (x : Part) : (s.setPart q x).dests = s.dests := rfl
@[simp] theorem State.setPart_faultQ (s : State) (q : Nat) (x : Part) : (s.setPart q x).faultQ = s.faultQ := rfl
@[simp] theorem State.setPart_cases (s : State) (q : Nat) (x : Part) : (s.setPart q x).cases = s.cases := rfl
@[simp] theorem State.setPart_transients (s : State) (q : Nat) (x : Part) : (s.setPart q x).transients = s.transients := rfl
@[simp] theorem State.setPart_fencedBerths (s : State) (q : Nat) (x : Part) : (s.setPart q x).fencedBerths = s.fencedBerths := rfl
@[simp] theorem State.setPart_fencedTowers (s : State) (q : Nat) (x : Part) : (s.setPart q x).fencedTowers = s.fencedTowers := rfl
@[simp] theorem State.setPart_fencedEdges (s : State) (q : Nat) (x : Part) : (s.setPart q x).fencedEdges = s.fencedEdges := rfl
@[simp] theorem State.setPart_fencedSpire (s : State) (q : Nat) (x : Part) : (s.setPart q x).fencedSpire = s.fencedSpire := rfl
@[simp] theorem State.setPart_slices (s : State) (q : Nat) (x : Part) : (s.setPart q x).slices = s.slices := rfl
@[simp] theorem State.setPart_sliceNext (s : State) (q : Nat) (x : Part) : (s.setPart q x).sliceNext = s.sliceNext := rfl
@[simp] theorem State.setPart_testing (s : State) (q : Nat) (x : Part) : (s.setPart q x).testing = s.testing := rfl
@[simp] theorem State.setPart_power (s : State) (q : Nat) (x : Part) : (s.setPart q x).power = s.power := rfl
@[simp] theorem State.setPart_boot (s : State) (q : Nat) (x : Part) : (s.setPart q x).boot = s.boot := rfl
@[simp] theorem State.setPart_pwrgd (s : State) (q : Nat) (x : Part) : (s.setPart q x).pwrgd = s.pwrgd := rfl
@[simp] theorem State.setPart_rstN (s : State) (q : Nat) (x : Part) : (s.setPart q x).rstN = s.rstN := rfl
@[simp] theorem State.setPart_faultN (s : State) (q : Nat) (x : Part) : (s.setPart q x).faultN = s.faultN := rfl
@[simp] theorem State.setPart_tripN (s : State) (q : Nat) (x : Part) : (s.setPart q x).tripN = s.tripN := rfl
@[simp] theorem State.setPart_flash (s : State) (q : Nat) (x : Part) : (s.setPart q x).flash = s.flash := rfl
@[simp] theorem State.setPart_riskHist (s : State) (q : Nat) (x : Part) : (s.setPart q x).riskHist = s.riskHist := rfl
@[simp] theorem State.setPart_riskShort (s : State) (q : Nat) (x : Part) : (s.setPart q x).riskShort = s.riskShort := rfl
@[simp] theorem State.setPart_straps (s : State) (q : Nat) (x : Part) : (s.setPart q x).straps = s.straps := rfl
@[simp] theorem State.setPart_bootFaults (s : State) (q : Nat) (x : Part) : (s.setPart q x).bootFaults = s.bootFaults := rfl
@[simp] theorem State.setPart_puf (s : State) (q : Nat) (x : Part) : (s.setPart q x).puf = s.puf := rfl
@[simp] theorem State.setPart_identity (s : State) (q : Nat) (x : Part) : (s.setPart q x).identity = s.identity := rfl
@[simp] theorem State.setPart_platKey (s : State) (q : Nat) (x : Part) : (s.setPart q x).platKey = s.platKey := rfl
@[simp] theorem State.setPart_tap (s : State) (q : Nat) (x : Part) : (s.setPart q x).tap = s.tap := rfl
@[simp] theorem State.setPart_out (s : State) (q : Nat) (x : Part) : (s.setPart q x).out = s.out := rfl

/-! `State.modPart` -/

@[simp] theorem State.modPart_pending (s : State) (q : Nat) (f : Part → Part) : (s.modPart q f).pending = s.pending := rfl
@[simp] theorem State.modPart_fresh (s : State) (q : Nat) (f : Part → Part) : (s.modPart q f).fresh = s.fresh := rfl
@[simp] theorem State.modPart_cyc (s : State) (q : Nat) (f : Part → Part) : (s.modPart q f).cyc = s.cyc := rfl
@[simp] theorem State.modPart_cycLost (s : State) (q : Nat) (f : Part → Part) : (s.modPart q f).cycLost = s.cycLost := rfl
@[simp] theorem State.modPart_spars (s : State) (q : Nat) (f : Part → Part) : (s.modPart q f).spars = s.spars := rfl
@[simp] theorem State.modPart_od (s : State) (q : Nat) (f : Part → Part) : (s.modPart q f).od = s.od := rfl
@[simp] theorem State.modPart_blobs (s : State) (q : Nat) (f : Part → Part) : (s.modPart q f).blobs = s.blobs := rfl
@[simp] theorem State.modPart_blobGen (s : State) (q : Nat) (f : Part → Part) : (s.modPart q f).blobGen = s.blobGen := rfl
@[simp] theorem State.modPart_dome (s : State) (q : Nat) (f : Part → Part) : (s.modPart q f).dome = s.dome := rfl
@[simp] theorem State.modPart_poison (s : State) (q : Nat) (f : Part → Part) : (s.modPart q f).poison = s.poison := rfl
@[simp] theorem State.modPart_eccCnt (s : State) (q : Nat) (f : Part → Part) : (s.modPart q f).eccCnt = s.eccCnt := rfl
@[simp] theorem State.modPart_ceSeen (s : State) (q : Nat) (f : Part → Part) : (s.modPart q f).ceSeen = s.ceSeen := rfl
@[simp] theorem State.modPart_scrubAt (s : State) (q : Nat) (f : Part → Part) : (s.modPart q f).scrubAt = s.scrubAt := rfl
@[simp] theorem State.modPart_counters (s : State) (q : Nat) (f : Part → Part) : (s.modPart q f).counters = s.counters := rfl
@[simp] theorem State.modPart_ctrResets (s : State) (q : Nat) (f : Part → Part) : (s.modPart q f).ctrResets = s.ctrResets := rfl
@[simp] theorem State.modPart_domeOff (s : State) (q : Nat) (f : Part → Part) : (s.modPart q f).domeOff = s.domeOff := rfl
@[simp] theorem State.modPart_zeroFill (s : State) (q : Nat) (f : Part → Part) : (s.modPart q f).zeroFill = s.zeroFill := rfl
@[simp] theorem State.modPart_edges (s : State) (q : Nat) (f : Part → Part) : (s.modPart q f).edges = s.edges := rfl
@[simp] theorem State.modPart_homePtr (s : State) (q : Nat) (f : Part → Part) : (s.modPart q f).homePtr = s.homePtr := rfl
@[simp] theorem State.modPart_remPtr (s : State) (q : Nat) (f : Part → Part) : (s.modPart q f).remPtr = s.remPtr := rfl
@[simp] theorem State.modPart_domeQ (s : State) (q : Nat) (f : Part → Part) : (s.modPart q f).domeQ = s.domeQ := rfl
@[simp] theorem State.modPart_biWaits (s : State) (q : Nat) (f : Part → Part) : (s.modPart q f).biWaits = s.biWaits := rfl
@[simp] theorem State.modPart_asks (s : State) (q : Nat) (f : Part → Part) : (s.modPart q f).asks = s.asks := rfl
@[simp] theorem State.modPart_turns (s : State) (q : Nat) (f : Part → Part) : (s.modPart q f).turns = s.turns := rfl
@[simp] theorem State.modPart_prune (s : State) (q : Nat) (f : Part → Part) : (s.modPart q f).prune = s.prune := rfl
@[simp] theorem State.modPart_pruneBusy (s : State) (q : Nat) (f : Part → Part) : (s.modPart q f).pruneBusy = s.pruneBusy := rfl
@[simp] theorem State.modPart_halCmd (s : State) (q : Nat) (f : Part → Part) : (s.modPart q f).halCmd = s.halCmd := rfl
@[simp] theorem State.modPart_colCmd (s : State) (q : Nat) (f : Part → Part) : (s.modPart q f).colCmd = s.colCmd := rfl
@[simp] theorem State.modPart_fqNext (s : State) (q : Nat) (f : Part → Part) : (s.modPart q f).fqNext = s.fqNext := rfl
@[simp] theorem State.modPart_fetches (s : State) (q : Nat) (f : Part → Part) : (s.modPart q f).fetches = s.fetches := rfl
@[simp] theorem State.modPart_rdCurr (s : State) (q : Nat) (f : Part → Part) : (s.modPart q f).rdCurr = s.rdCurr := rfl
@[simp] theorem State.modPart_ports (s : State) (q : Nat) (f : Part → Part) : (s.modPart q f).ports = s.ports := rfl
@[simp] theorem State.modPart_inject (s : State) (q : Nat) (f : Part → Part) : (s.modPart q f).inject = s.inject := rfl
@[simp] theorem State.modPart_outbox (s : State) (q : Nat) (f : Part → Part) : (s.modPart q f).outbox = s.outbox := rfl
@[simp] theorem State.modPart_delivery (s : State) (q : Nat) (f : Part → Part) : (s.modPart q f).delivery = s.delivery := rfl
@[simp] theorem State.modPart_flowCnt (s : State) (q : Nat) (f : Part → Part) : (s.modPart q f).flowCnt = s.flowCnt := rfl
@[simp] theorem State.modPart_laserDark (s : State) (q : Nat) (f : Part → Part) : (s.modPart q f).laserDark = s.laserDark := rfl
@[simp] theorem State.modPart_cxl (s : State) (q : Nat) (f : Part → Part) : (s.modPart q f).cxl = s.cxl := rfl
@[simp] theorem State.modPart_sessions (s : State) (q : Nat) (f : Part → Part) : (s.modPart q f).sessions = s.sessions := rfl
@[simp] theorem State.modPart_deferred (s : State) (q : Nat) (f : Part → Part) : (s.modPart q f).deferred = s.deferred := rfl
@[simp] theorem State.modPart_running (s : State) (q : Nat) (f : Part → Part) : (s.modPart q f).running = s.running := rfl
@[simp] theorem State.modPart_mgmtTurn (s : State) (q : Nat) (f : Part → Part) : (s.modPart q f).mgmtTurn = s.mgmtTurn := rfl
@[simp] theorem State.modPart_mctpEid (s : State) (q : Nat) (f : Part → Part) : (s.modPart q f).mctpEid = s.mctpEid := rfl
@[simp] theorem State.modPart_answers (s : State) (q : Nat) (f : Part → Part) : (s.modPart q f).answers = s.answers := rfl
@[simp] theorem State.modPart_dests (s : State) (q : Nat) (f : Part → Part) : (s.modPart q f).dests = s.dests := rfl
@[simp] theorem State.modPart_faultQ (s : State) (q : Nat) (f : Part → Part) : (s.modPart q f).faultQ = s.faultQ := rfl
@[simp] theorem State.modPart_cases (s : State) (q : Nat) (f : Part → Part) : (s.modPart q f).cases = s.cases := rfl
@[simp] theorem State.modPart_transients (s : State) (q : Nat) (f : Part → Part) : (s.modPart q f).transients = s.transients := rfl
@[simp] theorem State.modPart_fencedBerths (s : State) (q : Nat) (f : Part → Part) : (s.modPart q f).fencedBerths = s.fencedBerths := rfl
@[simp] theorem State.modPart_fencedTowers (s : State) (q : Nat) (f : Part → Part) : (s.modPart q f).fencedTowers = s.fencedTowers := rfl
@[simp] theorem State.modPart_fencedEdges (s : State) (q : Nat) (f : Part → Part) : (s.modPart q f).fencedEdges = s.fencedEdges := rfl
@[simp] theorem State.modPart_fencedSpire (s : State) (q : Nat) (f : Part → Part) : (s.modPart q f).fencedSpire = s.fencedSpire := rfl
@[simp] theorem State.modPart_slices (s : State) (q : Nat) (f : Part → Part) : (s.modPart q f).slices = s.slices := rfl
@[simp] theorem State.modPart_sliceNext (s : State) (q : Nat) (f : Part → Part) : (s.modPart q f).sliceNext = s.sliceNext := rfl
@[simp] theorem State.modPart_testing (s : State) (q : Nat) (f : Part → Part) : (s.modPart q f).testing = s.testing := rfl
@[simp] theorem State.modPart_power (s : State) (q : Nat) (f : Part → Part) : (s.modPart q f).power = s.power := rfl
@[simp] theorem State.modPart_boot (s : State) (q : Nat) (f : Part → Part) : (s.modPart q f).boot = s.boot := rfl
@[simp] theorem State.modPart_pwrgd (s : State) (q : Nat) (f : Part → Part) : (s.modPart q f).pwrgd = s.pwrgd := rfl
@[simp] theorem State.modPart_rstN (s : State) (q : Nat) (f : Part → Part) : (s.modPart q f).rstN = s.rstN := rfl
@[simp] theorem State.modPart_faultN (s : State) (q : Nat) (f : Part → Part) : (s.modPart q f).faultN = s.faultN := rfl
@[simp] theorem State.modPart_tripN (s : State) (q : Nat) (f : Part → Part) : (s.modPart q f).tripN = s.tripN := rfl
@[simp] theorem State.modPart_flash (s : State) (q : Nat) (f : Part → Part) : (s.modPart q f).flash = s.flash := rfl
@[simp] theorem State.modPart_riskHist (s : State) (q : Nat) (f : Part → Part) : (s.modPart q f).riskHist = s.riskHist := rfl
@[simp] theorem State.modPart_riskShort (s : State) (q : Nat) (f : Part → Part) : (s.modPart q f).riskShort = s.riskShort := rfl
@[simp] theorem State.modPart_straps (s : State) (q : Nat) (f : Part → Part) : (s.modPart q f).straps = s.straps := rfl
@[simp] theorem State.modPart_bootFaults (s : State) (q : Nat) (f : Part → Part) : (s.modPart q f).bootFaults = s.bootFaults := rfl
@[simp] theorem State.modPart_puf (s : State) (q : Nat) (f : Part → Part) : (s.modPart q f).puf = s.puf := rfl
@[simp] theorem State.modPart_identity (s : State) (q : Nat) (f : Part → Part) : (s.modPart q f).identity = s.identity := rfl
@[simp] theorem State.modPart_platKey (s : State) (q : Nat) (f : Part → Part) : (s.modPart q f).platKey = s.platKey := rfl
@[simp] theorem State.modPart_tap (s : State) (q : Nat) (f : Part → Part) : (s.modPart q f).tap = s.tap := rfl
@[simp] theorem State.modPart_out (s : State) (q : Nat) (f : Part → Part) : (s.modPart q f).out = s.out := rfl

/-! `State.setPort` -/

@[simp] theorem State.setPort_pending (s : State) (p : Nat) (x : Port) : (s.setPort p x).pending = s.pending := rfl
@[simp] theorem State.setPort_fresh (s : State) (p : Nat) (x : Port) : (s.setPort p x).fresh = s.fresh := rfl
@[simp] theorem State.setPort_cyc (s : State) (p : Nat) (x : Port) : (s.setPort p x).cyc = s.cyc := rfl
@[simp] theorem State.setPort_cycLost (s : State) (p : Nat) (x : Port) : (s.setPort p x).cycLost = s.cycLost := rfl
@[simp] theorem State.setPort_spars (s : State) (p : Nat) (x : Port) : (s.setPort p x).spars = s.spars := rfl
@[simp] theorem State.setPort_parts (s : State) (p : Nat) (x : Port) : (s.setPort p x).parts = s.parts := rfl
@[simp] theorem State.setPort_od (s : State) (p : Nat) (x : Port) : (s.setPort p x).od = s.od := rfl
@[simp] theorem State.setPort_blobs (s : State) (p : Nat) (x : Port) : (s.setPort p x).blobs = s.blobs := rfl
@[simp] theorem State.setPort_blobGen (s : State) (p : Nat) (x : Port) : (s.setPort p x).blobGen = s.blobGen := rfl
@[simp] theorem State.setPort_dome (s : State) (p : Nat) (x : Port) : (s.setPort p x).dome = s.dome := rfl
@[simp] theorem State.setPort_poison (s : State) (p : Nat) (x : Port) : (s.setPort p x).poison = s.poison := rfl
@[simp] theorem State.setPort_eccCnt (s : State) (p : Nat) (x : Port) : (s.setPort p x).eccCnt = s.eccCnt := rfl
@[simp] theorem State.setPort_ceSeen (s : State) (p : Nat) (x : Port) : (s.setPort p x).ceSeen = s.ceSeen := rfl
@[simp] theorem State.setPort_scrubAt (s : State) (p : Nat) (x : Port) : (s.setPort p x).scrubAt = s.scrubAt := rfl
@[simp] theorem State.setPort_counters (s : State) (p : Nat) (x : Port) : (s.setPort p x).counters = s.counters := rfl
@[simp] theorem State.setPort_ctrResets (s : State) (p : Nat) (x : Port) : (s.setPort p x).ctrResets = s.ctrResets := rfl
@[simp] theorem State.setPort_domeOff (s : State) (p : Nat) (x : Port) : (s.setPort p x).domeOff = s.domeOff := rfl
@[simp] theorem State.setPort_zeroFill (s : State) (p : Nat) (x : Port) : (s.setPort p x).zeroFill = s.zeroFill := rfl
@[simp] theorem State.setPort_edges (s : State) (p : Nat) (x : Port) : (s.setPort p x).edges = s.edges := rfl
@[simp] theorem State.setPort_homePtr (s : State) (p : Nat) (x : Port) : (s.setPort p x).homePtr = s.homePtr := rfl
@[simp] theorem State.setPort_remPtr (s : State) (p : Nat) (x : Port) : (s.setPort p x).remPtr = s.remPtr := rfl
@[simp] theorem State.setPort_domeQ (s : State) (p : Nat) (x : Port) : (s.setPort p x).domeQ = s.domeQ := rfl
@[simp] theorem State.setPort_biWaits (s : State) (p : Nat) (x : Port) : (s.setPort p x).biWaits = s.biWaits := rfl
@[simp] theorem State.setPort_asks (s : State) (p : Nat) (x : Port) : (s.setPort p x).asks = s.asks := rfl
@[simp] theorem State.setPort_turns (s : State) (p : Nat) (x : Port) : (s.setPort p x).turns = s.turns := rfl
@[simp] theorem State.setPort_prune (s : State) (p : Nat) (x : Port) : (s.setPort p x).prune = s.prune := rfl
@[simp] theorem State.setPort_pruneBusy (s : State) (p : Nat) (x : Port) : (s.setPort p x).pruneBusy = s.pruneBusy := rfl
@[simp] theorem State.setPort_halCmd (s : State) (p : Nat) (x : Port) : (s.setPort p x).halCmd = s.halCmd := rfl
@[simp] theorem State.setPort_colCmd (s : State) (p : Nat) (x : Port) : (s.setPort p x).colCmd = s.colCmd := rfl
@[simp] theorem State.setPort_fqNext (s : State) (p : Nat) (x : Port) : (s.setPort p x).fqNext = s.fqNext := rfl
@[simp] theorem State.setPort_fetches (s : State) (p : Nat) (x : Port) : (s.setPort p x).fetches = s.fetches := rfl
@[simp] theorem State.setPort_rdCurr (s : State) (p : Nat) (x : Port) : (s.setPort p x).rdCurr = s.rdCurr := rfl
@[simp] theorem State.setPort_inject (s : State) (p : Nat) (x : Port) : (s.setPort p x).inject = s.inject := rfl
@[simp] theorem State.setPort_outbox (s : State) (p : Nat) (x : Port) : (s.setPort p x).outbox = s.outbox := rfl
@[simp] theorem State.setPort_delivery (s : State) (p : Nat) (x : Port) : (s.setPort p x).delivery = s.delivery := rfl
@[simp] theorem State.setPort_flowCnt (s : State) (p : Nat) (x : Port) : (s.setPort p x).flowCnt = s.flowCnt := rfl
@[simp] theorem State.setPort_laserDark (s : State) (p : Nat) (x : Port) : (s.setPort p x).laserDark = s.laserDark := rfl
@[simp] theorem State.setPort_cxl (s : State) (p : Nat) (x : Port) : (s.setPort p x).cxl = s.cxl := rfl
@[simp] theorem State.setPort_sessions (s : State) (p : Nat) (x : Port) : (s.setPort p x).sessions = s.sessions := rfl
@[simp] theorem State.setPort_deferred (s : State) (p : Nat) (x : Port) : (s.setPort p x).deferred = s.deferred := rfl
@[simp] theorem State.setPort_running (s : State) (p : Nat) (x : Port) : (s.setPort p x).running = s.running := rfl
@[simp] theorem State.setPort_mgmtTurn (s : State) (p : Nat) (x : Port) : (s.setPort p x).mgmtTurn = s.mgmtTurn := rfl
@[simp] theorem State.setPort_mctpEid (s : State) (p : Nat) (x : Port) : (s.setPort p x).mctpEid = s.mctpEid := rfl
@[simp] theorem State.setPort_answers (s : State) (p : Nat) (x : Port) : (s.setPort p x).answers = s.answers := rfl
@[simp] theorem State.setPort_dests (s : State) (p : Nat) (x : Port) : (s.setPort p x).dests = s.dests := rfl
@[simp] theorem State.setPort_faultQ (s : State) (p : Nat) (x : Port) : (s.setPort p x).faultQ = s.faultQ := rfl
@[simp] theorem State.setPort_cases (s : State) (p : Nat) (x : Port) : (s.setPort p x).cases = s.cases := rfl
@[simp] theorem State.setPort_transients (s : State) (p : Nat) (x : Port) : (s.setPort p x).transients = s.transients := rfl
@[simp] theorem State.setPort_fencedBerths (s : State) (p : Nat) (x : Port) : (s.setPort p x).fencedBerths = s.fencedBerths := rfl
@[simp] theorem State.setPort_fencedTowers (s : State) (p : Nat) (x : Port) : (s.setPort p x).fencedTowers = s.fencedTowers := rfl
@[simp] theorem State.setPort_fencedEdges (s : State) (p : Nat) (x : Port) : (s.setPort p x).fencedEdges = s.fencedEdges := rfl
@[simp] theorem State.setPort_fencedSpire (s : State) (p : Nat) (x : Port) : (s.setPort p x).fencedSpire = s.fencedSpire := rfl
@[simp] theorem State.setPort_slices (s : State) (p : Nat) (x : Port) : (s.setPort p x).slices = s.slices := rfl
@[simp] theorem State.setPort_sliceNext (s : State) (p : Nat) (x : Port) : (s.setPort p x).sliceNext = s.sliceNext := rfl
@[simp] theorem State.setPort_testing (s : State) (p : Nat) (x : Port) : (s.setPort p x).testing = s.testing := rfl
@[simp] theorem State.setPort_power (s : State) (p : Nat) (x : Port) : (s.setPort p x).power = s.power := rfl
@[simp] theorem State.setPort_boot (s : State) (p : Nat) (x : Port) : (s.setPort p x).boot = s.boot := rfl
@[simp] theorem State.setPort_pwrgd (s : State) (p : Nat) (x : Port) : (s.setPort p x).pwrgd = s.pwrgd := rfl
@[simp] theorem State.setPort_rstN (s : State) (p : Nat) (x : Port) : (s.setPort p x).rstN = s.rstN := rfl
@[simp] theorem State.setPort_faultN (s : State) (p : Nat) (x : Port) : (s.setPort p x).faultN = s.faultN := rfl
@[simp] theorem State.setPort_tripN (s : State) (p : Nat) (x : Port) : (s.setPort p x).tripN = s.tripN := rfl
@[simp] theorem State.setPort_flash (s : State) (p : Nat) (x : Port) : (s.setPort p x).flash = s.flash := rfl
@[simp] theorem State.setPort_riskHist (s : State) (p : Nat) (x : Port) : (s.setPort p x).riskHist = s.riskHist := rfl
@[simp] theorem State.setPort_riskShort (s : State) (p : Nat) (x : Port) : (s.setPort p x).riskShort = s.riskShort := rfl
@[simp] theorem State.setPort_straps (s : State) (p : Nat) (x : Port) : (s.setPort p x).straps = s.straps := rfl
@[simp] theorem State.setPort_bootFaults (s : State) (p : Nat) (x : Port) : (s.setPort p x).bootFaults = s.bootFaults := rfl
@[simp] theorem State.setPort_puf (s : State) (p : Nat) (x : Port) : (s.setPort p x).puf = s.puf := rfl
@[simp] theorem State.setPort_identity (s : State) (p : Nat) (x : Port) : (s.setPort p x).identity = s.identity := rfl
@[simp] theorem State.setPort_platKey (s : State) (p : Nat) (x : Port) : (s.setPort p x).platKey = s.platKey := rfl
@[simp] theorem State.setPort_tap (s : State) (p : Nat) (x : Port) : (s.setPort p x).tap = s.tap := rfl
@[simp] theorem State.setPort_out (s : State) (p : Nat) (x : Port) : (s.setPort p x).out = s.out := rfl

/-! `State.modPort` -/

@[simp] theorem State.modPort_pending (s : State) (p : Nat) (f : Port → Port) : (s.modPort p f).pending = s.pending := rfl
@[simp] theorem State.modPort_fresh (s : State) (p : Nat) (f : Port → Port) : (s.modPort p f).fresh = s.fresh := rfl
@[simp] theorem State.modPort_cyc (s : State) (p : Nat) (f : Port → Port) : (s.modPort p f).cyc = s.cyc := rfl
@[simp] theorem State.modPort_cycLost (s : State) (p : Nat) (f : Port → Port) : (s.modPort p f).cycLost = s.cycLost := rfl
@[simp] theorem State.modPort_spars (s : State) (p : Nat) (f : Port → Port) : (s.modPort p f).spars = s.spars := rfl
@[simp] theorem State.modPort_parts (s : State) (p : Nat) (f : Port → Port) : (s.modPort p f).parts = s.parts := rfl
@[simp] theorem State.modPort_od (s : State) (p : Nat) (f : Port → Port) : (s.modPort p f).od = s.od := rfl
@[simp] theorem State.modPort_blobs (s : State) (p : Nat) (f : Port → Port) : (s.modPort p f).blobs = s.blobs := rfl
@[simp] theorem State.modPort_blobGen (s : State) (p : Nat) (f : Port → Port) : (s.modPort p f).blobGen = s.blobGen := rfl
@[simp] theorem State.modPort_dome (s : State) (p : Nat) (f : Port → Port) : (s.modPort p f).dome = s.dome := rfl
@[simp] theorem State.modPort_poison (s : State) (p : Nat) (f : Port → Port) : (s.modPort p f).poison = s.poison := rfl
@[simp] theorem State.modPort_eccCnt (s : State) (p : Nat) (f : Port → Port) : (s.modPort p f).eccCnt = s.eccCnt := rfl
@[simp] theorem State.modPort_ceSeen (s : State) (p : Nat) (f : Port → Port) : (s.modPort p f).ceSeen = s.ceSeen := rfl
@[simp] theorem State.modPort_scrubAt (s : State) (p : Nat) (f : Port → Port) : (s.modPort p f).scrubAt = s.scrubAt := rfl
@[simp] theorem State.modPort_counters (s : State) (p : Nat) (f : Port → Port) : (s.modPort p f).counters = s.counters := rfl
@[simp] theorem State.modPort_ctrResets (s : State) (p : Nat) (f : Port → Port) : (s.modPort p f).ctrResets = s.ctrResets := rfl
@[simp] theorem State.modPort_domeOff (s : State) (p : Nat) (f : Port → Port) : (s.modPort p f).domeOff = s.domeOff := rfl
@[simp] theorem State.modPort_zeroFill (s : State) (p : Nat) (f : Port → Port) : (s.modPort p f).zeroFill = s.zeroFill := rfl
@[simp] theorem State.modPort_edges (s : State) (p : Nat) (f : Port → Port) : (s.modPort p f).edges = s.edges := rfl
@[simp] theorem State.modPort_homePtr (s : State) (p : Nat) (f : Port → Port) : (s.modPort p f).homePtr = s.homePtr := rfl
@[simp] theorem State.modPort_remPtr (s : State) (p : Nat) (f : Port → Port) : (s.modPort p f).remPtr = s.remPtr := rfl
@[simp] theorem State.modPort_domeQ (s : State) (p : Nat) (f : Port → Port) : (s.modPort p f).domeQ = s.domeQ := rfl
@[simp] theorem State.modPort_biWaits (s : State) (p : Nat) (f : Port → Port) : (s.modPort p f).biWaits = s.biWaits := rfl
@[simp] theorem State.modPort_asks (s : State) (p : Nat) (f : Port → Port) : (s.modPort p f).asks = s.asks := rfl
@[simp] theorem State.modPort_turns (s : State) (p : Nat) (f : Port → Port) : (s.modPort p f).turns = s.turns := rfl
@[simp] theorem State.modPort_prune (s : State) (p : Nat) (f : Port → Port) : (s.modPort p f).prune = s.prune := rfl
@[simp] theorem State.modPort_pruneBusy (s : State) (p : Nat) (f : Port → Port) : (s.modPort p f).pruneBusy = s.pruneBusy := rfl
@[simp] theorem State.modPort_halCmd (s : State) (p : Nat) (f : Port → Port) : (s.modPort p f).halCmd = s.halCmd := rfl
@[simp] theorem State.modPort_colCmd (s : State) (p : Nat) (f : Port → Port) : (s.modPort p f).colCmd = s.colCmd := rfl
@[simp] theorem State.modPort_fqNext (s : State) (p : Nat) (f : Port → Port) : (s.modPort p f).fqNext = s.fqNext := rfl
@[simp] theorem State.modPort_fetches (s : State) (p : Nat) (f : Port → Port) : (s.modPort p f).fetches = s.fetches := rfl
@[simp] theorem State.modPort_rdCurr (s : State) (p : Nat) (f : Port → Port) : (s.modPort p f).rdCurr = s.rdCurr := rfl
@[simp] theorem State.modPort_inject (s : State) (p : Nat) (f : Port → Port) : (s.modPort p f).inject = s.inject := rfl
@[simp] theorem State.modPort_outbox (s : State) (p : Nat) (f : Port → Port) : (s.modPort p f).outbox = s.outbox := rfl
@[simp] theorem State.modPort_delivery (s : State) (p : Nat) (f : Port → Port) : (s.modPort p f).delivery = s.delivery := rfl
@[simp] theorem State.modPort_flowCnt (s : State) (p : Nat) (f : Port → Port) : (s.modPort p f).flowCnt = s.flowCnt := rfl
@[simp] theorem State.modPort_laserDark (s : State) (p : Nat) (f : Port → Port) : (s.modPort p f).laserDark = s.laserDark := rfl
@[simp] theorem State.modPort_cxl (s : State) (p : Nat) (f : Port → Port) : (s.modPort p f).cxl = s.cxl := rfl
@[simp] theorem State.modPort_sessions (s : State) (p : Nat) (f : Port → Port) : (s.modPort p f).sessions = s.sessions := rfl
@[simp] theorem State.modPort_deferred (s : State) (p : Nat) (f : Port → Port) : (s.modPort p f).deferred = s.deferred := rfl
@[simp] theorem State.modPort_running (s : State) (p : Nat) (f : Port → Port) : (s.modPort p f).running = s.running := rfl
@[simp] theorem State.modPort_mgmtTurn (s : State) (p : Nat) (f : Port → Port) : (s.modPort p f).mgmtTurn = s.mgmtTurn := rfl
@[simp] theorem State.modPort_mctpEid (s : State) (p : Nat) (f : Port → Port) : (s.modPort p f).mctpEid = s.mctpEid := rfl
@[simp] theorem State.modPort_answers (s : State) (p : Nat) (f : Port → Port) : (s.modPort p f).answers = s.answers := rfl
@[simp] theorem State.modPort_dests (s : State) (p : Nat) (f : Port → Port) : (s.modPort p f).dests = s.dests := rfl
@[simp] theorem State.modPort_faultQ (s : State) (p : Nat) (f : Port → Port) : (s.modPort p f).faultQ = s.faultQ := rfl
@[simp] theorem State.modPort_cases (s : State) (p : Nat) (f : Port → Port) : (s.modPort p f).cases = s.cases := rfl
@[simp] theorem State.modPort_transients (s : State) (p : Nat) (f : Port → Port) : (s.modPort p f).transients = s.transients := rfl
@[simp] theorem State.modPort_fencedBerths (s : State) (p : Nat) (f : Port → Port) : (s.modPort p f).fencedBerths = s.fencedBerths := rfl
@[simp] theorem State.modPort_fencedTowers (s : State) (p : Nat) (f : Port → Port) : (s.modPort p f).fencedTowers = s.fencedTowers := rfl
@[simp] theorem State.modPort_fencedEdges (s : State) (p : Nat) (f : Port → Port) : (s.modPort p f).fencedEdges = s.fencedEdges := rfl
@[simp] theorem State.modPort_fencedSpire (s : State) (p : Nat) (f : Port → Port) : (s.modPort p f).fencedSpire = s.fencedSpire := rfl
@[simp] theorem State.modPort_slices (s : State) (p : Nat) (f : Port → Port) : (s.modPort p f).slices = s.slices := rfl
@[simp] theorem State.modPort_sliceNext (s : State) (p : Nat) (f : Port → Port) : (s.modPort p f).sliceNext = s.sliceNext := rfl
@[simp] theorem State.modPort_testing (s : State) (p : Nat) (f : Port → Port) : (s.modPort p f).testing = s.testing := rfl
@[simp] theorem State.modPort_power (s : State) (p : Nat) (f : Port → Port) : (s.modPort p f).power = s.power := rfl
@[simp] theorem State.modPort_boot (s : State) (p : Nat) (f : Port → Port) : (s.modPort p f).boot = s.boot := rfl
@[simp] theorem State.modPort_pwrgd (s : State) (p : Nat) (f : Port → Port) : (s.modPort p f).pwrgd = s.pwrgd := rfl
@[simp] theorem State.modPort_rstN (s : State) (p : Nat) (f : Port → Port) : (s.modPort p f).rstN = s.rstN := rfl
@[simp] theorem State.modPort_faultN (s : State) (p : Nat) (f : Port → Port) : (s.modPort p f).faultN = s.faultN := rfl
@[simp] theorem State.modPort_tripN (s : State) (p : Nat) (f : Port → Port) : (s.modPort p f).tripN = s.tripN := rfl
@[simp] theorem State.modPort_flash (s : State) (p : Nat) (f : Port → Port) : (s.modPort p f).flash = s.flash := rfl
@[simp] theorem State.modPort_riskHist (s : State) (p : Nat) (f : Port → Port) : (s.modPort p f).riskHist = s.riskHist := rfl
@[simp] theorem State.modPort_riskShort (s : State) (p : Nat) (f : Port → Port) : (s.modPort p f).riskShort = s.riskShort := rfl
@[simp] theorem State.modPort_straps (s : State) (p : Nat) (f : Port → Port) : (s.modPort p f).straps = s.straps := rfl
@[simp] theorem State.modPort_bootFaults (s : State) (p : Nat) (f : Port → Port) : (s.modPort p f).bootFaults = s.bootFaults := rfl
@[simp] theorem State.modPort_puf (s : State) (p : Nat) (f : Port → Port) : (s.modPort p f).puf = s.puf := rfl
@[simp] theorem State.modPort_identity (s : State) (p : Nat) (f : Port → Port) : (s.modPort p f).identity = s.identity := rfl
@[simp] theorem State.modPort_platKey (s : State) (p : Nat) (f : Port → Port) : (s.modPort p f).platKey = s.platKey := rfl
@[simp] theorem State.modPort_tap (s : State) (p : Nat) (f : Port → Port) : (s.modPort p f).tap = s.tap := rfl
@[simp] theorem State.modPort_out (s : State) (p : Nat) (f : Port → Port) : (s.modPort p f).out = s.out := rfl

/-! `State.setEdge` -/

@[simp] theorem State.setEdge_pending (s : State) (e : Nat) (x : Edge) : (s.setEdge e x).pending = s.pending := rfl
@[simp] theorem State.setEdge_fresh (s : State) (e : Nat) (x : Edge) : (s.setEdge e x).fresh = s.fresh := rfl
@[simp] theorem State.setEdge_cyc (s : State) (e : Nat) (x : Edge) : (s.setEdge e x).cyc = s.cyc := rfl
@[simp] theorem State.setEdge_cycLost (s : State) (e : Nat) (x : Edge) : (s.setEdge e x).cycLost = s.cycLost := rfl
@[simp] theorem State.setEdge_spars (s : State) (e : Nat) (x : Edge) : (s.setEdge e x).spars = s.spars := rfl
@[simp] theorem State.setEdge_parts (s : State) (e : Nat) (x : Edge) : (s.setEdge e x).parts = s.parts := rfl
@[simp] theorem State.setEdge_od (s : State) (e : Nat) (x : Edge) : (s.setEdge e x).od = s.od := rfl
@[simp] theorem State.setEdge_blobs (s : State) (e : Nat) (x : Edge) : (s.setEdge e x).blobs = s.blobs := rfl
@[simp] theorem State.setEdge_blobGen (s : State) (e : Nat) (x : Edge) : (s.setEdge e x).blobGen = s.blobGen := rfl
@[simp] theorem State.setEdge_dome (s : State) (e : Nat) (x : Edge) : (s.setEdge e x).dome = s.dome := rfl
@[simp] theorem State.setEdge_poison (s : State) (e : Nat) (x : Edge) : (s.setEdge e x).poison = s.poison := rfl
@[simp] theorem State.setEdge_eccCnt (s : State) (e : Nat) (x : Edge) : (s.setEdge e x).eccCnt = s.eccCnt := rfl
@[simp] theorem State.setEdge_ceSeen (s : State) (e : Nat) (x : Edge) : (s.setEdge e x).ceSeen = s.ceSeen := rfl
@[simp] theorem State.setEdge_scrubAt (s : State) (e : Nat) (x : Edge) : (s.setEdge e x).scrubAt = s.scrubAt := rfl
@[simp] theorem State.setEdge_counters (s : State) (e : Nat) (x : Edge) : (s.setEdge e x).counters = s.counters := rfl
@[simp] theorem State.setEdge_ctrResets (s : State) (e : Nat) (x : Edge) : (s.setEdge e x).ctrResets = s.ctrResets := rfl
@[simp] theorem State.setEdge_domeOff (s : State) (e : Nat) (x : Edge) : (s.setEdge e x).domeOff = s.domeOff := rfl
@[simp] theorem State.setEdge_zeroFill (s : State) (e : Nat) (x : Edge) : (s.setEdge e x).zeroFill = s.zeroFill := rfl
@[simp] theorem State.setEdge_homePtr (s : State) (e : Nat) (x : Edge) : (s.setEdge e x).homePtr = s.homePtr := rfl
@[simp] theorem State.setEdge_remPtr (s : State) (e : Nat) (x : Edge) : (s.setEdge e x).remPtr = s.remPtr := rfl
@[simp] theorem State.setEdge_domeQ (s : State) (e : Nat) (x : Edge) : (s.setEdge e x).domeQ = s.domeQ := rfl
@[simp] theorem State.setEdge_biWaits (s : State) (e : Nat) (x : Edge) : (s.setEdge e x).biWaits = s.biWaits := rfl
@[simp] theorem State.setEdge_asks (s : State) (e : Nat) (x : Edge) : (s.setEdge e x).asks = s.asks := rfl
@[simp] theorem State.setEdge_turns (s : State) (e : Nat) (x : Edge) : (s.setEdge e x).turns = s.turns := rfl
@[simp] theorem State.setEdge_prune (s : State) (e : Nat) (x : Edge) : (s.setEdge e x).prune = s.prune := rfl
@[simp] theorem State.setEdge_pruneBusy (s : State) (e : Nat) (x : Edge) : (s.setEdge e x).pruneBusy = s.pruneBusy := rfl
@[simp] theorem State.setEdge_halCmd (s : State) (e : Nat) (x : Edge) : (s.setEdge e x).halCmd = s.halCmd := rfl
@[simp] theorem State.setEdge_colCmd (s : State) (e : Nat) (x : Edge) : (s.setEdge e x).colCmd = s.colCmd := rfl
@[simp] theorem State.setEdge_fqNext (s : State) (e : Nat) (x : Edge) : (s.setEdge e x).fqNext = s.fqNext := rfl
@[simp] theorem State.setEdge_fetches (s : State) (e : Nat) (x : Edge) : (s.setEdge e x).fetches = s.fetches := rfl
@[simp] theorem State.setEdge_rdCurr (s : State) (e : Nat) (x : Edge) : (s.setEdge e x).rdCurr = s.rdCurr := rfl
@[simp] theorem State.setEdge_ports (s : State) (e : Nat) (x : Edge) : (s.setEdge e x).ports = s.ports := rfl
@[simp] theorem State.setEdge_inject (s : State) (e : Nat) (x : Edge) : (s.setEdge e x).inject = s.inject := rfl
@[simp] theorem State.setEdge_outbox (s : State) (e : Nat) (x : Edge) : (s.setEdge e x).outbox = s.outbox := rfl
@[simp] theorem State.setEdge_delivery (s : State) (e : Nat) (x : Edge) : (s.setEdge e x).delivery = s.delivery := rfl
@[simp] theorem State.setEdge_flowCnt (s : State) (e : Nat) (x : Edge) : (s.setEdge e x).flowCnt = s.flowCnt := rfl
@[simp] theorem State.setEdge_laserDark (s : State) (e : Nat) (x : Edge) : (s.setEdge e x).laserDark = s.laserDark := rfl
@[simp] theorem State.setEdge_cxl (s : State) (e : Nat) (x : Edge) : (s.setEdge e x).cxl = s.cxl := rfl
@[simp] theorem State.setEdge_sessions (s : State) (e : Nat) (x : Edge) : (s.setEdge e x).sessions = s.sessions := rfl
@[simp] theorem State.setEdge_deferred (s : State) (e : Nat) (x : Edge) : (s.setEdge e x).deferred = s.deferred := rfl
@[simp] theorem State.setEdge_running (s : State) (e : Nat) (x : Edge) : (s.setEdge e x).running = s.running := rfl
@[simp] theorem State.setEdge_mgmtTurn (s : State) (e : Nat) (x : Edge) : (s.setEdge e x).mgmtTurn = s.mgmtTurn := rfl
@[simp] theorem State.setEdge_mctpEid (s : State) (e : Nat) (x : Edge) : (s.setEdge e x).mctpEid = s.mctpEid := rfl
@[simp] theorem State.setEdge_answers (s : State) (e : Nat) (x : Edge) : (s.setEdge e x).answers = s.answers := rfl
@[simp] theorem State.setEdge_dests (s : State) (e : Nat) (x : Edge) : (s.setEdge e x).dests = s.dests := rfl
@[simp] theorem State.setEdge_faultQ (s : State) (e : Nat) (x : Edge) : (s.setEdge e x).faultQ = s.faultQ := rfl
@[simp] theorem State.setEdge_cases (s : State) (e : Nat) (x : Edge) : (s.setEdge e x).cases = s.cases := rfl
@[simp] theorem State.setEdge_transients (s : State) (e : Nat) (x : Edge) : (s.setEdge e x).transients = s.transients := rfl
@[simp] theorem State.setEdge_fencedBerths (s : State) (e : Nat) (x : Edge) : (s.setEdge e x).fencedBerths = s.fencedBerths := rfl
@[simp] theorem State.setEdge_fencedTowers (s : State) (e : Nat) (x : Edge) : (s.setEdge e x).fencedTowers = s.fencedTowers := rfl
@[simp] theorem State.setEdge_fencedEdges (s : State) (e : Nat) (x : Edge) : (s.setEdge e x).fencedEdges = s.fencedEdges := rfl
@[simp] theorem State.setEdge_fencedSpire (s : State) (e : Nat) (x : Edge) : (s.setEdge e x).fencedSpire = s.fencedSpire := rfl
@[simp] theorem State.setEdge_slices (s : State) (e : Nat) (x : Edge) : (s.setEdge e x).slices = s.slices := rfl
@[simp] theorem State.setEdge_sliceNext (s : State) (e : Nat) (x : Edge) : (s.setEdge e x).sliceNext = s.sliceNext := rfl
@[simp] theorem State.setEdge_testing (s : State) (e : Nat) (x : Edge) : (s.setEdge e x).testing = s.testing := rfl
@[simp] theorem State.setEdge_power (s : State) (e : Nat) (x : Edge) : (s.setEdge e x).power = s.power := rfl
@[simp] theorem State.setEdge_boot (s : State) (e : Nat) (x : Edge) : (s.setEdge e x).boot = s.boot := rfl
@[simp] theorem State.setEdge_pwrgd (s : State) (e : Nat) (x : Edge) : (s.setEdge e x).pwrgd = s.pwrgd := rfl
@[simp] theorem State.setEdge_rstN (s : State) (e : Nat) (x : Edge) : (s.setEdge e x).rstN = s.rstN := rfl
@[simp] theorem State.setEdge_faultN (s : State) (e : Nat) (x : Edge) : (s.setEdge e x).faultN = s.faultN := rfl
@[simp] theorem State.setEdge_tripN (s : State) (e : Nat) (x : Edge) : (s.setEdge e x).tripN = s.tripN := rfl
@[simp] theorem State.setEdge_flash (s : State) (e : Nat) (x : Edge) : (s.setEdge e x).flash = s.flash := rfl
@[simp] theorem State.setEdge_riskHist (s : State) (e : Nat) (x : Edge) : (s.setEdge e x).riskHist = s.riskHist := rfl
@[simp] theorem State.setEdge_riskShort (s : State) (e : Nat) (x : Edge) : (s.setEdge e x).riskShort = s.riskShort := rfl
@[simp] theorem State.setEdge_straps (s : State) (e : Nat) (x : Edge) : (s.setEdge e x).straps = s.straps := rfl
@[simp] theorem State.setEdge_bootFaults (s : State) (e : Nat) (x : Edge) : (s.setEdge e x).bootFaults = s.bootFaults := rfl
@[simp] theorem State.setEdge_puf (s : State) (e : Nat) (x : Edge) : (s.setEdge e x).puf = s.puf := rfl
@[simp] theorem State.setEdge_identity (s : State) (e : Nat) (x : Edge) : (s.setEdge e x).identity = s.identity := rfl
@[simp] theorem State.setEdge_platKey (s : State) (e : Nat) (x : Edge) : (s.setEdge e x).platKey = s.platKey := rfl
@[simp] theorem State.setEdge_tap (s : State) (e : Nat) (x : Edge) : (s.setEdge e x).tap = s.tap := rfl
@[simp] theorem State.setEdge_out (s : State) (e : Nat) (x : Edge) : (s.setEdge e x).out = s.out := rfl

/-! `State.odSet` -/

@[simp] theorem State.odSet_pending (s : State) (q i sub v : Nat) : (s.odSet q i sub v).pending = s.pending := rfl
@[simp] theorem State.odSet_fresh (s : State) (q i sub v : Nat) : (s.odSet q i sub v).fresh = s.fresh := rfl
@[simp] theorem State.odSet_cyc (s : State) (q i sub v : Nat) : (s.odSet q i sub v).cyc = s.cyc := rfl
@[simp] theorem State.odSet_cycLost (s : State) (q i sub v : Nat) : (s.odSet q i sub v).cycLost = s.cycLost := rfl
@[simp] theorem State.odSet_spars (s : State) (q i sub v : Nat) : (s.odSet q i sub v).spars = s.spars := rfl
@[simp] theorem State.odSet_parts (s : State) (q i sub v : Nat) : (s.odSet q i sub v).parts = s.parts := rfl
@[simp] theorem State.odSet_blobs (s : State) (q i sub v : Nat) : (s.odSet q i sub v).blobs = s.blobs := rfl
@[simp] theorem State.odSet_blobGen (s : State) (q i sub v : Nat) : (s.odSet q i sub v).blobGen = s.blobGen := rfl
@[simp] theorem State.odSet_dome (s : State) (q i sub v : Nat) : (s.odSet q i sub v).dome = s.dome := rfl
@[simp] theorem State.odSet_poison (s : State) (q i sub v : Nat) : (s.odSet q i sub v).poison = s.poison := rfl
@[simp] theorem State.odSet_eccCnt (s : State) (q i sub v : Nat) : (s.odSet q i sub v).eccCnt = s.eccCnt := rfl
@[simp] theorem State.odSet_ceSeen (s : State) (q i sub v : Nat) : (s.odSet q i sub v).ceSeen = s.ceSeen := rfl
@[simp] theorem State.odSet_scrubAt (s : State) (q i sub v : Nat) : (s.odSet q i sub v).scrubAt = s.scrubAt := rfl
@[simp] theorem State.odSet_counters (s : State) (q i sub v : Nat) : (s.odSet q i sub v).counters = s.counters := rfl
@[simp] theorem State.odSet_ctrResets (s : State) (q i sub v : Nat) : (s.odSet q i sub v).ctrResets = s.ctrResets := rfl
@[simp] theorem State.odSet_domeOff (s : State) (q i sub v : Nat) : (s.odSet q i sub v).domeOff = s.domeOff := rfl
@[simp] theorem State.odSet_zeroFill (s : State) (q i sub v : Nat) : (s.odSet q i sub v).zeroFill = s.zeroFill := rfl
@[simp] theorem State.odSet_edges (s : State) (q i sub v : Nat) : (s.odSet q i sub v).edges = s.edges := rfl
@[simp] theorem State.odSet_homePtr (s : State) (q i sub v : Nat) : (s.odSet q i sub v).homePtr = s.homePtr := rfl
@[simp] theorem State.odSet_remPtr (s : State) (q i sub v : Nat) : (s.odSet q i sub v).remPtr = s.remPtr := rfl
@[simp] theorem State.odSet_domeQ (s : State) (q i sub v : Nat) : (s.odSet q i sub v).domeQ = s.domeQ := rfl
@[simp] theorem State.odSet_biWaits (s : State) (q i sub v : Nat) : (s.odSet q i sub v).biWaits = s.biWaits := rfl
@[simp] theorem State.odSet_asks (s : State) (q i sub v : Nat) : (s.odSet q i sub v).asks = s.asks := rfl
@[simp] theorem State.odSet_turns (s : State) (q i sub v : Nat) : (s.odSet q i sub v).turns = s.turns := rfl
@[simp] theorem State.odSet_prune (s : State) (q i sub v : Nat) : (s.odSet q i sub v).prune = s.prune := rfl
@[simp] theorem State.odSet_pruneBusy (s : State) (q i sub v : Nat) : (s.odSet q i sub v).pruneBusy = s.pruneBusy := rfl
@[simp] theorem State.odSet_halCmd (s : State) (q i sub v : Nat) : (s.odSet q i sub v).halCmd = s.halCmd := rfl
@[simp] theorem State.odSet_colCmd (s : State) (q i sub v : Nat) : (s.odSet q i sub v).colCmd = s.colCmd := rfl
@[simp] theorem State.odSet_fqNext (s : State) (q i sub v : Nat) : (s.odSet q i sub v).fqNext = s.fqNext := rfl
@[simp] theorem State.odSet_fetches (s : State) (q i sub v : Nat) : (s.odSet q i sub v).fetches = s.fetches := rfl
@[simp] theorem State.odSet_rdCurr (s : State) (q i sub v : Nat) : (s.odSet q i sub v).rdCurr = s.rdCurr := rfl
@[simp] theorem State.odSet_ports (s : State) (q i sub v : Nat) : (s.odSet q i sub v).ports = s.ports := rfl
@[simp] theorem State.odSet_inject (s : State) (q i sub v : Nat) : (s.odSet q i sub v).inject = s.inject := rfl
@[simp] theorem State.odSet_outbox (s : State) (q i sub v : Nat) : (s.odSet q i sub v).outbox = s.outbox := rfl
@[simp] theorem State.odSet_delivery (s : State) (q i sub v : Nat) : (s.odSet q i sub v).delivery = s.delivery := rfl
@[simp] theorem State.odSet_flowCnt (s : State) (q i sub v : Nat) : (s.odSet q i sub v).flowCnt = s.flowCnt := rfl
@[simp] theorem State.odSet_laserDark (s : State) (q i sub v : Nat) : (s.odSet q i sub v).laserDark = s.laserDark := rfl
@[simp] theorem State.odSet_cxl (s : State) (q i sub v : Nat) : (s.odSet q i sub v).cxl = s.cxl := rfl
@[simp] theorem State.odSet_sessions (s : State) (q i sub v : Nat) : (s.odSet q i sub v).sessions = s.sessions := rfl
@[simp] theorem State.odSet_deferred (s : State) (q i sub v : Nat) : (s.odSet q i sub v).deferred = s.deferred := rfl
@[simp] theorem State.odSet_running (s : State) (q i sub v : Nat) : (s.odSet q i sub v).running = s.running := rfl
@[simp] theorem State.odSet_mgmtTurn (s : State) (q i sub v : Nat) : (s.odSet q i sub v).mgmtTurn = s.mgmtTurn := rfl
@[simp] theorem State.odSet_mctpEid (s : State) (q i sub v : Nat) : (s.odSet q i sub v).mctpEid = s.mctpEid := rfl
@[simp] theorem State.odSet_answers (s : State) (q i sub v : Nat) : (s.odSet q i sub v).answers = s.answers := rfl
@[simp] theorem State.odSet_dests (s : State) (q i sub v : Nat) : (s.odSet q i sub v).dests = s.dests := rfl
@[simp] theorem State.odSet_faultQ (s : State) (q i sub v : Nat) : (s.odSet q i sub v).faultQ = s.faultQ := rfl
@[simp] theorem State.odSet_cases (s : State) (q i sub v : Nat) : (s.odSet q i sub v).cases = s.cases := rfl
@[simp] theorem State.odSet_transients (s : State) (q i sub v : Nat) : (s.odSet q i sub v).transients = s.transients := rfl
@[simp] theorem State.odSet_fencedBerths (s : State) (q i sub v : Nat) : (s.odSet q i sub v).fencedBerths = s.fencedBerths := rfl
@[simp] theorem State.odSet_fencedTowers (s : State) (q i sub v : Nat) : (s.odSet q i sub v).fencedTowers = s.fencedTowers := rfl
@[simp] theorem State.odSet_fencedEdges (s : State) (q i sub v : Nat) : (s.odSet q i sub v).fencedEdges = s.fencedEdges := rfl
@[simp] theorem State.odSet_fencedSpire (s : State) (q i sub v : Nat) : (s.odSet q i sub v).fencedSpire = s.fencedSpire := rfl
@[simp] theorem State.odSet_slices (s : State) (q i sub v : Nat) : (s.odSet q i sub v).slices = s.slices := rfl
@[simp] theorem State.odSet_sliceNext (s : State) (q i sub v : Nat) : (s.odSet q i sub v).sliceNext = s.sliceNext := rfl
@[simp] theorem State.odSet_testing (s : State) (q i sub v : Nat) : (s.odSet q i sub v).testing = s.testing := rfl
@[simp] theorem State.odSet_power (s : State) (q i sub v : Nat) : (s.odSet q i sub v).power = s.power := rfl
@[simp] theorem State.odSet_boot (s : State) (q i sub v : Nat) : (s.odSet q i sub v).boot = s.boot := rfl
@[simp] theorem State.odSet_pwrgd (s : State) (q i sub v : Nat) : (s.odSet q i sub v).pwrgd = s.pwrgd := rfl
@[simp] theorem State.odSet_rstN (s : State) (q i sub v : Nat) : (s.odSet q i sub v).rstN = s.rstN := rfl
@[simp] theorem State.odSet_faultN (s : State) (q i sub v : Nat) : (s.odSet q i sub v).faultN = s.faultN := rfl
@[simp] theorem State.odSet_tripN (s : State) (q i sub v : Nat) : (s.odSet q i sub v).tripN = s.tripN := rfl
@[simp] theorem State.odSet_flash (s : State) (q i sub v : Nat) : (s.odSet q i sub v).flash = s.flash := rfl
@[simp] theorem State.odSet_riskHist (s : State) (q i sub v : Nat) : (s.odSet q i sub v).riskHist = s.riskHist := rfl
@[simp] theorem State.odSet_riskShort (s : State) (q i sub v : Nat) : (s.odSet q i sub v).riskShort = s.riskShort := rfl
@[simp] theorem State.odSet_straps (s : State) (q i sub v : Nat) : (s.odSet q i sub v).straps = s.straps := rfl
@[simp] theorem State.odSet_bootFaults (s : State) (q i sub v : Nat) : (s.odSet q i sub v).bootFaults = s.bootFaults := rfl
@[simp] theorem State.odSet_puf (s : State) (q i sub v : Nat) : (s.odSet q i sub v).puf = s.puf := rfl
@[simp] theorem State.odSet_identity (s : State) (q i sub v : Nat) : (s.odSet q i sub v).identity = s.identity := rfl
@[simp] theorem State.odSet_platKey (s : State) (q i sub v : Nat) : (s.odSet q i sub v).platKey = s.platKey := rfl
@[simp] theorem State.odSet_tap (s : State) (q i sub v : Nat) : (s.odSet q i sub v).tap = s.tap := rfl
@[simp] theorem State.odSet_out (s : State) (q i sub v : Nat) : (s.odSet q i sub v).out = s.out := rfl

/-! `State.odAdd` -/

@[simp] theorem State.odAdd_pending (s : State) (q i sub n : Nat) : (s.odAdd q i sub n).pending = s.pending := rfl
@[simp] theorem State.odAdd_fresh (s : State) (q i sub n : Nat) : (s.odAdd q i sub n).fresh = s.fresh := rfl
@[simp] theorem State.odAdd_cyc (s : State) (q i sub n : Nat) : (s.odAdd q i sub n).cyc = s.cyc := rfl
@[simp] theorem State.odAdd_cycLost (s : State) (q i sub n : Nat) : (s.odAdd q i sub n).cycLost = s.cycLost := rfl
@[simp] theorem State.odAdd_spars (s : State) (q i sub n : Nat) : (s.odAdd q i sub n).spars = s.spars := rfl
@[simp] theorem State.odAdd_parts (s : State) (q i sub n : Nat) : (s.odAdd q i sub n).parts = s.parts := rfl
@[simp] theorem State.odAdd_blobs (s : State) (q i sub n : Nat) : (s.odAdd q i sub n).blobs = s.blobs := rfl
@[simp] theorem State.odAdd_blobGen (s : State) (q i sub n : Nat) : (s.odAdd q i sub n).blobGen = s.blobGen := rfl
@[simp] theorem State.odAdd_dome (s : State) (q i sub n : Nat) : (s.odAdd q i sub n).dome = s.dome := rfl
@[simp] theorem State.odAdd_poison (s : State) (q i sub n : Nat) : (s.odAdd q i sub n).poison = s.poison := rfl
@[simp] theorem State.odAdd_eccCnt (s : State) (q i sub n : Nat) : (s.odAdd q i sub n).eccCnt = s.eccCnt := rfl
@[simp] theorem State.odAdd_ceSeen (s : State) (q i sub n : Nat) : (s.odAdd q i sub n).ceSeen = s.ceSeen := rfl
@[simp] theorem State.odAdd_scrubAt (s : State) (q i sub n : Nat) : (s.odAdd q i sub n).scrubAt = s.scrubAt := rfl
@[simp] theorem State.odAdd_counters (s : State) (q i sub n : Nat) : (s.odAdd q i sub n).counters = s.counters := rfl
@[simp] theorem State.odAdd_ctrResets (s : State) (q i sub n : Nat) : (s.odAdd q i sub n).ctrResets = s.ctrResets := rfl
@[simp] theorem State.odAdd_domeOff (s : State) (q i sub n : Nat) : (s.odAdd q i sub n).domeOff = s.domeOff := rfl
@[simp] theorem State.odAdd_zeroFill (s : State) (q i sub n : Nat) : (s.odAdd q i sub n).zeroFill = s.zeroFill := rfl
@[simp] theorem State.odAdd_edges (s : State) (q i sub n : Nat) : (s.odAdd q i sub n).edges = s.edges := rfl
@[simp] theorem State.odAdd_homePtr (s : State) (q i sub n : Nat) : (s.odAdd q i sub n).homePtr = s.homePtr := rfl
@[simp] theorem State.odAdd_remPtr (s : State) (q i sub n : Nat) : (s.odAdd q i sub n).remPtr = s.remPtr := rfl
@[simp] theorem State.odAdd_domeQ (s : State) (q i sub n : Nat) : (s.odAdd q i sub n).domeQ = s.domeQ := rfl
@[simp] theorem State.odAdd_biWaits (s : State) (q i sub n : Nat) : (s.odAdd q i sub n).biWaits = s.biWaits := rfl
@[simp] theorem State.odAdd_asks (s : State) (q i sub n : Nat) : (s.odAdd q i sub n).asks = s.asks := rfl
@[simp] theorem State.odAdd_turns (s : State) (q i sub n : Nat) : (s.odAdd q i sub n).turns = s.turns := rfl
@[simp] theorem State.odAdd_prune (s : State) (q i sub n : Nat) : (s.odAdd q i sub n).prune = s.prune := rfl
@[simp] theorem State.odAdd_pruneBusy (s : State) (q i sub n : Nat) : (s.odAdd q i sub n).pruneBusy = s.pruneBusy := rfl
@[simp] theorem State.odAdd_halCmd (s : State) (q i sub n : Nat) : (s.odAdd q i sub n).halCmd = s.halCmd := rfl
@[simp] theorem State.odAdd_colCmd (s : State) (q i sub n : Nat) : (s.odAdd q i sub n).colCmd = s.colCmd := rfl
@[simp] theorem State.odAdd_fqNext (s : State) (q i sub n : Nat) : (s.odAdd q i sub n).fqNext = s.fqNext := rfl
@[simp] theorem State.odAdd_fetches (s : State) (q i sub n : Nat) : (s.odAdd q i sub n).fetches = s.fetches := rfl
@[simp] theorem State.odAdd_rdCurr (s : State) (q i sub n : Nat) : (s.odAdd q i sub n).rdCurr = s.rdCurr := rfl
@[simp] theorem State.odAdd_ports (s : State) (q i sub n : Nat) : (s.odAdd q i sub n).ports = s.ports := rfl
@[simp] theorem State.odAdd_inject (s : State) (q i sub n : Nat) : (s.odAdd q i sub n).inject = s.inject := rfl
@[simp] theorem State.odAdd_outbox (s : State) (q i sub n : Nat) : (s.odAdd q i sub n).outbox = s.outbox := rfl
@[simp] theorem State.odAdd_delivery (s : State) (q i sub n : Nat) : (s.odAdd q i sub n).delivery = s.delivery := rfl
@[simp] theorem State.odAdd_flowCnt (s : State) (q i sub n : Nat) : (s.odAdd q i sub n).flowCnt = s.flowCnt := rfl
@[simp] theorem State.odAdd_laserDark (s : State) (q i sub n : Nat) : (s.odAdd q i sub n).laserDark = s.laserDark := rfl
@[simp] theorem State.odAdd_cxl (s : State) (q i sub n : Nat) : (s.odAdd q i sub n).cxl = s.cxl := rfl
@[simp] theorem State.odAdd_sessions (s : State) (q i sub n : Nat) : (s.odAdd q i sub n).sessions = s.sessions := rfl
@[simp] theorem State.odAdd_deferred (s : State) (q i sub n : Nat) : (s.odAdd q i sub n).deferred = s.deferred := rfl
@[simp] theorem State.odAdd_running (s : State) (q i sub n : Nat) : (s.odAdd q i sub n).running = s.running := rfl
@[simp] theorem State.odAdd_mgmtTurn (s : State) (q i sub n : Nat) : (s.odAdd q i sub n).mgmtTurn = s.mgmtTurn := rfl
@[simp] theorem State.odAdd_mctpEid (s : State) (q i sub n : Nat) : (s.odAdd q i sub n).mctpEid = s.mctpEid := rfl
@[simp] theorem State.odAdd_answers (s : State) (q i sub n : Nat) : (s.odAdd q i sub n).answers = s.answers := rfl
@[simp] theorem State.odAdd_dests (s : State) (q i sub n : Nat) : (s.odAdd q i sub n).dests = s.dests := rfl
@[simp] theorem State.odAdd_faultQ (s : State) (q i sub n : Nat) : (s.odAdd q i sub n).faultQ = s.faultQ := rfl
@[simp] theorem State.odAdd_cases (s : State) (q i sub n : Nat) : (s.odAdd q i sub n).cases = s.cases := rfl
@[simp] theorem State.odAdd_transients (s : State) (q i sub n : Nat) : (s.odAdd q i sub n).transients = s.transients := rfl
@[simp] theorem State.odAdd_fencedBerths (s : State) (q i sub n : Nat) : (s.odAdd q i sub n).fencedBerths = s.fencedBerths := rfl
@[simp] theorem State.odAdd_fencedTowers (s : State) (q i sub n : Nat) : (s.odAdd q i sub n).fencedTowers = s.fencedTowers := rfl
@[simp] theorem State.odAdd_fencedEdges (s : State) (q i sub n : Nat) : (s.odAdd q i sub n).fencedEdges = s.fencedEdges := rfl
@[simp] theorem State.odAdd_fencedSpire (s : State) (q i sub n : Nat) : (s.odAdd q i sub n).fencedSpire = s.fencedSpire := rfl
@[simp] theorem State.odAdd_slices (s : State) (q i sub n : Nat) : (s.odAdd q i sub n).slices = s.slices := rfl
@[simp] theorem State.odAdd_sliceNext (s : State) (q i sub n : Nat) : (s.odAdd q i sub n).sliceNext = s.sliceNext := rfl
@[simp] theorem State.odAdd_testing (s : State) (q i sub n : Nat) : (s.odAdd q i sub n).testing = s.testing := rfl
@[simp] theorem State.odAdd_power (s : State) (q i sub n : Nat) : (s.odAdd q i sub n).power = s.power := rfl
@[simp] theorem State.odAdd_boot (s : State) (q i sub n : Nat) : (s.odAdd q i sub n).boot = s.boot := rfl
@[simp] theorem State.odAdd_pwrgd (s : State) (q i sub n : Nat) : (s.odAdd q i sub n).pwrgd = s.pwrgd := rfl
@[simp] theorem State.odAdd_rstN (s : State) (q i sub n : Nat) : (s.odAdd q i sub n).rstN = s.rstN := rfl
@[simp] theorem State.odAdd_faultN (s : State) (q i sub n : Nat) : (s.odAdd q i sub n).faultN = s.faultN := rfl
@[simp] theorem State.odAdd_tripN (s : State) (q i sub n : Nat) : (s.odAdd q i sub n).tripN = s.tripN := rfl
@[simp] theorem State.odAdd_flash (s : State) (q i sub n : Nat) : (s.odAdd q i sub n).flash = s.flash := rfl
@[simp] theorem State.odAdd_riskHist (s : State) (q i sub n : Nat) : (s.odAdd q i sub n).riskHist = s.riskHist := rfl
@[simp] theorem State.odAdd_riskShort (s : State) (q i sub n : Nat) : (s.odAdd q i sub n).riskShort = s.riskShort := rfl
@[simp] theorem State.odAdd_straps (s : State) (q i sub n : Nat) : (s.odAdd q i sub n).straps = s.straps := rfl
@[simp] theorem State.odAdd_bootFaults (s : State) (q i sub n : Nat) : (s.odAdd q i sub n).bootFaults = s.bootFaults := rfl
@[simp] theorem State.odAdd_puf (s : State) (q i sub n : Nat) : (s.odAdd q i sub n).puf = s.puf := rfl
@[simp] theorem State.odAdd_identity (s : State) (q i sub n : Nat) : (s.odAdd q i sub n).identity = s.identity := rfl
@[simp] theorem State.odAdd_platKey (s : State) (q i sub n : Nat) : (s.odAdd q i sub n).platKey = s.platKey := rfl
@[simp] theorem State.odAdd_tap (s : State) (q i sub n : Nat) : (s.odAdd q i sub n).tap = s.tap := rfl
@[simp] theorem State.odAdd_out (s : State) (q i sub n : Nat) : (s.odAdd q i sub n).out = s.out := rfl

/-! `State.blobSet` -/

@[simp] theorem State.blobSet_pending (s : State) (q i sub : Nat) (v : Bytes) : (s.blobSet q i sub v).pending = s.pending := rfl
@[simp] theorem State.blobSet_fresh (s : State) (q i sub : Nat) (v : Bytes) : (s.blobSet q i sub v).fresh = s.fresh := rfl
@[simp] theorem State.blobSet_cyc (s : State) (q i sub : Nat) (v : Bytes) : (s.blobSet q i sub v).cyc = s.cyc := rfl
@[simp] theorem State.blobSet_cycLost (s : State) (q i sub : Nat) (v : Bytes) : (s.blobSet q i sub v).cycLost = s.cycLost := rfl
@[simp] theorem State.blobSet_spars (s : State) (q i sub : Nat) (v : Bytes) : (s.blobSet q i sub v).spars = s.spars := rfl
@[simp] theorem State.blobSet_parts (s : State) (q i sub : Nat) (v : Bytes) : (s.blobSet q i sub v).parts = s.parts := rfl
@[simp] theorem State.blobSet_od (s : State) (q i sub : Nat) (v : Bytes) : (s.blobSet q i sub v).od = s.od := rfl
@[simp] theorem State.blobSet_dome (s : State) (q i sub : Nat) (v : Bytes) : (s.blobSet q i sub v).dome = s.dome := rfl
@[simp] theorem State.blobSet_poison (s : State) (q i sub : Nat) (v : Bytes) : (s.blobSet q i sub v).poison = s.poison := rfl
@[simp] theorem State.blobSet_eccCnt (s : State) (q i sub : Nat) (v : Bytes) : (s.blobSet q i sub v).eccCnt = s.eccCnt := rfl
@[simp] theorem State.blobSet_ceSeen (s : State) (q i sub : Nat) (v : Bytes) : (s.blobSet q i sub v).ceSeen = s.ceSeen := rfl
@[simp] theorem State.blobSet_scrubAt (s : State) (q i sub : Nat) (v : Bytes) : (s.blobSet q i sub v).scrubAt = s.scrubAt := rfl
@[simp] theorem State.blobSet_counters (s : State) (q i sub : Nat) (v : Bytes) : (s.blobSet q i sub v).counters = s.counters := rfl
@[simp] theorem State.blobSet_ctrResets (s : State) (q i sub : Nat) (v : Bytes) : (s.blobSet q i sub v).ctrResets = s.ctrResets := rfl
@[simp] theorem State.blobSet_domeOff (s : State) (q i sub : Nat) (v : Bytes) : (s.blobSet q i sub v).domeOff = s.domeOff := rfl
@[simp] theorem State.blobSet_zeroFill (s : State) (q i sub : Nat) (v : Bytes) : (s.blobSet q i sub v).zeroFill = s.zeroFill := rfl
@[simp] theorem State.blobSet_edges (s : State) (q i sub : Nat) (v : Bytes) : (s.blobSet q i sub v).edges = s.edges := rfl
@[simp] theorem State.blobSet_homePtr (s : State) (q i sub : Nat) (v : Bytes) : (s.blobSet q i sub v).homePtr = s.homePtr := rfl
@[simp] theorem State.blobSet_remPtr (s : State) (q i sub : Nat) (v : Bytes) : (s.blobSet q i sub v).remPtr = s.remPtr := rfl
@[simp] theorem State.blobSet_domeQ (s : State) (q i sub : Nat) (v : Bytes) : (s.blobSet q i sub v).domeQ = s.domeQ := rfl
@[simp] theorem State.blobSet_biWaits (s : State) (q i sub : Nat) (v : Bytes) : (s.blobSet q i sub v).biWaits = s.biWaits := rfl
@[simp] theorem State.blobSet_asks (s : State) (q i sub : Nat) (v : Bytes) : (s.blobSet q i sub v).asks = s.asks := rfl
@[simp] theorem State.blobSet_turns (s : State) (q i sub : Nat) (v : Bytes) : (s.blobSet q i sub v).turns = s.turns := rfl
@[simp] theorem State.blobSet_prune (s : State) (q i sub : Nat) (v : Bytes) : (s.blobSet q i sub v).prune = s.prune := rfl
@[simp] theorem State.blobSet_pruneBusy (s : State) (q i sub : Nat) (v : Bytes) : (s.blobSet q i sub v).pruneBusy = s.pruneBusy := rfl
@[simp] theorem State.blobSet_halCmd (s : State) (q i sub : Nat) (v : Bytes) : (s.blobSet q i sub v).halCmd = s.halCmd := rfl
@[simp] theorem State.blobSet_colCmd (s : State) (q i sub : Nat) (v : Bytes) : (s.blobSet q i sub v).colCmd = s.colCmd := rfl
@[simp] theorem State.blobSet_fqNext (s : State) (q i sub : Nat) (v : Bytes) : (s.blobSet q i sub v).fqNext = s.fqNext := rfl
@[simp] theorem State.blobSet_fetches (s : State) (q i sub : Nat) (v : Bytes) : (s.blobSet q i sub v).fetches = s.fetches := rfl
@[simp] theorem State.blobSet_rdCurr (s : State) (q i sub : Nat) (v : Bytes) : (s.blobSet q i sub v).rdCurr = s.rdCurr := rfl
@[simp] theorem State.blobSet_ports (s : State) (q i sub : Nat) (v : Bytes) : (s.blobSet q i sub v).ports = s.ports := rfl
@[simp] theorem State.blobSet_inject (s : State) (q i sub : Nat) (v : Bytes) : (s.blobSet q i sub v).inject = s.inject := rfl
@[simp] theorem State.blobSet_outbox (s : State) (q i sub : Nat) (v : Bytes) : (s.blobSet q i sub v).outbox = s.outbox := rfl
@[simp] theorem State.blobSet_delivery (s : State) (q i sub : Nat) (v : Bytes) : (s.blobSet q i sub v).delivery = s.delivery := rfl
@[simp] theorem State.blobSet_flowCnt (s : State) (q i sub : Nat) (v : Bytes) : (s.blobSet q i sub v).flowCnt = s.flowCnt := rfl
@[simp] theorem State.blobSet_laserDark (s : State) (q i sub : Nat) (v : Bytes) : (s.blobSet q i sub v).laserDark = s.laserDark := rfl
@[simp] theorem State.blobSet_cxl (s : State) (q i sub : Nat) (v : Bytes) : (s.blobSet q i sub v).cxl = s.cxl := rfl
@[simp] theorem State.blobSet_sessions (s : State) (q i sub : Nat) (v : Bytes) : (s.blobSet q i sub v).sessions = s.sessions := rfl
@[simp] theorem State.blobSet_deferred (s : State) (q i sub : Nat) (v : Bytes) : (s.blobSet q i sub v).deferred = s.deferred := rfl
@[simp] theorem State.blobSet_running (s : State) (q i sub : Nat) (v : Bytes) : (s.blobSet q i sub v).running = s.running := rfl
@[simp] theorem State.blobSet_mgmtTurn (s : State) (q i sub : Nat) (v : Bytes) : (s.blobSet q i sub v).mgmtTurn = s.mgmtTurn := rfl
@[simp] theorem State.blobSet_mctpEid (s : State) (q i sub : Nat) (v : Bytes) : (s.blobSet q i sub v).mctpEid = s.mctpEid := rfl
@[simp] theorem State.blobSet_answers (s : State) (q i sub : Nat) (v : Bytes) : (s.blobSet q i sub v).answers = s.answers := rfl
@[simp] theorem State.blobSet_dests (s : State) (q i sub : Nat) (v : Bytes) : (s.blobSet q i sub v).dests = s.dests := rfl
@[simp] theorem State.blobSet_faultQ (s : State) (q i sub : Nat) (v : Bytes) : (s.blobSet q i sub v).faultQ = s.faultQ := rfl
@[simp] theorem State.blobSet_cases (s : State) (q i sub : Nat) (v : Bytes) : (s.blobSet q i sub v).cases = s.cases := rfl
@[simp] theorem State.blobSet_transients (s : State) (q i sub : Nat) (v : Bytes) : (s.blobSet q i sub v).transients = s.transients := rfl
@[simp] theorem State.blobSet_fencedBerths (s : State) (q i sub : Nat) (v : Bytes) : (s.blobSet q i sub v).fencedBerths = s.fencedBerths := rfl
@[simp] theorem State.blobSet_fencedTowers (s : State) (q i sub : Nat) (v : Bytes) : (s.blobSet q i sub v).fencedTowers = s.fencedTowers := rfl
@[simp] theorem State.blobSet_fencedEdges (s : State) (q i sub : Nat) (v : Bytes) : (s.blobSet q i sub v).fencedEdges = s.fencedEdges := rfl
@[simp] theorem State.blobSet_fencedSpire (s : State) (q i sub : Nat) (v : Bytes) : (s.blobSet q i sub v).fencedSpire = s.fencedSpire := rfl
@[simp] theorem State.blobSet_slices (s : State) (q i sub : Nat) (v : Bytes) : (s.blobSet q i sub v).slices = s.slices := rfl
@[simp] theorem State.blobSet_sliceNext (s : State) (q i sub : Nat) (v : Bytes) : (s.blobSet q i sub v).sliceNext = s.sliceNext := rfl
@[simp] theorem State.blobSet_testing (s : State) (q i sub : Nat) (v : Bytes) : (s.blobSet q i sub v).testing = s.testing := rfl
@[simp] theorem State.blobSet_power (s : State) (q i sub : Nat) (v : Bytes) : (s.blobSet q i sub v).power = s.power := rfl
@[simp] theorem State.blobSet_boot (s : State) (q i sub : Nat) (v : Bytes) : (s.blobSet q i sub v).boot = s.boot := rfl
@[simp] theorem State.blobSet_pwrgd (s : State) (q i sub : Nat) (v : Bytes) : (s.blobSet q i sub v).pwrgd = s.pwrgd := rfl
@[simp] theorem State.blobSet_rstN (s : State) (q i sub : Nat) (v : Bytes) : (s.blobSet q i sub v).rstN = s.rstN := rfl
@[simp] theorem State.blobSet_faultN (s : State) (q i sub : Nat) (v : Bytes) : (s.blobSet q i sub v).faultN = s.faultN := rfl
@[simp] theorem State.blobSet_tripN (s : State) (q i sub : Nat) (v : Bytes) : (s.blobSet q i sub v).tripN = s.tripN := rfl
@[simp] theorem State.blobSet_flash (s : State) (q i sub : Nat) (v : Bytes) : (s.blobSet q i sub v).flash = s.flash := rfl
@[simp] theorem State.blobSet_riskHist (s : State) (q i sub : Nat) (v : Bytes) : (s.blobSet q i sub v).riskHist = s.riskHist := rfl
@[simp] theorem State.blobSet_riskShort (s : State) (q i sub : Nat) (v : Bytes) : (s.blobSet q i sub v).riskShort = s.riskShort := rfl
@[simp] theorem State.blobSet_straps (s : State) (q i sub : Nat) (v : Bytes) : (s.blobSet q i sub v).straps = s.straps := rfl
@[simp] theorem State.blobSet_bootFaults (s : State) (q i sub : Nat) (v : Bytes) : (s.blobSet q i sub v).bootFaults = s.bootFaults := rfl
@[simp] theorem State.blobSet_puf (s : State) (q i sub : Nat) (v : Bytes) : (s.blobSet q i sub v).puf = s.puf := rfl
@[simp] theorem State.blobSet_identity (s : State) (q i sub : Nat) (v : Bytes) : (s.blobSet q i sub v).identity = s.identity := rfl
@[simp] theorem State.blobSet_platKey (s : State) (q i sub : Nat) (v : Bytes) : (s.blobSet q i sub v).platKey = s.platKey := rfl
@[simp] theorem State.blobSet_tap (s : State) (q i sub : Nat) (v : Bytes) : (s.blobSet q i sub v).tap = s.tap := rfl
@[simp] theorem State.blobSet_out (s : State) (q i sub : Nat) (v : Bytes) : (s.blobSet q i sub v).out = s.out := rfl

/-! `State.emit` -/

@[simp] theorem State.emit_pending (s : State) (kind addr : Nat) (data : Bytes) (flag : Nat) : (s.emit kind addr data flag).pending = s.pending := rfl
@[simp] theorem State.emit_fresh (s : State) (kind addr : Nat) (data : Bytes) (flag : Nat) : (s.emit kind addr data flag).fresh = s.fresh := rfl
@[simp] theorem State.emit_cyc (s : State) (kind addr : Nat) (data : Bytes) (flag : Nat) : (s.emit kind addr data flag).cyc = s.cyc := rfl
@[simp] theorem State.emit_cycLost (s : State) (kind addr : Nat) (data : Bytes) (flag : Nat) : (s.emit kind addr data flag).cycLost = s.cycLost := rfl
@[simp] theorem State.emit_spars (s : State) (kind addr : Nat) (data : Bytes) (flag : Nat) : (s.emit kind addr data flag).spars = s.spars := rfl
@[simp] theorem State.emit_parts (s : State) (kind addr : Nat) (data : Bytes) (flag : Nat) : (s.emit kind addr data flag).parts = s.parts := rfl
@[simp] theorem State.emit_od (s : State) (kind addr : Nat) (data : Bytes) (flag : Nat) : (s.emit kind addr data flag).od = s.od := rfl
@[simp] theorem State.emit_blobs (s : State) (kind addr : Nat) (data : Bytes) (flag : Nat) : (s.emit kind addr data flag).blobs = s.blobs := rfl
@[simp] theorem State.emit_blobGen (s : State) (kind addr : Nat) (data : Bytes) (flag : Nat) : (s.emit kind addr data flag).blobGen = s.blobGen := rfl
@[simp] theorem State.emit_dome (s : State) (kind addr : Nat) (data : Bytes) (flag : Nat) : (s.emit kind addr data flag).dome = s.dome := rfl
@[simp] theorem State.emit_poison (s : State) (kind addr : Nat) (data : Bytes) (flag : Nat) : (s.emit kind addr data flag).poison = s.poison := rfl
@[simp] theorem State.emit_eccCnt (s : State) (kind addr : Nat) (data : Bytes) (flag : Nat) : (s.emit kind addr data flag).eccCnt = s.eccCnt := rfl
@[simp] theorem State.emit_ceSeen (s : State) (kind addr : Nat) (data : Bytes) (flag : Nat) : (s.emit kind addr data flag).ceSeen = s.ceSeen := rfl
@[simp] theorem State.emit_scrubAt (s : State) (kind addr : Nat) (data : Bytes) (flag : Nat) : (s.emit kind addr data flag).scrubAt = s.scrubAt := rfl
@[simp] theorem State.emit_counters (s : State) (kind addr : Nat) (data : Bytes) (flag : Nat) : (s.emit kind addr data flag).counters = s.counters := rfl
@[simp] theorem State.emit_ctrResets (s : State) (kind addr : Nat) (data : Bytes) (flag : Nat) : (s.emit kind addr data flag).ctrResets = s.ctrResets := rfl
@[simp] theorem State.emit_domeOff (s : State) (kind addr : Nat) (data : Bytes) (flag : Nat) : (s.emit kind addr data flag).domeOff = s.domeOff := rfl
@[simp] theorem State.emit_zeroFill (s : State) (kind addr : Nat) (data : Bytes) (flag : Nat) : (s.emit kind addr data flag).zeroFill = s.zeroFill := rfl
@[simp] theorem State.emit_edges (s : State) (kind addr : Nat) (data : Bytes) (flag : Nat) : (s.emit kind addr data flag).edges = s.edges := rfl
@[simp] theorem State.emit_homePtr (s : State) (kind addr : Nat) (data : Bytes) (flag : Nat) : (s.emit kind addr data flag).homePtr = s.homePtr := rfl
@[simp] theorem State.emit_remPtr (s : State) (kind addr : Nat) (data : Bytes) (flag : Nat) : (s.emit kind addr data flag).remPtr = s.remPtr := rfl
@[simp] theorem State.emit_domeQ (s : State) (kind addr : Nat) (data : Bytes) (flag : Nat) : (s.emit kind addr data flag).domeQ = s.domeQ := rfl
@[simp] theorem State.emit_biWaits (s : State) (kind addr : Nat) (data : Bytes) (flag : Nat) : (s.emit kind addr data flag).biWaits = s.biWaits := rfl
@[simp] theorem State.emit_asks (s : State) (kind addr : Nat) (data : Bytes) (flag : Nat) : (s.emit kind addr data flag).asks = s.asks := rfl
@[simp] theorem State.emit_turns (s : State) (kind addr : Nat) (data : Bytes) (flag : Nat) : (s.emit kind addr data flag).turns = s.turns := rfl
@[simp] theorem State.emit_prune (s : State) (kind addr : Nat) (data : Bytes) (flag : Nat) : (s.emit kind addr data flag).prune = s.prune := rfl
@[simp] theorem State.emit_pruneBusy (s : State) (kind addr : Nat) (data : Bytes) (flag : Nat) : (s.emit kind addr data flag).pruneBusy = s.pruneBusy := rfl
@[simp] theorem State.emit_halCmd (s : State) (kind addr : Nat) (data : Bytes) (flag : Nat) : (s.emit kind addr data flag).halCmd = s.halCmd := rfl
@[simp] theorem State.emit_colCmd (s : State) (kind addr : Nat) (data : Bytes) (flag : Nat) : (s.emit kind addr data flag).colCmd = s.colCmd := rfl
@[simp] theorem State.emit_fqNext (s : State) (kind addr : Nat) (data : Bytes) (flag : Nat) : (s.emit kind addr data flag).fqNext = s.fqNext := rfl
@[simp] theorem State.emit_fetches (s : State) (kind addr : Nat) (data : Bytes) (flag : Nat) : (s.emit kind addr data flag).fetches = s.fetches := rfl
@[simp] theorem State.emit_rdCurr (s : State) (kind addr : Nat) (data : Bytes) (flag : Nat) : (s.emit kind addr data flag).rdCurr = s.rdCurr := rfl
@[simp] theorem State.emit_ports (s : State) (kind addr : Nat) (data : Bytes) (flag : Nat) : (s.emit kind addr data flag).ports = s.ports := rfl
@[simp] theorem State.emit_inject (s : State) (kind addr : Nat) (data : Bytes) (flag : Nat) : (s.emit kind addr data flag).inject = s.inject := rfl
@[simp] theorem State.emit_outbox (s : State) (kind addr : Nat) (data : Bytes) (flag : Nat) : (s.emit kind addr data flag).outbox = s.outbox := rfl
@[simp] theorem State.emit_delivery (s : State) (kind addr : Nat) (data : Bytes) (flag : Nat) : (s.emit kind addr data flag).delivery = s.delivery := rfl
@[simp] theorem State.emit_flowCnt (s : State) (kind addr : Nat) (data : Bytes) (flag : Nat) : (s.emit kind addr data flag).flowCnt = s.flowCnt := rfl
@[simp] theorem State.emit_laserDark (s : State) (kind addr : Nat) (data : Bytes) (flag : Nat) : (s.emit kind addr data flag).laserDark = s.laserDark := rfl
@[simp] theorem State.emit_cxl (s : State) (kind addr : Nat) (data : Bytes) (flag : Nat) : (s.emit kind addr data flag).cxl = s.cxl := rfl
@[simp] theorem State.emit_sessions (s : State) (kind addr : Nat) (data : Bytes) (flag : Nat) : (s.emit kind addr data flag).sessions = s.sessions := rfl
@[simp] theorem State.emit_deferred (s : State) (kind addr : Nat) (data : Bytes) (flag : Nat) : (s.emit kind addr data flag).deferred = s.deferred := rfl
@[simp] theorem State.emit_running (s : State) (kind addr : Nat) (data : Bytes) (flag : Nat) : (s.emit kind addr data flag).running = s.running := rfl
@[simp] theorem State.emit_mgmtTurn (s : State) (kind addr : Nat) (data : Bytes) (flag : Nat) : (s.emit kind addr data flag).mgmtTurn = s.mgmtTurn := rfl
@[simp] theorem State.emit_mctpEid (s : State) (kind addr : Nat) (data : Bytes) (flag : Nat) : (s.emit kind addr data flag).mctpEid = s.mctpEid := rfl
@[simp] theorem State.emit_answers (s : State) (kind addr : Nat) (data : Bytes) (flag : Nat) : (s.emit kind addr data flag).answers = s.answers := rfl
@[simp] theorem State.emit_dests (s : State) (kind addr : Nat) (data : Bytes) (flag : Nat) : (s.emit kind addr data flag).dests = s.dests := rfl
@[simp] theorem State.emit_faultQ (s : State) (kind addr : Nat) (data : Bytes) (flag : Nat) : (s.emit kind addr data flag).faultQ = s.faultQ := rfl
@[simp] theorem State.emit_cases (s : State) (kind addr : Nat) (data : Bytes) (flag : Nat) : (s.emit kind addr data flag).cases = s.cases := rfl
@[simp] theorem State.emit_transients (s : State) (kind addr : Nat) (data : Bytes) (flag : Nat) : (s.emit kind addr data flag).transients = s.transients := rfl
@[simp] theorem State.emit_fencedBerths (s : State) (kind addr : Nat) (data : Bytes) (flag : Nat) : (s.emit kind addr data flag).fencedBerths = s.fencedBerths := rfl
@[simp] theorem State.emit_fencedTowers (s : State) (kind addr : Nat) (data : Bytes) (flag : Nat) : (s.emit kind addr data flag).fencedTowers = s.fencedTowers := rfl
@[simp] theorem State.emit_fencedEdges (s : State) (kind addr : Nat) (data : Bytes) (flag : Nat) : (s.emit kind addr data flag).fencedEdges = s.fencedEdges := rfl
@[simp] theorem State.emit_fencedSpire (s : State) (kind addr : Nat) (data : Bytes) (flag : Nat) : (s.emit kind addr data flag).fencedSpire = s.fencedSpire := rfl
@[simp] theorem State.emit_slices (s : State) (kind addr : Nat) (data : Bytes) (flag : Nat) : (s.emit kind addr data flag).slices = s.slices := rfl
@[simp] theorem State.emit_sliceNext (s : State) (kind addr : Nat) (data : Bytes) (flag : Nat) : (s.emit kind addr data flag).sliceNext = s.sliceNext := rfl
@[simp] theorem State.emit_testing (s : State) (kind addr : Nat) (data : Bytes) (flag : Nat) : (s.emit kind addr data flag).testing = s.testing := rfl
@[simp] theorem State.emit_power (s : State) (kind addr : Nat) (data : Bytes) (flag : Nat) : (s.emit kind addr data flag).power = s.power := rfl
@[simp] theorem State.emit_boot (s : State) (kind addr : Nat) (data : Bytes) (flag : Nat) : (s.emit kind addr data flag).boot = s.boot := rfl
@[simp] theorem State.emit_pwrgd (s : State) (kind addr : Nat) (data : Bytes) (flag : Nat) : (s.emit kind addr data flag).pwrgd = s.pwrgd := rfl
@[simp] theorem State.emit_rstN (s : State) (kind addr : Nat) (data : Bytes) (flag : Nat) : (s.emit kind addr data flag).rstN = s.rstN := rfl
@[simp] theorem State.emit_faultN (s : State) (kind addr : Nat) (data : Bytes) (flag : Nat) : (s.emit kind addr data flag).faultN = s.faultN := rfl
@[simp] theorem State.emit_tripN (s : State) (kind addr : Nat) (data : Bytes) (flag : Nat) : (s.emit kind addr data flag).tripN = s.tripN := rfl
@[simp] theorem State.emit_flash (s : State) (kind addr : Nat) (data : Bytes) (flag : Nat) : (s.emit kind addr data flag).flash = s.flash := rfl
@[simp] theorem State.emit_riskHist (s : State) (kind addr : Nat) (data : Bytes) (flag : Nat) : (s.emit kind addr data flag).riskHist = s.riskHist := rfl
@[simp] theorem State.emit_riskShort (s : State) (kind addr : Nat) (data : Bytes) (flag : Nat) : (s.emit kind addr data flag).riskShort = s.riskShort := rfl
@[simp] theorem State.emit_straps (s : State) (kind addr : Nat) (data : Bytes) (flag : Nat) : (s.emit kind addr data flag).straps = s.straps := rfl
@[simp] theorem State.emit_bootFaults (s : State) (kind addr : Nat) (data : Bytes) (flag : Nat) : (s.emit kind addr data flag).bootFaults = s.bootFaults := rfl
@[simp] theorem State.emit_puf (s : State) (kind addr : Nat) (data : Bytes) (flag : Nat) : (s.emit kind addr data flag).puf = s.puf := rfl
@[simp] theorem State.emit_identity (s : State) (kind addr : Nat) (data : Bytes) (flag : Nat) : (s.emit kind addr data flag).identity = s.identity := rfl
@[simp] theorem State.emit_platKey (s : State) (kind addr : Nat) (data : Bytes) (flag : Nat) : (s.emit kind addr data flag).platKey = s.platKey := rfl
@[simp] theorem State.emit_tap (s : State) (kind addr : Nat) (data : Bytes) (flag : Nat) : (s.emit kind addr data flag).tap = s.tap := rfl

/-! `State.raise` -/

@[simp] theorem State.raise_pending (s : State) (code source part isl : Nat) (payload : Bytes) : (s.raise code source part isl payload).pending = s.pending := rfl
@[simp] theorem State.raise_fresh (s : State) (code source part isl : Nat) (payload : Bytes) : (s.raise code source part isl payload).fresh = s.fresh := rfl
@[simp] theorem State.raise_cyc (s : State) (code source part isl : Nat) (payload : Bytes) : (s.raise code source part isl payload).cyc = s.cyc := rfl
@[simp] theorem State.raise_cycLost (s : State) (code source part isl : Nat) (payload : Bytes) : (s.raise code source part isl payload).cycLost = s.cycLost := rfl
@[simp] theorem State.raise_spars (s : State) (code source part isl : Nat) (payload : Bytes) : (s.raise code source part isl payload).spars = s.spars := rfl
@[simp] theorem State.raise_parts (s : State) (code source part isl : Nat) (payload : Bytes) : (s.raise code source part isl payload).parts = s.parts := rfl
@[simp] theorem State.raise_od (s : State) (code source part isl : Nat) (payload : Bytes) : (s.raise code source part isl payload).od = s.od := rfl
@[simp] theorem State.raise_blobs (s : State) (code source part isl : Nat) (payload : Bytes) : (s.raise code source part isl payload).blobs = s.blobs := rfl
@[simp] theorem State.raise_blobGen (s : State) (code source part isl : Nat) (payload : Bytes) : (s.raise code source part isl payload).blobGen = s.blobGen := rfl
@[simp] theorem State.raise_dome (s : State) (code source part isl : Nat) (payload : Bytes) : (s.raise code source part isl payload).dome = s.dome := rfl
@[simp] theorem State.raise_poison (s : State) (code source part isl : Nat) (payload : Bytes) : (s.raise code source part isl payload).poison = s.poison := rfl
@[simp] theorem State.raise_eccCnt (s : State) (code source part isl : Nat) (payload : Bytes) : (s.raise code source part isl payload).eccCnt = s.eccCnt := rfl
@[simp] theorem State.raise_ceSeen (s : State) (code source part isl : Nat) (payload : Bytes) : (s.raise code source part isl payload).ceSeen = s.ceSeen := rfl
@[simp] theorem State.raise_scrubAt (s : State) (code source part isl : Nat) (payload : Bytes) : (s.raise code source part isl payload).scrubAt = s.scrubAt := rfl
@[simp] theorem State.raise_counters (s : State) (code source part isl : Nat) (payload : Bytes) : (s.raise code source part isl payload).counters = s.counters := rfl
@[simp] theorem State.raise_ctrResets (s : State) (code source part isl : Nat) (payload : Bytes) : (s.raise code source part isl payload).ctrResets = s.ctrResets := rfl
@[simp] theorem State.raise_domeOff (s : State) (code source part isl : Nat) (payload : Bytes) : (s.raise code source part isl payload).domeOff = s.domeOff := rfl
@[simp] theorem State.raise_zeroFill (s : State) (code source part isl : Nat) (payload : Bytes) : (s.raise code source part isl payload).zeroFill = s.zeroFill := rfl
@[simp] theorem State.raise_edges (s : State) (code source part isl : Nat) (payload : Bytes) : (s.raise code source part isl payload).edges = s.edges := rfl
@[simp] theorem State.raise_homePtr (s : State) (code source part isl : Nat) (payload : Bytes) : (s.raise code source part isl payload).homePtr = s.homePtr := rfl
@[simp] theorem State.raise_remPtr (s : State) (code source part isl : Nat) (payload : Bytes) : (s.raise code source part isl payload).remPtr = s.remPtr := rfl
@[simp] theorem State.raise_domeQ (s : State) (code source part isl : Nat) (payload : Bytes) : (s.raise code source part isl payload).domeQ = s.domeQ := rfl
@[simp] theorem State.raise_biWaits (s : State) (code source part isl : Nat) (payload : Bytes) : (s.raise code source part isl payload).biWaits = s.biWaits := rfl
@[simp] theorem State.raise_asks (s : State) (code source part isl : Nat) (payload : Bytes) : (s.raise code source part isl payload).asks = s.asks := rfl
@[simp] theorem State.raise_turns (s : State) (code source part isl : Nat) (payload : Bytes) : (s.raise code source part isl payload).turns = s.turns := rfl
@[simp] theorem State.raise_prune (s : State) (code source part isl : Nat) (payload : Bytes) : (s.raise code source part isl payload).prune = s.prune := rfl
@[simp] theorem State.raise_pruneBusy (s : State) (code source part isl : Nat) (payload : Bytes) : (s.raise code source part isl payload).pruneBusy = s.pruneBusy := rfl
@[simp] theorem State.raise_halCmd (s : State) (code source part isl : Nat) (payload : Bytes) : (s.raise code source part isl payload).halCmd = s.halCmd := rfl
@[simp] theorem State.raise_colCmd (s : State) (code source part isl : Nat) (payload : Bytes) : (s.raise code source part isl payload).colCmd = s.colCmd := rfl
@[simp] theorem State.raise_fqNext (s : State) (code source part isl : Nat) (payload : Bytes) : (s.raise code source part isl payload).fqNext = s.fqNext := rfl
@[simp] theorem State.raise_fetches (s : State) (code source part isl : Nat) (payload : Bytes) : (s.raise code source part isl payload).fetches = s.fetches := rfl
@[simp] theorem State.raise_rdCurr (s : State) (code source part isl : Nat) (payload : Bytes) : (s.raise code source part isl payload).rdCurr = s.rdCurr := rfl
@[simp] theorem State.raise_ports (s : State) (code source part isl : Nat) (payload : Bytes) : (s.raise code source part isl payload).ports = s.ports := rfl
@[simp] theorem State.raise_inject (s : State) (code source part isl : Nat) (payload : Bytes) : (s.raise code source part isl payload).inject = s.inject := rfl
@[simp] theorem State.raise_outbox (s : State) (code source part isl : Nat) (payload : Bytes) : (s.raise code source part isl payload).outbox = s.outbox := rfl
@[simp] theorem State.raise_delivery (s : State) (code source part isl : Nat) (payload : Bytes) : (s.raise code source part isl payload).delivery = s.delivery := rfl
@[simp] theorem State.raise_flowCnt (s : State) (code source part isl : Nat) (payload : Bytes) : (s.raise code source part isl payload).flowCnt = s.flowCnt := rfl
@[simp] theorem State.raise_laserDark (s : State) (code source part isl : Nat) (payload : Bytes) : (s.raise code source part isl payload).laserDark = s.laserDark := rfl
@[simp] theorem State.raise_cxl (s : State) (code source part isl : Nat) (payload : Bytes) : (s.raise code source part isl payload).cxl = s.cxl := rfl
@[simp] theorem State.raise_sessions (s : State) (code source part isl : Nat) (payload : Bytes) : (s.raise code source part isl payload).sessions = s.sessions := rfl
@[simp] theorem State.raise_deferred (s : State) (code source part isl : Nat) (payload : Bytes) : (s.raise code source part isl payload).deferred = s.deferred := rfl
@[simp] theorem State.raise_running (s : State) (code source part isl : Nat) (payload : Bytes) : (s.raise code source part isl payload).running = s.running := rfl
@[simp] theorem State.raise_mgmtTurn (s : State) (code source part isl : Nat) (payload : Bytes) : (s.raise code source part isl payload).mgmtTurn = s.mgmtTurn := rfl
@[simp] theorem State.raise_mctpEid (s : State) (code source part isl : Nat) (payload : Bytes) : (s.raise code source part isl payload).mctpEid = s.mctpEid := rfl
@[simp] theorem State.raise_answers (s : State) (code source part isl : Nat) (payload : Bytes) : (s.raise code source part isl payload).answers = s.answers := rfl
@[simp] theorem State.raise_dests (s : State) (code source part isl : Nat) (payload : Bytes) : (s.raise code source part isl payload).dests = s.dests := rfl
@[simp] theorem State.raise_cases (s : State) (code source part isl : Nat) (payload : Bytes) : (s.raise code source part isl payload).cases = s.cases := rfl
@[simp] theorem State.raise_transients (s : State) (code source part isl : Nat) (payload : Bytes) : (s.raise code source part isl payload).transients = s.transients := rfl
@[simp] theorem State.raise_fencedBerths (s : State) (code source part isl : Nat) (payload : Bytes) : (s.raise code source part isl payload).fencedBerths = s.fencedBerths := rfl
@[simp] theorem State.raise_fencedTowers (s : State) (code source part isl : Nat) (payload : Bytes) : (s.raise code source part isl payload).fencedTowers = s.fencedTowers := rfl
@[simp] theorem State.raise_fencedEdges (s : State) (code source part isl : Nat) (payload : Bytes) : (s.raise code source part isl payload).fencedEdges = s.fencedEdges := rfl
@[simp] theorem State.raise_fencedSpire (s : State) (code source part isl : Nat) (payload : Bytes) : (s.raise code source part isl payload).fencedSpire = s.fencedSpire := rfl
@[simp] theorem State.raise_slices (s : State) (code source part isl : Nat) (payload : Bytes) : (s.raise code source part isl payload).slices = s.slices := rfl
@[simp] theorem State.raise_sliceNext (s : State) (code source part isl : Nat) (payload : Bytes) : (s.raise code source part isl payload).sliceNext = s.sliceNext := rfl
@[simp] theorem State.raise_testing (s : State) (code source part isl : Nat) (payload : Bytes) : (s.raise code source part isl payload).testing = s.testing := rfl
@[simp] theorem State.raise_power (s : State) (code source part isl : Nat) (payload : Bytes) : (s.raise code source part isl payload).power = s.power := rfl
@[simp] theorem State.raise_boot (s : State) (code source part isl : Nat) (payload : Bytes) : (s.raise code source part isl payload).boot = s.boot := rfl
@[simp] theorem State.raise_pwrgd (s : State) (code source part isl : Nat) (payload : Bytes) : (s.raise code source part isl payload).pwrgd = s.pwrgd := rfl
@[simp] theorem State.raise_rstN (s : State) (code source part isl : Nat) (payload : Bytes) : (s.raise code source part isl payload).rstN = s.rstN := rfl
@[simp] theorem State.raise_faultN (s : State) (code source part isl : Nat) (payload : Bytes) : (s.raise code source part isl payload).faultN = s.faultN := rfl
@[simp] theorem State.raise_tripN (s : State) (code source part isl : Nat) (payload : Bytes) : (s.raise code source part isl payload).tripN = s.tripN := rfl
@[simp] theorem State.raise_flash (s : State) (code source part isl : Nat) (payload : Bytes) : (s.raise code source part isl payload).flash = s.flash := rfl
@[simp] theorem State.raise_riskHist (s : State) (code source part isl : Nat) (payload : Bytes) : (s.raise code source part isl payload).riskHist = s.riskHist := rfl
@[simp] theorem State.raise_riskShort (s : State) (code source part isl : Nat) (payload : Bytes) : (s.raise code source part isl payload).riskShort = s.riskShort := rfl
@[simp] theorem State.raise_straps (s : State) (code source part isl : Nat) (payload : Bytes) : (s.raise code source part isl payload).straps = s.straps := rfl
@[simp] theorem State.raise_bootFaults (s : State) (code source part isl : Nat) (payload : Bytes) : (s.raise code source part isl payload).bootFaults = s.bootFaults := rfl
@[simp] theorem State.raise_puf (s : State) (code source part isl : Nat) (payload : Bytes) : (s.raise code source part isl payload).puf = s.puf := rfl
@[simp] theorem State.raise_identity (s : State) (code source part isl : Nat) (payload : Bytes) : (s.raise code source part isl payload).identity = s.identity := rfl
@[simp] theorem State.raise_platKey (s : State) (code source part isl : Nat) (payload : Bytes) : (s.raise code source part isl payload).platKey = s.platKey := rfl
@[simp] theorem State.raise_tap (s : State) (code source part isl : Nat) (payload : Bytes) : (s.raise code source part isl payload).tap = s.tap := rfl
@[simp] theorem State.raise_out (s : State) (code source part isl : Nat) (payload : Bytes) : (s.raise code source part isl payload).out = s.out := rfl

/-! `State.raisePort` -/

@[simp] theorem State.raisePort_pending (s : State) (code p : Nat) (vals : List Nat) : (s.raisePort code p vals).pending = s.pending := rfl
@[simp] theorem State.raisePort_fresh (s : State) (code p : Nat) (vals : List Nat) : (s.raisePort code p vals).fresh = s.fresh := rfl
@[simp] theorem State.raisePort_cyc (s : State) (code p : Nat) (vals : List Nat) : (s.raisePort code p vals).cyc = s.cyc := rfl
@[simp] theorem State.raisePort_cycLost (s : State) (code p : Nat) (vals : List Nat) : (s.raisePort code p vals).cycLost = s.cycLost := rfl
@[simp] theorem State.raisePort_spars (s : State) (code p : Nat) (vals : List Nat) : (s.raisePort code p vals).spars = s.spars := rfl
@[simp] theorem State.raisePort_parts (s : State) (code p : Nat) (vals : List Nat) : (s.raisePort code p vals).parts = s.parts := rfl
@[simp] theorem State.raisePort_od (s : State) (code p : Nat) (vals : List Nat) : (s.raisePort code p vals).od = s.od := rfl
@[simp] theorem State.raisePort_blobs (s : State) (code p : Nat) (vals : List Nat) : (s.raisePort code p vals).blobs = s.blobs := rfl
@[simp] theorem State.raisePort_blobGen (s : State) (code p : Nat) (vals : List Nat) : (s.raisePort code p vals).blobGen = s.blobGen := rfl
@[simp] theorem State.raisePort_dome (s : State) (code p : Nat) (vals : List Nat) : (s.raisePort code p vals).dome = s.dome := rfl
@[simp] theorem State.raisePort_poison (s : State) (code p : Nat) (vals : List Nat) : (s.raisePort code p vals).poison = s.poison := rfl
@[simp] theorem State.raisePort_eccCnt (s : State) (code p : Nat) (vals : List Nat) : (s.raisePort code p vals).eccCnt = s.eccCnt := rfl
@[simp] theorem State.raisePort_ceSeen (s : State) (code p : Nat) (vals : List Nat) : (s.raisePort code p vals).ceSeen = s.ceSeen := rfl
@[simp] theorem State.raisePort_scrubAt (s : State) (code p : Nat) (vals : List Nat) : (s.raisePort code p vals).scrubAt = s.scrubAt := rfl
@[simp] theorem State.raisePort_counters (s : State) (code p : Nat) (vals : List Nat) : (s.raisePort code p vals).counters = s.counters := rfl
@[simp] theorem State.raisePort_ctrResets (s : State) (code p : Nat) (vals : List Nat) : (s.raisePort code p vals).ctrResets = s.ctrResets := rfl
@[simp] theorem State.raisePort_domeOff (s : State) (code p : Nat) (vals : List Nat) : (s.raisePort code p vals).domeOff = s.domeOff := rfl
@[simp] theorem State.raisePort_zeroFill (s : State) (code p : Nat) (vals : List Nat) : (s.raisePort code p vals).zeroFill = s.zeroFill := rfl
@[simp] theorem State.raisePort_edges (s : State) (code p : Nat) (vals : List Nat) : (s.raisePort code p vals).edges = s.edges := rfl
@[simp] theorem State.raisePort_homePtr (s : State) (code p : Nat) (vals : List Nat) : (s.raisePort code p vals).homePtr = s.homePtr := rfl
@[simp] theorem State.raisePort_remPtr (s : State) (code p : Nat) (vals : List Nat) : (s.raisePort code p vals).remPtr = s.remPtr := rfl
@[simp] theorem State.raisePort_domeQ (s : State) (code p : Nat) (vals : List Nat) : (s.raisePort code p vals).domeQ = s.domeQ := rfl
@[simp] theorem State.raisePort_biWaits (s : State) (code p : Nat) (vals : List Nat) : (s.raisePort code p vals).biWaits = s.biWaits := rfl
@[simp] theorem State.raisePort_asks (s : State) (code p : Nat) (vals : List Nat) : (s.raisePort code p vals).asks = s.asks := rfl
@[simp] theorem State.raisePort_turns (s : State) (code p : Nat) (vals : List Nat) : (s.raisePort code p vals).turns = s.turns := rfl
@[simp] theorem State.raisePort_prune (s : State) (code p : Nat) (vals : List Nat) : (s.raisePort code p vals).prune = s.prune := rfl
@[simp] theorem State.raisePort_pruneBusy (s : State) (code p : Nat) (vals : List Nat) : (s.raisePort code p vals).pruneBusy = s.pruneBusy := rfl
@[simp] theorem State.raisePort_halCmd (s : State) (code p : Nat) (vals : List Nat) : (s.raisePort code p vals).halCmd = s.halCmd := rfl
@[simp] theorem State.raisePort_colCmd (s : State) (code p : Nat) (vals : List Nat) : (s.raisePort code p vals).colCmd = s.colCmd := rfl
@[simp] theorem State.raisePort_fqNext (s : State) (code p : Nat) (vals : List Nat) : (s.raisePort code p vals).fqNext = s.fqNext := rfl
@[simp] theorem State.raisePort_fetches (s : State) (code p : Nat) (vals : List Nat) : (s.raisePort code p vals).fetches = s.fetches := rfl
@[simp] theorem State.raisePort_rdCurr (s : State) (code p : Nat) (vals : List Nat) : (s.raisePort code p vals).rdCurr = s.rdCurr := rfl
@[simp] theorem State.raisePort_ports (s : State) (code p : Nat) (vals : List Nat) : (s.raisePort code p vals).ports = s.ports := rfl
@[simp] theorem State.raisePort_inject (s : State) (code p : Nat) (vals : List Nat) : (s.raisePort code p vals).inject = s.inject := rfl
@[simp] theorem State.raisePort_outbox (s : State) (code p : Nat) (vals : List Nat) : (s.raisePort code p vals).outbox = s.outbox := rfl
@[simp] theorem State.raisePort_delivery (s : State) (code p : Nat) (vals : List Nat) : (s.raisePort code p vals).delivery = s.delivery := rfl
@[simp] theorem State.raisePort_flowCnt (s : State) (code p : Nat) (vals : List Nat) : (s.raisePort code p vals).flowCnt = s.flowCnt := rfl
@[simp] theorem State.raisePort_laserDark (s : State) (code p : Nat) (vals : List Nat) : (s.raisePort code p vals).laserDark = s.laserDark := rfl
@[simp] theorem State.raisePort_cxl (s : State) (code p : Nat) (vals : List Nat) : (s.raisePort code p vals).cxl = s.cxl := rfl
@[simp] theorem State.raisePort_sessions (s : State) (code p : Nat) (vals : List Nat) : (s.raisePort code p vals).sessions = s.sessions := rfl
@[simp] theorem State.raisePort_deferred (s : State) (code p : Nat) (vals : List Nat) : (s.raisePort code p vals).deferred = s.deferred := rfl
@[simp] theorem State.raisePort_running (s : State) (code p : Nat) (vals : List Nat) : (s.raisePort code p vals).running = s.running := rfl
@[simp] theorem State.raisePort_mgmtTurn (s : State) (code p : Nat) (vals : List Nat) : (s.raisePort code p vals).mgmtTurn = s.mgmtTurn := rfl
@[simp] theorem State.raisePort_mctpEid (s : State) (code p : Nat) (vals : List Nat) : (s.raisePort code p vals).mctpEid = s.mctpEid := rfl
@[simp] theorem State.raisePort_answers (s : State) (code p : Nat) (vals : List Nat) : (s.raisePort code p vals).answers = s.answers := rfl
@[simp] theorem State.raisePort_dests (s : State) (code p : Nat) (vals : List Nat) : (s.raisePort code p vals).dests = s.dests := rfl
@[simp] theorem State.raisePort_cases (s : State) (code p : Nat) (vals : List Nat) : (s.raisePort code p vals).cases = s.cases := rfl
@[simp] theorem State.raisePort_transients (s : State) (code p : Nat) (vals : List Nat) : (s.raisePort code p vals).transients = s.transients := rfl
@[simp] theorem State.raisePort_fencedBerths (s : State) (code p : Nat) (vals : List Nat) : (s.raisePort code p vals).fencedBerths = s.fencedBerths := rfl
@[simp] theorem State.raisePort_fencedTowers (s : State) (code p : Nat) (vals : List Nat) : (s.raisePort code p vals).fencedTowers = s.fencedTowers := rfl
@[simp] theorem State.raisePort_fencedEdges (s : State) (code p : Nat) (vals : List Nat) : (s.raisePort code p vals).fencedEdges = s.fencedEdges := rfl
@[simp] theorem State.raisePort_fencedSpire (s : State) (code p : Nat) (vals : List Nat) : (s.raisePort code p vals).fencedSpire = s.fencedSpire := rfl
@[simp] theorem State.raisePort_slices (s : State) (code p : Nat) (vals : List Nat) : (s.raisePort code p vals).slices = s.slices := rfl
@[simp] theorem State.raisePort_sliceNext (s : State) (code p : Nat) (vals : List Nat) : (s.raisePort code p vals).sliceNext = s.sliceNext := rfl
@[simp] theorem State.raisePort_testing (s : State) (code p : Nat) (vals : List Nat) : (s.raisePort code p vals).testing = s.testing := rfl
@[simp] theorem State.raisePort_power (s : State) (code p : Nat) (vals : List Nat) : (s.raisePort code p vals).power = s.power := rfl
@[simp] theorem State.raisePort_boot (s : State) (code p : Nat) (vals : List Nat) : (s.raisePort code p vals).boot = s.boot := rfl
@[simp] theorem State.raisePort_pwrgd (s : State) (code p : Nat) (vals : List Nat) : (s.raisePort code p vals).pwrgd = s.pwrgd := rfl
@[simp] theorem State.raisePort_rstN (s : State) (code p : Nat) (vals : List Nat) : (s.raisePort code p vals).rstN = s.rstN := rfl
@[simp] theorem State.raisePort_faultN (s : State) (code p : Nat) (vals : List Nat) : (s.raisePort code p vals).faultN = s.faultN := rfl
@[simp] theorem State.raisePort_tripN (s : State) (code p : Nat) (vals : List Nat) : (s.raisePort code p vals).tripN = s.tripN := rfl
@[simp] theorem State.raisePort_flash (s : State) (code p : Nat) (vals : List Nat) : (s.raisePort code p vals).flash = s.flash := rfl
@[simp] theorem State.raisePort_riskHist (s : State) (code p : Nat) (vals : List Nat) : (s.raisePort code p vals).riskHist = s.riskHist := rfl
@[simp] theorem State.raisePort_riskShort (s : State) (code p : Nat) (vals : List Nat) : (s.raisePort code p vals).riskShort = s.riskShort := rfl
@[simp] theorem State.raisePort_straps (s : State) (code p : Nat) (vals : List Nat) : (s.raisePort code p vals).straps = s.straps := rfl
@[simp] theorem State.raisePort_bootFaults (s : State) (code p : Nat) (vals : List Nat) : (s.raisePort code p vals).bootFaults = s.bootFaults := rfl
@[simp] theorem State.raisePort_puf (s : State) (code p : Nat) (vals : List Nat) : (s.raisePort code p vals).puf = s.puf := rfl
@[simp] theorem State.raisePort_identity (s : State) (code p : Nat) (vals : List Nat) : (s.raisePort code p vals).identity = s.identity := rfl
@[simp] theorem State.raisePort_platKey (s : State) (code p : Nat) (vals : List Nat) : (s.raisePort code p vals).platKey = s.platKey := rfl
@[simp] theorem State.raisePort_tap (s : State) (code p : Nat) (vals : List Nat) : (s.raisePort code p vals).tap = s.tap := rfl
@[simp] theorem State.raisePort_out (s : State) (code p : Nat) (vals : List Nat) : (s.raisePort code p vals).out = s.out := rfl

/-! `State.raiseOpen` -/

@[simp] theorem State.raiseOpen_pending (s : State) (code source part isl : Nat) (vals : List Nat) : (s.raiseOpen code source part isl vals).pending = s.pending := rfl
@[simp] theorem State.raiseOpen_fresh (s : State) (code source part isl : Nat) (vals : List Nat) : (s.raiseOpen code source part isl vals).fresh = s.fresh := rfl
@[simp] theorem State.raiseOpen_cyc (s : State) (code source part isl : Nat) (vals : List Nat) : (s.raiseOpen code source part isl vals).cyc = s.cyc := rfl
@[simp] theorem State.raiseOpen_cycLost (s : State) (code source part isl : Nat) (vals : List Nat) : (s.raiseOpen code source part isl vals).cycLost = s.cycLost := rfl
@[simp] theorem State.raiseOpen_spars (s : State) (code source part isl : Nat) (vals : List Nat) : (s.raiseOpen code source part isl vals).spars = s.spars := rfl
@[simp] theorem State.raiseOpen_parts (s : State) (code source part isl : Nat) (vals : List Nat) : (s.raiseOpen code source part isl vals).parts = s.parts := rfl
@[simp] theorem State.raiseOpen_od (s : State) (code source part isl : Nat) (vals : List Nat) : (s.raiseOpen code source part isl vals).od = s.od := rfl
@[simp] theorem State.raiseOpen_blobs (s : State) (code source part isl : Nat) (vals : List Nat) : (s.raiseOpen code source part isl vals).blobs = s.blobs := rfl
@[simp] theorem State.raiseOpen_blobGen (s : State) (code source part isl : Nat) (vals : List Nat) : (s.raiseOpen code source part isl vals).blobGen = s.blobGen := rfl
@[simp] theorem State.raiseOpen_dome (s : State) (code source part isl : Nat) (vals : List Nat) : (s.raiseOpen code source part isl vals).dome = s.dome := rfl
@[simp] theorem State.raiseOpen_poison (s : State) (code source part isl : Nat) (vals : List Nat) : (s.raiseOpen code source part isl vals).poison = s.poison := rfl
@[simp] theorem State.raiseOpen_eccCnt (s : State) (code source part isl : Nat) (vals : List Nat) : (s.raiseOpen code source part isl vals).eccCnt = s.eccCnt := rfl
@[simp] theorem State.raiseOpen_ceSeen (s : State) (code source part isl : Nat) (vals : List Nat) : (s.raiseOpen code source part isl vals).ceSeen = s.ceSeen := rfl
@[simp] theorem State.raiseOpen_scrubAt (s : State) (code source part isl : Nat) (vals : List Nat) : (s.raiseOpen code source part isl vals).scrubAt = s.scrubAt := rfl
@[simp] theorem State.raiseOpen_counters (s : State) (code source part isl : Nat) (vals : List Nat) : (s.raiseOpen code source part isl vals).counters = s.counters := rfl
@[simp] theorem State.raiseOpen_ctrResets (s : State) (code source part isl : Nat) (vals : List Nat) : (s.raiseOpen code source part isl vals).ctrResets = s.ctrResets := rfl
@[simp] theorem State.raiseOpen_domeOff (s : State) (code source part isl : Nat) (vals : List Nat) : (s.raiseOpen code source part isl vals).domeOff = s.domeOff := rfl
@[simp] theorem State.raiseOpen_zeroFill (s : State) (code source part isl : Nat) (vals : List Nat) : (s.raiseOpen code source part isl vals).zeroFill = s.zeroFill := rfl
@[simp] theorem State.raiseOpen_edges (s : State) (code source part isl : Nat) (vals : List Nat) : (s.raiseOpen code source part isl vals).edges = s.edges := rfl
@[simp] theorem State.raiseOpen_homePtr (s : State) (code source part isl : Nat) (vals : List Nat) : (s.raiseOpen code source part isl vals).homePtr = s.homePtr := rfl
@[simp] theorem State.raiseOpen_remPtr (s : State) (code source part isl : Nat) (vals : List Nat) : (s.raiseOpen code source part isl vals).remPtr = s.remPtr := rfl
@[simp] theorem State.raiseOpen_domeQ (s : State) (code source part isl : Nat) (vals : List Nat) : (s.raiseOpen code source part isl vals).domeQ = s.domeQ := rfl
@[simp] theorem State.raiseOpen_biWaits (s : State) (code source part isl : Nat) (vals : List Nat) : (s.raiseOpen code source part isl vals).biWaits = s.biWaits := rfl
@[simp] theorem State.raiseOpen_asks (s : State) (code source part isl : Nat) (vals : List Nat) : (s.raiseOpen code source part isl vals).asks = s.asks := rfl
@[simp] theorem State.raiseOpen_turns (s : State) (code source part isl : Nat) (vals : List Nat) : (s.raiseOpen code source part isl vals).turns = s.turns := rfl
@[simp] theorem State.raiseOpen_prune (s : State) (code source part isl : Nat) (vals : List Nat) : (s.raiseOpen code source part isl vals).prune = s.prune := rfl
@[simp] theorem State.raiseOpen_pruneBusy (s : State) (code source part isl : Nat) (vals : List Nat) : (s.raiseOpen code source part isl vals).pruneBusy = s.pruneBusy := rfl
@[simp] theorem State.raiseOpen_halCmd (s : State) (code source part isl : Nat) (vals : List Nat) : (s.raiseOpen code source part isl vals).halCmd = s.halCmd := rfl
@[simp] theorem State.raiseOpen_colCmd (s : State) (code source part isl : Nat) (vals : List Nat) : (s.raiseOpen code source part isl vals).colCmd = s.colCmd := rfl
@[simp] theorem State.raiseOpen_fqNext (s : State) (code source part isl : Nat) (vals : List Nat) : (s.raiseOpen code source part isl vals).fqNext = s.fqNext := rfl
@[simp] theorem State.raiseOpen_fetches (s : State) (code source part isl : Nat) (vals : List Nat) : (s.raiseOpen code source part isl vals).fetches = s.fetches := rfl
@[simp] theorem State.raiseOpen_rdCurr (s : State) (code source part isl : Nat) (vals : List Nat) : (s.raiseOpen code source part isl vals).rdCurr = s.rdCurr := rfl
@[simp] theorem State.raiseOpen_ports (s : State) (code source part isl : Nat) (vals : List Nat) : (s.raiseOpen code source part isl vals).ports = s.ports := rfl
@[simp] theorem State.raiseOpen_inject (s : State) (code source part isl : Nat) (vals : List Nat) : (s.raiseOpen code source part isl vals).inject = s.inject := rfl
@[simp] theorem State.raiseOpen_outbox (s : State) (code source part isl : Nat) (vals : List Nat) : (s.raiseOpen code source part isl vals).outbox = s.outbox := rfl
@[simp] theorem State.raiseOpen_delivery (s : State) (code source part isl : Nat) (vals : List Nat) : (s.raiseOpen code source part isl vals).delivery = s.delivery := rfl
@[simp] theorem State.raiseOpen_flowCnt (s : State) (code source part isl : Nat) (vals : List Nat) : (s.raiseOpen code source part isl vals).flowCnt = s.flowCnt := rfl
@[simp] theorem State.raiseOpen_laserDark (s : State) (code source part isl : Nat) (vals : List Nat) : (s.raiseOpen code source part isl vals).laserDark = s.laserDark := rfl
@[simp] theorem State.raiseOpen_cxl (s : State) (code source part isl : Nat) (vals : List Nat) : (s.raiseOpen code source part isl vals).cxl = s.cxl := rfl
@[simp] theorem State.raiseOpen_sessions (s : State) (code source part isl : Nat) (vals : List Nat) : (s.raiseOpen code source part isl vals).sessions = s.sessions := rfl
@[simp] theorem State.raiseOpen_deferred (s : State) (code source part isl : Nat) (vals : List Nat) : (s.raiseOpen code source part isl vals).deferred = s.deferred := rfl
@[simp] theorem State.raiseOpen_running (s : State) (code source part isl : Nat) (vals : List Nat) : (s.raiseOpen code source part isl vals).running = s.running := rfl
@[simp] theorem State.raiseOpen_mgmtTurn (s : State) (code source part isl : Nat) (vals : List Nat) : (s.raiseOpen code source part isl vals).mgmtTurn = s.mgmtTurn := rfl
@[simp] theorem State.raiseOpen_mctpEid (s : State) (code source part isl : Nat) (vals : List Nat) : (s.raiseOpen code source part isl vals).mctpEid = s.mctpEid := rfl
@[simp] theorem State.raiseOpen_answers (s : State) (code source part isl : Nat) (vals : List Nat) : (s.raiseOpen code source part isl vals).answers = s.answers := rfl
@[simp] theorem State.raiseOpen_dests (s : State) (code source part isl : Nat) (vals : List Nat) : (s.raiseOpen code source part isl vals).dests = s.dests := rfl
@[simp] theorem State.raiseOpen_cases (s : State) (code source part isl : Nat) (vals : List Nat) : (s.raiseOpen code source part isl vals).cases = s.cases := rfl
@[simp] theorem State.raiseOpen_transients (s : State) (code source part isl : Nat) (vals : List Nat) : (s.raiseOpen code source part isl vals).transients = s.transients := rfl
@[simp] theorem State.raiseOpen_fencedBerths (s : State) (code source part isl : Nat) (vals : List Nat) : (s.raiseOpen code source part isl vals).fencedBerths = s.fencedBerths := rfl
@[simp] theorem State.raiseOpen_fencedTowers (s : State) (code source part isl : Nat) (vals : List Nat) : (s.raiseOpen code source part isl vals).fencedTowers = s.fencedTowers := rfl
@[simp] theorem State.raiseOpen_fencedEdges (s : State) (code source part isl : Nat) (vals : List Nat) : (s.raiseOpen code source part isl vals).fencedEdges = s.fencedEdges := rfl
@[simp] theorem State.raiseOpen_fencedSpire (s : State) (code source part isl : Nat) (vals : List Nat) : (s.raiseOpen code source part isl vals).fencedSpire = s.fencedSpire := rfl
@[simp] theorem State.raiseOpen_slices (s : State) (code source part isl : Nat) (vals : List Nat) : (s.raiseOpen code source part isl vals).slices = s.slices := rfl
@[simp] theorem State.raiseOpen_sliceNext (s : State) (code source part isl : Nat) (vals : List Nat) : (s.raiseOpen code source part isl vals).sliceNext = s.sliceNext := rfl
@[simp] theorem State.raiseOpen_testing (s : State) (code source part isl : Nat) (vals : List Nat) : (s.raiseOpen code source part isl vals).testing = s.testing := rfl
@[simp] theorem State.raiseOpen_power (s : State) (code source part isl : Nat) (vals : List Nat) : (s.raiseOpen code source part isl vals).power = s.power := rfl
@[simp] theorem State.raiseOpen_boot (s : State) (code source part isl : Nat) (vals : List Nat) : (s.raiseOpen code source part isl vals).boot = s.boot := rfl
@[simp] theorem State.raiseOpen_pwrgd (s : State) (code source part isl : Nat) (vals : List Nat) : (s.raiseOpen code source part isl vals).pwrgd = s.pwrgd := rfl
@[simp] theorem State.raiseOpen_rstN (s : State) (code source part isl : Nat) (vals : List Nat) : (s.raiseOpen code source part isl vals).rstN = s.rstN := rfl
@[simp] theorem State.raiseOpen_faultN (s : State) (code source part isl : Nat) (vals : List Nat) : (s.raiseOpen code source part isl vals).faultN = s.faultN := rfl
@[simp] theorem State.raiseOpen_tripN (s : State) (code source part isl : Nat) (vals : List Nat) : (s.raiseOpen code source part isl vals).tripN = s.tripN := rfl
@[simp] theorem State.raiseOpen_flash (s : State) (code source part isl : Nat) (vals : List Nat) : (s.raiseOpen code source part isl vals).flash = s.flash := rfl
@[simp] theorem State.raiseOpen_riskHist (s : State) (code source part isl : Nat) (vals : List Nat) : (s.raiseOpen code source part isl vals).riskHist = s.riskHist := rfl
@[simp] theorem State.raiseOpen_riskShort (s : State) (code source part isl : Nat) (vals : List Nat) : (s.raiseOpen code source part isl vals).riskShort = s.riskShort := rfl
@[simp] theorem State.raiseOpen_straps (s : State) (code source part isl : Nat) (vals : List Nat) : (s.raiseOpen code source part isl vals).straps = s.straps := rfl
@[simp] theorem State.raiseOpen_bootFaults (s : State) (code source part isl : Nat) (vals : List Nat) : (s.raiseOpen code source part isl vals).bootFaults = s.bootFaults := rfl
@[simp] theorem State.raiseOpen_puf (s : State) (code source part isl : Nat) (vals : List Nat) : (s.raiseOpen code source part isl vals).puf = s.puf := rfl
@[simp] theorem State.raiseOpen_identity (s : State) (code source part isl : Nat) (vals : List Nat) : (s.raiseOpen code source part isl vals).identity = s.identity := rfl
@[simp] theorem State.raiseOpen_platKey (s : State) (code source part isl : Nat) (vals : List Nat) : (s.raiseOpen code source part isl vals).platKey = s.platKey := rfl
@[simp] theorem State.raiseOpen_tap (s : State) (code source part isl : Nat) (vals : List Nat) : (s.raiseOpen code source part isl vals).tap = s.tap := rfl
@[simp] theorem State.raiseOpen_out (s : State) (code source part isl : Nat) (vals : List Nat) : (s.raiseOpen code source part isl vals).out = s.out := rfl

/-! `State.setPoison` -/

@[simp] theorem State.setPoison_pending (s : State) (line : Nat) (v : Bool) : (s.setPoison line v).pending = s.pending := rfl
@[simp] theorem State.setPoison_fresh (s : State) (line : Nat) (v : Bool) : (s.setPoison line v).fresh = s.fresh := rfl
@[simp] theorem State.setPoison_cyc (s : State) (line : Nat) (v : Bool) : (s.setPoison line v).cyc = s.cyc := rfl
@[simp] theorem State.setPoison_cycLost (s : State) (line : Nat) (v : Bool) : (s.setPoison line v).cycLost = s.cycLost := rfl
@[simp] theorem State.setPoison_spars (s : State) (line : Nat) (v : Bool) : (s.setPoison line v).spars = s.spars := rfl
@[simp] theorem State.setPoison_parts (s : State) (line : Nat) (v : Bool) : (s.setPoison line v).parts = s.parts := rfl
@[simp] theorem State.setPoison_od (s : State) (line : Nat) (v : Bool) : (s.setPoison line v).od = s.od := rfl
@[simp] theorem State.setPoison_blobs (s : State) (line : Nat) (v : Bool) : (s.setPoison line v).blobs = s.blobs := rfl
@[simp] theorem State.setPoison_blobGen (s : State) (line : Nat) (v : Bool) : (s.setPoison line v).blobGen = s.blobGen := rfl
@[simp] theorem State.setPoison_dome (s : State) (line : Nat) (v : Bool) : (s.setPoison line v).dome = s.dome := rfl
@[simp] theorem State.setPoison_eccCnt (s : State) (line : Nat) (v : Bool) : (s.setPoison line v).eccCnt = s.eccCnt := rfl
@[simp] theorem State.setPoison_ceSeen (s : State) (line : Nat) (v : Bool) : (s.setPoison line v).ceSeen = s.ceSeen := rfl
@[simp] theorem State.setPoison_scrubAt (s : State) (line : Nat) (v : Bool) : (s.setPoison line v).scrubAt = s.scrubAt := rfl
@[simp] theorem State.setPoison_counters (s : State) (line : Nat) (v : Bool) : (s.setPoison line v).counters = s.counters := rfl
@[simp] theorem State.setPoison_ctrResets (s : State) (line : Nat) (v : Bool) : (s.setPoison line v).ctrResets = s.ctrResets := rfl
@[simp] theorem State.setPoison_domeOff (s : State) (line : Nat) (v : Bool) : (s.setPoison line v).domeOff = s.domeOff := rfl
@[simp] theorem State.setPoison_zeroFill (s : State) (line : Nat) (v : Bool) : (s.setPoison line v).zeroFill = s.zeroFill := rfl
@[simp] theorem State.setPoison_edges (s : State) (line : Nat) (v : Bool) : (s.setPoison line v).edges = s.edges := rfl
@[simp] theorem State.setPoison_homePtr (s : State) (line : Nat) (v : Bool) : (s.setPoison line v).homePtr = s.homePtr := rfl
@[simp] theorem State.setPoison_remPtr (s : State) (line : Nat) (v : Bool) : (s.setPoison line v).remPtr = s.remPtr := rfl
@[simp] theorem State.setPoison_domeQ (s : State) (line : Nat) (v : Bool) : (s.setPoison line v).domeQ = s.domeQ := rfl
@[simp] theorem State.setPoison_biWaits (s : State) (line : Nat) (v : Bool) : (s.setPoison line v).biWaits = s.biWaits := rfl
@[simp] theorem State.setPoison_asks (s : State) (line : Nat) (v : Bool) : (s.setPoison line v).asks = s.asks := rfl
@[simp] theorem State.setPoison_turns (s : State) (line : Nat) (v : Bool) : (s.setPoison line v).turns = s.turns := rfl
@[simp] theorem State.setPoison_prune (s : State) (line : Nat) (v : Bool) : (s.setPoison line v).prune = s.prune := rfl
@[simp] theorem State.setPoison_pruneBusy (s : State) (line : Nat) (v : Bool) : (s.setPoison line v).pruneBusy = s.pruneBusy := rfl
@[simp] theorem State.setPoison_halCmd (s : State) (line : Nat) (v : Bool) : (s.setPoison line v).halCmd = s.halCmd := rfl
@[simp] theorem State.setPoison_colCmd (s : State) (line : Nat) (v : Bool) : (s.setPoison line v).colCmd = s.colCmd := rfl
@[simp] theorem State.setPoison_fqNext (s : State) (line : Nat) (v : Bool) : (s.setPoison line v).fqNext = s.fqNext := rfl
@[simp] theorem State.setPoison_fetches (s : State) (line : Nat) (v : Bool) : (s.setPoison line v).fetches = s.fetches := rfl
@[simp] theorem State.setPoison_rdCurr (s : State) (line : Nat) (v : Bool) : (s.setPoison line v).rdCurr = s.rdCurr := rfl
@[simp] theorem State.setPoison_ports (s : State) (line : Nat) (v : Bool) : (s.setPoison line v).ports = s.ports := rfl
@[simp] theorem State.setPoison_inject (s : State) (line : Nat) (v : Bool) : (s.setPoison line v).inject = s.inject := rfl
@[simp] theorem State.setPoison_outbox (s : State) (line : Nat) (v : Bool) : (s.setPoison line v).outbox = s.outbox := rfl
@[simp] theorem State.setPoison_delivery (s : State) (line : Nat) (v : Bool) : (s.setPoison line v).delivery = s.delivery := rfl
@[simp] theorem State.setPoison_flowCnt (s : State) (line : Nat) (v : Bool) : (s.setPoison line v).flowCnt = s.flowCnt := rfl
@[simp] theorem State.setPoison_laserDark (s : State) (line : Nat) (v : Bool) : (s.setPoison line v).laserDark = s.laserDark := rfl
@[simp] theorem State.setPoison_cxl (s : State) (line : Nat) (v : Bool) : (s.setPoison line v).cxl = s.cxl := rfl
@[simp] theorem State.setPoison_sessions (s : State) (line : Nat) (v : Bool) : (s.setPoison line v).sessions = s.sessions := rfl
@[simp] theorem State.setPoison_deferred (s : State) (line : Nat) (v : Bool) : (s.setPoison line v).deferred = s.deferred := rfl
@[simp] theorem State.setPoison_running (s : State) (line : Nat) (v : Bool) : (s.setPoison line v).running = s.running := rfl
@[simp] theorem State.setPoison_mgmtTurn (s : State) (line : Nat) (v : Bool) : (s.setPoison line v).mgmtTurn = s.mgmtTurn := rfl
@[simp] theorem State.setPoison_mctpEid (s : State) (line : Nat) (v : Bool) : (s.setPoison line v).mctpEid = s.mctpEid := rfl
@[simp] theorem State.setPoison_answers (s : State) (line : Nat) (v : Bool) : (s.setPoison line v).answers = s.answers := rfl
@[simp] theorem State.setPoison_dests (s : State) (line : Nat) (v : Bool) : (s.setPoison line v).dests = s.dests := rfl
@[simp] theorem State.setPoison_faultQ (s : State) (line : Nat) (v : Bool) : (s.setPoison line v).faultQ = s.faultQ := rfl
@[simp] theorem State.setPoison_cases (s : State) (line : Nat) (v : Bool) : (s.setPoison line v).cases = s.cases := rfl
@[simp] theorem State.setPoison_transients (s : State) (line : Nat) (v : Bool) : (s.setPoison line v).transients = s.transients := rfl
@[simp] theorem State.setPoison_fencedBerths (s : State) (line : Nat) (v : Bool) : (s.setPoison line v).fencedBerths = s.fencedBerths := rfl
@[simp] theorem State.setPoison_fencedTowers (s : State) (line : Nat) (v : Bool) : (s.setPoison line v).fencedTowers = s.fencedTowers := rfl
@[simp] theorem State.setPoison_fencedEdges (s : State) (line : Nat) (v : Bool) : (s.setPoison line v).fencedEdges = s.fencedEdges := rfl
@[simp] theorem State.setPoison_fencedSpire (s : State) (line : Nat) (v : Bool) : (s.setPoison line v).fencedSpire = s.fencedSpire := rfl
@[simp] theorem State.setPoison_slices (s : State) (line : Nat) (v : Bool) : (s.setPoison line v).slices = s.slices := rfl
@[simp] theorem State.setPoison_sliceNext (s : State) (line : Nat) (v : Bool) : (s.setPoison line v).sliceNext = s.sliceNext := rfl
@[simp] theorem State.setPoison_testing (s : State) (line : Nat) (v : Bool) : (s.setPoison line v).testing = s.testing := rfl
@[simp] theorem State.setPoison_power (s : State) (line : Nat) (v : Bool) : (s.setPoison line v).power = s.power := rfl
@[simp] theorem State.setPoison_boot (s : State) (line : Nat) (v : Bool) : (s.setPoison line v).boot = s.boot := rfl
@[simp] theorem State.setPoison_pwrgd (s : State) (line : Nat) (v : Bool) : (s.setPoison line v).pwrgd = s.pwrgd := rfl
@[simp] theorem State.setPoison_rstN (s : State) (line : Nat) (v : Bool) : (s.setPoison line v).rstN = s.rstN := rfl
@[simp] theorem State.setPoison_faultN (s : State) (line : Nat) (v : Bool) : (s.setPoison line v).faultN = s.faultN := rfl
@[simp] theorem State.setPoison_tripN (s : State) (line : Nat) (v : Bool) : (s.setPoison line v).tripN = s.tripN := rfl
@[simp] theorem State.setPoison_flash (s : State) (line : Nat) (v : Bool) : (s.setPoison line v).flash = s.flash := rfl
@[simp] theorem State.setPoison_riskHist (s : State) (line : Nat) (v : Bool) : (s.setPoison line v).riskHist = s.riskHist := rfl
@[simp] theorem State.setPoison_riskShort (s : State) (line : Nat) (v : Bool) : (s.setPoison line v).riskShort = s.riskShort := rfl
@[simp] theorem State.setPoison_straps (s : State) (line : Nat) (v : Bool) : (s.setPoison line v).straps = s.straps := rfl
@[simp] theorem State.setPoison_bootFaults (s : State) (line : Nat) (v : Bool) : (s.setPoison line v).bootFaults = s.bootFaults := rfl
@[simp] theorem State.setPoison_puf (s : State) (line : Nat) (v : Bool) : (s.setPoison line v).puf = s.puf := rfl
@[simp] theorem State.setPoison_identity (s : State) (line : Nat) (v : Bool) : (s.setPoison line v).identity = s.identity := rfl
@[simp] theorem State.setPoison_platKey (s : State) (line : Nat) (v : Bool) : (s.setPoison line v).platKey = s.platKey := rfl
@[simp] theorem State.setPoison_tap (s : State) (line : Nat) (v : Bool) : (s.setPoison line v).tap = s.tap := rfl
@[simp] theorem State.setPoison_out (s : State) (line : Nat) (v : Bool) : (s.setPoison line v).out = s.out := rfl

/-! `State.domePut` -/

@[simp] theorem State.domePut_pending (s : State) (a : Nat) (bs : Bytes) : (s.domePut a bs).pending = s.pending := rfl
@[simp] theorem State.domePut_fresh (s : State) (a : Nat) (bs : Bytes) : (s.domePut a bs).fresh = s.fresh := rfl
@[simp] theorem State.domePut_cyc (s : State) (a : Nat) (bs : Bytes) : (s.domePut a bs).cyc = s.cyc := rfl
@[simp] theorem State.domePut_cycLost (s : State) (a : Nat) (bs : Bytes) : (s.domePut a bs).cycLost = s.cycLost := rfl
@[simp] theorem State.domePut_spars (s : State) (a : Nat) (bs : Bytes) : (s.domePut a bs).spars = s.spars := rfl
@[simp] theorem State.domePut_parts (s : State) (a : Nat) (bs : Bytes) : (s.domePut a bs).parts = s.parts := rfl
@[simp] theorem State.domePut_od (s : State) (a : Nat) (bs : Bytes) : (s.domePut a bs).od = s.od := rfl
@[simp] theorem State.domePut_blobs (s : State) (a : Nat) (bs : Bytes) : (s.domePut a bs).blobs = s.blobs := rfl
@[simp] theorem State.domePut_blobGen (s : State) (a : Nat) (bs : Bytes) : (s.domePut a bs).blobGen = s.blobGen := rfl
@[simp] theorem State.domePut_poison (s : State) (a : Nat) (bs : Bytes) : (s.domePut a bs).poison = s.poison := rfl
@[simp] theorem State.domePut_eccCnt (s : State) (a : Nat) (bs : Bytes) : (s.domePut a bs).eccCnt = s.eccCnt := rfl
@[simp] theorem State.domePut_ceSeen (s : State) (a : Nat) (bs : Bytes) : (s.domePut a bs).ceSeen = s.ceSeen := rfl
@[simp] theorem State.domePut_scrubAt (s : State) (a : Nat) (bs : Bytes) : (s.domePut a bs).scrubAt = s.scrubAt := rfl
@[simp] theorem State.domePut_counters (s : State) (a : Nat) (bs : Bytes) : (s.domePut a bs).counters = s.counters := rfl
@[simp] theorem State.domePut_ctrResets (s : State) (a : Nat) (bs : Bytes) : (s.domePut a bs).ctrResets = s.ctrResets := rfl
@[simp] theorem State.domePut_domeOff (s : State) (a : Nat) (bs : Bytes) : (s.domePut a bs).domeOff = s.domeOff := rfl
@[simp] theorem State.domePut_zeroFill (s : State) (a : Nat) (bs : Bytes) : (s.domePut a bs).zeroFill = s.zeroFill := rfl
@[simp] theorem State.domePut_edges (s : State) (a : Nat) (bs : Bytes) : (s.domePut a bs).edges = s.edges := rfl
@[simp] theorem State.domePut_homePtr (s : State) (a : Nat) (bs : Bytes) : (s.domePut a bs).homePtr = s.homePtr := rfl
@[simp] theorem State.domePut_remPtr (s : State) (a : Nat) (bs : Bytes) : (s.domePut a bs).remPtr = s.remPtr := rfl
@[simp] theorem State.domePut_domeQ (s : State) (a : Nat) (bs : Bytes) : (s.domePut a bs).domeQ = s.domeQ := rfl
@[simp] theorem State.domePut_biWaits (s : State) (a : Nat) (bs : Bytes) : (s.domePut a bs).biWaits = s.biWaits := rfl
@[simp] theorem State.domePut_asks (s : State) (a : Nat) (bs : Bytes) : (s.domePut a bs).asks = s.asks := rfl
@[simp] theorem State.domePut_turns (s : State) (a : Nat) (bs : Bytes) : (s.domePut a bs).turns = s.turns := rfl
@[simp] theorem State.domePut_prune (s : State) (a : Nat) (bs : Bytes) : (s.domePut a bs).prune = s.prune := rfl
@[simp] theorem State.domePut_pruneBusy (s : State) (a : Nat) (bs : Bytes) : (s.domePut a bs).pruneBusy = s.pruneBusy := rfl
@[simp] theorem State.domePut_halCmd (s : State) (a : Nat) (bs : Bytes) : (s.domePut a bs).halCmd = s.halCmd := rfl
@[simp] theorem State.domePut_colCmd (s : State) (a : Nat) (bs : Bytes) : (s.domePut a bs).colCmd = s.colCmd := rfl
@[simp] theorem State.domePut_fqNext (s : State) (a : Nat) (bs : Bytes) : (s.domePut a bs).fqNext = s.fqNext := rfl
@[simp] theorem State.domePut_fetches (s : State) (a : Nat) (bs : Bytes) : (s.domePut a bs).fetches = s.fetches := rfl
@[simp] theorem State.domePut_rdCurr (s : State) (a : Nat) (bs : Bytes) : (s.domePut a bs).rdCurr = s.rdCurr := rfl
@[simp] theorem State.domePut_ports (s : State) (a : Nat) (bs : Bytes) : (s.domePut a bs).ports = s.ports := rfl
@[simp] theorem State.domePut_inject (s : State) (a : Nat) (bs : Bytes) : (s.domePut a bs).inject = s.inject := rfl
@[simp] theorem State.domePut_outbox (s : State) (a : Nat) (bs : Bytes) : (s.domePut a bs).outbox = s.outbox := rfl
@[simp] theorem State.domePut_delivery (s : State) (a : Nat) (bs : Bytes) : (s.domePut a bs).delivery = s.delivery := rfl
@[simp] theorem State.domePut_flowCnt (s : State) (a : Nat) (bs : Bytes) : (s.domePut a bs).flowCnt = s.flowCnt := rfl
@[simp] theorem State.domePut_laserDark (s : State) (a : Nat) (bs : Bytes) : (s.domePut a bs).laserDark = s.laserDark := rfl
@[simp] theorem State.domePut_cxl (s : State) (a : Nat) (bs : Bytes) : (s.domePut a bs).cxl = s.cxl := rfl
@[simp] theorem State.domePut_sessions (s : State) (a : Nat) (bs : Bytes) : (s.domePut a bs).sessions = s.sessions := rfl
@[simp] theorem State.domePut_deferred (s : State) (a : Nat) (bs : Bytes) : (s.domePut a bs).deferred = s.deferred := rfl
@[simp] theorem State.domePut_running (s : State) (a : Nat) (bs : Bytes) : (s.domePut a bs).running = s.running := rfl
@[simp] theorem State.domePut_mgmtTurn (s : State) (a : Nat) (bs : Bytes) : (s.domePut a bs).mgmtTurn = s.mgmtTurn := rfl
@[simp] theorem State.domePut_mctpEid (s : State) (a : Nat) (bs : Bytes) : (s.domePut a bs).mctpEid = s.mctpEid := rfl
@[simp] theorem State.domePut_answers (s : State) (a : Nat) (bs : Bytes) : (s.domePut a bs).answers = s.answers := rfl
@[simp] theorem State.domePut_dests (s : State) (a : Nat) (bs : Bytes) : (s.domePut a bs).dests = s.dests := rfl
@[simp] theorem State.domePut_faultQ (s : State) (a : Nat) (bs : Bytes) : (s.domePut a bs).faultQ = s.faultQ := rfl
@[simp] theorem State.domePut_cases (s : State) (a : Nat) (bs : Bytes) : (s.domePut a bs).cases = s.cases := rfl
@[simp] theorem State.domePut_transients (s : State) (a : Nat) (bs : Bytes) : (s.domePut a bs).transients = s.transients := rfl
@[simp] theorem State.domePut_fencedBerths (s : State) (a : Nat) (bs : Bytes) : (s.domePut a bs).fencedBerths = s.fencedBerths := rfl
@[simp] theorem State.domePut_fencedTowers (s : State) (a : Nat) (bs : Bytes) : (s.domePut a bs).fencedTowers = s.fencedTowers := rfl
@[simp] theorem State.domePut_fencedEdges (s : State) (a : Nat) (bs : Bytes) : (s.domePut a bs).fencedEdges = s.fencedEdges := rfl
@[simp] theorem State.domePut_fencedSpire (s : State) (a : Nat) (bs : Bytes) : (s.domePut a bs).fencedSpire = s.fencedSpire := rfl
@[simp] theorem State.domePut_slices (s : State) (a : Nat) (bs : Bytes) : (s.domePut a bs).slices = s.slices := rfl
@[simp] theorem State.domePut_sliceNext (s : State) (a : Nat) (bs : Bytes) : (s.domePut a bs).sliceNext = s.sliceNext := rfl
@[simp] theorem State.domePut_testing (s : State) (a : Nat) (bs : Bytes) : (s.domePut a bs).testing = s.testing := rfl
@[simp] theorem State.domePut_power (s : State) (a : Nat) (bs : Bytes) : (s.domePut a bs).power = s.power := rfl
@[simp] theorem State.domePut_boot (s : State) (a : Nat) (bs : Bytes) : (s.domePut a bs).boot = s.boot := rfl
@[simp] theorem State.domePut_pwrgd (s : State) (a : Nat) (bs : Bytes) : (s.domePut a bs).pwrgd = s.pwrgd := rfl
@[simp] theorem State.domePut_rstN (s : State) (a : Nat) (bs : Bytes) : (s.domePut a bs).rstN = s.rstN := rfl
@[simp] theorem State.domePut_faultN (s : State) (a : Nat) (bs : Bytes) : (s.domePut a bs).faultN = s.faultN := rfl
@[simp] theorem State.domePut_tripN (s : State) (a : Nat) (bs : Bytes) : (s.domePut a bs).tripN = s.tripN := rfl
@[simp] theorem State.domePut_flash (s : State) (a : Nat) (bs : Bytes) : (s.domePut a bs).flash = s.flash := rfl
@[simp] theorem State.domePut_riskHist (s : State) (a : Nat) (bs : Bytes) : (s.domePut a bs).riskHist = s.riskHist := rfl
@[simp] theorem State.domePut_riskShort (s : State) (a : Nat) (bs : Bytes) : (s.domePut a bs).riskShort = s.riskShort := rfl
@[simp] theorem State.domePut_straps (s : State) (a : Nat) (bs : Bytes) : (s.domePut a bs).straps = s.straps := rfl
@[simp] theorem State.domePut_bootFaults (s : State) (a : Nat) (bs : Bytes) : (s.domePut a bs).bootFaults = s.bootFaults := rfl
@[simp] theorem State.domePut_puf (s : State) (a : Nat) (bs : Bytes) : (s.domePut a bs).puf = s.puf := rfl
@[simp] theorem State.domePut_identity (s : State) (a : Nat) (bs : Bytes) : (s.domePut a bs).identity = s.identity := rfl
@[simp] theorem State.domePut_platKey (s : State) (a : Nat) (bs : Bytes) : (s.domePut a bs).platKey = s.platKey := rfl
@[simp] theorem State.domePut_tap (s : State) (a : Nat) (bs : Bytes) : (s.domePut a bs).tap = s.tap := rfl
@[simp] theorem State.domePut_out (s : State) (a : Nat) (bs : Bytes) : (s.domePut a bs).out = s.out := rfl

/-! The field an update writes. -/

@[simp] theorem State.setSpar_spars (s : State) (i : Nat) (x : Spar) : (s.setSpar i x).spars = mapSet {} s.spars i x := rfl
@[simp] theorem State.setPart_parts (s : State) (q : Nat) (x : Part) : (s.setPart q x).parts = mapSet {} s.parts q x := rfl
@[simp] theorem State.setPort_ports (s : State) (p : Nat) (x : Port) : (s.setPort p x).ports = mapSet {} s.ports p x := rfl
@[simp] theorem State.setEdge_edges (s : State) (e : Nat) (x : Edge) : (s.setEdge e x).edges = mapSet {} s.edges e x := rfl
@[simp] theorem State.odSet_od (s : State) (q i sub v : Nat) :
    (s.odSet q i sub v).od = mapSet (odDefault q i sub) s.od (odKey q i sub) v := rfl
@[simp] theorem State.emit_out (s : State) (kind addr : Nat) (data : Bytes) (flag : Nat) :
    (s.emit kind addr data flag).out = s.out ++ [{ kind := kind, addr := addr, data := data, flag := flag }] := rfl
@[simp] theorem State.raise_faultQ (s : State) (code source part isl : Nat) (payload : Bytes) :
    (s.raise code source part isl payload).faultQ = s.faultQ ++ [faultRecord s code source part isl payload] := rfl
@[simp] theorem State.setPoison_poison (s : State) (line : Nat) (v : Bool) :
    (s.setPoison line v).poison = mapSet false s.poison line v := rfl
@[simp] theorem State.domePut_dome (s : State) (a : Nat) (bs : Bytes) : (s.domePut a bs).dome = memWrite s.dome a bs := rfl

end Sys2Proof.Machine
end

