-- ==== Sys2Proof/Laws/Ops.lean ====
section
/-! SUPPORT. The laws of the shared operations: reading back what was set, dome memory where nothing is poisoned or held, and
what a unit's event can do. -/

namespace Sys2Proof.Machine

open Sys2Proof

/-! Reading back what was set. -/

@[simp] theorem State.spar_setSpar_self (s : State) (i : Nat) (x : Spar) : (s.setSpar i x).spar i = x := mapGet_mapSet_self ({} : Spar) s.spars i x

theorem State.spar_setSpar_other (s : State) {i j : Nat} (x : Spar) (h : i ≠ j) : (s.setSpar i x).spar j = s.spar j :=
  mapGet_mapSet_ne ({} : Spar) {} s.spars x h

@[simp] theorem State.spar_modSpar_self (s : State) (i : Nat) (f : Spar → Spar) : (s.modSpar i f).spar i = f (s.spar i) :=
  s.spar_setSpar_self i _

theorem State.spar_modSpar_other (s : State) {i j : Nat} (f : Spar → Spar) (h : i ≠ j) : (s.modSpar i f).spar j = s.spar j :=
  s.spar_setSpar_other _ h

@[simp] theorem State.part_setPart_self (s : State) (q : Nat) (x : Part) : (s.setPart q x).part q = x := mapGet_mapSet_self ({} : Part) s.parts q x

theorem State.part_setPart_other (s : State) {q r : Nat} (x : Part) (h : q ≠ r) : (s.setPart q x).part r = s.part r :=
  mapGet_mapSet_ne ({} : Part) {} s.parts x h

@[simp] theorem State.part_modPart_self (s : State) (q : Nat) (f : Part → Part) : (s.modPart q f).part q = f (s.part q) :=
  s.part_setPart_self q _

theorem State.part_modPart_other (s : State) {q r : Nat} (f : Part → Part) (h : q ≠ r) : (s.modPart q f).part r = s.part r :=
  s.part_setPart_other _ h

@[simp] theorem State.port_setPort_self (s : State) (p : Nat) (x : Port) : (s.setPort p x).port p = x := mapGet_mapSet_self ({} : Port) s.ports p x

theorem State.port_setPort_other (s : State) {p r : Nat} (x : Port) (h : p ≠ r) : (s.setPort p x).port r = s.port r :=
  mapGet_mapSet_ne ({} : Port) {} s.ports x h

@[simp] theorem State.port_modPort_self (s : State) (p : Nat) (f : Port → Port) : (s.modPort p f).port p = f (s.port p) :=
  s.port_setPort_self p _

@[simp] theorem State.edge_setEdge_self (s : State) (e : Nat) (x : Edge) : (s.setEdge e x).edge e = x := mapGet_mapSet_self ({} : Edge) s.edges e x

@[simp] theorem State.odGet_odSet_self (s : State) (q i sub v : Nat) : (s.odSet q i sub v).odGet q i sub = v :=
  mapGet_mapSet_self _ s.od _ v

theorem State.odGet_odSet_other (s : State) {q i sub r j t : Nat} (v : Nat) (h : odKey q i sub ≠ odKey r j t) :
    (s.odSet q i sub v).odGet r j t = s.odGet r j t := mapGet_mapSet_ne _ _ s.od v h

@[simp] theorem State.odGet_odAdd_self (s : State) (q i sub n : Nat) :
    (s.odAdd q i sub n).odGet q i sub = (s.odGet q i sub + n) % 2 ^ 64 := s.odGet_odSet_self q i sub _

theorem State.odGet_odAdd_other (s : State) {q i sub r j t : Nat} (n : Nat) (h : odKey q i sub ≠ odKey r j t) :
    (s.odAdd q i sub n).odGet r j t = s.odGet r j t := s.odGet_odSet_other _ h

@[simp] theorem State.blobGet_blobSet_self (s : State) (q i sub : Nat) (v : Bytes) : (s.blobSet q i sub v).blobGet q i sub = v :=
  mapGet_mapSet_self _ s.blobs _ v

/-! Memories stay in their canonical form. -/

theorem State.dome_putLine_wf {s : State} (h : Memory.wf s.dome) (l o : Nat) (bs : Bytes) : Memory.wf (s.putLine l o bs).1.dome := by
  unfold State.putLine
  split
  · exact memWf_write h _ _
  · split
    · exact h
    · exact memWf_write h _ _

theorem State.dome_putLines_wf (k : Nat) {s : State} (h : Memory.wf s.dome) (a : Nat) (bs : Bytes) :
    Memory.wf (State.putLines k s a bs).1.dome := by
  induction k generalizing s a bs with
  | zero => exact h
  | succ k ih =>
    unfold State.putLines
    split
    · exact h
    · exact ih (State.dome_putLine_wf h _ _ _) _ _

theorem State.dome_domeWrite_wf {s : State} (h : Memory.wf s.dome) (a : Nat) (bs : Bytes) : Memory.wf (s.domeWrite a bs).1.dome :=
  State.dome_putLines_wf _ h a bs

/-- Memory right after reset lists nothing, and so has the canonical form. -/
theorem reset_memory_wf : Memory.wf State.reset.dome := mapWf_nil _

/-! Dome memory where no line is poisoned (10 R310): a write stores all of its bytes and nothing else. -/

theorem memWrite_append (m : List Host.Cell) (a : Nat) (x y : Bytes) :
    memWrite m a (x ++ y) = memWrite (memWrite m a x) (a + x.length) y := by
  induction x generalizing m a with
  | nil => rfl
  | cons b r ih => simpa [memWrite, Nat.add_assoc, Nat.add_comm 1] using ih (memSetByte m a b) (a + 1)

theorem State.putLine_clean {s : State} (h : s.poison = []) (l o : Nat) {bs : Bytes} (ho : o + bs.length ≤ 64) :
    s.putLine l o bs = (s.domePut (l * 64 + o) bs, none) := by
  have hp : ∀ (t : State), t.poison = [] → ∀ n, t.setPoison n false = t := by
    intro t ht n
    have : mapSet false t.poison n false = t.poison := by simp [mapSet, ht]
    simp [State.setPoison, this]
  unfold State.putLine
  split
  · next hl =>
    have : o = 0 := by omega
    subst this
    rw [hp _ (by simpa using h)]
    rfl
  · simp [h, mapGet]

theorem State.putLines_clean (k : Nat) {s : State} (h : s.poison = []) (a : Nat) (bs : Bytes) (hk : a % 64 + bs.length ≤ 64 * k) :
    State.putLines k s a bs = (s.domePut a bs, []) := by
  induction k generalizing s a bs with
  | zero =>
    have : bs = [] := List.eq_nil_of_length_eq_zero (by omega)
    subst this
    rfl
  | succ k ih =>
    unfold State.putLines
    split
    · next hb => subst hb; rfl
    · have hl : (bs.take (64 - a % 64)).length ≤ 64 - a % 64 := by simp
      have ha : lineOf a * 64 + a % 64 = a := by unfold lineOf; omega
      have hm : a % 64 < 64 := Nat.mod_lt _ (by decide)
      simp only []
      rw [State.putLine_clean h _ _ (by omega), ha]
      rw [ih (s := s.domePut a (bs.take (64 - a % 64))) (by simpa using h) (a + (64 - a % 64)) (bs.drop (64 - a % 64)) (by
        have : (a + (64 - a % 64)) % 64 = 0 := by omega
        simp only [List.length_drop]
        omega)]
      by_cases hs : bs.length ≤ 64 - a % 64
      · simp [List.drop_eq_nil_of_le hs, List.take_of_length_le hs, State.domePut, memWrite]
      · have he : memWrite s.dome a bs = memWrite (memWrite s.dome a (bs.take (64 - a % 64))) (a + (64 - a % 64)) (bs.drop (64 - a % 64)) := by
          have := memWrite_append s.dome a (bs.take (64 - a % 64)) (bs.drop (64 - a % 64))
          rw [List.take_append_drop] at this
          rw [this, List.length_take, Nat.min_eq_left (by omega)]
        simp [State.domePut, ← he]

/-- With no line poisoned a write stores its bytes, changes nothing else, and reports no line. -/
theorem State.domeWrite_clean {s : State} (h : s.poison = []) (a : Nat) (bs : Bytes) : s.domeWrite a bs = (s.domePut a bs, []) :=
  State.putLines_clean _ h a bs (by have := Nat.mod_lt a (show 0 < 64 by decide); omega)

/-- An engine's writes with no line poisoned. -/
theorem State.engineWrite_clean {s : State} (h : s.poison = []) (q : Nat) (ws : List (Nat × Bytes)) :
    s.engineWrite q ws = { s with dome := ws.foldl (fun m w => memWrite m w.1 w.2) s.dome } := by
  have key : ∀ (l : List (Nat × Bytes)) (t : State), t.poison = [] →
      l.foldl (fun (acc : State × List Nat) w => ((acc.1.domeWrite w.1 w.2).1, acc.2 ++ (acc.1.domeWrite w.1 w.2).2)) (t, []) =
        ({ t with dome := l.foldl (fun m w => memWrite m w.1 w.2) t.dome }, []) := by
    intro l
    induction l with
    | nil => intro t _; rfl
    | cons w r ih =>
      intro t ht
      simp only [List.foldl_cons, State.domeWrite_clean ht, List.append_nil]
      exact ih (t.domePut w.1 w.2) (by simpa using ht)
  unfold State.engineWrite
  simp only [key ws s h]
  rfl

/-- An access that needs no slot at any port leaves no ask. -/
@[simp] theorem State.takeAsk_none (s : State) (unit : Nat) {rs : List (Nat × Nat)} (h : portNeed rs = []) : s.takeAsk unit rs = s := by
  simp [State.takeAsk, h]

/-- Taking an ask changes the asks and the waits for back-invalidation alone. -/
theorem State.takeAsk_frame (s : State) (unit : Nat) (rs : List (Nat × Nat)) :
    ∃ as ws, s.takeAsk unit rs = { s with asks := as, biWaits := ws } := by
  unfold State.takeAsk
  split
  · exact ⟨s.asks, s.biWaits, rfl⟩
  · exact ⟨_, _, rfl⟩

/-- The access is served at once: every dome grants, its unit is not cut off, the host holds no line, and its slots are granted
(10 R316, R317, R320). -/
theorem State.portGate_open {s : State} {unit : Nat} {rs : List (Nat × Nat)} (hd : ∀ d, s.domeHeld d = false) (ht : s.cxl.tracker = [])
    (hc : s.unitCut unit rs = false) (hg : s.granted unit rs = true) (q : Nat) (no k : State → State) :
    s.portGate unit q rs no k = k (s.takeAsk unit rs) := by
  have hl : (rs.flatMap fun r => s.hostLines r.1 r.2) = [] := List.flatMap_eq_nil_iff.2 fun r _ => by simp [State.hostLines, ht]
  unfold State.portGate
  by_cases h : (portNeed rs).isEmpty
  · simp [h, State.takeAsk]
  · simp [h, hd, hl, uniq, hc, hg]

/-- A cut-off unit's access completes without effect (10 R320). -/
theorem State.portGate_cut {s : State} {unit : Nat} {rs : List (Nat × Nat)} (hd : ∀ d, s.domeHeld d = false)
    (hn : portNeed rs ≠ []) (hc : s.unitCut unit rs = true) (q : Nat) (no k : State → State) :
    s.portGate unit q rs no k = no (s.takeAsk unit rs) := by
  unfold State.portGate
  simp [hn, hd, hc]

/-- An engine's operation runs at once where nothing stands between it and dome memory. -/
theorem State.engineRun_open {s : State} {unit : Nat} {reads writes : List (Nat × Nat)} (hd : ∀ d, s.domeHeld d = false)
    (ht : s.cxl.tracker = []) (hp : s.poison = []) (hc : s.unitCut unit (reads ++ writes) = false)
    (hg : s.granted unit (reads ++ writes) = true) (q : Nat) (bad k : State → State) :
    s.engineRun unit q reads writes bad k = k (s.takeAsk unit (reads ++ writes)) := by
  unfold State.engineRun
  rw [State.portGate_open hd ht hc hg]
  have hp' : (s.takeAsk unit (reads ++ writes)).poison = [] := by
    obtain ⟨as, ws, h⟩ := s.takeAsk_frame unit (reads ++ writes)
    simp [h, hp]
  have : (reads.flatMap fun r => (s.takeAsk unit (reads ++ writes)).poisonLines r.1 r.2) = [] :=
    List.flatMap_eq_nil_iff.2 fun r _ => by simp [State.poisonLines, hp']
  simp [State.engineRead, this, uniq]

/-! Delivered packets and unit events. -/

/-- The oldest delivered packet is taken where it is of the kind asked for. -/
theorem State.takeDelivered_head {s : State} {k : Packet} {r : List Packet} {p : Packet → Bool} (h : s.delivery = k :: r) (hp : p k = true) :
    s.takeDelivered p = some (k, { s with delivery := r }) := by
  simp [State.takeDelivered, h, List.findIdx?_cons, hp]

/-- A unit of the spire in service acts. -/
theorem spireEvent_up {s : State} {k : Nat} (f : State → State) (h : s.live = true) (hu : s.unitOut (spireUnit k) = false) :
    spireEvent k s f = .next (f s) := by simp [spireEvent, liveEvent, h, hu]

/-- An event of a spire unit answers a next state: what the unit does, or the state as it was. -/
theorem spireEvent_cases (s : State) (k : Nat) (f : State → State) : spireEvent k s f = .next (f s) ∨ spireEvent k s f = .next s := by
  unfold spireEvent liveEvent
  split <;> simp
  by_cases h : s.unitOut (spireUnit k) = true <;> simp [h]

end Sys2Proof.Machine
end

