-- ==== Sys2Proof/WellFormed.lean ====
section
/-! DEFINITION. Which terms of `Instr` name a command of the block: every operand within the range the spec gives it.
The meanings are total; a sender of commands sends well-formed ones. -/

namespace Sys2Proof

/-- A logical spar, 128n + s (01 R16). -/
def sparOk (i : Nat) : Bool := i < 1024
/-- A partition, 0 to 3 (01 R28). -/
def partOk (q : Nat) : Bool := q < 4
/-- A tower (01 R13). -/
def towerOk (t : Nat) : Bool := t < 8
/-- A dome (10 R297). -/
def domeOk (d : Nat) : Bool := d < 16
/-- A fabric port P00 to P35 (11 R323). -/
def portOk (p : Nat) : Bool := p < 36
/-- A rail group (15 R445). -/
def railOk (g : Nat) : Bool := g < 4
/-- A barrier group (03 R98). -/
def groupOk (g : Nat) : Bool := g < 16
/-- An accumulator bank (04 R136). -/
def bankOk (b : Nat) : Bool := b < 32
/-- An inbound endpoint (03 R92). -/
def endpointOk (e : Nat) : Bool := e < 32
/-- A virtual lane (11 R332). -/
def laneOk (v : Nat) : Bool := v < 4
/-- An edge of Table 10-6. -/
def edgeOk (e : Nat) : Bool := e ≤ 16 || (0x20 ≤ e && e < 0x44) || e = 0x50
/-- A requester of an edge (Table 10-6). -/
def requesterOk (r : Nat) : Bool := r < 16
/-- A laser input (17 R497). -/
def laserOk (k : Nat) : Bool := k < 12
/-- A line of dome memory (10 R306). -/
def lineOk (l : Nat) : Bool := l < 2 ^ 35
/-- A window segment, 0 to 15 (10 R315). -/
def segOk (i : Nat) : Bool := i < 16
/-- A monitored input (15 R465). -/
def inputOk (i : Nat) : Bool := i < 5
/-- An island of Table 15-4. -/
def islandOk (k : Nat) : Bool := k < 1104
/-- An MSI-X vector (12 R377). -/
def vecOk (v : Nat) : Bool := v < 64
/-- Size of a memory request to a register: 4 and 8 are served (12 R362). -/
def sizeOk (n : Nat) : Bool := n = 1 || n = 2 || n = 4 || n = 8
/-- LOG2 of the notice ring, a 5-bit field (Table 12-7). -/
def log2Ok (n : Nat) : Bool := n < 32
/-- An offset in BAR0 (Table 12-4). -/
def offOk (o : Nat) : Bool := o < 0x200000
/-- An object key, index and subindex (13 R384). -/
def objOk (o : Nat) : Bool := o < 2 ^ 24
/-- Codewords as they arrive: two flits of 64 data bytes and a control word each, and 16 parity bytes (11 R325). -/
def lineWordsOk (errs : List Nat) (data : List (List (BitVec 8))) (ctl crc : List (BitVec 32)) (parity : List (List (BitVec 8))) :
    Bool :=
  data.length = 2 * errs.length && ctl.length = data.length && crc.length = data.length && parity.length = errs.length &&
  data.all (fun f => f.length = 64) && parity.all fun b => b.length = 16
/-- The start-up values of the PUF's SRAM, 8 KiB (16 R483). -/
def pufOk (b : List (BitVec 8)) : Bool := b.length = 8192
/-- An 8-bit number. -/
def u8Ok (v : Nat) : Bool := v < 2 ^ 8
/-- A 16-bit number. -/
def u16Ok (v : Nat) : Bool := v < 2 ^ 16
/-- A 32-bit number. -/
def u32Ok (v : Nat) : Bool := v < 2 ^ 32
/-- A 64-bit number. -/
def u64Ok (v : Nat) : Bool := v < 2 ^ 64

/-- A requester of the dictionary (13 Table 13-4). -/
def reqOk : Requester → Bool
  | .cxl => true
  | .shroud lid => u16Ok lid
  | .mctp eid => u8Ok eid

/-- A Merec request (13 Table 13-5). -/
def merecOk (m : Merec) : Bool :=
  u16Ok m.token && u16Ok m.index && u8Ok m.sub && u8Ok m.qsel && u32Ok m.offset && u32Ok m.length

/-- What the error-correcting code finds: dies 0 to 15, two of them different (10 Table 10-3). -/
def errOk : LineErr → Bool
  | .oneDie d => d < 16
  | .twoDies a b => a < 16 && b < 16 && a != b
  | _ => true


/-- A TRAIN message: the pool of each of the four lanes (11 R329, R332). -/
def trainOk (t : TrainMsg) : Bool := u16Ok t.lid && u8Ok t.port && t.pools.length = 4

/-- Every operand of the command lies in its range. -/
def Instr.wf : Instr → Bool
  | .scAdd sp _ => sparOk sp
  | .scSub sp _ => sparOk sp
  | .scAnd sp _ => sparOk sp
  | .scOr sp _ => sparOk sp
  | .scXor sp _ => sparOk sp
  | .scShl sp _ => sparOk sp
  | .scShr sp _ => sparOk sp
  | .scSar sp _ => sparOk sp
  | .scMin sp _ => sparOk sp
  | .scMax sp _ => sparOk sp
  | .scCmp sp _ => sparOk sp
  | .scMul sp _ => sparOk sp
  | .scMulh sp _ => sparOk sp
  | .scDiv sp _ => sparOk sp
  | .scRem sp _ => sparOk sp
  | .scLi sp _ => sparOk sp
  | .br sp _ => sparOk sp
  | .brNz sp _ => sparOk sp
  | .brZ sp _ => sparOk sp
  | .brLink sp _ => sparOk sp
  | .scCfg sp _ => sparOk sp
  | .scCyc sp _ => sparOk sp
  | .scHalt sp _ => sparOk sp
  | .haltComplete sp => sparOk sp
  | .sequentialFetchOverrun sp => sparOk sp
  | .adAdd sp _ => sparOk sp
  | .adIncm sp _ => sparOk sp
  | .adLi sp _ => sparOk sp
  | .adFroms sp _ => sparOk sp
  | .adTos sp _ => sparOk sp
  | .lpBegin sp _ => sparOk sp
  | .lpBreak sp _ => sparOk sp
  | .lpGet sp _ => sparOk sp
  | .ldS sp _ => sparOk sp
  | .stS sp _ => sparOk sp
  | .ldV sp _ => sparOk sp
  | .stV sp _ => sparOk sp
  | .stVt sp _ => sparOk sp
  | .ldP sp _ => sparOk sp
  | .stP sp _ => sparOk sp
  | .ldM sp _ => sparOk sp
  | .stM sp _ => sparOk sp
  | .ldT sp _ => sparOk sp
  | .mld sp _ => sparOk sp
  | .mmx sp _ => sparOk sp
  | .mew sp _ => sparOk sp
  | .mwb sp _ => sparOk sp
  | .mal sp _ => sparOk sp
  | .mfr sp _ => sparOk sp
  | .arrayInstructionStart sp => sparOk sp
  | .arrayRowLands sp => sparOk sp
  | .stationaryLoadComplete sp => sparOk sp
  | .stagedTileMove sp => sparOk sp
  | .malClear sp => sparOk sp
  | .mwbReadStart sp => sparOk sp
  | .vaAdd sp _ => sparOk sp
  | .vaSub sp _ => sparOk sp
  | .vaMul sp _ => sparOk sp
  | .vaFma sp _ => sparOk sp
  | .vaMin sp _ => sparOk sp
  | .vaMax sp _ => sparOk sp
  | .vaCmp sp _ => sparOk sp
  | .vaSel sp _ => sparOk sp
  | .vaAnd sp _ => sparOk sp
  | .vaOr sp _ => sparOk sp
  | .vaXor sp _ => sparOk sp
  | .vaMov sp _ => sparOk sp
  | .vbSfu sp _ => sparOk sp
  | .vbCvt sp _ => sparOk sp
  | .vbWid sp _ => sparOk sp
  | .vbRed sp _ => sparOk sp
  | .vbPerm sp _ => sparOk sp
  | .vbBcast sp _ => sparOk sp
  | .vbAcc sp _ => sparOk sp
  | .vbPlog sp _ => sparOk sp
  | .tgGather sp _ => sparOk sp
  | .tgUnperm sp _ => sparOk sp
  | .tkScatter sp _ => sparOk sp
  | .tkScatadd sp _ => sparOk sp
  | .tkPerm sp _ => sparOk sp
  | .tkRowfeed sp _ => sparOk sp
  | .tkClaim sp _ => sparOk sp
  | .tkClaimReset sp _ => sparOk sp
  | .tkClaimQuery sp _ => sparOk sp
  | .tkDone sp _ => sparOk sp
  | .tackleOperationStart sp => sparOk sp
  | .indexBlockValidated sp => sparOk sp
  | .conflictQueueServe sp bank => sparOk sp && bankOk bank
  | .workCounterOp sp => sparOk sp
  | .counterResultArrival sp => sparOk sp
  | .txDld sp _ => sparOk sp
  | .txDst sp _ => sparOk sp
  | .txDstAtomic sp _ => sparOk sp
  | .txSend sp _ => sparOk sp
  | .txRecv sp _ => sparOk sp
  | .channelBytesArrive sp ep _ => sparOk sp && endpointOk ep
  | .txFqWrite sp _ => sparOk sp
  | .txFqWriteArrival sp _ => sparOk sp
  | .txFqRead sp _ => sparOk sp
  | .txIfill sp _ => sparOk sp
  | .ifillComplete sp => sparOk sp
  | .txChtab sp _ => sparOk sp
  | .txWait sp _ => sparOk sp
  | .transferRetire sp => sparOk sp
  | .fcLocal sp _ => sparOk sp
  | .fcPhase sp _ => sparOk sp
  | .barrierRelease q g => partOk q && groupOk g
  | .phaseTimeout sp => sparOk sp
  | .startJob q val token => partOk q && u64Ok val && u16Ok token
  | .jobFillComplete q => partOk q
  | .stopJob q val token => partOk q && u64Ok val && u16Ok token
  | .clearRangeCounters q val token => partOk q && u64Ok val && u16Ok token
  | .clearArrayCounters q val token => partOk q && u64Ok val && u16Ok token
  | .clearTackleCounters q val token => partOk q && u64Ok val && u16Ok token
  | .startPruning q val token => partOk q && u64Ok val && u16Ok token
  | .pruningRequestComplete t => towerOk t
  | .clearPruningCounters q val token => partOk q && u64Ok val && u16Ok token
  | .edgeArbitrate e _ _ => edgeOk e
  | .starve e r _ => edgeOk e && requesterOk r
  | .grantOverhold e => edgeOk e
  | .domeLineRead line err _ => lineOk line && errOk err
  | .patrolScrubRead d err => domeOk d && errOk err
  | .scrubPeriodWrite d val => domeOk d && u64Ok val
  | .turnTableWrite t _ _ => towerOk t
  | .arbiterSettingWrite e _ val => edgeOk e && u64Ok val
  | .reEnable e val token => edgeOk e && u64Ok val && u16Ok token
  | .windowSegmentWrite i val => segOk i && u64Ok val
  | .openBatch t => towerOk t
  | .unitSelectionComplete q tag gen t => partOk q && u16Ok tag && u8Ok gen && towerOk t
  | .countingFrame => true
  | .assignmentComplete q tag gen => partOk q && u16Ok tag && u8Ok gen
  | .dispatchRowArrival => true
  | .returnRows t => towerOk t
  | .returnRowArrival => true
  | .cancel t => towerOk t
  | .cancelBatch q val token => partOk q && u64Ok val && u16Ok token
  | .cancelFrame => true
  | .actmask t => towerOk t
  | .fence t => towerOk t
  | .tierFetchLine _ _ _ => true
  | .clearRoutingCounters q val token => partOk q && u64Ok val && u16Ok token
  | .reduceScatter q => partOk q
  | .allGather q => partOk q
  | .allReduce q => partOk q
  | .allToAll q => partOk q
  | .localPass q => partOk q
  | .normReduction q => partOk q
  | .collectiveDataFrame => true
  | .collectiveAbortFrame => true
  | .normContributionFrame => true
  | .normTotalsFrame => true
  | .update q => partOk q
  | .startUpdate q val token => partOk q && u64Ok val && u16Ok token
  | .updateScanComplete q => partOk q
  | .voteFrame => true
  | .walkerGroupComplete q => partOk q
  | .mixdone q => partOk q
  | .updateCommit q => partOk q
  | .abandonUpdate q val token => partOk q && u64Ok val && u16Ok token
  | .clearBoomCounters q val token => partOk q && u64Ok val && u16Ok token
  | .packetArrival p errs data ctl crc parity => portOk p && lineWordsOk errs data ctl crc parity
  | .fabricDeadline p seq delay => portOk p && u16Ok seq && u64Ok delay
  | .linkStatus p _ ack _ _ => portOk p && u16Ok ack
  | .ackTimeout p _ => portOk p
  | .train p msg _ => portOk p && trainOk msg
  | .auditTimer p => portOk p
  | .audit p => portOk p
  | .auditAnswer p _ _ _ => portOk p
  | .laserLoss k => laserOk k
  | .laserRestore k _ => laserOk k
  | .packetForward p vl => portOk p && laneOk vl
  | .portEnable p val token _ => portOk p && u64Ok val && u16Ok token
  | .portDisable p val token => portOk p && u64Ok val && u16Ok token
  | .remoteWriteRequest => true
  | .remoteReadRequest => true
  | .remoteAnswer => true
  | .routeTableWrite _ i mask => u8Ok i && u64Ok mask
  | .perstNAssert => true
  | .perstNRelease => true
  | .hostLink => true
  | .configRequest _ _ addr _ => u64Ok addr
  | .cxlMemRead _ hpa _ => u64Ok hpa
  | .cxlMemWrite _ hpa _ _ => u64Ok hpa
  | .birsp line => lineOk line
  | .hostSnoop hpa => u64Ok hpa
  | .hostDeadline _ delay => u64Ok delay
  | .functionLevelReset => true
  | .hdmDecoderCommit base size _ _ => u64Ok base && u64Ok size
  | .ideFail _ => true
  | .doorbell _ _ => true
  | .mailboxAnswerReady => true
  | .mailboxAckTimeout delay => u64Ok delay
  | .ringEnable log2 _ => log2Ok log2
  | .ringDisable log2 _ => log2Ok log2
  | .ringConsWrite _ => true
  | .msixUnmask vec => vecOk vec
  | .registerWrite off size _ => offOk off && sizeOk size
  | .doeRequest _ _ _ => true
  | .spdmRequest _ _ => true
  | .spdmConnectionIdle lid => u16Ok lid
  | .read rq m => reqOk rq && merecOk m
  | .write rq m => reqOk rq && merecOk m
  | .readSegment rq m => reqOk rq && merecOk m
  | .writeSegment rq m => reqOk rq && merecOk m
  | .readRecord rq m => reqOk rq && merecOk m
  | .describe rq m => reqOk rq && merecOk m
  | .deferredAnswer rq => reqOk rq
  | .dictionaryDeadline delay => u64Ok delay
  | .sessionTimeout rq q obj => reqOk rq && partOk q && objOk obj
  | .applyPlan val token => u64Ok val && u16Ok token
  | .applyPreload rq q val token => reqOk rq && partOk q && u64Ok val && u16Ok token
  | .faultRecordArrival _ => true
  | .targetedTestStart unit => u32Ok unit
  | .testStartTimeout unit => u32Ok unit
  | .targetedTestEnd unit _ _ => u32Ok unit
  | .sliceDue t => towerOk t
  | .sliceStart t => towerOk t
  | .sliceDefer t => towerOk t
  | .sliceEnd t _ => towerOk t
  | .riskScore _ => true
  | .shadowDataPiece => true
  | .shadowEndPiece => true
  | .shadowCommitPiece => true
  | .shadowCompletionTimeout q => partOk q
  | .startRestore q val token => partOk q && u64Ok val && u16Ok token
  | .restoreRequest => true
  | .restoreDataPiece => true
  | .restoreEndPiece => true
  | .avsbusPoll g _ => railOk g
  | .vdoneTimeout g => railOk g
  | .regulatorStatusRetry g _ => railOk g
  | .vralertAssert g _ => railOk g
  | .vralertRelease g => railOk g
  | .alertReleaseWaitExpiry g _ => railOk g
  | .alertReminder g => railOk g
  | .slowNAssert _ => true
  | .slowNRelease => true
  | .inputUnmask i _ => inputOk i
  | .stateCapWrite val => u64Ok val
  | .islandsFrequencyAck => true
  | .vdoneRead => true
  | .thermalReading _ => true
  | .thermalStepUp => true
  | .thermalTrip _ _ => true
  | .oscillatorTrim => true
  | .supplyDroop island => islandOk island
  | .pwrgdAssert _ => true
  | .pwrgdDeassert => true
  | .rstNAssert => true
  | .rstNRelease _ _ puf => pufOk puf
  | .firmwareStart _ _ _ _ => true
  | .domeTrainingComplete _ => true
  | .tapBypass => true
  | .tapIdcode => true
  | .tapSamplePreload _ => true
  | .tapExtest => true
  | .tapHighz => true
  | .tapClamp => true
  | .noOperation sp => sparOk sp
  | .supplyRecovery island _ => islandOk island
  | .scrubPeriodEnd d => domeOk d
  | .cxlLinkUp _ _ _ => true
  | .hotReset => true
  | .peerTrainingLost p _ => portOk p
  | .fabricReadyTimeout => true
  | .planZeroFillComplete => true

end Sys2Proof
end

