-- ==== Sys2Proof/Tests/Slice0.lean ====
section
/-! SUPPORT. The model's own tests: for each obligation concrete values that meet its hypotheses; the well-formedness
checks; and examples that the spec works out. -/

namespace Sys2Proof.Tests

set_option Elab.async false

open Sys2Proof Sys2Proof.Machine Sys2Proof.Safety

/-! States of the tests. -/

/-- The device in service, its dictionary ready, its host link up. -/
def base : State := { boot := .ready, pwrgd := true, rstN := false, od := [(0x1100, 15)], cxl := { link := 3, perst := false } }

/-- The device in service with spar 0 as given. -/
def sp (x : Spar) : State := { base with spars := [(0, x)] }

/-- The device in service with partition 0's context as given. -/
def pt (p : Part) : State := { base with parts := [(0, p)] }

/-- A job of partition 0 runs, with spar 0 started. -/
def job (x : Spar) : State := { base with od := [(0x1100, 15), (0x202004, 1)], spars := [(0, x)], parts := [(0, { started := [0] })] }

/-- The device in service with port 0 as given, the port up. -/
def lk (p : Port) : State := { base with od := [(0x1100, 15), (0x401001, 2)], ports := [(0, p)] }

/-- A packet for partition 0 has been delivered. -/
def dl (k : Packet) (p : Part) : State := { base with delivery := [k], parts := [(0, p)] }

/-- A dictionary request waits in the mailbox. -/
def mb (op : MOp) (m : Merec) : State :=
  { base with cxl := { link := 3, perst := false, mbxState := 1, mbxJob := some (merecBytes op m) }, mgmtTurn := some 0 }

/-- The host port as given, its link up. -/
def hp (c : Cxl) : State := { base with cxl := { c with link := 3, perst := false } }

/-- Fields of the batch record (07 Table 7-1): tag 7, generation 1, one expert chosen for one token. -/
def record (tmask : Nat) : Bytes :=
  padTo 192 (leBytes 2 7 ++ leBytes 1 1 ++ leBytes 1 0 ++ leBytes 1 1 ++ leBytes 2 0 ++ leBytes 1 tmask ++ leBytes 4 1 ++ leBytes 2 1 ++
    leBytes 2 0 ++ leBytes 4 1 ++ leBytes 4 0 ++ leBytes 4 64 ++ leBytes 4 64)

/-- A batch in the phase given, its one expert held here. -/
def batch (p : BPhase) : Batch := { tag := 7, gen := 1, phase := p, record := record 1, emap := [{}] }

/-- A command record of 64 bytes (07 R208) about the batch. -/
def halRec (code : Nat) (rest : Bytes) : Bytes :=
  padTo 64 (leBytes 1 code ++ leBytes 1 0 ++ leBytes 2 7 ++ leBytes 1 1 ++ leBytes 3 0 ++ rest)

/-- The Halyard unit of tower 0 has a command, about a batch as given. -/
def hal (r : Bytes) (b : Batch) : State := { pt { batches := [b] } with halCmd := [(0, r)] }

/-- A Halyard packet (07 Table 7-4) about the batch: kind, number of rows, and what follows the header. -/
def halPkt (kind code rows : Nat) (body : Bytes) : Packet :=
  { kind := kind, payload := padTo 32 (leBytes 1 code ++ leBytes 1 1 ++ leBytes 2 7 ++ leBytes 6 0 ++ leBytes 2 rows ++ leBytes 4 64) ++ body }

/-- A command of the collective engine (08 Table 8-3): operation, and the number of blocks. -/
def colRec (op blocks : Nat) : Bytes :=
  padTo 64 (leBytes 1 1 ++ leBytes 1 op ++ leBytes 10 0 ++ leBytes 4 blocks) |>.set 7 0xFF

/-- The collective engine has a command of partition 0; its group 0 has the members given. -/
def col (r : Bytes) (g : List Nat) : State :=
  { base with colCmd := [(0, r)], blobs := [(0x601000, g.flatMap (leBytes 2))] }

/-- A collective frame (08 Table 8-9). -/
def colPkt (kind ftype op fmt blocks rank first count : Nat) (body : Bytes) : Packet :=
  { kind := kind, payload := padTo 64 (leBytes 1 ftype ++ leBytes 1 op ++ leBytes 1 fmt ++ leBytes 5 0 ++ leBytes 4 blocks ++ leBytes 2 rank ++
      leBytes 10 0 ++ leBytes 4 first ++ leBytes 4 count) ++ body }

/-- A parameter group's record (09 Table 9-1): rule, learning-rate multiplier, one row of 32 elements. -/
def group (rule lr : Nat) : Bytes :=
  padTo 128 (leBytes 2 0 ++ leBytes 1 rule ++ leBytes 1 1 ++ leBytes 4 0 ++ leBytes 4 1 ++ leBytes 4 32 ++ leBytes 8 0x10000 ++
    leBytes 8 0x20000 ++ leBytes 8 0x30000 ++ leBytes 8 0x40000 ++ leBytes 24 0 ++ leBytes 4 lr ++ leBytes 36 0 ++ leBytes 8 0x50000)

/-- An update of partition 0 is open, and its group 0 stands in dome memory. -/
def upd (w : Upd) (rule lr : Nat) : State := { pt { upd := some w } with dome := memWrite [] 0 (group rule lr) }

/-- A shadow packet (14 Table 14-9) from device 0: code, status, generation, offset, and data. -/
def piece (code status gen off : Nat) (data : Bytes) : Packet :=
  { kind := 0x1B, vl := 2, payload := padTo 8 (leBytes 1 code ++ leBytes 1 status) ++ leBytes 8 gen ++ leBytes 8 off ++
      leBytes 4 data.length ++ leBytes 4 0 ++ data }

/-- Dictionary objects of the device in service beside its readiness. -/
def od (l : List (Nat × Nat)) : State := { base with od := (0x1100, 15) :: l }

/-- A fault record of dome 0's walker. -/
def rec1 : Notice := { ty := 1, sev := 2, code := 0x0301, source := 0x04000000 }

/-- Fault handling has that record next, with the fault queue as given. -/
def flt (c : List (Nat × Case)) : State := { base with faultQ := [rec1], cases := c }

/-- A preload image (13 R405): flags, number of entries, and the entries' bytes. -/
def image (flags n : Nat) (body : Bytes) : Bytes :=
  leBytes 2 1 ++ leBytes 2 flags ++ leBytes 4 n ++ leBytes 4 body.length ++ leBytes 2 0xA1 ++ leBytes 18 0 ++ body

/-- An instruction store that holds one bundle: `op` with `f` in slot `k`. -/
def code (k : Nat) (op : BitVec 8) (f : Fields) : List Host.Cell := memWrite [] 0 (encodeBundle (soloBundle k ⟨op, f⟩))

/-- A dense descriptor at address 0 with 128 x 128 tiles (05 R151). -/
def dense (fmt rows cols stride : Nat) : BitVec 512 :=
  BitVec.ofNat 512 (fmt * 2 ^ 462 + 2 ^ 454 + stride * 2 ^ 256 + cols * 2 ^ 224 + rows * 2 ^ 192)

/-- Spar 0 runs a bundle with one instruction, whose operands any slot accepts. -/
def rich (k : Nat) (op : BitVec 8) (f : Fields) : State :=
  sp { run := .running, istore := code k op f, sreg := [(1, 64)], treg := [(0, dense 8 1 8 256), (1, dense 12 1 8 128)],
       active := some { fmt := 8 }, regions := [(0, 32768)], chtab := [(0, 0xB000000000000000)] }

/-- Fields with which a row's instruction issues in `rich`. -/
def sample (r : SlotRow) : Fields :=
  match r.slot with
  | 3 => if r.op = 2 then { mod := 0x88 } else if r.op = 5 then { imm := 128 } else { mod := 0x80 }
  | 4 => { mod := 0xC0 }
  | 6 => if r.op = 4 then { b := 1, imm := 2 ^ 48 } else if r.op = 6 then { x := 1 } else if r.sel {} then {} else
    if r.sel { mod := 1 } then { mod := 1, c := 1 } else { mod := 2 }
  | 7 => if r.sel { mod := 1 } = r.sel { mod := 2 } then (if r.sel {} then { c := if r.op = 5 then 1 else 0 } else { mod := 0x10 })
    else { mod := if r.sel { mod := 1 } then 1 else 2, c := 1 }
  | _ => {}

/-- The state in which the accesses given have had their slots (10 R317). -/
def openTo (s : State) (l : List (Nat × List (Nat × Nat))) : State := { s with asks := l.map fun a => { unit := a.1, rs := a.2 } }

/-- The same for accesses that the state itself gives. -/
def openAll (s : State) (f : State → List (Nat × List (Nat × Nat))) : State := openTo s (f s)

/-- No dome is held, and the host holds no line. -/
abbrev freeDomes (s : State) : Prop := s.domeOff = [] ∧ s.zeroFill = [] ∧ s.testing = [] ∧ s.cxl.tracker = []

theorem portOpen_base (s : State) (unit : Nat) (rs : List (Nat × Nat))
    (h : freeDomes s ∧ s.unitCut unit rs = false ∧ s.granted unit rs = true) : portOpen s unit rs := by
  obtain ⟨⟨a, b, c, d⟩, e, f⟩ := h
  exact ⟨fun n => by simp [State.domeHeld, a, b, c], d, e, f⟩

theorem held_base (s : State) (h : s.domeOff = [] ∧ s.zeroFill = [] ∧ s.testing = []) : ∀ d, s.domeHeld d = false := by
  intro d
  simp [State.domeHeld, h.1, h.2.1, h.2.2]

/-- Spar `j` waits at an `fc.phase` on group 0, with no guard. -/
abbrev fenceAt (s : State) (j : Nat) : Prop :=
  (s.spar j).run = .running ∧ (∀ l ∈ (s.spar j).loops, l.last ≠ (s.spar j).pc) ∧
  (s.spar j).bundle = soloBundle 7 ⟨0x11, {}⟩ ∧ guardOn (s.spar j) {} = true

theorem atFence_base (s : State) (j : Nat) (h : fenceAt s j) : atFence s j 0 :=
  ⟨h.1, h.2.1, {}, h.2.2.1, rfl, h.2.2.2⟩

theorem portsOpen_base (s : State) (l : List (Nat × List (Nat × Nat)))
    (h : freeDomes s ∧ ∀ a ∈ l, s.unitCut a.1 a.2 = false ∧ s.granted a.1 a.2 = true) : portsOpen s l :=
  fun a m => portOpen_base s a.1 a.2 ⟨h.1, h.2 a m⟩

theorem cleanPort_base (s : State) (unit : Nat) (rs : List (Nat × Nat))
    (h : s.poison = [] ∧ freeDomes s ∧ s.unitCut unit rs = false ∧ s.granted unit rs = true) : cleanPort s unit rs :=
  ⟨h.1, portOpen_base s unit rs h.2⟩

/-! The hypotheses of the obligations. -/

/-- Every slot instruction of the opcode table issues alone somewhere, so that what the obligations say of one that issues
alone is said of a state. -/
theorem witness_slots :
    ∀ r ∈ slotRows, r.sel (sample r) = true ∧ issuesAlone (rich r.slot r.op (sample r)) 0 r.slot r.op (sample r) := by
  decide +kernel

/-- Concrete values that meet the hypotheses of `Obligations.SelfDescription`, clause by clause. -/
theorem witness_SelfDescription :
    (∃ s, ∃ i, ∃ f, (issuesAlone s i 0 0x30 f)) :=
    ⟨rich 0 0x30 { d := 31, imm := 0x11F }, 0, { d := 31, imm := 0x11F }, by decide +kernel⟩

/-- Concrete values that meet the hypotheses of `Obligations.RunAndHalt`, clause by clause. -/
theorem witness_RunAndHalt :
    (∃ s, ∃ i, ∃ f, (issuesAlone s i 0 0x31 f)) ∧
    (∃ s, ∃ i, ∃ f, ((issuesAlone s i 0 0x3F f) ∧ ((s.spar i).quiet = false))) ∧
    (∃ s, ∃ i, ∃ f, ((issuesAlone s i 0 0x3F f) ∧ ((s.spar i).quiet = true))) ∧
    (∃ s : State, ∃ i : Nat, ((s.live = true) ∧ ((s.spar i).run = .halting) ∧ ((s.spar i).quiet = true))) ∧
    (∃ s : State, ∃ q : Nat, ((s.jobRuns q = true) ∧ ((∀ i ∈ (s.part q).started, (s.spar i).run = .halted)))) ∧
    (∃ s : State, ∃ q : Nat, ((s.jobRuns q = true) ∧ ((∃ i ∈ (s.part q).started, (s.spar i).run ≠ .halted)))) :=
    ⟨⟨rich 0 0x31 {}, 0, ({} : Fields), by decide +kernel⟩,
    ⟨sp { run := .running, istore := code 0 0x3F {}, xfers := [{}] }, 0, ({} : Fields), by decide +kernel⟩,
    ⟨rich 0 0x3F {}, 0, ({} : Fields), by decide +kernel⟩,
    ⟨sp { run := .halting }, 0, by decide +kernel⟩,
    ⟨job { run := .halted }, 0, by decide +kernel⟩,
    ⟨job { run := .running }, 0, by decide +kernel⟩⟩

/-- Concrete values that meet the hypotheses of `Obligations.GuardedOff`, clause by clause. -/
theorem witness_GuardedOff :
    (∃ s : State, ∃ i : Nat, ∃ k : Nat, ∃ w : SlotWord, ((s.canIssue i = true) ∧ ((s.spar i).bundle = soloBundle k w) ∧ (k < 8) ∧ (w.op ≠ 0) ∧ (slotRegs k w = none) ∧ ((s.spar i).fillWaits (s.spar i).pc = false))) ∧
    (∃ s : State, ∃ i : Nat, ((s.canIssue i = true) ∧ (((s.spar i).bundle.all fun w => w.op = 0) = true) ∧ ((s.spar i).fillWaits (s.spar i).pc = false) ∧ ((∀ l ∈ (s.spar i).loops, l.last ≠ (s.spar i).pc)))) ∧
    (∃ s : State, ∃ i : Nat, ∃ l, ∃ r, ((s.canIssue i = true) ∧ (((s.spar i).bundle.all fun w => w.op = 0) = true) ∧ ((s.spar i).fillWaits (s.spar i).pc = false) ∧ ((s.spar i).loops = l :: r) ∧ (l.last = (s.spar i).pc) ∧ ((s.spar i).lget l.x ≠ 1))) ∧
    (∃ s : State, ∃ i : Nat, ∃ l, ∃ r, ((s.canIssue i = true) ∧ (((s.spar i).bundle.all fun w => w.op = 0) = true) ∧ ((s.spar i).fillWaits (s.spar i).pc = false) ∧ ((s.spar i).loops = l :: r) ∧ (l.last = (s.spar i).pc) ∧ ((s.spar i).lget l.x = 1) ∧ ((∀ m ∈ r, m.last ≠ (s.spar i).pc)))) ∧
    (∃ r, ∃ s, ∃ i, ∃ f, ∃ t, ((r.sel f = true) ∧ (s.canIssue i = true) ∧ ((s.spar i).bundle = soloBundle r.slot ⟨r.op, f⟩) ∧ (f.gen = true) ∧ ((((s.spar i).sget f.greg.toNat ≠ 0) ↔ f.gneg = true)) ∧ (t ∈ slotFaults s (s.spar i) i (soloBundle r.slot ⟨r.op, f⟩) r.slot ⟨r.op, f⟩)) ∧ (r ∈ slotRows)) ∧
    (∃ r, ∃ s, ∃ i, ∃ f, ((r.sel f = true) ∧ (s.canIssue i = true) ∧ ((s.spar i).bundle = soloBundle r.slot ⟨r.op, f⟩) ∧ (f.gen = true) ∧ ((((s.spar i).sget f.greg.toNat ≠ 0) ↔ f.gneg = true)) ∧ (bundleWaits (s.spar i) (soloBundle r.slot ⟨r.op, f⟩) = false) ∧ (bundleFault s (s.spar i) i (soloBundle r.slot ⟨r.op, f⟩) = none) ∧ ((∀ l ∈ (s.spar i).loops, l.last ≠ (s.spar i).pc))) ∧ (r ∈ slotRows)) :=
    ⟨⟨sp { run := .running, istore := code 0 0x7F {} }, 0, 0, (⟨0x7F, {}⟩ : SlotWord), by decide +kernel⟩,
    ⟨sp { run := .running, pc := 511 }, 0, by decide +kernel⟩,
    ⟨sp { run := .running, pc := 511, loops := [{ x := 0, first := 3, last := 511 }] }, 0, ({ x := 0, first := 3, last := 511 } : Loop), ([] : List Loop), by decide +kernel⟩,
    ⟨sp { run := .running, pc := 511, lreg := [(0, 1)], loops := [{ x := 0, first := 3, last := 511 }] }, 0, ({ x := 0, first := 3, last := 511 } : Loop), ([] : List Loop), by decide +kernel⟩,
    ⟨⟨.scAdd, 0, 0x01, fun _ => true⟩, rich 0 1 { gen := true, d := 255 }, 0, { gen := true, d := 255 }, ⟨0x0106, 2, 255⟩, by decide +kernel, by simp [slotRows]⟩,
    ⟨⟨.scAdd, 0, 0x01, fun _ => true⟩, rich 0 1 { gen := true }, 0, { gen := true }, by decide +kernel, by simp [slotRows]⟩⟩

/-- Concrete values that meet the hypotheses of `Obligations.PreciseFaults`, clause by clause. -/
theorem witness_PreciseFaults :
    (∃ r, ∃ s, ∃ i, ∃ f, ∃ k, ∃ t, ((r.sel f = true) ∧ (s.canIssue i = true) ∧ ((s.spar i).slotAt (s.spar i).pc r.slot = ⟨r.op, f⟩) ∧ (bundleWaits (s.spar i) (s.spar i).bundle = false) ∧ (bundleFault s (s.spar i) i (s.spar i).bundle = some (k, t)) ∧ (2 ≤ faultSev t.code)) ∧ (r ∈ slotRows)) ∧
    (∃ k : Nat, ∃ w : SlotWord, ((w.op ≠ 0) ∧ (slotRegs k w = none))) ∧
    (∃ k : Nat, ∃ w : SlotWord, ∃ rd, ∃ wr, ∃ r, (w.op ≠ 0) ∧ (slotRegs k w = some (rd, wr)) ∧ (((rd ++ wr).find? fun r => r.1.size ≤ r.2) = some r)) ∧
    (∃ x : Spar, ∃ f : Fields, ((guardOn x f = true) ∧ (f.a.toNat < 32) ∧ (f.d.toNat < 32) ∧ (scratchBytes < slot2Addr x f + 1024))) ∧
    (∃ x : Spar, ∃ f : Fields, ((guardOn x f = true) ∧ (f.a.toNat < 32) ∧ (f.b.toNat < 32) ∧ (slot2Addr x f % 64 ≠ 0))) ∧
    (∃ s : State, ∃ i : Nat, ((s.live = true) ∧ ((s.spar i).run = .running) ∧ ((s.spar i).paused = false) ∧ ((s.spar i).pc = 512))) ∧
    (∃ s : State, ∃ i : Nat, ((s.live = true) ∧ ((s.spar i).run = .running) ∧ ((s.spar i).waiting = true))) :=
    ⟨⟨⟨.ldV, 2, 0x03, fun _ => true⟩, sp { run := .running, istore := code 2 3 {}, areg := [(0, 1)] }, 0, ({} : Fields), 2, ⟨0x0104, 2, 1⟩, by decide +kernel, by simp [slotRows]⟩,
    ⟨0, ⟨0x7F, {}⟩, by decide +kernel⟩,
    ⟨0, ⟨0x01, { d := 64 }⟩, _, _, _, by decide +kernel, rfl, rfl⟩,
    ⟨({ areg := [(0, 2096129)] } : Spar), ({} : Fields), by decide +kernel⟩,
    ⟨({ areg := [(0, 63)] } : Spar), ({} : Fields), by decide +kernel⟩,
    ⟨sp { run := .running, pc := 512 }, 0, by decide +kernel⟩,
    ⟨sp { run := .running, waiting := true }, 0, by decide +kernel⟩⟩

/-- Concrete values that meet the hypotheses of `Obligations.ScratchAccesses`, clause by clause. -/
theorem witness_ScratchAccesses :
    (∃ s, ∃ i, ∃ f, (issuesAlone s i 2 0x05 f)) :=
    ⟨rich 2 5 {}, 0, ({} : Fields), by decide +kernel⟩

/-- Concrete values that meet the hypotheses of `Obligations.StoreFrame`, clause by clause. -/
theorem witness_StoreFrame :
    (∃ c, ∃ op, ∃ n, ∃ s, ∃ i, ∃ f, (issuesAlone s i 2 op f) ∧ ((c, op, n) ∈ [((Instr.stV : Nat → Fields → Instr), (0x04 : BitVec 8), 1024), (.stP, 0x07, 32), (.stM, 0x09, 16)])) :=
    ⟨.stV, 4, 1024, rich 2 4 {}, 0, ({} : Fields), by decide +kernel, by simp⟩

/-- Concrete values that meet the hypotheses of `Obligations.ArrayIssue`, clause by clause. -/
theorem witness_ArrayIssue :
    (∃ s, ∃ i, ∃ f, (issuesAlone s i 3 0x02 f)) ∧
    (∃ s, ∃ i, ∃ f, ((issuesAlone s i 3 0x02 f) ∧ (f.immBits 3 2 = 0))) ∧
    (∃ x : Spar, ((x.rows.map (·.op.room)).sum + (x.stream.map ArrOp.room).sum ≤ 1024)) ∧
    (∃ s, ∃ i, ∃ f, (issuesAlone s i 3 0x05 f)) :=
    ⟨⟨rich 3 2 { mod := 0x88 }, 0, { mod := 0x88 }, by decide +kernel⟩,
    ⟨rich 3 2 { mod := 0x88 }, 0, { mod := 0x88 }, by decide +kernel⟩,
    ⟨{}, by decide +kernel⟩,
    ⟨rich 3 5 { imm := 32768 }, 0, { imm := 32768 }, by decide +kernel⟩⟩

/-- Concrete values that meet the hypotheses of `Obligations.VectorUnits`, clause by clause. -/
theorem witness_VectorUnits :
    (∃ s, ∃ i, ∃ f, (issuesAlone s i 4 0x07 f)) ∧
    (∃ s, ∃ i, ∃ f, (issuesAlone s i 5 0x02 f)) :=
    ⟨⟨rich 4 7 { mod := 0xC0 }, 0, { mod := 0xC0 }, by decide +kernel⟩,
    ⟨rich 5 2 {}, 0, ({} : Fields), by decide +kernel⟩⟩

/-- Concrete values that meet the hypotheses of `Obligations.EngineIssue`, clause by clause. -/
theorem witness_EngineIssue :
    (∃ c, ∃ op, ∃ s, ∃ i, ∃ f, (issuesAlone s i 6 op f) ∧ ((c, op) ∈ [((Instr.tgGather : Nat → Fields → Instr), (0x01 : BitVec 8)), (.tgUnperm, 0x02), (.tkScatter, 0x03), (.tkScatadd, 0x04), (.tkPerm, 0x05), (.tkRowfeed, 0x06)])) ∧
    (∃ s, ∃ i, ∃ f, ((issuesAlone s i 6 0x07 f) ∧ (f.mod.toNat % 4 = 0))) ∧
    (∃ s, ∃ i, ∃ f, ((issuesAlone s i 6 0x07 f) ∧ (f.mod.toNat % 4 = 1))) ∧
    (∃ s, ∃ i, ∃ f, ((issuesAlone s i 6 0x07 f) ∧ (f.mod.toNat % 4 = 2))) ∧
    (∃ s, ∃ i, ∃ f, (issuesAlone s i 6 0x08 f)) ∧
    (∃ c, ∃ op, ∃ s, ∃ i, ∃ f, ((issuesAlone s i 7 op f) ∧ ((c i f = .txDst i f → f.fmt = 0)) ∧ ((c i f = .txDstAtomic i f → f.fmt ≠ 0))) ∧ ((c, op) ∈ [((Instr.txDld : Nat → Fields → Instr), (0x01 : BitVec 8)), (.txDst, 0x02), (.txDstAtomic, 0x02)])) ∧
    (∃ s i f, issuesAlone s i 7 0x03 f) ∧
    (∃ c, ∃ sel, ∃ kind, ∃ s, ∃ i, ∃ f, ((issuesAlone s i 7 0x05 f) ∧ (f.mod.toNat % 4 = sel)) ∧ ((c, sel, kind) ∈ [((Instr.txFqWrite : Nat → Fields → Instr), 0, XKind.fqWrite), (.txFqWriteArrival, 1, .fqArrival), (.txFqRead, 2, .fqRead)])) ∧
    (∃ s, ∃ i, ∃ f, (issuesAlone s i 7 0x07 f)) ∧
    (∃ x, ∃ f, ((guardOn x f = true) ∧ (f.immBits 0 6 < x.xfers.length))) :=
    ⟨⟨.tgGather, 1, rich 6 1 {}, 0, ({} : Fields), by decide +kernel, by simp⟩,
    ⟨rich 6 7 { mod := 0, c := 0 }, 0, { mod := 0, c := 0 }, by decide +kernel⟩,
    ⟨rich 6 7 { mod := 1, c := 1 }, 0, { mod := 1, c := 1 }, by decide +kernel⟩,
    ⟨rich 6 7 { mod := 2, c := 0 }, 0, { mod := 2, c := 0 }, by decide +kernel⟩,
    ⟨rich 6 8 {}, 0, {}, by decide +kernel⟩,
    ⟨.txDstAtomic, 2, rich 7 2 { mod := 0x10 }, 0, { mod := 0x10 }, by decide +kernel, by simp⟩,
    ⟨rich 7 3 {}, 0, {}, by decide +kernel⟩,
    ⟨.txFqRead, 2, .fqRead, rich 7 5 { mod := 2, c := 1 }, 0, { mod := 2, c := 1 }, by decide +kernel, by simp⟩,
    ⟨rich 7 7 {}, 0, ({} : Fields), by decide +kernel⟩,
    ⟨({ xfers := [{}] } : Spar), ({} : Fields), by decide +kernel⟩⟩

/-- Concrete values that meet the hypotheses of `Obligations.Fences`, clause by clause. -/
theorem witness_Fences :
    (∃ s, ∃ i, ∃ f, (issuesAlone s i 7 0x10 f)) ∧
    (∃ x, ∃ f, ∃ op, ((guardOn x f = true) ∧ (op = 0x10 ∨ op = 0x11) ∧ (x.quiet = false))) ∧
    (∃ s, ∃ i, ∃ f, ((issuesAlone s i 7 0x11 f) ∧ (s.members (s.sparPart i) (f.immBits 0 4) = [i]))) ∧
    (∃ s, ∃ i, ∃ f, let g := f.immBits 0 4; let m := s.members (s.sparPart i) g; ((issuesAlone s i 7 0x11 f) ∧ (i ∈ m) ∧ (m.Nodup)) ∧ ((∀ j ∈ m, j ≠ i → (s.spar j).barrier = some g ∧ atFence s j g))) ∧
    (∃ s, ∃ i, ∃ j, ∃ f, ((issuesAlone s i 7 0x11 f) ∧ (j ≠ i) ∧ (j ∈ s.members (s.sparPart i) (f.immBits 0 4)) ∧ ((s.spar j).barrier ≠ some (f.immBits 0 4)))) ∧
    (∃ s : State, ∃ q : Nat, ∃ g : Nat, ((s.live = true) ∧ (s.members q g ≠ []) ∧ ((s.members q g).Nodup)) ∧ ((∀ i ∈ s.members q g, (s.spar i).barrier = some g ∧ atFence s i g ∧ s.sparPart i = q))) ∧
    (∃ s : State, ∃ q : Nat, ∃ g : Nat, ∃ i : Nat, ((s.live = true) ∧ (i ∈ s.members q g) ∧ ((s.spar i).barrier ≠ some g))) :=
    ⟨⟨rich 7 0x10 {}, 0, ({} : Fields), by decide +kernel⟩,
    ⟨({ xfers := [{}] } : Spar), ({} : Fields), 0x10, by decide +kernel⟩,
    ⟨{ rich 7 0x11 {} with parts := [(0, { started := [0] })] }, 0, ({} : Fields), by decide +kernel⟩,
    ⟨{ rich 7 0x11 {} with spars := [(0, { (rich 7 0x11 {}).spar 0 with pc := 0 }), (1, { run := .running, istore := code 7 0x11 {}, barrier := some 0 })], parts := [(0, { started := [0, 1] })] }, 0, ({} : Fields), by decide +kernel, fun j m n => by
      have e : j = 1 := by have h : ∀ i ∈ State.members ({ rich 7 0x11 {} with spars := [(0, { (rich 7 0x11 {}).spar 0 with pc := 0 }), (1, { run := .running, istore := code 7 0x11 {}, barrier := some 0 })], parts := [(0, { started := [0, 1] })] }) 0 0, i ≠ 0 → i = 1 := by decide +kernel
                           exact h j m n
      subst e
      exact ⟨by decide +kernel, atFence_base _ _ (by decide +kernel)⟩⟩,
    ⟨{ rich 7 0x11 {} with parts := [(0, { started := [0, 1] })] }, 0, 1, ({} : Fields), by decide +kernel⟩,
    ⟨{ sp { run := .running, istore := code 7 0x11 {}, barrier := some 0 } with parts := [(0, { started := [0] })] }, 0, 0, by decide +kernel, fun j m => by
      have e : j = 0 := by have h : ∀ i ∈ State.members ({ sp { run := .running, istore := code 7 0x11 {}, barrier := some 0 } with parts := [(0, { started := [0] })] }) 0 0, i = 0 := by decide +kernel
                           exact h j m
      subst e
      exact ⟨by decide +kernel, atFence_base _ _ (by decide +kernel), by decide +kernel⟩⟩,
    ⟨{ sp { run := .running } with parts := [(0, { started := [0] })] }, 0, 0, 0, by decide +kernel⟩⟩

/-- Concrete values that meet the hypotheses of `Obligations.ArrayWork`, clause by clause. -/
theorem witness_ArrayWork :
    (∃ s : State, ∃ i : Nat, ∃ o, ∃ r, ∃ t, ((s.live = true) ∧ ((s.spar i).streamedOut = true) ∧ ((s.spar i).stream = o :: r) ∧ (o.kind = .mmx) ∧ (o.swap = false) ∧ (o.listBad = none) ∧ (o.m ≠ 0) ∧ ((s.spar i).active = some t) ∧ (t.sparse = false) ∧ (t.two = false))) ∧
    (∃ s : State, ∃ i : Nat, ∃ o, ∃ r, ∃ t, ∃ l, ∃ ls, ((s.live = true) ∧ ((s.spar i).streamedOut = true) ∧ ((s.spar i).stream = o :: r) ∧ (o.kind = .mmx) ∧ (o.swap = true) ∧ (o.listBad = none) ∧ (o.m ≠ 0) ∧ ((s.spar i).active = none) ∧ ((s.spar i).loads = l :: ls) ∧ (l.arrived = true) ∧ ((s.spar i).back = some t) ∧ (t.sparse = false))) ∧
    (∃ s : State, ∃ i : Nat, ∃ o, ∃ r, ∃ t, ((s.live = true) ∧ ((s.spar i).streamedOut = true) ∧ ((s.spar i).stream = o :: r) ∧ (o.kind = .mew) ∧ (o.src = 0) ∧ ((s.spar i).active = some t) ∧ (t.two = false) ∧ (loadDepth t.fmt ≠ 0))) ∧
    (∃ s : State, ∃ i : Nat, ((s.live = true) ∧ ((s.spar i).streamedOut = false))) ∧
    (∃ s : State, ∃ i : Nat, ∃ r, ∃ rs, ∃ t, ∃ p, ∃ w, ∃ ws, ((s.live = true) ∧ ((s.spar i).rows = r :: rs) ∧ (r.op.kind = .mmx) ∧ (r.tile = some t) ∧ (t.sparse = false) ∧ (t.two = false) ∧ (t.cols.length ≤ 128) ∧ ((s.spar i).active = none) ∧ (r.op.queued = w :: ws)) ∧ (pairOf r.op.f1 r.op.f2 = some p)) ∧
    (∃ s : State, ∃ i : Nat, ∃ l, ∃ ls, ((s.live = true) ∧ ((s.spar i).loads = l :: ls) ∧ (l.arrived = false) ∧ (l.dead = false) ∧ (l.read = false) ∧ (l.dome = false) ∧ (l.behind = 0) ∧ (l.direct = true) ∧ ((s.spar i).active = none) ∧ ((s.spar i).back = none) ∧ ((s.spar i).staging = none) ∧ ((readTile (memByte (s.spar i).scratch) l).two = false))) ∧
    (∃ s : State, ∃ i : Nat, ∃ l, ∃ ls, ((s.live = true) ∧ ((s.spar i).loads = l :: ls) ∧ (l.arrived = false) ∧ (l.dead = false) ∧ (l.read = false) ∧ (l.dome = true) ∧ (l.direct = true) ∧ ((s.spar i).active = none) ∧ ((s.spar i).back = none) ∧ ((s.spar i).staging = none) ∧ ((readTile (memByte s.dome) l).two = false) ∧ (s.poison = []) ∧ ((s.spar i).writesAhead l.num (loadRanges (memByte s.dome) l) = false)) ∧ (portOpen s i (loadRanges (memByte s.dome) l))) ∧
    (∃ s : State, ∃ i : Nat, ∃ t, ((s.live = true) ∧ ((s.spar i).staging = some t) ∧ (t.part2 = false) ∧ ((s.spar i).active = none) ∧ ((s.spar i).back = none))) ∧
    (∃ s : State, ∃ i : Nat, ∃ o, ∃ r, ((s.live = true) ∧ ((s.spar i).stream = o :: r) ∧ (o.kind = .mal) ∧ ((s.spar i).rows = []))) ∧
    (∃ s : State, ∃ i : Nat, ∃ o, ∃ r, ((s.live = true) ∧ ((s.spar i).stream = o :: r) ∧ (o.kind = .mwb) ∧ ((s.spar i).rows = []))) :=
    ⟨⟨sp { stream := [{ m := 1 }], active := some {} }, 0, { m := 1 }, [], {}, by decide +kernel⟩,
    ⟨sp { stream := [{ m := 1, swap := true }], loads := [{ arrived := true }], back := some {} }, 0, { m := 1, swap := true }, [], {}, { arrived := true }, [], by decide +kernel⟩,
    ⟨sp { stream := [{ kind := .mew }], active := some {} }, 0, { kind := .mew }, [], {}, by decide +kernel⟩,
    ⟨sp { rows := [{ op := {}, total := 64 }] }, 0, by decide +kernel⟩,
    ⟨sp { rows := [{ op := { f1 := 8, f2 := 8, queued := [{}] }, tile := some {} }] }, 0, { op := { f1 := 8, f2 := 8, queued := [{}] }, tile := some {} }, [], {}, _, {}, [], by decide +kernel, rfl⟩,
    ⟨sp { loads := [{ direct := true, desc := dense 8 1 8 256 }] }, 0, { direct := true, desc := dense 8 1 8 256 }, [], by decide +kernel⟩,
    ⟨openAll (sp { loads := [{ direct := true, dome := true, desc := dense 8 1 8 256 }] }) fun s => [(0, loadRanges (memByte s.dome) { direct := true, dome := true, desc := dense 8 1 8 256 })], 0, { direct := true, dome := true, desc := dense 8 1 8 256 }, [], by decide +kernel, portOpen_base _ _ _ (by decide +kernel)⟩,
    ⟨sp { staging := some {} }, 0, {}, by decide +kernel⟩,
    ⟨sp { stream := [{ kind := .mal }] }, 0, { kind := .mal }, [], by decide +kernel⟩,
    ⟨sp { stream := [{ kind := .mwb }] }, 0, { kind := .mwb }, [], by decide +kernel⟩⟩

/-- Concrete values that meet the hypotheses of `Obligations.TackleWork`, clause by clause. -/
theorem witness_TackleWork :
    (∃ s : State, ∃ i : Nat, ∃ o, ∃ r, ((s.live = true) ∧ ((s.spar i).tackle = none) ∧ ((s.spar i).tackleQ = o :: r) ∧ (o.n ≠ 0))) ∧
    (∃ s : State, ∃ i : Nat, ∃ r, ((s.live = true) ∧ ((s.spar i).tackle = some r) ∧ (r.op.op = 6) ∧ (r.op.fmode = false) ∧ (r.block = 0) ∧ (r.reqs = []) ∧ (0 < r.op.n) ∧ (r.op.n ≤ 4096))) ∧
    (∃ s : State, ∃ i : Nat, ∃ r, ∃ v, ((s.live = true) ∧ ((s.spar i).run = .running) ∧ ((s.spar i).tackle = some r) ∧ (r.op.op ≠ 6) ∧ (r.reqs = []) ∧ (r.block < r.op.blocks) ∧ (firstBad r.op.bound (blockIdx (s.spar i) r.op r.block) = some v))) ∧
    (∃ s : State, ∃ i : Nat, ∃ bank : Nat, ∃ r, ∃ rs, ((s.live = true) ∧ (mapGet [] (s.spar i).banks bank = r :: rs))) ∧
    (∃ s : State, ∃ i : Nat, ∃ c, ∃ r, ((s.live = true) ∧ ((s.spar i).claims = c :: r) ∧ (c.performed = false)) ∧ (portOpen s i [(c.ctr / 4096 * 2 ^ 37 + domeBytes, 1)])) ∧
    (∃ s : State, ∃ i : Nat, ∃ c, ∃ r, ((s.live = true) ∧ ((s.spar i).claims = c :: r) ∧ (c.performed = false)) ∧ (portOpen s i [(c.ctr / 4096 * 2 ^ 37 + domeBytes, 1)])) ∧
    (∃ s : State, ∃ i : Nat, ∃ c, ∃ r, ((s.live = true) ∧ ((s.spar i).claims = c :: r) ∧ (c.performed = false)) ∧ (portOpen s i [(c.ctr / 4096 * 2 ^ 37 + domeBytes, 1)])) ∧
    (∃ s : State, ∃ i : Nat, ∃ c, ∃ r, ((s.live = true) ∧ ((s.spar i).claims = c :: r) ∧ (c.performed = false)) ∧ (portOpen s i [(c.ctr / 4096 * 2 ^ 37 + domeBytes, 1)])) ∧
    (∃ s : State, ∃ i : Nat, ∃ c, ∃ r, ((s.live = true) ∧ ((s.spar i).claims = c :: r) ∧ (c.performed = true) ∧ (c.refused = false))) :=
    ⟨⟨sp { tackleQ := [{ n := 1 }] }, 0, { n := 1 }, [], by decide +kernel⟩,
    ⟨sp { tackle := some { op := { op := 6, n := 4096 } } }, 0, { op := { op := 6, n := 4096 } }, by decide +kernel⟩,
    ⟨sp { run := .running, tackle := some { op := { op := 1, n := 1 } } }, 0, { op := { op := 1, n := 1 } }, 0, by decide +kernel⟩,
    ⟨sp { banks := [(31, [{}])] }, 0, 31, {}, [], by decide +kernel⟩,
    ⟨openTo (sp { claims := [{ op := .claim, ctr := 65535 }] }) [(0, [(65535 / 4096 * 2 ^ 37 + domeBytes, 1)])], 0, { op := .claim, ctr := 65535 }, [], by decide +kernel, portOpen_base _ _ _ (by decide +kernel)⟩,
    ⟨openTo (sp { claims := [{ op := .query, ctr := 65535 }] }) [(0, [(65535 / 4096 * 2 ^ 37 + domeBytes, 1)])], 0, { op := .query, ctr := 65535 }, [], by decide +kernel, portOpen_base _ _ _ (by decide +kernel)⟩,
    ⟨openTo (sp { claims := [{ op := .reset, ctr := 65535 }] }) [(0, [(65535 / 4096 * 2 ^ 37 + domeBytes, 1)])], 0, { op := .reset, ctr := 65535 }, [], by decide +kernel, portOpen_base _ _ _ (by decide +kernel)⟩,
    ⟨openTo (sp { claims := [{ op := .done, ctr := 65535 }] }) [(0, [(65535 / 4096 * 2 ^ 37 + domeBytes, 1)])], 0, { op := .done, ctr := 65535 }, [], by decide +kernel, portOpen_base _ _ _ (by decide +kernel)⟩,
    ⟨sp { claims := [{ performed := true }] }, 0, { performed := true }, [], by decide +kernel⟩⟩

/-- Concrete values that meet the hypotheses of `Obligations.TransferEvents`, clause by clause. -/
theorem witness_TransferEvents :
    (∃ s : State, ∃ i : Nat, ((s.live = true) ∧ ((s.spar i).paused = false) ∧ ((s.spar i).xfers = []))) ∧
    (∃ s : State, ∃ i : Nat, ∃ t, ∃ r, ((s.live = true) ∧ ((s.spar i).xfers = t :: r) ∧ (t.done = true) ∧ ((∀ v ∈ r, v.settled = true)) ∧ (t.ue = none) ∧ (t.status = 0))) ∧
    (∃ s : State, ∃ i : Nat, ∃ t, ∃ r, ∃ a, ((s.live = true) ∧ ((s.spar i).run = .running) ∧ ((s.spar i).xfers = t :: r) ∧ (t.done = true) ∧ ((∀ v ∈ r, v.settled = true)) ∧ (t.ue = some a))) ∧
    (∃ s : State, ∃ i : Nat, ∃ f, ((s.live = true) ∧ ((s.spar i).fill = some f) ∧ (s.poison = [])) ∧ (portOpen s i [(f.da, 128 * f.count)])) :=
    ⟨⟨sp {}, 0, by decide +kernel⟩,
    ⟨sp { xfers := [{ done := true }] }, 0, { done := true }, [], by decide +kernel⟩,
    ⟨sp { run := .running, xfers := [{ done := true, ue := some 64 }] }, 0, { done := true, ue := some 64 }, [], 64, by decide +kernel⟩,
    ⟨sp { fill := some {} }, 0, {}, by decide +kernel, portOpen_base _ _ _ (by decide +kernel)⟩⟩

/-- Concrete values that meet the hypotheses of `Obligations.JobLifecycle`, clause by clause. -/
theorem witness_JobLifecycle :
    (∃ s : State, ∃ q : Nat, ((s.served = true) ∧ (s.present q = true) ∧ (s.jobRuns q = false) ∧ (s.startFenced q = false) ∧ (s.tableBad q (s.odGet q 0x2020 1) = false) ∧ (s.poison = []) ∧ ((∀ i ∈ s.sparsOf q, (s.imageEntry (s.odGet q 0x2020 1) i).2 ≠ 0 → s.absent i = false ∧ s.entryBad q (s.imageEntry (s.odGet q 0x2020 1) i) = false))) ∧ (portOpen s manageUnit (s.tableRanges q))) ∧
    (∃ s : State, ∃ q : Nat, ((s.live = true) ∧ (s.jobRuns q = true) ∧ (s.filled q = true) ∧ ((s.part q).started ≠ []) ∧ ((s.part q).started.Nodup))) ∧
    (∃ s : State, ∃ q : Nat, ∃ i : Nat, ((s.live = true) ∧ (i ∈ (s.part q).started) ∧ ((s.spar i).fill ≠ none))) ∧
    (∃ s : State, ∃ q : Nat, ((s.served = true) ∧ (s.present q = true) ∧ (s.jobRuns q = true) ∧ ((s.part q).started.Nodup))) :=
    ⟨⟨openAll (base) fun s => [(manageUnit, s.tableRanges 0)], 0, by decide +kernel, portOpen_base _ _ _ (by decide +kernel)⟩,
    ⟨job { run := .filling }, 0, by decide +kernel⟩,
    ⟨job { run := .filling, fill := some {} }, 0, 0, by decide +kernel⟩,
    ⟨job { run := .running }, 0, by decide +kernel⟩⟩

/-- Concrete values that meet the hypotheses of `Obligations.CounterClears`, clause by clause. -/
theorem witness_CounterClears :
    (∃ s : State, ∃ q : Nat, ∃ val : Nat, ∃ c, ∃ obj, ∃ base, ∃ n, ((s.served = true) ∧ (s.present q = true) ∧ (val < 256 ∨ val = 0xFFFF)) ∧ ((c, obj, base, n) ∈ [((Instr.clearRangeCounters : Nat → Nat → Nat → Instr), 0x2120, 0x2200, 5), (.clearPruningCounters, 0x2501, 0x2600, 10)])) ∧
    (∃ s : State, ∃ q : Nat, ∃ c, ∃ obj, ∃ base, ∃ n, ((s.served = true) ∧ (s.present q = true)) ∧ ((c, obj, base, n) ∈ [((Instr.clearArrayCounters : Nat → Nat → Nat → Instr), 0x2301, 0x2310, 9), (.clearTackleCounters, 0x2401, 0x2410, 11)])) ∧
    (∃ s : State, ∃ q : Nat, ∃ val : Nat, ((s.served = true) ∧ (s.present q = true) ∧ (val < 256 ∨ val = 0xFFFF))) :=
    ⟨⟨base, 0, 255, .clearRangeCounters, 0x2120, 0x2200, 5, by decide +kernel, by simp⟩,
    ⟨base, 0, .clearTackleCounters, 0x2401, 0x2410, 11, by decide +kernel, by simp⟩,
    ⟨base, 0, 255, by decide +kernel⟩⟩

/-- Concrete values that meet the hypotheses of `Obligations.PruningRequests`, clause by clause. -/
theorem witness_PruningRequests :
    (∃ s : State, ∃ q : Nat, ∃ val : Nat, ((s.served = true) ∧ (s.present q = true) ∧ ((s.part q).upd = none) ∧ (val / 256 ∉ s.pruneBusy) ∧ (val / 256 ∈ s.towersOf q) ∧ (s.towerOut 0xA (val / 256) = false))) ∧
    (∃ s : State, ∃ t : Nat, ∃ r, ((s.live = true) ∧ (t ∈ s.pruneBusy) ∧ (s.towerOut 0xA t = false) ∧ (mapGet {} s.prune t = r) ∧ (r.boom = false) ∧ (s.poison = []) ∧ (s.pruneValid r.q (Desc.ofBytes (memRead s.dome r.addr 64)) (Desc.ofBytes (memRead s.dome (r.addr + 64) 64)) = false) ∧ ((s.part r.q).upd = none)) ∧ (portOpen s (pruneUnit t) (s.pruneRanges r))) ∧
    (∃ s : State, ∃ t : Nat, ∃ r, ∃ src, ∃ dst, ((s.live = true) ∧ (t ∈ s.pruneBusy) ∧ (s.towerOut 0xA t = false) ∧ (mapGet {} s.prune t = r) ∧ (r.boom = false) ∧ (s.poison = []) ∧ (s.pruneValid r.q src dst = true) ∧ ((s.part r.q).upd = none)) ∧ (portOpen s (pruneUnit t) (s.pruneRanges r)) ∧ (src = Desc.ofBytes (memRead s.dome r.addr 64)) ∧ (dst = Desc.ofBytes (memRead s.dome (r.addr + 64) 64))) ∧
    (∃ n, ∃ ms : List Nat, n ≤ ms.length ∧ 0 < n) :=
    ⟨⟨base, 0, 0x7FF, by decide +kernel⟩,
    ⟨openAll ({ base with pruneBusy := [7] }) fun s => [(pruneUnit 7, s.pruneRanges {})], 7, {}, by decide +kernel, portOpen_base _ _ _ (by decide +kernel)⟩,
    ⟨openAll ({ base with pruneBusy := [7], dome := memWrite [] 0 (leBytes 64 (12 * 2 ^ 462) ++ leBytes 64 (8 * 2 ^ 462 + 2 ^ 460 + 256 * 2 ^ 342 + 128 * 2 ^ 332 + 2 ^ 128)) }) fun s => [(pruneUnit 7, s.pruneRanges {})], 7, {}, _, _, by decide +kernel, portOpen_base _ _ _ (by decide +kernel), rfl, rfl⟩,
    ⟨2, [1, 1, 1, 1], by decide, by decide⟩⟩

/-- Concrete values that meet the hypotheses of `Obligations.DomeLines`, clause by clause. -/
theorem witness_DomeLines :
    (∃ s : State, ∃ line : Nat, ((s.live = true) ∧ (addrExists (64 * line) = true) ∧ (mapGet false s.poison line = false))) ∧
    (∃ s : State, ∃ line : Nat, ∃ err : LineErr, ∃ reader : Nat, s.live = true ∧ addrExists (64 * line) = true ∧ mapGet false s.poison line = false ∧ (err = .other ∨ (∃ a b, err = .twoDies a b)) ∧ reader ≠ 6) ∧
    (∃ s : State, ∃ line : Nat, ∃ err : LineErr, s.live = true ∧ addrExists (64 * line) = true ∧ mapGet false s.poison line = false ∧ (err = .other ∨ (∃ a b, err = .twoDies a b))) ∧
    (∃ s : State, ∃ line : Nat, ∃ k : Nat, let d := domeOf (64 * line); let er := s.odGet 0 (0x3020 + d) 3; ((s.live = true) ∧ (addrExists (64 * line) = true) ∧ (mapGet false s.poison line = false) ∧ (er = 0xFF ∨ er = k))) ∧
    (∃ s : State, ∃ d : Nat, let l := d * 2 ^ 31 + mapGet 0 s.scrubAt d; ((s.live = true) ∧ (mapGet false s.poison l = false)) ∧ (portOpen s manageUnit [(64 * l, 64)])) ∧
    (∃ s : State, (s.live = true)) ∧
    (∃ s : State, ∃ val : Nat, ((s.served = true) ∧ (3600 ≤ val) ∧ (val < 2 ^ 32))) ∧
    (∃ val : Nat, (val < 3600)) :=
    ⟨⟨base, 0, by decide +kernel⟩,
    ⟨base, 0, .twoDies 0 15, 0, by decide, by decide, by decide, .inr ⟨0, 15, rfl⟩, by decide⟩,
    ⟨base, 0, .other, by decide, by decide, by decide, .inl rfl⟩,
    ⟨base, 0, 15, by decide +kernel⟩,
    ⟨openTo (base) [(manageUnit, [(64 * (15 * 2 ^ 31), 64)])], 15, by decide +kernel, portOpen_base _ _ _ (by decide +kernel)⟩,
    ⟨base, by decide +kernel⟩,
    ⟨base, 3600, by decide +kernel⟩,
    ⟨3599, by decide +kernel⟩⟩

/-- Concrete values that meet the hypotheses of `Obligations.GrantOrder`, clause by clause. -/
theorem witness_GrantOrder :
    (∃ s : State, ∃ e : Nat, ∃ asks : List Nat, ∃ r g, (∀ r ∈ asks, r < 16) ∧ pickGrant s e asks = some (r, g) ∧ ∃ r' ∈ asks, s.cutOff e r' = false) ∧
    (∃ s : State, ∃ e : Nat, ∃ asks : List Nat, ∃ r g, (∀ r ∈ asks, r < 16) ∧ pickGrant s e asks = some (r, g) ∧ (let t := mapGet 0 (s.edge e).turn (s.rankOf e r); t ∈ asks ∧ s.cutOff e t = false ∧ s.rankOf e t = s.rankOf e r ∧ mapGet 0 (s.edge e).run (s.rankOf e r) < s.weightOf e t)) ∧
    (∃ s : State, ∃ t : Nat, ∃ data, ((s.served = true) ∧ (turnTableOk data = true) ∧ (t < 8))) ∧
    (∃ s : State, ∃ data, ((s.served = true) ∧ (turnTableOk data = true))) ∧
    (∃ s : State, ∃ e : Nat, ∃ sub : Nat, ∃ val : Nat, ((s.served = true) ∧ (settingFits e sub val = true) ∧ (sub < 16))) ∧
    (∃ e : Nat, ∃ sub : Nat, ∃ val : Nat, (settingFits e sub val = false)) ∧
    (∃ s : State, ∃ e : Nat, ∃ val : Nat, ((s.served = true) ∧ (edgeHas e val = true) ∧ (val < 16))) ∧
    (∃ s : State, ∃ i : Nat, ∃ val : Nat, ((s.served = true) ∧ (s.cxl.hdmCommitted = false) ∧ (segmentsOk (s.towerMask 0) (s.segments.set i (segmentOf (val / 2 ^ 13 * 2 ^ 13 % 2 ^ 32))) = true))) ∧
    (∃ s : State, (s.cxl.hdmCommitted = true)) ∧
    (∃ s : State, ∃ e : Nat, ∃ r : Nat, ∃ wait : Nat, ((s.live = true) ∧ (edgeHas e r = true) ∧ (s.setting e 1 < wait) ∧ (wait = s.waitOf e r) ∧ (r ∉ (s.edge e).starved))) ∧
    (∃ s : State, ∃ e : Nat, ∃ r : Nat, (r ∈ (s.edge e).starved)) ∧
    (∃ s : State, ∃ e : Nat, ∃ r : Nat, ((s.live = true) ∧ ((s.edge e).lock = some r) ∧ (s.setting e 2 < (s.edge e).held) ∧ (0 < r) ∧ (r < 8))) ∧
    (∃ s : State, ∃ e : Nat, ∃ r : Nat, ∃ i : Nat, ∃ t, ((s.live = true) ∧ ((s.edge e).lock = some r) ∧ (s.setting e 2 < (s.edge e).held) ∧ (e < 16) ∧ (i < 1024) ∧ (r = sparRequester i e) ∧ ((s.spar i).xfers = [t]) ∧ (t.kind = .dld ∨ t.kind = .dst) ∧ (t.done = false) ∧ (t.moved < t.len) ∧ (domeOf t.da = e)) ∧ ((∀ j, j ≠ i → (s.spar j).xfers = []))) ∧
    (∃ s : State, ∃ e : Nat, ((s.edge e).held ≤ s.setting e 2)) :=
    ⟨⟨base, 0, [0, 15], _, _, by decide, rfl, 15, by decide, by decide⟩,
    ⟨base, 0, [0, 15], _, _, by decide, rfl, by decide +kernel⟩,
    ⟨base, 7, List.replicate 256 0xFF, by decide +kernel⟩,
    ⟨base, List.replicate 256 0xFF, by decide +kernel⟩,
    ⟨base, 0, 1, 65535, by decide +kernel⟩,
    ⟨0, 1, 65536, by decide +kernel⟩,
    ⟨base, 0, 0, by decide +kernel⟩,
    ⟨base, 15, 0x80000000 + 8192, by decide +kernel⟩,
    ⟨{ base with cxl := { link := 3, hdmCommitted := true } }, by decide +kernel⟩,
    ⟨{ base with edges := [(15, { waits := [(6, 5000)] })] }, 15, 6, 5000, by decide +kernel⟩,
    ⟨{ base with edges := [(0, { starved := [0] })] }, 0, 0, by decide +kernel⟩,
    ⟨{ base with edges := [(0, { lock := some 7, held := 5000 })] }, 0, 7, by decide +kernel⟩,
    ⟨{ sp { xfers := [{ len := 64 }] } with edges := [(0, { lock := some 0, held := 5000 })] }, 0, 0, 0, { len := 64 }, by decide +kernel, fun j h => by simp [sp, State.spar, mapGet, Ne.symm h]⟩,
    ⟨base, 15, by decide +kernel⟩⟩

/-- Concrete values that meet the hypotheses of `Obligations.DomeTransfers`, clause by clause. -/
theorem witness_DomeTransfers :
    (∃ s : State, ∃ d : Nat, ∃ i : Nat, ∃ r : Nat, ∃ asks : BitVec 16, ∃ g, ∃ t, ((s.boot = .ready) ∧ (d < 16) ∧ (s.edgeBlocked d = false) ∧ (s.cxl.tracker = []) ∧ (s.domeQ = []) ∧ (s.poison = []) ∧ ((s.edge d).lock = none) ∧ ((s.takeWrites d asks).turnSpar d r = some i) ∧ (s.waitingAt i d = some t) ∧ ((s.spar i).xfers = [t]) ∧ (t.lock = false) ∧ (t.code = 0) ∧ (s.sparCutOff i t.da = false) ∧ (t.da % 64 = 0) ∧ (t.len % 64 = 0) ∧ (t.moved % 64 = 0)) ∧ (portGrant s d asks = some (r, g)) ∧ (r = 0 ∨ 8 ≤ r)) ∧
    (∃ s : State, ∃ unit, ∃ rs, ((portNeed rs ≠ []) ∧ (s.cxl.tracker = []) ∧ (s.unitCut unit rs = true)) ∧ ((∀ d, s.domeHeld d = false))) ∧
    (∃ s : State, ∃ unit, ∃ rs, ((portNeed rs ≠ []) ∧ (s.cxl.tracker = []) ∧ (s.unitCut unit rs = false) ∧ (s.askFor unit rs = none)) ∧ ((∀ d, s.domeHeld d = false))) ∧
    (∃ s : State, ∃ d : Nat, ∃ r : Nat, ∃ asks : BitVec 16, ∃ g, ∃ a, ((s.boot = .ready) ∧ (d < 16) ∧ (s.edgeBlocked d = false) ∧ (s.cxl.tracker = []) ∧ (s.domeQ = []) ∧ ((s.edge d).lock = none) ∧ (r ∈ [1, 2, 3, 6])) ∧ (portGrant s d asks = some (r, g)) ∧ ((s.takeWrites d asks).reqAsk d r = some a)) ∧
    (∃ m : Bytes, ∃ bs : Bytes, ((m.length = 64) ∧ (bs.length = 64))) ∧
    (∃ m : Bytes, ∃ bs : Bytes, ∃ j, ((m.length = 64) ∧ (bs.length = 64) ∧ (j < 16))) ∧
    (∃ m : Bytes, ∃ bs : Bytes, ∃ j, ((m.length = 64) ∧ (bs.length = 64) ∧ (j < 8))) ∧
    (∃ m : Bytes, ∃ bs : Bytes, ∃ j, ((m.length = 64) ∧ (bs.length = 64) ∧ (j < 16))) ∧
    (∃ m : Bytes, ∃ bs : Bytes, ∃ j, ((m.length = 64) ∧ (bs.length = 64) ∧ (j < 8))) :=
    ⟨⟨sp { xfers := [{ kind := .dld, len := 64 }] }, 0, 0, 0, 1, _, { kind := .dld, len := 64 }, by decide +kernel, rfl, .inl rfl⟩,
    ⟨od [(0x320004, 8)], engineUnit 0, [(0, 64)], by decide +kernel, held_base _ (by decide +kernel)⟩,
    ⟨base, engineUnit 0, [(0, 64)], by decide +kernel, held_base _ (by decide +kernel)⟩,
    ⟨{ base with asks := [{ unit := engineUnit 0, rs := [(0, 64)], left := [(0, 1)] }] }, 0, 3, 8, _, { unit := engineUnit 0, rs := [(0, 64)], left := [(0, 1)] }, by decide +kernel, rfl, rfl⟩,
    ⟨List.replicate 64 0, List.replicate 64 255, by decide +kernel⟩,
    ⟨List.replicate 64 0, List.replicate 64 255, 15, by decide +kernel⟩,
    ⟨List.replicate 64 0, List.replicate 64 255, 7, by decide +kernel⟩,
    ⟨List.replicate 64 0, List.replicate 64 255, 15, by decide +kernel⟩,
    ⟨List.replicate 64 0, List.replicate 64 255, 7, by decide +kernel⟩⟩

/-- Concrete values that meet the hypotheses of `Obligations.LinkStates`, clause by clause. -/
theorem witness_LinkStates :
    (∃ s : State, ∃ p : Nat, ∃ m, ((s.boot = .ready) ∧ (s.portState p = 1) ∧ (m.ver = 1) ∧ (unitId 5 p ∉ s.testing) ∧ ((s.port p).lastTrain ≠ some m))) ∧
    (∃ s : State, ∃ p : Nat, ∃ m, ((s.boot = .ready) ∧ (s.portState p = 1) ∧ (m.ver = 1) ∧ (unitId 5 p ∉ s.testing) ∧ ((s.port p).lastTrain = some m))) ∧
    (∃ s : State, ∃ p : Nat, ∃ old : Nat, ((s.boot = .ready) ∧ (s.portUp p = true) ∧ ((s.port p).fenced = false) ∧ (s.dark p = false) ∧ ((s.port p).trains - old + 1 < 5))) ∧
    (∃ s : State, ∃ k : Nat, ∃ p : Nat, ((s.boot = .ready) ∧ (p / 3 = k) ∧ (s.portUp p = true))) ∧
    (∃ s : State, ∃ k : Nat, ∃ p : Nat, ∃ old : Nat, ((s.boot = .ready) ∧ (p / 3 = k) ∧ (s.portState p = 4) ∧ ((s.port p).fenced = false) ∧ ((s.port p).trains - old + 1 < 5))) ∧
    (∃ s : State, ∃ p : Nat, ((s.served = true) ∧ (s.portState p = 3) ∧ ((s.port p).fenced = false) ∧ (s.dark p = false))) ∧
    (∃ s : State, ∃ p : Nat, ((s.served = true) ∧ ((s.port p).fenced = false))) ∧
    (∃ s : State, (s.boot = .ready)) :=
    ⟨⟨{ base with od := [(0x1100, 15), (0x401001, 1)] }, 0, { ver := 1 }, by decide +kernel⟩,
    ⟨{ base with od := [(0x1100, 15), (0x401001, 1)], ports := [(0, { lastTrain := some { ver := 1 } })] }, 0, { ver := 1 }, by decide +kernel⟩,
    ⟨lk { trains := 3 }, 0, 0, by decide +kernel⟩,
    ⟨lk {}, 0, 0, by decide +kernel⟩,
    ⟨{ base with od := [(0x1100, 15), (0x401001, 4)], ports := [(0, { trains := 3 })] }, 0, 0, 0, by decide +kernel⟩,
    ⟨{ base with od := [(0x1100, 15), (0x401001, 3)] }, 0, by decide +kernel⟩,
    ⟨lk {}, 0, by decide +kernel⟩,
    ⟨base, by decide +kernel⟩⟩

/-- Concrete values that meet the hypotheses of `Obligations.LinkProtocol`, clause by clause. -/
theorem witness_LinkProtocol :
    (∃ s : State, ∃ p : Nat, ∃ errs, ∃ data, ∃ ctl, ∃ crc, ∃ par, ∃ ws, ((s.boot = .ready) ∧ (s.portUp p = true) ∧ (arrivalGood ws = true) ∧ (arrivalSeq ws = (s.port p).rxSeq) ∧ (laneOf (arrivalPacket ws).kind = some (arrivalPacket ws).vl)) ∧ (ws = lineWords errs data ctl crc par)) ∧
    (∃ s : State, ∃ p : Nat, ∃ errs, ∃ data, ∃ ctl, ∃ crc, ∃ par, ∃ ws, ((s.boot = .ready) ∧ (s.portUp p = true) ∧ (arrivalGood ws = true) ∧ (arrivalSeq ws ≠ (s.port p).rxSeq)) ∧ (ws = lineWords errs data ctl crc par)) ∧
    (∃ s : State, ∃ p : Nat, ∃ errs, ∃ data, ∃ ctl, ∃ crc, ∃ par, ∃ ws, ((s.boot = .ready) ∧ (s.portUp p = true) ∧ (flitsOf 1 ws ≠ []) ∧ (arrivalGood ws = false) ∧ (arrivalSeq ws = (s.port p).rxSeq)) ∧ (ws = lineWords errs data ctl crc par)) ∧
    (∃ s : State, ∃ p : Nat, ((s.boot = .ready) ∧ (s.portUp p = true) ∧ ((∀ r ∈ (s.port p).replay, r.due = false)))) ∧
    (∃ s : State, ∃ p : Nat, ∃ r, ∃ rs, ((s.boot = .ready) ∧ (s.portUp p = true) ∧ ((s.port p).replay = r :: rs) ∧ (r.retries < 3))) ∧
    (∃ s : State, ∃ p : Nat, ∃ old : Nat, ∃ r, ∃ rs, ((s.boot = .ready) ∧ (s.portUp p = true) ∧ ((s.port p).replay = r :: rs) ∧ (r.retries = 3) ∧ ((s.port p).fenced = false) ∧ (s.dark p = false) ∧ ((s.port p).trains - old + 1 < 5))) ∧
    (∃ s : State, ∃ p : Nat, ∃ seq : Nat, ∃ delay : Nat, ((s.boot = .ready) ∧ (seq ∈ (s.port p).ackDue) ∧ (1562 < delay))) ∧
    (∃ s : State, ∃ p : Nat, ((s.boot = .ready) ∧ (s.portUp p = true) ∧ ((s.port p).replay = []) ∧ ((s.port p).auditing = false))) ∧
    (∃ s : State, ∃ p : Nat, ((s.boot = .ready) ∧ (s.portUp p = true))) ∧
    (∃ s : State, ∃ p : Nat, ∃ occ, ∃ ret, ((s.boot = .ready) ∧ (s.portUp p = true) ∧ ((s.port p).auditing = true) ∧ ((∀ v < 4, creditsOk (s.port p) occ ret v = true)))) ∧
    (∃ s : State, ∃ p : Nat, ∃ old : Nat, ∃ v : Nat, ∃ occ, ∃ ret, ((s.boot = .ready) ∧ (s.portUp p = true) ∧ ((s.port p).auditing = true) ∧ (v < 4) ∧ (creditsOk (s.port p) occ ret v = false) ∧ ((s.port p).fenced = false) ∧ (s.dark p = false) ∧ ((s.port p).trains - old + 1 < 5))) :=
    ⟨⟨lk {}, 0, [8], [padTo 64 [0, 0, 0, 0, 0x11], padTo 64 []], [1543503872, 0], [986490322, 3624748776], [[7, 187, 169, 135, 57, 1, 95, 204, 156, 34, 41, 253, 193, 170, 50, 189]], _, by decide +kernel, rfl⟩,
    ⟨lk {}, 0, [0], [padTo 64 [0, 0, 0, 0, 0x11], padTo 64 []], [1543569407, 0], [877842944, 3624748776], [[74, 97, 105, 107, 247, 217, 131, 49, 78, 221, 149, 22, 40, 142, 201, 72]], _, by decide +kernel, rfl⟩,
    ⟨lk {}, 0, [0], [padTo 64 [0, 0, 0, 0, 0x11], padTo 64 []], [1543503872, 0], [986490323, 3624748776], [[7, 187, 169, 135, 57, 1, 95, 204, 156, 34, 41, 253, 193, 170, 50, 189]], _, by decide +kernel, rfl⟩,
    ⟨lk {}, 0, by decide +kernel⟩,
    ⟨lk { replay := [{ retries := 2 }] }, 0, { retries := 2 }, [], by decide +kernel⟩,
    ⟨lk { replay := [{ retries := 3 }], trains := 3 }, 0, 0, { retries := 3 }, [], by decide +kernel⟩,
    ⟨lk { ackDue := [65535] }, 0, 65535, 1563, by decide +kernel⟩,
    ⟨lk {}, 0, by decide +kernel⟩,
    ⟨lk {}, 0, by decide +kernel⟩,
    ⟨lk { auditing := true }, 0, [], [], by decide +kernel⟩,
    ⟨lk { auditing := true }, 0, 0, 3, [0, 0, 0, 1], [], by decide +kernel⟩⟩

/-- Concrete values that meet the hypotheses of `Obligations.PacketRouting`, clause by clause. -/
theorem witness_PacketRouting :
    (∃ s : State, ∃ p : Nat, ∃ v : Nat, ∃ r, ∃ rs, ((s.boot = .ready) ∧ (mapGet [] (s.port p).ingress v = r :: rs) ∧ (r.stale = false) ∧ (r.pkt.dlid = s.ownLid) ∧ (r.pkt.kind ≠ 0x10) ∧ (s.standby = false) ∧ (s.deliveryRoom r.pkt = true))) ∧
    (∃ s : State, ∃ p : Nat, ∃ v : Nat, ∃ k : Nat, ∃ r, ∃ rs, ((s.boot = .ready) ∧ (mapGet [] (s.port p).ingress v = r :: rs) ∧ (r.pkt.dlid ≠ s.ownLid) ∧ (r.pkt.hops ≠ 0) ∧ (s.routePort { r.pkt with hops := r.pkt.hops - 1 } none = some k) ∧ (s.egressRoom k { r.pkt with hops := r.pkt.hops - 1 } = true))) ∧
    (∃ s : State, ∃ p : Nat, ∃ v : Nat, ∃ r, ∃ rs, ((s.boot = .ready) ∧ (mapGet [] (s.port p).ingress v = r :: rs) ∧ (r.pkt.dlid ≠ s.ownLid) ∧ (r.pkt.hops = 0))) ∧
    (∃ s : State, ∃ slot : Bool, ∃ i : Nat, ((s.served = true) ∧ (i < 256) ∧ ((s.blobGet 0 (if slot then 0x4101 else 0x4100) 0).length = 2048))) ∧
    (∃ s : State, ∃ k, ∃ r, ((s.live = true) ∧ (s.delivery = k :: r) ∧ (k.kind = 0x20 ∨ k.kind = 0x21) ∧ (s.standby = false) ∧ (s.present k.qdst = true) ∧ (s.rangeInMap k.qdst (accessOf k).addr (accessOf k).len = true)) ∧ ((∃ w < 16, s.windowGrants (accessOf k) w = true))) ∧
    (∃ s : State, ∃ k, ∃ r, ((s.live = true) ∧ (s.delivery = k :: r) ∧ (k.kind = 0x20 ∨ k.kind = 0x21) ∧ (s.standby = false) ∧ (s.present k.qdst = true) ∧ (s.rangeInMap k.qdst (accessOf k).addr (accessOf k).len = true) ∧ ((∀ w < 16, s.windowGrants (accessOf k) w = false)))) ∧
    (∃ s : State, ∃ k, ∃ r, ∃ i, ∃ n, ∃ x, ((s.live = true) ∧ (s.delivery = k :: r) ∧ (k.kind = 0x22) ∧ (s.tierAnswer k = false) ∧ (s.matchAnswer k.qdst k.slid (fieldAt k.payload 0 2) = some (i, n, x)) ∧ (fieldAt k.payload 2 1 = 0) ∧ (x.kind = .fqRead) ∧ ((s.spar i).xfers = [x]) ∧ (n = 0))) :=
    ⟨⟨lk { ingress := [(3, [{ pkt := { kind := 0x22, vl := 3 } }])] }, 0, 3, { pkt := { kind := 0x22, vl := 3 } }, [], by decide +kernel⟩,
    ⟨{ base with od := [(0x1100, 15), (0x401001, 2)], ports := [(0, { ingress := [(0, [{ pkt := { dlid := 1, hops := 1 } }])] })], blobs := [(0x410100, leBytes 8 0 ++ leBytes 8 1)] }, 0, 0, 0, { pkt := { dlid := 1, hops := 1 } }, [], by decide +kernel⟩,
    ⟨lk { ingress := [(0, [{ pkt := { dlid := 1 } }])] }, 0, 0, { pkt := { dlid := 1 } }, [], by decide +kernel⟩,
    ⟨base, true, 255, by decide +kernel⟩,
    ⟨{ base with delivery := [{ kind := 0x21, vl := 1, payload := leBytes 8 0 ++ leBytes 2 64 ++ leBytes 2 7 }], od := [(0x1100, 15), (0x420002, 64), (0x420005, 3)] }, { kind := 0x21, vl := 1, payload := leBytes 8 0 ++ leBytes 2 64 ++ leBytes 2 7 }, [], by decide +kernel, ⟨0, by decide, by decide⟩⟩,
    ⟨{ base with delivery := [{ kind := 0x21, vl := 1, payload := leBytes 8 0 ++ leBytes 2 64 ++ leBytes 2 7 }] }, { kind := 0x21, vl := 1, payload := leBytes 8 0 ++ leBytes 2 64 ++ leBytes 2 7 }, [], by decide +kernel⟩,
    ⟨{ sp { xfers := [{ kind := .fqRead, ep := 0, len := 64, sent := true }] } with delivery := [{ kind := 0x22, vl := 3 }] }, { kind := 0x22, vl := 3 }, [], 0, 0, { kind := .fqRead, ep := 0, len := 64, sent := true }, by decide +kernel⟩⟩

/-- Concrete values that meet the hypotheses of `Obligations.HostLink`, clause by clause. -/
theorem witness_HostLink :
    (∃ s : State, (s.cxl.perst = true)) ∧
    (∃ s : State, ∃ w, s.cxl.link = 1 ∧ (w = 4 ∨ w = 8 ∨ w = 16)) ∧
    (∃ s : State, (s.cxl.link = 2 ∨ s.cxl.link = 3)) ∧
    (∃ s : State, (s.cxl.link = 2 ∨ s.cxl.link = 3)) ∧
    (∃ s : State, (s.cxl.link = 2 ∨ s.cxl.link = 3)) :=
    ⟨⟨State.reset, by decide +kernel⟩,
    ⟨{ base with cxl := { link := 1 } }, 16, rfl, .inr (.inr rfl)⟩,
    ⟨base, by decide +kernel⟩,
    ⟨base, by decide +kernel⟩,
    ⟨base, by decide +kernel⟩⟩

/-- Concrete values that meet the hypotheses of `Obligations.HostRegisters`, clause by clause. -/
theorem witness_HostRegisters :
    (∃ s : State, ((s.cxl.link = 3) ∧ (s.fwReady = false))) ∧
    (∃ s : State, ((s.cxl.link = 3) ∧ (s.fwReady = true))) ∧
    (∃ s : State, ((s.cxl.link = 3) ∧ (s.fwReady = true))) ∧
    (∃ s : State, ((s.barOk = true) ∧ (s.mailboxBusy = false))) ∧
    (∃ s : State, ∃ o, ((s.barOk = true) ∧ (s.mailboxBusy = false) ∧ (0x31000 ≤ o) ∧ (o < 0x32000) ∧ (o % 4 = 0))) ∧
    (∃ s : State, ((s.barOk = true) ∧ (s.cxl.ringEnable = false))) ∧
    (∃ s : State, ((s.barOk = true) ∧ (s.cxl.ringEnable = true))) ∧
    (∃ s : State, ∃ o, ((s.barOk = true) ∧ (o % 4 ≠ 0))) ∧
    (∃ s : State, ((s.barOk = false) ∧ (s.barUr = true))) ∧
    (∃ s : State, ((s.barOk = true) ∧ (s.mailboxBusy = false))) ∧
    (∃ s : State, ∃ o, ((s.barOk = true) ∧ (s.mailboxBusy = false) ∧ (0x31000 ≤ o) ∧ (o < 0x32000) ∧ (o % 4 = 0))) ∧
    (∃ s : State, ((s.barOk = true) ∧ (s.cxl.ringEnable = false))) ∧
    (∃ s : State, (s.barOk = true)) ∧
    (∃ s : State, ((s.barOk = true) ∧ (s.cxl.mbxState < 8))) ∧
    (∃ s : State, (s.barOk = true)) ∧
    (∃ s : State, ∃ o, ((s.barOk = true) ∧ (0x35000 ≤ o) ∧ (o % 4 = 0))) ∧
    (∃ s : State, ∃ o, ∃ n, (s.barOk = false ∨ (n ≠ 4 ∧ n ≠ 8) ∨ o % 4 ≠ 0)) :=
    ⟨⟨{ base with od := [] }, by decide +kernel⟩,
    ⟨base, by decide +kernel⟩,
    ⟨base, by decide +kernel⟩,
    ⟨base, by decide +kernel⟩,
    ⟨base, 0x31FFC, by decide +kernel⟩,
    ⟨base, by decide +kernel⟩,
    ⟨hp { ringEnable := true }, by decide +kernel⟩,
    ⟨base, 0x31002, by decide +kernel⟩,
    ⟨{ base with cxl := { link := 2, perst := false } }, by decide +kernel⟩,
    ⟨base, by decide +kernel⟩,
    ⟨base, 0x31FFC, by decide +kernel⟩,
    ⟨base, by decide +kernel⟩,
    ⟨base, by decide +kernel⟩,
    ⟨hp { mbxState := 3 }, by decide +kernel⟩,
    ⟨base, by decide +kernel⟩,
    ⟨base, 0x1FFFFC, by decide +kernel⟩,
    ⟨base, 2, 4, by decide +kernel⟩⟩

/-- Concrete values that meet the hypotheses of `Obligations.HostMemory`, clause by clause. -/
theorem witness_HostMemory :
    (∃ s : State, ∃ hpa, ((s.memOk = true) ∧ (s.boot = .ready) ∧ (s.hpaTo (hpa / 64 * 64) = none))) ∧
    (∃ s : State, ∃ hpa, ∃ a, ((s.memOk = true) ∧ (s.boot = .ready) ∧ (s.hpaTo (hpa / 64 * 64) = some a) ∧ (domeOf a ∉ s.domeOff))) ∧
    (∃ s : State, ∃ hpa, ((s.memOk = true) ∧ (s.boot = .ready) ∧ (s.hpaTo (hpa / 64 * 64) = none))) ∧
    (∃ s : State, ∃ hpa, ∃ a, ((s.memOk = true) ∧ (s.boot = .ready) ∧ (s.hpaTo (hpa / 64 * 64) = some a) ∧ (domeOf a ∉ s.domeOff))) ∧
    (∃ s : State, (s.barOk = true)) ∧
    (∃ s : State, ∃ size, ∃ w, ∃ b, ((s.barOk = true) ∧ (size ≠ s.windowBytes ∨ w = false ∨ b = false))) ∧
    (∃ g : Segment, ∃ x, ((g.valid = true) ∧ (x < g.len * 2 ^ 30))) ∧
    (∃ g : Segment, ∃ x, ((g.valid = true) ∧ (g.len * 2 ^ 30 ≤ x))) ∧
    (∃ l, ∃ x, ∃ a, (windowAddr x l = some a)) ∧
    (∃ s : State, ∃ line, ((line ∈ s.cxl.biPending) ∧ (line ∉ s.cxl.biUnsent))) ∧
    (∃ s : State, (s.memOk = true)) ∧
    (∃ s : State, ∃ d, ∃ delay, ((s.cxl.link = 3) ∧ (s.boot ≠ .contained) ∧ (s.boot ≠ .stopped) ∧ (d < 16) ∧ (10000 < delay) ∧ ((∃ a ∈ mapGet [] s.domeQ d, a.what = .read ∧ a.req = 4 ∧ a.late = false)))) ∧
    (∃ s : State, ∃ d, ∃ delay, ((s.cxl.link = 3) ∧ (s.boot ≠ .contained) ∧ (s.boot ≠ .stopped) ∧ (d < 16) ∧ (10000 < delay) ∧ ((∀ a ∈ mapGet [] s.domeQ d, a.what = .read → a.req = 4 → a.late = true)))) ∧
    (∃ delay, (delay ≤ 10000)) ∧
    (∃ s : State, (s.cxl.ideMem = true)) ∧
    (∃ s : State, (s.cxl.ideIo = true)) :=
    ⟨⟨base, 0, by decide +kernel⟩,
    ⟨{ base with cxl := { link := 3, hdmCommitted := true, hdmSize := 2 ^ 30 }, od := [(0x1100, 15), (0x310001, 0x80002000)] }, 2 ^ 30 - 1, 2 ^ 30 - 64, by decide +kernel⟩,
    ⟨{ base with cxl := { link := 3, hdmCommitted := true, hdmSize := 2 ^ 30 }, od := [(0x1100, 15), (0x310001, 0x80002000)] }, 2 ^ 30, by decide +kernel⟩,
    ⟨{ base with cxl := { link := 3, hdmCommitted := true, hdmSize := 2 ^ 30 }, od := [(0x1100, 15), (0x310001, 0x80002000)] }, 0, 0, by decide +kernel⟩,
    ⟨base, by decide +kernel⟩,
    ⟨base, 1, true, true, by decide +kernel⟩,
    ⟨({ valid := true, dome := 15, start := 0, len := 96 } : Segment), 96 * 2 ^ 30 - 1, by decide +kernel⟩,
    ⟨({ valid := true, dome := 15, start := 0, len := 96 } : Segment), 96 * 2 ^ 30, by decide +kernel⟩,
    ⟨[({ valid := true, dome := 15, start := 0, len := 96 } : Segment)], 0, 15 * 2 ^ 37, by decide +kernel⟩,
    ⟨hp { biPending := [7] }, 7, by decide +kernel⟩,
    ⟨base, by decide +kernel⟩,
    ⟨{ base with domeQ := [(15, [{ what := .read, req := 4 }])] }, 15, 10001, by decide +kernel⟩,
    ⟨base, 15, 10001, by decide +kernel⟩,
    ⟨10000, by decide +kernel⟩,
    ⟨hp { ideMem := true }, by decide +kernel⟩,
    ⟨hp { ideIo := true }, by decide +kernel⟩⟩

/-- Concrete values that meet the hypotheses of `Obligations.MailboxAndRing`, clause by clause. -/
theorem witness_MailboxAndRing :
    (∃ s : State, ∃ b, ((s.barOk = true) ∧ (s.mailboxBusy = false)) ∧ (s.mailboxCopy = some b)) ∧
    (∃ s : State, ((s.barOk = true) ∧ (s.mailboxBusy = true))) ∧
    (∃ s : State, ((s.barOk = true) ∧ (s.answers? = true) ∧ (s.mailboxBusy = false) ∧ (s.cxl.mbxLen.toNat < 1 ∨ 4096 < s.cxl.mbxLen.toNat))) ∧
    (∃ s : State, ∃ b : Bytes, s.answers? = true ∧ s.cxl.mbxState = 2 ∧ s.cxl.mbxAns = some b) ∧
    (∃ s : State, ∃ delay, ((s.answers? = true) ∧ (s.cxl.mbxState = 1) ∧ (s.cxl.mbxLate = false) ∧ (1000 < delay))) ∧
    (∃ s : State, (s.cxl.mbxLate = true)) ∧
    (∃ s : State, ∃ l, ((s.barOk = true) ∧ (s.cxl.ringEnable = false) ∧ (6 ≤ l) ∧ (l ≤ 16))) ∧
    (∃ s : State, ((s.barOk = true) ∧ (s.cxl.ringEnable = true))) ∧
    (∃ s : State, ∃ v, ((s.barOk = true) ∧ ((v - s.cxl.ringCons).toNat ≤ (s.cxl.ringProd - s.cxl.ringCons).toNat))) ∧
    (∃ s : State, ∃ v, ((s.barOk = true) ∧ ((s.cxl.ringProd - s.cxl.ringCons).toNat < (v - s.cxl.ringCons).toNat))) ∧
    (∃ s : State, ∃ v, ((s.barOk = true) ∧ (v < 64) ∧ ((∀ w < 64, w ≠ v → s.cxl.msixPba.getLsbD w = true → s.msixMasked w = true)))) :=
    ⟨⟨hp { mbxLen := 16, mbxReqBuf := memWrite [] 0 (merecBytes .read { index := 0x11 }) }, _, by decide +kernel, rfl⟩,
    ⟨mb .read {}, by decide +kernel⟩,
    ⟨hp { mbxLen := 4097 }, by decide +kernel⟩,
    ⟨hp { mbxState := 2, mbxAns := some [0] }, [0], by decide +kernel⟩,
    ⟨mb .read {}, 1001, by decide +kernel⟩,
    ⟨hp { mbxLate := true }, by decide +kernel⟩,
    ⟨base, 16, by decide +kernel⟩,
    ⟨hp { ringEnable := true }, by decide +kernel⟩,
    ⟨hp { ringProd := 1 }, 1, by decide +kernel⟩,
    ⟨hp { ringProd := 1 }, 2, by decide +kernel⟩,
    ⟨hp { msixPba := 2 ^ 63 }, 63, by decide +kernel⟩⟩

/-- Concrete values that meet the hypotheses of `Obligations.MerecEncoding`, clause by clause. -/
theorem witness_MerecEncoding :
    (∃ m : Merec, (merecFits m)) :=
    ⟨{ token := 65535, index := 65535, sub := 255, qsel := 255, offset := 2 ^ 32 - 1, length := 2 ^ 32 - 1, data := [255] }, by decide +kernel⟩

/-- Concrete values that meet the hypotheses of `Obligations.DictionaryOperations`, clause by clause. -/
theorem witness_DictionaryOperations :
    (∃ s : State, ∃ m t, s.served = true ∧ s.deferredBy .cxl < 8 ∧ s.lookup .cxl m.index m.sub m.qsel = .ok t ∧ s.inMailbox .read m = true ∧ malformed .read .cxl m = false ∧ s.denied .read .cxl t m = false ∧ s.mismatched .read .cxl t m = false) ∧
    (∃ s : State, ∃ m t, s.served = true ∧ s.deferredBy .cxl < 8 ∧ s.lookup .cxl m.index m.sub m.qsel = .ok t ∧ s.inMailbox .readSeg m = true ∧ malformed .readSeg .cxl m = false ∧ s.denied .readSeg .cxl t m = false ∧ s.mismatched .readSeg .cxl t m = false ∧ m.offset + m.length ≤ (s.valueBytes t m.index m.sub).length) ∧
    (∃ s : State, ∃ m t, s.served = true ∧ s.deferredBy .cxl < 8 ∧ s.lookup .cxl m.index m.sub m.qsel = .ok t ∧ s.inMailbox .readSeg m = true ∧ malformed .readSeg .cxl m = false ∧ s.denied .readSeg .cxl t m = false ∧ s.mismatched .readSeg .cxl t m = false ∧ (s.valueBytes t m.index m.sub).length < m.offset + m.length) ∧
    (∃ s : State, ∃ m t, s.served = true ∧ s.deferredBy .cxl < 8 ∧ s.lookup .cxl m.index m.sub m.qsel = .ok t ∧ s.inMailbox .readRec m = true ∧ malformed .readRec .cxl m = false ∧ s.denied .readRec .cxl t m = false ∧ s.mismatched .readRec .cxl t m = false) ∧
    (∃ s : State, ∃ m t, s.served = true ∧ s.deferredBy .cxl < 8 ∧ s.lookup .cxl m.index m.sub m.qsel = .ok t ∧ s.inMailbox .describe m = true ∧ malformed .describe .cxl m = false ∧ s.denied .describe .cxl t m = false ∧ s.mismatched .describe .cxl t m = false) ∧
    (∃ c, ∃ op, ∃ s : State, ∃ m, ((s.served = true) ∧ (s.inMailbox op m = true) ∧ (malformed op .cxl m = true)) ∧ ((c, op) ∈ merecRows)) ∧
    (∃ c, ∃ op, ∃ s : State, ∃ m, ∃ e, ((s.served = true) ∧ (s.inMailbox op m = true) ∧ (malformed op .cxl m = false) ∧ (e ≠ 0) ∧ (e ≠ 2) ∧ (e ≠ 7)) ∧ ((c, op) ∈ merecRows) ∧ (s.lookup .cxl m.index m.sub m.qsel = .error e)) ∧
    (∃ c, ∃ op, ∃ s : State, ∃ m, ∃ t, ((s.served = true) ∧ (s.inMailbox op m = true) ∧ (malformed op .cxl m = false) ∧ (s.denied op .cxl t m = true)) ∧ ((c, op) ∈ merecRows) ∧ (s.lookup .cxl m.index m.sub m.qsel = .ok t)) ∧
    (∃ c, ∃ op, ∃ s : State, ∃ m, ∃ t, ((s.served = true) ∧ (s.inMailbox op m = true) ∧ (malformed op .cxl m = false) ∧ (s.denied op .cxl t m = false) ∧ (s.mismatched op .cxl t m = true)) ∧ ((c, op) ∈ merecRows) ∧ (s.lookup .cxl m.index m.sub m.qsel = .ok t)) ∧
    (∃ s : State, ∃ m, ∃ t, ((s.served = true) ∧ (s.deferredBy .cxl < 8) ∧ (s.inMailbox .write m = true) ∧ (malformed .write .cxl m = false) ∧ (s.denied .write .cxl t m = false) ∧ (s.mismatched .write .cxl t m = false) ∧ (s.startWaits .write .cxl m = none)) ∧ (s.lookup .cxl m.index m.sub m.qsel = .ok t)) ∧
    (∃ v, (v % 64 ≠ 0)) ∧
    (∃ v, (v % 64 = 0)) :=
    ⟨⟨mb .read { index := 0x11, length := 4 }, { index := 0x11, length := 4 }, _, by decide +kernel, by decide +kernel, rfl, by decide +kernel, by decide +kernel, by decide +kernel, by decide +kernel⟩,
    ⟨mb .readSeg { index := 0x8100, sub := 1, offset := 131, length := 1 }, { index := 0x8100, sub := 1, offset := 131, length := 1 }, _, by decide +kernel, by decide +kernel, rfl, by decide +kernel, by decide +kernel, by decide +kernel, by decide +kernel, by decide +kernel⟩,
    ⟨mb .readSeg { index := 0x8100, sub := 1, offset := 132, length := 1 }, { index := 0x8100, sub := 1, offset := 132, length := 1 }, _, by decide +kernel, by decide +kernel, rfl, by decide +kernel, by decide +kernel, by decide +kernel, by decide +kernel, by decide +kernel⟩,
    ⟨mb .readRec { index := 0x10 }, { index := 0x10 }, _, by decide +kernel, by decide +kernel, rfl, by decide +kernel, by decide +kernel, by decide +kernel, by decide +kernel⟩,
    ⟨mb .describe { index := 0x11 }, { index := 0x11 }, _, by decide +kernel, by decide +kernel, rfl, by decide +kernel, by decide +kernel, by decide +kernel, by decide +kernel⟩,
    ⟨.read, .read, mb .read { index := 0x11, qsel := 4 }, { index := 0x11, qsel := 4 }, by decide +kernel, by simp [merecRows]⟩,
    ⟨.read, .read, mb .read { index := 0xFFFF }, { index := 0xFFFF }, _, by decide +kernel, by simp [merecRows], rfl⟩,
    ⟨.write, .write, mb .write { index := 0x11, length := 4, data := [0, 0, 0, 0] }, { index := 0x11, length := 4, data := [0, 0, 0, 0] }, _, by decide +kernel, by simp [merecRows], rfl⟩,
    ⟨.write, .write, mb .write { index := 0x9001, sub := 2, length := 2, data := [0, 0] }, { index := 0x9001, sub := 2, length := 2, data := [0, 0] }, _, by decide +kernel, by simp [merecRows], rfl⟩,
    ⟨mb .write { index := 0x9001, sub := 2, length := 1, data := [3] }, { index := 0x9001, sub := 2, length := 1, data := [3] }, _, by decide +kernel, rfl⟩,
    ⟨63, by decide +kernel⟩,
    ⟨64, by decide +kernel⟩⟩

/-- Concrete values that meet the hypotheses of `Obligations.SettingsInUse`, clause by clause. -/
theorem witness_SettingsInUse :
    (∃ s : State, ∃ q : Nat, (s.jobRuns q = true)) ∧
    (∃ s : State, ∃ q : Nat, (s.jobRuns q = false)) ∧
    (∃ s : State, ∃ q : Nat, (s.jobRuns q = false)) ∧
    (∃ s : State, ∃ q : Nat, (s.jobRuns q = false)) ∧
    (∃ s : State, ∃ q : Nat, ∃ v : Nat, ((s.jobRuns q = false) ∧ (v ≠ 0))) ∧
    (∃ s : State, ∃ q : Nat, (s.jobRuns q = false)) ∧
    (∃ s : State, ∃ q : Nat, ((s.jobRuns q = false) ∧ (s.startFenced q = false))) :=
    ⟨⟨job {}, 0, by decide +kernel⟩,
    ⟨base, 0, by decide +kernel⟩,
    ⟨base, 0, by decide +kernel⟩,
    ⟨base, 0, by decide +kernel⟩,
    ⟨base, 0, 1, by decide +kernel⟩,
    ⟨base, 0, by decide +kernel⟩,
    ⟨base, 0, by decide +kernel⟩⟩

/-- Concrete values that meet the hypotheses of `Obligations.WriteSessions`, clause by clause. -/
theorem witness_WriteSessions :
    (∃ s : State, ∃ m : Merec, ((m.offset = 0) ∧ (m.last = false) ∧ (s.sessions = []))) ∧
    (∃ s : State, ∃ t : Target, ∃ m : Merec, ∃ x : Session, ((m.offset = x.data.length) ∧ (m.offset ≠ 0) ∧ (m.last = false) ∧ (s.sessions = [x]) ∧ (x.req = 0) ∧ (x.q = t.q) ∧ (x.obj = m.index * 256 + m.sub))) ∧
    (∃ s : State, ∃ t : Target, ∃ m : Merec, ∃ x : Session, ((m.offset ≠ x.data.length) ∧ (m.offset ≠ 0) ∧ (s.sessions = [x]) ∧ (x.req = 0) ∧ (x.q = t.q) ∧ (x.obj = m.index * 256 + m.sub))) ∧
    (∃ s : State, ∃ t : Target, ∃ m : Merec, ∃ x : Session, ((m.offset = x.data.length) ∧ (m.offset ≠ 0) ∧ (m.last = true) ∧ (s.sessions = [x]) ∧ (x.req = 0) ∧ (x.q = t.q) ∧ (x.obj = m.index * 256 + m.sub) ∧ (sizeFits t.row m.index m.sub (x.data ++ m.data).length = false))) ∧
    (∃ s : State, ∃ m : Merec, ∃ t : Target, ((s.served = true) ∧ (s.deferredBy .cxl < 8) ∧ (s.inMailbox .writeSeg m = true) ∧ (malformed .writeSeg .cxl m = false) ∧ (s.denied .writeSeg .cxl t m = false) ∧ (s.mismatched .writeSeg .cxl t m = false)) ∧ (s.lookup .cxl m.index m.sub m.qsel = .ok t)) ∧
    (∃ s : State, (s.served = true)) ∧
    (∃ s : State, ∃ eid, ∃ d, ∃ r, ((s.served = true) ∧ (s.deferred = d :: r) ∧ (d.req = 0x20000 + eid))) ∧
    (∃ s : State, ∃ delay, ((s.served = true) ∧ (2000 < delay))) ∧
    (∃ delay, (delay ≤ 2000)) :=
    ⟨⟨base, ({ index := 0x1100, sub := 1, data := [7] } : Merec), by decide +kernel⟩,
    ⟨{ base with sessions := [{ obj := 0x110001, data := [7] }] }, ⟨⟨0x1100, 0x1100, 1, 1, .blob, .rwp, .part, 0, 262144, true⟩, 0, 0, 0x80⟩, { index := 0x1100, sub := 1, offset := 1 }, { obj := 0x110001, data := [7] }, by decide +kernel⟩,
    ⟨{ base with sessions := [{ obj := 0x110001, data := [7] }] }, ⟨⟨0x1100, 0x1100, 1, 1, .blob, .rwp, .part, 0, 262144, true⟩, 0, 0, 0x80⟩, { index := 0x1100, sub := 1, offset := 2 }, { obj := 0x110001, data := [7] }, by decide +kernel⟩,
    ⟨{ base with sessions := [{ obj := 0x110001, data := [7] }] }, ⟨⟨0x1100, 0x1100, 1, 1, .blob, .rwp, .part, 0, 1, true⟩, 0, 0, 0x80⟩, { index := 0x1100, sub := 1, offset := 1, last := true, data := [7] }, { obj := 0x110001, data := [7] }, by decide +kernel⟩,
    ⟨mb .writeSeg { index := 0x1100, sub := 1, length := 1, data := [7] }, { index := 0x1100, sub := 1, length := 1, data := [7] }, _, by decide +kernel, rfl⟩,
    ⟨base, by decide +kernel⟩,
    ⟨{ base with deferred := [{ req := 0x20000 + 255 }] }, 255, { req := 0x20000 + 255 }, [], by decide +kernel⟩,
    ⟨base, 2001, by decide +kernel⟩,
    ⟨2000, by decide +kernel⟩⟩

/-- Concrete values that meet the hypotheses of `Obligations.PartitionPlan`, clause by clause. -/
theorem witness_PartitionPlan :
    (∃ s : State, ((s.served = true) ∧ (s.stillRuns 0x100102 0 = false) ∧ (s.planOk (s.blobGet 0 0x1001 1) = false))) ∧
    (∃ s : State, ((s.served = true) ∧ (s.stillRuns 0x100102 0 = false) ∧ (s.planOk (s.blobGet 0 0x1001 1) = true) ∧ ((∀ q < 4, s.jobRuns q = false)) ∧ (s.movedDomes (s.blobGet 0 0x1001 1) ≠ []))) ∧
    (∃ s : State, ∃ r, ((s.served = true) ∧ (s.runningOf 0x100102 0 = some r))) ∧
    (∃ s : State, ∃ q, ((s.served = true) ∧ (s.present q = true) ∧ (s.preloadEntries (s.blobGet q 0x1100 1) = none))) ∧
    (∃ s : State, ∃ q, ∃ es, ∃ c, ((s.served = true) ∧ (s.present q = true) ∧ (s.preloadEntries (s.blobGet q 0x1100 1) = some es) ∧ (s.preloadRefused (s.blobGet q 0x1100 1) = some c))) ∧
    (∃ s : State, ∃ rq, ∃ q, ∃ tok, ∃ es, ∃ st, ∃ n, ∃ t, ((s.served = true) ∧ (s.present q = true) ∧ (s.preloadEntries (s.blobGet q 0x1100 1) = some es) ∧ (s.preloadRefused (s.blobGet q 0x1100 1) = none) ∧ ((∀ e ∈ es, s.checkPreset rq e = 0)) ∧ (q ≠ 0)) ∧ (applyPresets rq tok es 0 s = (st, n, t))) ∧
    (∃ rq, ∃ tok, ∃ e : Preset, ∃ s : State, ∃ t, ((writeObject rq t e.index e.sub tok e.data s).1 ≠ 0) ∧ (s.lookup rq e.index e.sub e.qsel = .ok t)) ∧
    (∃ rq, ∃ tok, ∃ e : Preset, ∃ s : State, ∃ t, ((writeObject rq t e.index e.sub tok e.data s).1 = 0) ∧ (s.lookup rq e.index e.sub e.qsel = .ok t)) :=
    ⟨⟨{ base with blobs := [(0x100101, List.replicate 64 0)] }, by decide +kernel⟩,
    ⟨{ base with blobs := [(0x100101, leBytes 1 0x7F ++ leBytes 1 1 ++ leBytes 2 0 ++ leBytes 2 2048 ++ leBytes 2 0 ++ leBytes 8 (2 ^ 36 - 1) ++ leBytes 1 0x80 ++ leBytes 1 1 ++ leBytes 2 2048 ++ leBytes 2 2048 ++ leBytes 10 0 ++ leBytes 32 0)] }, by decide +kernel⟩,
    ⟨{ base with running := [{ obj := 0x100102 }] }, { obj := 0x100102 }, by decide +kernel⟩,
    ⟨base, 0, by decide +kernel⟩,
    ⟨{ base with blobs := [(0x110001, image 1 0 [] ++ List.replicate 512 0)] }, 0, [], 2, by decide +kernel⟩,
    ⟨{ base with od := [(0x1100, 15), (0x101101, 1)], blobs := [(0x1110001, image 0 1 (leBytes 2 0x2500 ++ leBytes 2 1 ++ leBytes 4 8 ++ leBytes 8 64))] }, .cxl, 1, 0, [⟨0x2500, 1, 0, leBytes 8 64⟩], (applyPresets .cxl 0 [⟨0x2500, 1, 0, leBytes 8 64⟩] 0 ({ base with od := [(0x1100, 15), (0x101101, 1)], blobs := [(0x1110001, image 0 1 (leBytes 2 0x2500 ++ leBytes 2 1 ++ leBytes 4 8 ++ leBytes 8 64))] })).1, (applyPresets .cxl 0 [⟨0x2500, 1, 0, leBytes 8 64⟩] 0 ({ base with od := [(0x1100, 15), (0x101101, 1)], blobs := [(0x1110001, image 0 1 (leBytes 2 0x2500 ++ leBytes 2 1 ++ leBytes 4 8 ++ leBytes 8 64))] })).2.1, (applyPresets .cxl 0 [⟨0x2500, 1, 0, leBytes 8 64⟩] 0 ({ base with od := [(0x1100, 15), (0x101101, 1)], blobs := [(0x1110001, image 0 1 (leBytes 2 0x2500 ++ leBytes 2 1 ++ leBytes 4 8 ++ leBytes 8 64))] })).2.2, by decide +kernel, rfl⟩,
    ⟨.cxl, 0, { index := 0x2500, sub := 1, qsel := 0, data := leBytes 8 1 }, base, _, by decide +kernel, rfl⟩,
    ⟨.cxl, 0, { index := 0x2500, sub := 1, qsel := 0, data := leBytes 8 64 }, base, _, by decide +kernel, rfl⟩⟩

/-- Concrete values that meet the hypotheses of `Obligations.NoticeDelivery`, clause by clause. -/
theorem witness_NoticeDelivery :
    (∃ s : State, ∃ n : Notice, ∃ k, ∃ q : List Notice, (mergeInto n (s.dest k).queue = some q)) ∧
    (∃ s : State, ∃ n : Notice, ∃ k, ((mergeInto n (s.dest k).queue = none) ∧ (s.destFull k = false))) ∧
    (∃ s : State, ∃ n k, mergeInto n (s.dest k).queue = none ∧ s.destFull k = true) ∧
    (∃ n : Notice, ∃ q : List Notice, ∃ r : List Notice, (mergeInto n q = some r)) :=
    ⟨⟨{ base with dests := [(1, { queue := [{ ty := 1 }] })] }, { ty := 1 }, 1, _, rfl⟩,
    ⟨base, { ty := 1 }, 1, by decide +kernel⟩,
    ⟨base, { ty := 1 }, 0, by decide +kernel⟩,
    ⟨{ ty := 1 }, [{ ty := 1 }], _, rfl⟩⟩

/-- Concrete values that meet the hypotheses of `Obligations.BatchLifecycle`, clause by clause. -/
theorem witness_BatchLifecycle :
    (∃ s : State, ∃ t : Nat, ∃ r : Bytes, ((halCommand s t r 1) ∧ (fieldAt r 8 8 % 64 ≠ 0 ∨ s.rangeInMap (s.towerPart t) (fieldAt r 8 8) 192 = false))) ∧
    (∃ s : State, ∃ t : Nat, ∃ q : Nat, ∃ a : Nat, ∃ k : Nat, ∃ r : Bytes, ∃ rec : Bytes, ((halCommand s t r 1) ∧ (q = s.towerPart t) ∧ (a = fieldAt r 8 8) ∧ (a % 64 = 0) ∧ (s.rangeInMap q a 192 = true) ∧ (s.openingOf q (fieldAt rec 0 2) (fieldAt rec 2 1) = none) ∧ (k ∈ s.towersOf q) ∧ (k ≠ t) ∧ (k < 8) ∧ ((fieldAt rec 7 1).testBit k = true)) ∧ (cleanPort s (engineUnit 0) [(a, 192)]) ∧ (rec = s.domeRead a 192)) ∧
    (∃ s : State, ∃ t : Nat, ∃ q : Nat, ∃ a : Nat, ∃ r : Bytes, ∃ rec : Bytes, ∃ b : Batch, ((halCommand s t r 1) ∧ (q = s.towerPart t) ∧ (a = fieldAt r 8 8) ∧ (a % 64 = 0) ∧ (s.rangeInMap q a 192 = true) ∧ (s.openingOf q (fieldAt rec 0 2) (fieldAt rec 2 1) = none) ∧ ((∀ k ∈ s.towersOf q, (fieldAt rec 7 1).testBit k = true → k = t)) ∧ ((∀ m ∈ (s.part q).held, fieldAt m.payload 1 1 = fieldAt rec 2 1 → fieldAt m.payload 2 2 ≠ fieldAt rec 0 2)) ∧ (s.recordFieldsOk q b = true) ∧ (b.replay = false)) ∧ (cleanPort s (engineUnit 0) [(a, 192), (fieldAt rec 48 8, 32 * fieldAt rec 12 2)]) ∧ (rec = s.domeRead a 192) ∧ (b = { tag := fieldAt rec 0 2, gen := fieldAt rec 2 1, record := rec, opens := [(t, a)], emap := (List.range (fieldAt rec 12 2)).map (emapEntry (s.domeRead (fieldAt rec 48 8) (32 * fieldAt rec 12 2))) })) ∧
    (∃ s : State, ∃ k : Packet, ∃ r, ∃ b, ((spireUp s 3) ∧ (delivered s k r) ∧ (k.kind = 0x11) ∧ (fieldAt k.payload 0 1 = 3) ∧ (s.present k.qdst = true) ∧ (s.batchOf k.qdst (fieldAt k.payload 2 2) (fieldAt k.payload 1 1) = some b) ∧ (b.phase = .scoring))) ∧
    (∃ s : State, ∃ k : Packet, ∃ r, ((spireUp s 3) ∧ (delivered s k r) ∧ (k.kind = 0x11) ∧ (fieldAt k.payload 0 1 = 3) ∧ (s.present k.qdst = true) ∧ (s.batchOf k.qdst (fieldAt k.payload 2 2) (fieldAt k.payload 1 1) = none) ∧ ((fieldAt k.payload 2 2, fieldAt k.payload 1 1) ∉ (s.part k.qdst).cancelled) ∧ (fieldAt k.payload 1 3 ∈ heldPairs s k.qdst ∨ (heldPairs s k.qdst).length < 16))) ∧
    (∃ s : State, ∃ k : Packet, ∃ r, ((spireUp s 3) ∧ (delivered s k r) ∧ (k.kind = 0x11) ∧ (fieldAt k.payload 0 1 = 3) ∧ (s.present k.qdst = true) ∧ (s.batchOf k.qdst (fieldAt k.payload 2 2) (fieldAt k.payload 1 1) = none) ∧ ((fieldAt k.payload 2 2, fieldAt k.payload 1 1) ∈ (s.part k.qdst).cancelled ∨ (fieldAt k.payload 1 3 ∉ heldPairs s k.qdst ∧ 16 ≤ (heldPairs s k.qdst).length)))) ∧
    (∃ s : State, ∃ q : Nat, ∃ tag : Nat, ∃ gen : Nat, ∃ b, ∃ c, ∃ n, ((spireUp s 3) ∧ (s.batchOf q tag gen = some b) ∧ (b.phase = .assigning)) ∧ (c = b.assigned (s.batchGroup q b)) ∧ (n = b.n - b.choices.length) ∧ (cleanPort s (engineUnit 0) (writeRanges (b.assignWrites (s.batchGroup q b)) ++ s.dispatchRanges q c))) :=
    ⟨⟨hal (halRec 1 (leBytes 8 1)) (batch .closed), 0, halRec 1 (leBytes 8 1), by decide +kernel⟩,
    ⟨openTo ({ base with halCmd := [(0, halRec 1 (leBytes 8 0x1000))], dome := memWrite [] 0x1000 (record 129) }) [(engineUnit 0, [(0x1000, 192)])], 0, 0, 0x1000, 7, halRec 1 (leBytes 8 0x1000), _, by decide +kernel, cleanPort_base _ _ _ (by decide +kernel), rfl⟩,
    ⟨openTo ({ base with halCmd := [(0, halRec 1 (leBytes 8 0x1000))], dome := memWrite [] 0x1000 (record 1) }) [(engineUnit 0, [(0x1000, 192), (fieldAt (record 1) 48 8, 32 * fieldAt (record 1) 12 2)])], 0, 0, 0x1000, halRec 1 (leBytes 8 0x1000), _, _, by decide +kernel, cleanPort_base _ _ _ (by decide +kernel), rfl, rfl⟩,
    ⟨dl (halPkt 0x11 3 0 []) { batches := [batch .scoring] }, halPkt 0x11 3 0 [], [], batch .scoring, by decide +kernel⟩,
    ⟨dl (halPkt 0x11 3 0 []) { held := List.replicate 15 {} }, halPkt 0x11 3 0 [], [], by decide +kernel⟩,
    ⟨dl (halPkt 0x11 3 0 []) { cancelled := [(7, 1)] }, halPkt 0x11 3 0 [], [], by decide +kernel⟩,
    ⟨openAll (pt { batches := [(batch .assigning)] }) fun s => [(engineUnit 0, writeRanges ((batch .assigning).assignWrites (s.batchGroup 0 (batch .assigning))) ++ s.dispatchRanges 0 ((batch .assigning).assigned (s.batchGroup 0 (batch .assigning))))], 0, 7, 1, (batch .assigning), _, _, by decide +kernel, rfl, rfl, cleanPort_base _ _ _ (by decide +kernel)⟩⟩

/-- Concrete values that meet the hypotheses of `Obligations.ExpertSelection`, clause by clause. -/
theorem witness_ExpertSelection :
    (∃ s : State, ∃ q : Nat, ∃ tag : Nat, ∃ gen : Nat, ∃ t : Nat, ∃ row : Nat, ∃ b, ∃ toks, ∃ rs, ((spireUp s 3) ∧ (s.towerOut 9 t = false) ∧ (s.batchOf q tag gen = some b) ∧ (b.phase = .scoring) ∧ (t < 8) ∧ (b.tmask.testBit t = true) ∧ (t ∉ b.units) ∧ ((∃ k < 8, b.tmask.testBit k = true ∧ k ≠ t ∧ k ∉ b.units)) ∧ (toks ≠ []) ∧ ((∀ k ∈ toks, ∀ x ∈ b.choices, x.1 ≠ k))) ∧ (toks = b.tokens ((maskBits b.tmask 8).findIdx (· = t))) ∧ (row = b.e * b.scoreBytes) ∧ (rs = (b.addr 32 + toks.headD 0 * row, toks.length * row) :: (if b.biasen then [(b.addr 40, 4 * b.e)] else [])) ∧ (cleanPort s (engineUnit 0) rs)) ∧
    (∃ (b : Batch) (bias row : Bytes) (c : List Nat), b.choose bias row = some c) ∧
    (∃ b : Batch, ∃ row, ∃ e, ((e ∈ b.unmasked) ∧ (badScore (b.score row e) = true))) ∧
    (∃ b : Batch, ∃ g toks x, x ∈ ((List.foldl (b.assignToken g) (({}, [], [], []) : Assign × Bytes × Bytes × Bytes) toks).1).served) :=
    ⟨⟨openTo (pt { batches := [{ tag := 7, gen := 1, phase := .scoring, record := record 0x81 }] }) [(engineUnit 0, (({ tag := 7, gen := 1, phase := .scoring, record := record 0x81 } : Batch).addr 32 + 0, 1 * (({ tag := 7, gen := 1, phase := .scoring, record := record 0x81 } : Batch).e * ({ tag := 7, gen := 1, phase := .scoring, record := record 0x81 } : Batch).scoreBytes)) :: (if ({ tag := 7, gen := 1, phase := .scoring, record := record 0x81 } : Batch).biasen then [(({ tag := 7, gen := 1, phase := .scoring, record := record 0x81 } : Batch).addr 40, 4 * ({ tag := 7, gen := 1, phase := .scoring, record := record 0x81 } : Batch).e)] else []))], 0, 7, 1, 0, _, { tag := 7, gen := 1, phase := .scoring, record := record 0x81 }, _, _, by decide +kernel, rfl, rfl, rfl, cleanPort_base _ _ _ (by decide +kernel)⟩,
    ⟨batch .scoring, [], leBytes 4 0, [0], by decide +kernel⟩,
    ⟨batch .scoring, leBytes 4 0x7FC00000, 0, by decide +kernel⟩,
    ⟨{ batch .assigning with demand := [1], choices := [(0, [0])] }, [0], [0], {}, by decide +kernel⟩⟩

/-- Concrete values that meet the hypotheses of `Obligations.RowExchange`, clause by clause. -/
theorem witness_RowExchange :
    (∃ s : State, ∃ k : Packet, ∃ r, ∃ b, ∃ w, ∃ row, ∃ a, ∃ i, ∃ p, ((spireUp s 3) ∧ (delivered s k r) ∧ (k.kind = 0x10) ∧ (fieldAt k.payload 0 1 = 1) ∧ (s.rowBatch k = some b) ∧ (b.phase = .scoring) ∧ (b.replay = false) ∧ (packetRows k.payload = [(w, row)]) ∧ (bitAt w 16 = false) ∧ (b.place s.ownLid (bitsOf w 0 16) false (bitsOf w 20 20) = some (a, i)) ∧ (slotKey (bitsOf w 0 16) false (bitsOf w 20 20) ∉ b.rxKeys)) ∧ (p = (Config.returnPos (fieldAt k.payload 6 2) b.tag b.gen w).toNat) ∧ (cleanPort s (engineUnit 0) [(a, row.length), (b.addr 176 + 8 * i, 8)])) ∧
    (∃ s : State, ∃ k : Packet, ∃ r, ∃ b, ∃ w, ∃ row, ((spireUp s 3) ∧ (delivered s k r) ∧ (k.kind = 0x10) ∧ (fieldAt k.payload 0 1 = 2) ∧ (s.rowBatch k = some b) ∧ (b.phase = .closed) ∧ (b.returned = false) ∧ (b.arrives s.ownLid = false) ∧ (packetRows k.payload = [(w, row)]) ∧ (w % 2 ^ 32 < b.served.length) ∧ (w % 2 ^ 32 ∉ b.retGot) ∧ (b.returns + 1 < b.served.length)) ∧ (cleanPort s (engineUnit 0) [(b.addr 96 + w % 2 ^ 32 * b.stride, row.length)])) ∧
    (∃ s : State, ∃ k : Packet, ∃ r, ∃ b, ∃ w, ∃ row, ((spireUp s 3) ∧ (delivered s k r) ∧ (k.kind = 0x10) ∧ (fieldAt k.payload 0 1 = 2) ∧ (s.rowBatch k = some b) ∧ (b.phase = .closed) ∧ (b.returned = false) ∧ (b.arrives s.ownLid = false) ∧ (packetRows k.payload = [(w, row)]) ∧ (w % 2 ^ 32 < b.served.length) ∧ (w % 2 ^ 32 ∉ b.retGot) ∧ (b.served.length ≤ b.returns + 1)) ∧ (cleanPort s (engineUnit 0) [(b.addr 96 + w % 2 ^ 32 * b.stride, row.length), (b.addr 152 + 56, 8)])) ∧
    (∃ s : State, ∃ k : Packet, ∃ r, ((spireUp s 3) ∧ (delivered s k r) ∧ (k.kind = 0x10) ∧ (s.rowBatch k = none) ∧ (s.present k.qdst = true) ∧ (0 < fieldAt k.payload 10 2))) ∧
    (∃ s : State, ∃ t : Nat, ∃ q : Nat, ∃ r, ∃ b, ∃ js, ∃ src, ((halCommand s t r 2) ∧ (halNames s t r b) ∧ (q = s.towerPart t) ∧ (0 < src.length)) ∧ (js = b.toReturn s.ownLid (fieldAt r 8 4) (fieldAt r 12 4)) ∧ (src = b.returnRows s.ownLid js) ∧ (cleanPort s (engineUnit 0) (s.returnRanges q b src))) :=
    ⟨⟨openTo (dl (halPkt 0x10 1 1 (List.replicate 80 0)) { batches := [batch .scoring] }) [(engineUnit 0, [(0, 64), (0, 8)])], halPkt 0x10 1 1 (List.replicate 80 0), [], batch .scoring, 0, List.replicate 64 0, 0, 0, _, by decide +kernel, rfl, cleanPort_base _ _ _ (by decide +kernel)⟩,
    ⟨openTo (dl (halPkt 0x10 2 1 (List.replicate 80 0)) { batches := [{ batch .closed with served := [{}, {}], arrived := true }] }) [(engineUnit 0, [(0, 64)])], halPkt 0x10 2 1 (List.replicate 80 0), [], { batch .closed with served := [{}, {}], arrived := true }, 0, List.replicate 64 0, by decide +kernel, cleanPort_base _ _ _ (by decide +kernel)⟩,
    ⟨openTo (dl (halPkt 0x10 2 1 (List.replicate 80 0)) { batches := [{ batch .closed with served := [{}], arrived := true }] }) [(engineUnit 0, [(0, 64), (56, 8)])], halPkt 0x10 2 1 (List.replicate 80 0), [], { batch .closed with served := [{}], arrived := true }, 0, List.replicate 64 0, by decide +kernel, cleanPort_base _ _ _ (by decide +kernel)⟩,
    ⟨dl (halPkt 0x10 2 1 (List.replicate 80 0)) {}, halPkt 0x10 2 1 (List.replicate 80 0), [], by decide +kernel⟩,
    ⟨openAll (hal (halRec 2 (leBytes 4 0 ++ leBytes 4 1)) { batch .closed with rxKeys := [0] }) fun s => [(engineUnit 0, s.returnRanges 0 ({ batch .closed with rxKeys := [0] } : Batch) (({ batch .closed with rxKeys := [0] } : Batch).returnRows s.ownLid (({ batch .closed with rxKeys := [0] } : Batch).toReturn s.ownLid 0 1)))], 0, 0, halRec 2 (leBytes 4 0 ++ leBytes 4 1), { batch .closed with rxKeys := [0] }, _, _, by decide +kernel, rfl, rfl, cleanPort_base _ _ _ (by decide +kernel)⟩⟩

/-- Concrete values that meet the hypotheses of `Obligations.BatchCommands`, clause by clause. -/
theorem witness_BatchCommands :
    (∃ s : State, ∃ t : Nat, ∃ r, ∃ b, ((halCommand s t r 3) ∧ (halNames s t r b))) ∧
    (∃ s : State, ∃ q : Nat, ∃ val : Nat, ∃ b, ((s.served = true) ∧ (s.present q = true) ∧ (s.batchOf q (bitsOf val 8 16) (val % 256) = some b))) ∧
    (∃ s : State, ∃ k : Packet, ∃ r, ∃ b, ((spireUp s 3) ∧ (delivered s k r) ∧ (k.kind = 0x11) ∧ (fieldAt k.payload 0 1 = 4) ∧ (s.present k.qdst = true) ∧ (s.batchOf k.qdst (fieldAt k.payload 2 2) (fieldAt k.payload 1 1) = some b))) ∧
    (∃ s : State, ∃ t : Nat, ∃ q : Nat, ∃ r, ∃ tag, ∃ gen, ((halCommand s t r 3) ∧ (q = s.towerPart t) ∧ (tag = fieldAt r 2 2) ∧ (gen = fieldAt r 4 1) ∧ (s.batchOf q tag gen = none))) ∧
    (∃ s : State, ∃ t : Nat, ∃ j : Nat, ∃ r, ∃ b, ((halCommand s t r 4) ∧ (halNames s t r b) ∧ (j = fieldAt r 8 4) ∧ (j < b.locals s.ownLid) ∧ (b.addr 168 ≠ 0)) ∧ (cleanPort s (engineUnit 0) [(b.addr 160 + 8 * j, 8), (b.addr 168 + 32 * j, 32)])) ∧
    (∃ s : State, ∃ t : Nat, ∃ q : Nat, ∃ j : Nat, ∃ r, ∃ b, ∃ e, ((halCommand s t r 5) ∧ (halNames s t r b) ∧ (b.coldLocals s.ownLid = [e]) ∧ (q = s.towerPart t) ∧ (j = (b.ent e).loc))) ∧
    (∃ s : State, ∃ i : Nat, ∃ data : Bytes, ∃ f : Fetch, ((spireUp s 3) ∧ (s.fetches[i]? = some f) ∧ (f.src = 0) ∧ (f.failed = false) ∧ (0 < f.asked) ∧ (s.rangeInMap f.q f.land 64 = true) ∧ (data.length = 64)) ∧ (cleanPort s (engineUnit 0) [(f.land, 64)])) ∧
    (∃ s : State, ∃ i : Nat, ∃ f : Fetch, ((spireUp s 3) ∧ (s.fetches[i]? = some f) ∧ (f.src = 0) ∧ (f.failed = false) ∧ (0 < f.asked))) ∧
    (∃ s : State, ∃ i : Nat, ∃ f : Fetch, ∃ k : Packet, ∃ r : List Packet, ∃ tag, ∃ a, ∃ n, ((spireUp s 3) ∧ (s.fetches[i]? = some f) ∧ (f.src ≠ 0) ∧ (f.failed = false) ∧ (delivered s k r) ∧ (s.tierAnswer k = true) ∧ (tag = fieldAt k.payload 0 2) ∧ (s.fetchFor k.qdst k.slid tag = some i) ∧ (f.reqs.find? (fun x => x.1 = tag) = some (tag, a, n)) ∧ (s.rangeInMap f.q a n = true) ∧ (fieldAt k.payload 2 1 = 0)) ∧ (cleanPort s (engineUnit 0) [(a, n)])) ∧
    (∃ s : State, ∃ i : Nat, ∃ f : Fetch, ∃ k : Packet, ∃ r : List Packet, ∃ tag, ∃ a, ∃ n, ((spireUp s 3) ∧ (s.fetches[i]? = some f) ∧ (f.src ≠ 0) ∧ (f.failed = false) ∧ (delivered s k r) ∧ (s.tierAnswer k = true) ∧ (tag = fieldAt k.payload 0 2) ∧ (s.fetchFor k.qdst k.slid tag = some i) ∧ (f.reqs.find? (fun x => x.1 = tag) = some (tag, a, n)) ∧ (s.rangeInMap f.q a n = true) ∧ (fieldAt k.payload 2 1 ≠ 0))) :=
    ⟨⟨hal (halRec 3 []) (batch .closed), 0, halRec 3 [], batch .closed, by decide +kernel⟩,
    ⟨pt { batches := [batch .closed] }, 0, 0x701, batch .closed, by decide +kernel⟩,
    ⟨dl (halPkt 0x11 4 0 []) { batches := [batch .closed] }, halPkt 0x11 4 0 [], [], batch .closed, by decide +kernel⟩,
    ⟨{ base with halCmd := [(0, halRec 3 [])] }, 0, 0, halRec 3 [], 7, 1, by decide +kernel⟩,
    ⟨openTo (hal (halRec 4 (leBytes 8 0 ++ leBytes 8 1)) { batch .closed with record := record 1 |>.set 169 0x10 }) [(engineUnit 0, [(({ batch .closed with record := record 1 |>.set 169 0x10 } : Batch).addr 160 + 8 * 0, 8), (({ batch .closed with record := record 1 |>.set 169 0x10 } : Batch).addr 168 + 32 * 0, 32)])], 0, 0, halRec 4 (leBytes 8 0 ++ leBytes 8 1), { batch .closed with record := record 1 |>.set 169 0x10 }, by decide +kernel, cleanPort_base _ _ _ (by decide +kernel)⟩,
    ⟨hal (halRec 5 []) { batch .closed with emap := [{ cold := true, tbytes := 64 }], tots := [(0, 1)] }, 0, 0, 0, halRec 5 [], { batch .closed with emap := [{ cold := true, tbytes := 64 }], tots := [(0, 1)] }, 0, by decide +kernel⟩,
    ⟨openTo ({ base with fetches := [{ left := 64, asked := 1 }] }) [(engineUnit 0, [(0, 64)])], 0, List.replicate 64 0, { left := 64, asked := 1 }, by decide +kernel, cleanPort_base _ _ _ (by decide +kernel)⟩,
    ⟨{ base with fetches := [{ left := 64, asked := 1 }] }, 0, { left := 64, asked := 1 }, by decide +kernel⟩,
    ⟨openTo ({ base with fetches := [{ src := 1, lid := 1, left := 64, reqs := [(5, 64, 64)] }], delivery := [{ kind := 0x22, slid := 1, payload := leBytes 2 5 }] }) [(engineUnit 0, [(64, 64)])], 0, { src := 1, lid := 1, left := 64, reqs := [(5, 64, 64)] }, { kind := 0x22, slid := 1, payload := leBytes 2 5 }, [], 5, 64, 64, by decide +kernel, cleanPort_base _ _ _ (by decide +kernel)⟩,
    ⟨{ base with fetches := [{ src := 1, lid := 1, left := 64, reqs := [(5, 64, 64)] }], delivery := [{ kind := 0x22, slid := 1, payload := leBytes 2 5 ++ [1] }] }, 0, { src := 1, lid := 1, left := 64, reqs := [(5, 64, 64)] }, { kind := 0x22, slid := 1, payload := leBytes 2 5 ++ [1] }, [], 5, 64, 64, by decide +kernel⟩⟩

/-- Concrete values that meet the hypotheses of `Obligations.CollectiveCommands`, clause by clause. -/
theorem witness_CollectiveCommands :
    (∃ row, ∃ s : State, ∃ q : Nat, ∃ r, ((spireUp s 4) ∧ (s.colHeadCmd q = some r) ∧ (fieldAt r 0 1 < 0x10) ∧ (colFieldsOk r = false)) ∧ (row ∈ colRows)) ∧
    (∃ row, ∃ s : State, ∃ q : Nat, ∃ r, ∃ c : ColOp, ∃ st, (colCommand s q r row.2) ∧ (row ∈ colRows) ∧ (c = { colOf q r with rank := rankIn (s.members' (colOf q r)) s.ownLid }) ∧ (s.colStatus c = some st)) ∧
    (∃ row, ∃ s : State, ∃ q : Nat, ∃ r, ∃ c : ColOp, ((colCommand s q r row.2) ∧ (s.colStatus c = none) ∧ ((∀ m ∈ (s.part q).colHeld, fieldAt m.payload 4 4 ≠ c.tag)) ∧ (s.members' c = [s.ownLid]) ∧ (c.upper = 0xFF)) ∧ (row ∈ colRows) ∧ (c = { colOf q r with rank := rankIn (s.members' (colOf q r)) s.ownLid }) ∧ (cleanPort s (engineUnit 1) (colReads c (s.members' c).length ++ colWrites c (s.members' c).length))) ∧
    (∃ row, ∃ s : State, ∃ q : Nat, ∃ r, ∃ c : ColOp, ((colCommand s q r row.2) ∧ (s.colStatus c = none) ∧ ((∀ m ∈ (s.part q).colHeld, fieldAt m.payload 4 4 ≠ c.tag)) ∧ (2 ≤ (s.members' c).length) ∧ ((c.op = 1 → shard c.blocks (s.members' c).length c.rank ≠ [])) ∧ ((c.op = 2 → (shard c.blocks (s.members' c).length c.rank).length < c.blocks))) ∧ (row ∈ colRows) ∧ (c = { colOf q r with rank := rankIn (s.members' (colOf q r)) s.ownLid }) ∧ (cleanPort s (engineUnit 1) (colReads c (s.members' c).length ++ colWrites c (s.members' c).length))) ∧
    (∃ s : State, ∃ q : Nat, ∃ r, ∃ c : ColOp, ((colCommand s q r 5) ∧ (s.colStatus c = none) ∧ ((∀ m ∈ (s.part q).colHeld, fieldAt m.payload 4 4 ≠ c.tag)) ∧ (c.ifmt = 0) ∧ (c.ofmt = 0)) ∧ (c = { colOf q r with rank := 0 }) ∧ (cleanPort s (engineUnit 1) (colReads c 1 ++ colWrites c 1))) :=
    ⟨⟨(.allReduce, 3), col ((colRec 3 1).set 51 1) [0], 0, (colRec 3 1).set 51 1, by decide +kernel, by simp [colRows]⟩,
    ⟨(.allReduce, 3), col (colRec 3 0) [0], 0, colRec 3 0, _, _, by decide +kernel, by simp [colRows], rfl, rfl⟩,
    ⟨(.allReduce, 3), openTo (col (colRec 3 1) [0]) [(engineUnit 1, colReads ({ colOf 0 (colRec 3 1) with rank := rankIn [0] 0 } : ColOp) 1 ++ colWrites ({ colOf 0 (colRec 3 1) with rank := rankIn [0] 0 } : ColOp) 1)], 0, colRec 3 1, _, by decide +kernel, by simp [colRows], rfl, cleanPort_base _ _ _ (by decide +kernel)⟩,
    ⟨(.allReduce, 3), openTo (col (colRec 3 1) [0, 1]) [(engineUnit 1, colReads ({ colOf 0 (colRec 3 1) with rank := rankIn [0] 0 } : ColOp) 2 ++ colWrites ({ colOf 0 (colRec 3 1) with rank := rankIn [0] 0 } : ColOp) 2)], 0, colRec 3 1, _, by decide +kernel, by simp [colRows], rfl, cleanPort_base _ _ _ (by decide +kernel)⟩,
    ⟨openTo (col (colRec 5 1) []) [(engineUnit 1, colReads ({ colOf 0 (colRec 5 1) with rank := 0 } : ColOp) 1 ++ colWrites ({ colOf 0 (colRec 5 1) with rank := 0 } : ColOp) 1)], 0, colRec 5 1, _, by decide +kernel, rfl, cleanPort_base _ _ _ (by decide +kernel)⟩⟩

/-- Concrete values that meet the hypotheses of `Obligations.CollectiveFrames`, clause by clause. -/
theorem witness_CollectiveFrames :
    (∃ s : State, ∃ k : Packet, ∃ r, ((spireUp s 4) ∧ (delivered s k r) ∧ (k.kind = 0x18) ∧ (fieldAt k.payload 0 1 = 1) ∧ (s.present k.qdst = true) ∧ (s.colTag k.qdst (fieldAt k.payload 4 4) = none))) ∧
    (∃ s : State, ∃ k : Packet, ∃ r, ∃ c, ∃ x, ((spireUp s 4) ∧ (delivered s k r) ∧ (k.kind = 0x18) ∧ (fieldAt k.payload 0 1 = 1) ∧ (s.present k.qdst = true) ∧ (s.colTag k.qdst (fieldAt k.payload 4 4) = some c) ∧ (c.q = k.qdst) ∧ (fieldAt k.payload 16 8 ≠ c.step)) ∧ (portOpen s (engineUnit 1) (s.frameRanges c k)) ∧ (s.frameFault c k.payload = some x)) ∧
    (∃ s : State, ∃ k : Packet, ∃ r, ∃ c, ∃ b, ((spireUp s 4) ∧ (delivered s k r) ∧ (k.kind = 0x18) ∧ (fieldAt k.payload 0 1 = 1) ∧ (s.present k.qdst = true) ∧ (s.colTag k.qdst (fieldAt k.payload 4 4) = some c) ∧ (c.q = k.qdst) ∧ (s.frameFault c k.payload = none) ∧ (c.op = 2) ∧ (c.ofmt = 1) ∧ (fieldAt k.payload 2 1 = 1) ∧ (b = fieldAt k.payload 24 4) ∧ (fieldAt k.payload 28 4 = 1) ∧ (b ∈ shard c.blocks (s.members' c).length (fieldAt k.payload 12 2)) ∧ (b ∉ c.wrote) ∧ (c.wrote.length + 1 < c.blocks)) ∧ (cleanPort s (engineUnit 1) [(c.dst + 128 * b, 128)])) ∧
    (∃ s : State, ∃ k : Packet, ∃ r, ∃ c, ((spireUp s 4) ∧ (delivered s k r) ∧ (k.kind = 0x19) ∧ (fieldAt k.payload 0 1 = 2) ∧ (s.present k.qdst = true) ∧ (s.colTag k.qdst (fieldAt k.payload 4 4) = some c) ∧ (c.q = k.qdst))) ∧
    (∃ s : State, ∃ k : Packet, ∃ r, ∃ c, ∃ d, ((spireUp s 4) ∧ (delivered s k r) ∧ (k.kind = 0x19) ∧ (fieldAt k.payload 0 1 = 3) ∧ (s.present k.qdst = true) ∧ (s.colTag k.qdst (fieldAt k.payload 4 4) = some c) ∧ (c.q = k.qdst) ∧ (c.op = 6) ∧ (s.frameFault c k.payload = none) ∧ (c.totals = []) ∧ (levelHere d 0 (s.members' c).length = false)) ∧ (d = { c with entries := putEntries c.entries (normKey (fieldAt k.payload 14 1 % 2) (fieldAt k.payload 12 2)) (fieldAt k.payload 24 4) (frameEntries k.payload) })) ∧
    (∃ s : State, ∃ k : Packet, ∃ r, ∃ c, ∃ m, ∃ tot, ∃ n, ((spireUp s 4) ∧ (delivered s k r) ∧ (k.kind = 0x19) ∧ (fieldAt k.payload 0 1 = 4) ∧ (s.present k.qdst = true) ∧ (s.colTag k.qdst (fieldAt k.payload 4 4) = some c) ∧ (c.q = k.qdst) ∧ (c.op = 6) ∧ (c.rank ≠ 0) ∧ (s.frameFault c k.payload = none) ∧ ((∀ i < 256, ∃ e ∈ m, e.1 = i)) ∧ ((∀ e ∈ tot, e % 2 ^ 640 ≠ normMark))) ∧ (m = putEntries c.totals id (fieldAt k.payload 24 4) (frameEntries k.payload)) ∧ (tot = (List.range 256).map (fun i => mapGet 0 m i)) ∧ (n = toF32 (FVal.fin false (tot.map (· % 2 ^ 640)).sum (-300)).sqrt)) :=
    ⟨⟨dl (colPkt 0x18 1 2 1 4 1 2 1 (List.replicate 128 0)) { colHeld := List.replicate 15 {} }, colPkt 0x18 1 2 1 4 1 2 1 (List.replicate 128 0), [], by decide +kernel⟩,
    ⟨openAll ({ dl (colPkt 0x18 1 2 1 4 1 2 1 (List.replicate 128 0)) { cols := [{ op := 2, blocks := 4, ofmt := 1, ifmt := 1, step := 1 }] } with blobs := [(0x601000, leBytes 2 0 ++ leBytes 2 1)] }) fun s => [(engineUnit 1, s.frameRanges { op := 2, blocks := 4, ofmt := 1, ifmt := 1, step := 1 } (colPkt 0x18 1 2 1 4 1 2 1 (List.replicate 128 0)))], colPkt 0x18 1 2 1 4 1 2 1 (List.replicate 128 0), [], { op := 2, blocks := 4, ofmt := 1, ifmt := 1, step := 1 }, _, by decide +kernel, portOpen_base _ _ _ (by decide +kernel), rfl⟩,
    ⟨openTo ({ dl (colPkt 0x18 1 2 1 4 1 2 1 (List.replicate 128 0)) { cols := [{ op := 2, blocks := 4, ofmt := 1, ifmt := 1 }] } with blobs := [(0x601000, leBytes 2 0 ++ leBytes 2 1)] }) [(engineUnit 1, [(128 * 2, 128)])], colPkt 0x18 1 2 1 4 1 2 1 (List.replicate 128 0), [], { op := 2, blocks := 4, ofmt := 1, ifmt := 1 }, 2, by decide +kernel, cleanPort_base _ _ _ (by decide +kernel)⟩,
    ⟨{ dl (colPkt 0x19 2 6 0 0 1 0 0 []) { cols := [{ op := 6 }] } with blobs := [(0x601000, leBytes 2 0 ++ leBytes 2 1)] }, colPkt 0x19 2 6 0 0 1 0 0 [], [], { op := 6 }, by decide +kernel⟩,
    ⟨{ dl (colPkt 0x19 3 6 0 0 1 0 1 (List.replicate 88 0)) { cols := [{ op := 6 }] } with blobs := [(0x601000, leBytes 2 0 ++ leBytes 2 1)] }, colPkt 0x19 3 6 0 0 1 0 1 (List.replicate 88 0), [], { op := 6 }, _, by decide +kernel, rfl⟩,
    ⟨{ dl (colPkt 0x19 4 6 0 0 0 255 1 (List.replicate 88 0)) { cols := [{ op := 6, rank := 1, totals := (List.range 255).map fun i => (i, 0) }] } with blobs := [(0x601000, leBytes 2 0 ++ leBytes 2 1)] }, colPkt 0x19 4 6 0 0 0 255 1 (List.replicate 88 0), [], { op := 6, rank := 1, totals := (List.range 255).map fun i => (i, 0) }, _, _, _, by decide +kernel, rfl, rfl, rfl⟩⟩

/-- Concrete values that meet the hypotheses of `Obligations.S16Widening`, clause by clause. -/
theorem witness_S16Widening :
    (∃ e : Nat, ∃ m : Int, ((e < 255) ∧ (-32767 ≤ m) ∧ (m ≤ 32767))) :=
    ⟨254, -32767, by decide +kernel⟩

/-- Concrete values that meet the hypotheses of `Obligations.UpdateOpening`, clause by clause. -/
theorem witness_UpdateOpening :
    (∃ s : State, ∃ q : Nat, ∃ r, ((spireUp s 5) ∧ (s.colHeadCmd q = some r) ∧ (fieldAt r 0 1 = 0x10) ∧ ((s.part q).upd = none))) ∧
    (∃ s : State, ∃ q : Nat, ∃ r, ((spireUp s 5) ∧ (s.colHeadCmd q = some r) ∧ (fieldAt r 0 1 = 0x10) ∧ ((s.part q).upd ≠ none))) ∧
    (∃ s : State, ∃ q : Nat, ((s.served = true) ∧ (s.present q = true) ∧ ((s.part q).upd = none))) ∧
    (∃ s : State, ∃ q : Nat, ((s.part q).upd ≠ none)) ∧
    (∃ s : State, ∃ q : Nat, ∃ w, ((s.served = true) ∧ (s.present q = true) ∧ ((s.part q).upd = some w) ∧ (w.st ≠ 3))) ∧
    (∃ s : State, ∃ q : Nat, ∃ w, (((s.part q).upd = some w) ∧ (w.st = 3))) ∧
    (∃ s : State, ∃ q : Nat, ((s.served = true) ∧ (s.present q = true))) :=
    ⟨⟨col (padTo 64 (leBytes 1 0x10 ++ leBytes 1 0xFF)) [], 0, padTo 64 (leBytes 1 0x10 ++ leBytes 1 0xFF), by decide +kernel⟩,
    ⟨{ pt { upd := some {} } with colCmd := [(0, padTo 64 (leBytes 1 0x10 ++ leBytes 1 0xFF))] }, 0, padTo 64 (leBytes 1 0x10 ++ leBytes 1 0xFF), by decide +kernel⟩,
    ⟨base, 0, by decide +kernel⟩,
    ⟨pt { upd := some {} }, 0, by decide +kernel⟩,
    ⟨pt { upd := some { st := 2 } }, 0, { st := 2 }, by decide +kernel⟩,
    ⟨pt { upd := some { st := 3 } }, 0, { st := 3 }, by decide +kernel⟩,
    ⟨base, 0, by decide +kernel⟩⟩

/-- Concrete values that meet the hypotheses of `Obligations.UpdateOutcomes`, clause by clause. -/
theorem witness_UpdateOutcomes :
    (∃ s : State, ∃ q : Nat, ∃ w, ∃ c, ((spireUp s 5) ∧ ((s.part q).upd = some w) ∧ (w.st = 1) ∧ ((w.clip.orElse fun _ => (s.part q).clip) = some c) ∧ (s.updCmdBad q w = true))) ∧
    (∃ s : State, ∃ q : Nat, ∃ w, ∃ c, ∃ gs, ∃ g, ((spireUp s 5) ∧ ((s.part q).upd = some w) ∧ (w.st = 1) ∧ ((w.clip.orElse fun _ => (s.part q).clip) = some c) ∧ (s.updCmdBad q w = false) ∧ (s.listedGroups q w = some gs) ∧ ((w.gcount ≠ 0 → s.meetsPoison [(w.glist, 2 * w.gcount)] = false)) ∧ (s.firstBad q w.t gs = some g)) ∧ (portsOpen s (s.scanAccess q w gs))) ∧
    (∃ s : State, ∃ q : Nat, ∃ w, ∃ c, ∃ gs, ((spireUp s 5) ∧ ((s.part q).upd = some w) ∧ (w.st = 1) ∧ ((w.clip.orElse fun _ => (s.part q).clip) = some c) ∧ (s.updCmdBad q w = false) ∧ (s.listedGroups q w = some gs) ∧ ((w.gcount ≠ 0 → s.meetsPoison [(w.glist, 2 * w.gcount)] = false)) ∧ (s.firstBad q w.t gs = none) ∧ (w.agroup = 0xFF) ∧ (s.poison = []) ∧ ((∀ n ∈ gs, s.gradBad (s.grp q n) = false)) ∧ (finiteW c = true) ∧ ((s.part q).errSince = false)) ∧ (portsOpen s (s.scanAccess q w gs))) ∧
    (∃ s : State, ∃ q : Nat, ∃ w, ∃ c, ∃ gs, ((spireUp s 5) ∧ ((s.part q).upd = some w) ∧ (w.st = 1) ∧ ((w.clip.orElse fun _ => (s.part q).clip) = some c) ∧ (s.updCmdBad q w = false) ∧ (s.listedGroups q w = some gs) ∧ ((w.gcount ≠ 0 → s.meetsPoison [(w.glist, 2 * w.gcount)] = false)) ∧ (s.firstBad q w.t gs = none) ∧ (w.agroup = 0xFF) ∧ (s.poison = []) ∧ ((∃ n ∈ gs, s.gradBad (s.grp q n) = true) ∨ finiteW c = false ∨ (s.part q).errSince = true)) ∧ (portsOpen s (s.scanAccess q w gs))) ∧
    (∃ s : State, ∃ q : Nat, ∃ w, ∃ c, ∃ gs, ((spireUp s 5) ∧ ((s.part q).upd = some w) ∧ (w.st = 1) ∧ ((w.clip.orElse fun _ => (s.part q).clip) = some c) ∧ (s.updCmdBad q w = false) ∧ (s.listedGroups q w = some gs) ∧ ((w.gcount ≠ 0 → s.meetsPoison [(w.glist, 2 * w.gcount)] = false)) ∧ (s.firstBad q w.t gs = none) ∧ (w.agroup = 0xFF) ∧ ((∃ a ∈ s.scanAccess q w gs, s.meetsPoison a.2 = true))) ∧ (portsOpen s (s.scanAccess q w gs))) ∧
    (∃ s : State, ∃ k : Packet, ∃ r : List Packet, ((spireUp s 5) ∧ (delivered s k r) ∧ (k.kind = 0x1A) ∧ (s.present k.qdst = true) ∧ ((s.colGroup k.qdst (fieldAt k.payload 3 1)).getD (fieldAt k.payload 4 2) 0 ≠ k.slid))) ∧
    (∃ s : State, ∃ k : Packet, ∃ r : List Packet, ∃ g, ∃ n, ((spireUp s 5) ∧ (delivered s k r) ∧ (k.kind = 0x1A) ∧ (s.present k.qdst = true) ∧ (fieldAt k.payload 3 1 ≤ 15) ∧ (g = s.colGroup k.qdst (fieldAt k.payload 3 1)) ∧ (n = fieldAt k.payload 4 2) ∧ (n < g.length) ∧ (g.getD n 0 = k.slid) ∧ ((s.part k.qdst).upd = none))) ∧
    (∃ s : State, ∃ k : Packet, ∃ r : List Packet, ∃ w, ∃ x, ∃ y, ∃ n, ((spireUp s 5) ∧ (delivered s k r) ∧ (k.kind = 0x1A) ∧ (s.present k.qdst = true) ∧ ((s.part k.qdst).upd = some w) ∧ (w.st = 2) ∧ (w.agroup = fieldAt k.payload 3 1) ∧ (w.agroup ≤ 15) ∧ ((s.part k.qdst).votes = []) ∧ (s.colGroup k.qdst w.agroup = [x, y]) ∧ (x ≠ y) ∧ (k.slid ≠ s.ownLid) ∧ (n = fieldAt k.payload 4 2) ∧ (n < 2) ∧ ([x, y].getD n 0 = k.slid)) ∧ (s.ownLid = x ∨ s.ownLid = y)) :=
    ⟨⟨pt { upd := some { clip := some 0x3F800000, ev := some (0, 32) } }, 0, { clip := some 0x3F800000, ev := some (0, 32) }, 0x3F800000, by decide +kernel⟩,
    ⟨openAll ({ pt { upd := some { clip := some 0x3F800000, gcount := 1, glist := 0x1000 } } with dome := memWrite [] 0x1000 [0xFF, 0xFF] }) fun s => s.scanAccess 0 { clip := some 0x3F800000, gcount := 1, glist := 0x1000 } [65535], 0, { clip := some 0x3F800000, gcount := 1, glist := 0x1000 }, 0x3F800000, [65535], 65535, by decide +kernel, portsOpen_base _ _ (by decide +kernel)⟩,
    ⟨openAll (pt { upd := some { clip := some 0x3F800000 } }) fun s => s.scanAccess 0 { clip := some 0x3F800000 } [], 0, { clip := some 0x3F800000 }, 0x3F800000, [], by decide +kernel, portsOpen_base _ _ (by decide +kernel)⟩,
    ⟨openAll (pt { upd := some { clip := some 0x3F800000 }, errSince := true }) fun s => s.scanAccess 0 { clip := some 0x3F800000 } [], 0, { clip := some 0x3F800000 }, 0x3F800000, [], by decide +kernel, portsOpen_base _ _ (by decide +kernel)⟩,
    ⟨openAll ({ od [(0x630001, 1)] with parts := [(0, { upd := some { clip := some 0x3F800000, gcount := 1, glist := 0x1000 } })], poison := [(0, true)] }) fun s => s.scanAccess 0 { clip := some 0x3F800000, gcount := 1, glist := 0x1000 } [0], 0, { clip := some 0x3F800000, gcount := 1, glist := 0x1000 }, 0x3F800000, [0], by decide +kernel, portsOpen_base _ _ (by decide +kernel)⟩,
    ⟨dl { kind := 0x1A, slid := 1, payload := padTo 32 (leBytes 4 0x00000101 ++ leBytes 2 1) } {}, { kind := 0x1A, slid := 1, payload := padTo 32 (leBytes 4 0x00000101 ++ leBytes 2 1) }, [], by decide +kernel⟩,
    ⟨{ dl { kind := 0x1A, slid := 1, payload := padTo 32 (leBytes 4 0x00000101 ++ leBytes 2 1) } { votes := List.replicate 15 {} } with blobs := [(0x601000, leBytes 2 0 ++ leBytes 2 1)] }, { kind := 0x1A, slid := 1, payload := padTo 32 (leBytes 4 0x00000101 ++ leBytes 2 1) }, [], [0, 1], 1, by decide +kernel⟩,
    ⟨{ dl { kind := 0x1A, slid := 1, payload := padTo 32 (leBytes 4 0x00000101 ++ leBytes 2 1) } { upd := some { st := 2, agroup := 0 } } with blobs := [(0x601000, leBytes 2 0 ++ leBytes 2 1)] }, { kind := 0x1A, slid := 1, payload := padTo 32 (leBytes 4 0x00000101 ++ leBytes 2 1) }, [], { st := 2, agroup := 0 }, 0, 1, 1, by decide +kernel, .inl (by decide +kernel)⟩⟩

/-- Concrete values that meet the hypotheses of `Obligations.UpdateApplied`, clause by clause. -/
theorem witness_UpdateApplied :
    (∃ s : State, ∃ q : Nat, ∃ num : Nat, ∃ w, ∃ rest, ∃ g, ∃ blocks, ((spireUp s 5) ∧ ((s.part q).upd = some w) ∧ (w.next = num :: rest) ∧ (w.st = 3) ∧ (s.shadowHolds q w.t = false) ∧ (s.poison = []) ∧ ((∀ x ∈ blocks, x.bad = false)) ∧ (w.shadow = false) ∧ (g.work = 0) ∧ (g.rule ≠ 3) ∧ (g.sparse = false) ∧ (memRead (writeAll s.dome (blocks.flatMap (blockWrites g))) (s.groupAddr q num) 128 = g.raw)) ∧ (portsOpen s (s.walkAccess q w num)) ∧ (g = s.grp q num) ∧ (blocks = ((s.rowPlans q w.t g).flatMap fun p => (List.range (g.rowLen / 32)).map fun i => s.newBlock (s.ruleOf q w.t (w.clip.getD f32One) g) p (p.row * (g.rowLen / 32) + i)))) ∧
    (∃ s : State, ∃ q : Nat, ∃ num : Nat, ∃ w, ∃ rest, ∃ g, ∃ blocks, ((spireUp s 5) ∧ ((s.part q).upd = some w) ∧ (w.next = num :: rest) ∧ (w.st = 3) ∧ (s.shadowHolds q w.t = false) ∧ (s.poison = []) ∧ ((∃ x ∈ blocks, x.bad = true))) ∧ (portsOpen s (s.walkAccess q w num)) ∧ (g = s.grp q num) ∧ (blocks = ((s.rowPlans q w.t g).flatMap fun p => (List.range (g.rowLen / 32)).map fun i => s.newBlock (s.ruleOf q w.t (w.clip.getD f32One) g) p (p.row * (g.rowLen / 32) + i)))) ∧
    (∃ s : State, ∃ q : Nat, ∃ r, ((spireUp s 5) ∧ (s.colHeadCmd q = some r) ∧ (fieldAt r 0 1 = 0x11) ∧ ((∀ w, (s.part q).upd = some w → fieldAt r 2 2 ∉ w.mixOut)))) ∧
    (∃ s : State, ∃ q : Nat, ∃ num : Nat, ∃ r, ∃ w, ∃ g, ∃ rl, ∃ W : Nat → W32, ∃ U : Nat → W32, ((spireUp s 5) ∧ (s.colHeadCmd q = some r) ∧ (fieldAt r 0 1 = 0x11) ∧ (num = fieldAt r 2 2) ∧ ((s.part q).upd = some w) ∧ (num ∈ w.mixOut) ∧ (w.shadow = false) ∧ (g.work = 0) ∧ (g.rowLen % 32 = 0) ∧ ((g.master + 4 * g.elems ≤ s.groupAddr q num ∨ s.groupAddr q num + 128 ≤ g.master)) ∧ ((∀ k < g.elems, finiteW (rl.weight (W k) (U k)) = true ∧ finiteW (f32Sub (rl.weight (W k) (U k)) (W k)) = true))) ∧ (g = s.grp q num) ∧ (cleanPort s (walkerUnit (domeOf g.master)) [(g.mixOut, 4 * g.elems), (g.master, 4 * g.elems)]) ∧ (rl = s.ruleOf q w.t (w.clip.getD f32One) g) ∧ ((∀ k, W k = BitVec.ofNat 32 (s.domeNat (g.master + 4 * k) 4))) ∧ ((∀ k, U k = f32Mul (g.f32 120) (BitVec.ofNat 32 (s.domeNat (g.mixOut + 4 * k) 4))))) ∧
    (∃ s : State, ∃ q : Nat, ∃ num : Nat, ∃ r, ∃ w, ∃ g, ∃ rl, ∃ W : Nat → W32, ∃ U : Nat → W32, ((spireUp s 5) ∧ (s.colHeadCmd q = some r) ∧ (fieldAt r 0 1 = 0x11) ∧ (num = fieldAt r 2 2) ∧ ((s.part q).upd = some w) ∧ (num ∈ w.mixOut) ∧ (w.shadow = false) ∧ (g.work = 0) ∧ (g.rowLen % 32 = 0) ∧ ((g.master + 4 * g.elems ≤ s.groupAddr q num ∨ s.groupAddr q num + 128 ≤ g.master)) ∧ ((∃ k < g.elems, finiteW (rl.weight (W k) (U k)) = false ∨ finiteW (f32Sub (rl.weight (W k) (U k)) (W k)) = false))) ∧ (g = s.grp q num) ∧ (cleanPort s (walkerUnit (domeOf g.master)) [(g.mixOut, 4 * g.elems), (g.master, 4 * g.elems)]) ∧ (rl = s.ruleOf q w.t (w.clip.getD f32One) g) ∧ ((∀ k, W k = BitVec.ofNat 32 (s.domeNat (g.master + 4 * k) 4))) ∧ ((∀ k, U k = f32Mul (g.f32 120) (BitVec.ofNat 32 (s.domeNat (g.mixOut + 4 * k) 4))))) ∧
    (∃ s : State, ∃ q : Nat, ∃ w, ((spireUp s 5) ∧ ((s.part q).upd = some w) ∧ (w.ready' = true) ∧ (s.shadowHolds q w.t = false) ∧ (w.shadow = false)) ∧ (cleanPort s (engineUnit 2) (s.commitReads q w ++ s.formatWords q))) :=
    ⟨⟨openAll (upd { st := 3, next := [0], clip := some 0x3F800000 } 0 0) fun s => s.walkAccess 0 { st := 3, next := [0], clip := some 0x3F800000 } 0, 0, 0, { st := 3, next := [0], clip := some 0x3F800000 }, [], _, _, by decide +kernel, portsOpen_base _ _ (by decide +kernel), rfl, rfl⟩,
    ⟨openAll (upd { st := 3, next := [0], clip := some 0x3F800000 } 0 0x7FC00000) fun s => s.walkAccess 0 { st := 3, next := [0], clip := some 0x3F800000 } 0, 0, 0, { st := 3, next := [0], clip := some 0x3F800000 }, [], _, _, by decide +kernel, portsOpen_base _ _ (by decide +kernel), rfl, rfl⟩,
    ⟨col (padTo 64 (leBytes 1 0x11 ++ leBytes 1 0 ++ leBytes 2 0)) [], 0, padTo 64 (leBytes 1 0x11 ++ leBytes 1 0 ++ leBytes 2 0), by decide +kernel⟩,
    ⟨openAll ({ upd { st := 3, mixOut := [0] } 3 0 with colCmd := [(0, padTo 64 (leBytes 1 0x11 ++ leBytes 1 0 ++ leBytes 2 0))] }) fun s => [(walkerUnit (domeOf (s.grp 0 0).master), [((s.grp 0 0).mixOut, 4 * (s.grp 0 0).elems), ((s.grp 0 0).master, 4 * (s.grp 0 0).elems)])], 0, 0, padTo 64 (leBytes 1 0x11 ++ leBytes 1 0 ++ leBytes 2 0), { st := 3, mixOut := [0] }, _, _, _, _, by decide +kernel, rfl, cleanPort_base _ _ _ (by decide +kernel), rfl, fun _ => rfl, fun _ => rfl⟩,
    ⟨openAll ({ upd { st := 3, mixOut := [0] } 3 0 with colCmd := [(0, padTo 64 (leBytes 1 0x11 ++ leBytes 1 0 ++ leBytes 2 0))], dome := memWrite (memWrite [] 0 (group 3 0)) 0x10000 (leBytes 4 0x7FC00000) }) fun s => [(walkerUnit (domeOf (s.grp 0 0).master), [((s.grp 0 0).mixOut, 4 * (s.grp 0 0).elems), ((s.grp 0 0).master, 4 * (s.grp 0 0).elems)])], 0, 0, padTo 64 (leBytes 1 0x11 ++ leBytes 1 0 ++ leBytes 2 0), { st := 3, mixOut := [0] }, _, _, _, _, by decide +kernel, rfl, cleanPort_base _ _ _ (by decide +kernel), rfl, fun _ => rfl, fun _ => rfl⟩,
    ⟨pt { upd := some { st := 3 } }, 0, { st := 3 }, by decide +kernel, cleanPort_base _ _ _ (by decide +kernel)⟩⟩

/-- Concrete values that meet the hypotheses of `Obligations.FaultHandling`, clause by clause. -/
theorem witness_FaultHandling :
    (∃ s : State, ∃ n, ∃ r, ((faultNext s n r) ∧ (n.sev < 2))) ∧
    (∃ s : State, ∃ n, ∃ r, ∃ k, ((faultNext s n r) ∧ (2 ≤ n.sev) ∧ (s.caseOf (s.caseUnit n.source) = none) ∧ (s.openCases < 64) ∧ (((List.range 64).find? fun k => !(s.case k).open_) = some k) ∧ (hasTest (s.caseUnit n.source) = true) ∧ (bootObject n = false))) ∧
    (∃ s : State, ∃ n, ∃ r, ∃ k, ((faultNext s n r) ∧ (2 ≤ n.sev) ∧ (s.caseOf (s.caseUnit n.source) = some k) ∧ ((s.case k).unit / 2 ^ 24 = 8))) ∧
    (∃ s : State, ∃ n, ∃ r, ((faultNext s n r) ∧ (2 ≤ n.sev))) ∧
    (∃ s : State, ∃ n, ∃ r, ((faultNext s n r) ∧ (2 ≤ n.sev) ∧ (s.caseOf (s.caseUnit n.source) = none) ∧ (64 ≤ s.openCases))) ∧
    (∃ s : State, ∃ unit, ∃ k, ((s.handling = true) ∧ (s.caseOf (s.caseUnit unit) = some k) ∧ ((s.case k).st = 2))) :=
    ⟨⟨{ base with faultQ := [{ sev := 1 }] }, { sev := 1 }, [], by decide +kernel⟩,
    ⟨flt [], rec1, [], 0, by decide +kernel⟩,
    ⟨{ base with faultQ := [{ rec1 with source := 0x08000003 }], cases := [(0, { open_ := true, unit := 0x08000003 })] }, { rec1 with source := 0x08000003 }, [], 0, by decide +kernel⟩,
    ⟨flt [], rec1, [], by decide +kernel⟩,
    ⟨flt ((List.range 64).map fun k => (k, { open_ := true })), rec1, [], by decide +kernel⟩,
    ⟨{ base with cases := [(0, { open_ := true, unit := 0x04000000, st := 2 })] }, 0x04000000, 0, by decide +kernel⟩⟩

/-- Concrete values that meet the hypotheses of `Obligations.ContainedState`, clause by clause. -/
theorem witness_ContainedState :
    (∃ c : Instr, ∃ s u : State, s.boot = .contained ∧ exec c s = .next u ∧ u.boot = .contained) ∧
    (∃ c : Instr, ∃ s u : State, s.boot = .contained ∧ exec c s = .next u ∧ s.pwrgd = true ∧ s.rstN = false ∧ c ≠ .rstNAssert ∧ c ≠ .pwrgdDeassert ∧ ∀ k temp, c ≠ .thermalTrip k temp) :=
    ⟨⟨.auditTimer 0, { base with boot := .contained }, _, rfl, rfl, rfl⟩,
    ⟨.auditTimer 0, { base with boot := .contained }, _, rfl, rfl, rfl, rfl, by decide, by decide, by simp⟩⟩

/-- Concrete values that meet the hypotheses of `Obligations.TargetedTests`, clause by clause. -/
theorem witness_TargetedTests :
    (∃ s : State, ∃ unit, ∃ x, ∃ k, ((s.handling = true) ∧ (x = s.caseUnit unit) ∧ (s.caseOf x = some k) ∧ ((s.case k).st = 2) ∧ (s.unitFenced x = false) ∧ (x / 2 ^ 24 ≠ 3))) ∧
    (∃ s : State, ∃ unit, ∃ x, ∃ k, ((s.handling = true) ∧ (x = s.caseUnit unit) ∧ (s.caseOf x = some k) ∧ ((s.case k).st = 2) ∧ (s.unitFenced x = false) ∧ (x / 2 ^ 24 = 3) ∧ (s.towerTests (x % 2 ^ 24 / 132) (x % 2 ^ 24) = false)) ∧ (portOpen s manageUnit [(s.saveRegion (x % 2 ^ 24 / 132), if s.saveRegion (x % 2 ^ 24 / 132) = 0 then 0 else saveBytes)])) ∧
    (∃ s : State, ∃ unit, ∃ x, ∃ k, ((s.handling = true) ∧ (x = s.caseUnit unit) ∧ (s.caseOf x = some k) ∧ ((s.case k).st = 3) ∧ (s.testing.Nodup))) ∧
    (∃ s : State, ∃ unit, ∃ k, ((s.handling = true) ∧ (s.caseOf (s.caseUnit unit) = some k) ∧ ((s.case k).st = 3) ∧ ((s.case k).unit / 2 ^ 24 = 8))) ∧
    (∃ s : State, ∃ t : Nat, ∃ b, ((s.live = true) ∧ (s.slice t = none) ∧ (s.nextBerth t (mapGet 0 s.sliceNext t) = some b) ∧ (s.saveRegion t ≠ 0))) ∧
    (∃ s : State, ∃ t : Nat, ∃ x, ((s.live = true) ∧ (s.slice t = some x) ∧ (x.active = false) ∧ (s.towerTests t (132 * t + x.berth) = false) ∧ (s.caseOf (berthUnit t x.berth) = none) ∧ (s.sliceReady (132 * t + x.berth) = true)) ∧ (portOpen s manageUnit [(s.saveRegion t, if s.saveRegion t = 0 then 0 else saveBytes)])) ∧
    (∃ s : State, ∃ t : Nat, ∃ x, ((s.live = true) ∧ (s.slice t = some x) ∧ (x.active = false))) ∧
    (∃ s : State, ∃ t : Nat, ∃ x, ∃ res : TestResult, ∃ sub, ((s.live = true) ∧ (s.slice t = some x) ∧ (x.active = true) ∧ ((match res with | .pass => sub = 3 | .marginal => sub = 5 | .fail _ _ => sub = 4 | .external => False)))) :=
    ⟨⟨{ base with cases := [(0, { open_ := true, unit := 0x04000000, st := 2 })] }, 0x04000000, 0x04000000, 0, by decide +kernel⟩,
    ⟨openAll ({ base with cases := [(0, { open_ := true, unit := 0x03000083, st := 2 })] }) fun s => [(manageUnit, [(s.saveRegion 0, if s.saveRegion 0 = 0 then 0 else saveBytes)])], 0x03000083, 0x03000083, 0, by decide +kernel, portOpen_base _ _ _ (by decide +kernel)⟩,
    ⟨{ base with cases := [(0, { open_ := true, unit := 0x04000000, st := 3 })], testing := [0x04000000] }, 0x04000000, 0x04000000, 0, by decide +kernel⟩,
    ⟨{ base with cases := [(0, { open_ := true, unit := 0x08000003, st := 3 })], testing := [0x08000003] }, 0x08000003, 0, by decide +kernel⟩,
    ⟨od [(0x810006, 64)], 0, 0, by decide +kernel⟩,
    ⟨openAll ({ base with slices := [(7, { due := true })] }) fun s => [(manageUnit, [(s.saveRegion 7, if s.saveRegion 7 = 0 then 0 else saveBytes)])], 7, { due := true }, by decide +kernel, portOpen_base _ _ _ (by decide +kernel)⟩,
    ⟨{ base with slices := [(7, { due := true })] }, 7, { due := true }, by decide +kernel⟩,
    ⟨{ base with slices := [(7, { active := true })] }, 7, { active := true }, TestResult.marginal, 5, by decide +kernel⟩⟩

/-- Concrete values that meet the hypotheses of `Obligations.ShadowPieces`, clause by clause. -/
theorem witness_ShadowPieces :
    (∃ s : State, ∃ old, ∃ l, ∃ v, (spireUp s 6) ∧ (l = s.riskLevels (s.riskInputs old)) ∧ (v = s.riskScore l)) ∧
    (∃ s : State, ∃ k : Packet, ∃ r, ((spireUp s 6) ∧ (delivered s k r) ∧ (k.kind = 0x1B) ∧ (pieceCode k = 1) ∧ (s.fromSource k = false))) ∧
    (∃ s : State, ∃ k : Packet, ∃ r, ∃ h, ∃ a, ((spireUp s 6) ∧ (delivered s k r) ∧ (k.kind = 0x1B) ∧ (pieceCode k = 1) ∧ (s.fromSource k = true) ∧ ((s.part k.qdst).shRecv = some h) ∧ (h.gen = pieceGen k) ∧ (h.oldest ≤ h.gen) ∧ (h.refused = false) ∧ (a = s.imageBase k.qdst h.image + pieceOff k) ∧ (pieceOff k + (pieceData k).length ≤ s.odGet 0 (recvIdx k.qdst) 3) ∧ (s.rangeInMap k.qdst a (pieceData k).length = true)) ∧ (cleanPort s lookoutUnit [(a, (pieceData k).length)])) ∧
    (∃ s : State, ∃ k : Packet, ∃ r, ∃ h, ((spireUp s 6) ∧ (delivered s k r) ∧ (k.kind = 0x1B) ∧ (pieceCode k = 2) ∧ (s.fromSource k = true) ∧ ((s.part k.qdst).shRecv = some h) ∧ (h.gen = pieceGen k) ∧ (h.oldest ≤ h.gen) ∧ (h.refused = false) ∧ (h.image < 2) ∧ (pieceOff k ≤ s.odGet 0 (recvIdx k.qdst) 3))) ∧
    (∃ s : State, ∃ k : Packet, ∃ r, ∃ h, ∃ i, ((spireUp s 6) ∧ (delivered s k r) ∧ (k.kind = 0x1B) ∧ (pieceCode k = 3) ∧ (s.present k.qdst = true) ∧ (i = shadowIdx k.qdst) ∧ ((s.part k.qdst).shSend = some h) ∧ (h.gen = pieceGen k) ∧ (s.odGet 0 i 2 = k.slid) ∧ (pieceStatus k = 0))) ∧
    (∃ s : State, ∃ k : Packet, ∃ r, ∃ h, ∃ i, ((spireUp s 6) ∧ (delivered s k r) ∧ (k.kind = 0x1B) ∧ (pieceCode k = 3) ∧ (s.present k.qdst = true) ∧ (i = shadowIdx k.qdst) ∧ ((s.part k.qdst).shSend = some h) ∧ (h.gen = pieceGen k) ∧ (s.odGet 0 i 2 = k.slid) ∧ (pieceStatus k = 1))) ∧
    (∃ s : State, ∃ k : Packet, ∃ r, ∃ h, ∃ i, ((spireUp s 6) ∧ (delivered s k r) ∧ (k.kind = 0x1B) ∧ (pieceCode k = 3) ∧ (s.present k.qdst = true) ∧ (i = shadowIdx k.qdst) ∧ ((s.part k.qdst).shSend = some h) ∧ (h.gen = pieceGen k) ∧ (s.odGet 0 i 2 = k.slid) ∧ (pieceStatus k = 2))) ∧
    (∃ s : State, ∃ q : Nat, ∃ h, ((spireUp s 6) ∧ ((s.part q).shSend = some h) ∧ (h.ended = true))) ∧
    (∃ s : State, ∃ q : Nat, ∃ h, ((spireUp s 6) ∧ ((s.part q).shSend = some h) ∧ (h.ended = false))) :=
    ⟨⟨base, 0, _, _, by decide +kernel, rfl, rfl⟩,
    ⟨{ od [(0x710002, 0), (0x711004, 0)] with delivery := [{ piece 1 0 1 0 [7] with slid := 1 }], parts := [(0, {})] }, { piece 1 0 1 0 [7] with slid := 1 }, [], by decide +kernel⟩,
    ⟨openTo ({ od [(0x710002, 0), (0x711003, 1), (0x711004, 0)] with delivery := [piece 1 0 1 0 [7]], parts := [(0, { shRecv := some { gen := 1 } })] }) [(lookoutUnit, [(0, 1)])], piece 1 0 1 0 [7], [], { gen := 1 }, 0, by decide +kernel, cleanPort_base _ _ _ (by decide +kernel)⟩,
    ⟨{ od [(0x710002, 0), (0x711004, 0)] with delivery := [piece 2 0 1 0 []], parts := [(0, { shRecv := some { gen := 1 } })] }, piece 2 0 1 0 [], [], { gen := 1 }, by decide +kernel⟩,
    ⟨{ od [(0x710002, 0), (0x711004, 0)] with delivery := [piece 3 0 1 0 []], parts := [(0, { shSend := some { gen := 1 } })] }, piece 3 0 1 0 [], [], { gen := 1 }, 0x7100, by decide +kernel⟩,
    ⟨{ od [(0x710002, 0), (0x711004, 0)] with delivery := [piece 3 1 1 0 []], parts := [(0, { shSend := some { gen := 1 } })] }, piece 3 1 1 0 [], [], { gen := 1 }, 0x7100, by decide +kernel⟩,
    ⟨{ od [(0x710002, 0), (0x711004, 0)] with delivery := [piece 3 2 1 0 []], parts := [(0, { shSend := some { gen := 1 } })] }, piece 3 2 1 0 [], [], { gen := 1 }, 0x7100, by decide +kernel⟩,
    ⟨pt { shSend := some { ended := true } }, 0, { ended := true }, by decide +kernel⟩,
    ⟨pt { shSend := some {} }, 0, {}, by decide +kernel⟩⟩

/-- Concrete values that meet the hypotheses of `Obligations.Restores`, clause by clause. -/
theorem witness_Restores :
    (∃ s : State, ∃ q : Nat, ((s.served = true) ∧ (s.present q = true) ∧ (s.jobRuns q = false) ∧ ((s.part q).batches = []) ∧ ((s.part q).cols = []) ∧ ((s.part q).upd = none) ∧ ((s.part q).shSend = none) ∧ (s.stillRuns ((0x7120 + q) * 256 + 3) q = false))) ∧
    (∃ s : State, ∃ q : Nat, (s.jobRuns q = true ∨ (s.part q).batches ≠ [] ∨ (s.part q).cols ≠ [] ∨ (s.part q).upd ≠ none)) ∧
    (∃ s : State, ∃ k : Packet, ∃ r, ((spireUp s 6) ∧ (delivered s k r) ∧ (k.kind = 0x1B) ∧ (pieceCode k = 4) ∧ (s.fromSource k = true) ∧ (s.imageOf k.qdst (pieceGen k) = none))) ∧
    (∃ s : State, ∃ k : Packet, ∃ r, ∃ i, ∃ n, ((spireUp s 6) ∧ (delivered s k r) ∧ (k.kind = 0x1B) ∧ (pieceCode k = 4) ∧ (s.fromSource k = true) ∧ (s.imageOf k.qdst (pieceGen k) = some i) ∧ (n = mapGet 0 (s.part k.qdst).imgBytes i)) ∧ (cleanPort s lookoutUnit [(s.imageBase k.qdst i, n)])) ∧
    (∃ s : State, ∃ k : Packet, ∃ r, ∃ w, ((spireUp s 6) ∧ (delivered s k r) ∧ (k.kind = 0x1B) ∧ (pieceCode k = 5) ∧ (s.restoreOf k = some w))) ∧
    (∃ s : State, ∃ k : Packet, ∃ r, ∃ w, ((spireUp s 6) ∧ (delivered s k r) ∧ (k.kind = 0x1B) ∧ (pieceCode k = 6) ∧ (s.restoreOf k = some w)) ∧ (cleanPort s lookoutUnit (s.restoreRanges k))) :=
    ⟨⟨base, 0, by decide +kernel⟩,
    ⟨job {}, 0, .inl (by decide +kernel)⟩,
    ⟨{ od [(0x710002, 0), (0x711004, 0)] with delivery := [piece 4 0 1 0 []], parts := [(0, {})] }, piece 4 0 1 0 [], [], by decide +kernel⟩,
    ⟨openAll ({ od [(0x710002, 0), (0x711004, 0), (0x711007, 1)] with delivery := [piece 4 0 1 0 []], parts := [(0, { imgBytes := [(1, 64)] })] }) fun s => [(lookoutUnit, [(s.imageBase 0 1, 64)])], piece 4 0 1 0 [], [], 1, 64, by decide +kernel, cleanPort_base _ _ _ (by decide +kernel)⟩,
    ⟨{ od [(0x712001, 0)] with delivery := [piece 5 0 1 0 [7]], parts := [(0, { restore := some { gen := 1 } })] }, piece 5 0 1 0 [7], [], { gen := 1 }, by decide +kernel⟩,
    ⟨openAll ({ od [(0x640006, 1), (0x712001, 0)] with delivery := [piece 6 0 1 0 []], parts := [(0, { restore := some { gen := 1 } })] }) fun s => [(lookoutUnit, s.restoreRanges (piece 6 0 1 0 []))], piece 6 0 1 0 [], [], { gen := 1 }, by decide +kernel, cleanPort_base _ _ _ (by decide +kernel)⟩⟩

/-- Concrete values that meet the hypotheses of `Obligations.Regulators`, clause by clause. -/
theorem witness_Regulators :
    (∃ s : State, ∃ g : Nat, ((s.handling = true) ∧ (g < 4))) ∧
    (∃ s : State, ∃ g : Nat, ((s.handling = true) ∧ (g < 4) ∧ (s.masked g = false) ∧ (g ∈ s.power.alerts))) ∧
    (∃ s : State, ∃ g : Nat, ((s.handling = true) ∧ (g ∈ s.power.alertWait))) ∧
    (∃ s : State, ∃ g : Nat, ((s.handling = true) ∧ (g ∈ s.power.alertWait) ∧ (g ∉ s.power.regFaults))) ∧
    (∃ s : State, ∃ g : Nat, ∃ n, ((s.handling = true) ∧ ((s.power.alertRec.find? fun e => e.1 = g) = some (g, n)) ∧ (s.inputOn g = true))) ∧
    (∃ s : State, ∃ rd : AvsReading, ((s.handling = true) ∧ (rd.valid = true))) ∧
    (∃ s : State, ∃ g : Nat, ∃ rd : AvsReading, ((s.handling = true) ∧ (rd.valid = false) ∧ (g ∉ s.power.regFaults) ∧ ((∀ e ∈ s.power.alertRec, e.1 ≠ g)))) ∧
    (∃ s : State, ∃ g : Nat, ((s.handling = true) ∧ (g ∈ s.power.vdoneWait) ∧ (g ∉ s.power.regFaults) ∧ ((∀ e ∈ s.power.alertRec, e.1 ≠ g)))) ∧
    (∃ s : State, ∃ g : Nat, ((s.handling = true) ∧ (g ∈ s.power.regFaults))) ∧
    (∃ s : State, (s.handling = true)) :=
    ⟨⟨base, 3, by decide +kernel⟩,
    ⟨{ base with power := { alerts := [3] } }, 3, by decide +kernel⟩,
    ⟨{ base with power := { alerts := [3], alertWait := [3] } }, 3, by decide +kernel⟩,
    ⟨{ base with power := { alerts := [3], alertWait := [3] } }, 3, by decide +kernel⟩,
    ⟨{ od [((inputIdx 3) * 256 + 1, 1)] with power := { alertRec := [(3, {})] } }, 3, {}, by decide +kernel⟩,
    ⟨base, ({ valid := true } : AvsReading), by decide +kernel⟩,
    ⟨base, 3, ({ valid := false } : AvsReading), by decide +kernel⟩,
    ⟨{ base with power := { vdoneWait := [1] } }, 1, by decide +kernel⟩,
    ⟨{ base with power := { regFaults := [3] } }, 3, by decide +kernel⟩,
    ⟨base, by decide +kernel⟩⟩

/-- Concrete values that meet the hypotheses of `Obligations.PerformanceStates`, clause by clause. -/
theorem witness_PerformanceStates :
    (∃ s : State, ∃ v : Nat, ((s.served = true) ∧ (v ≤ 3))) ∧
    (∃ v : Nat, (3 < v)) ∧
    (∃ s : State, ∃ n : Nat, ((s.handling = true) ∧ (s.power.move = .down) ∧ (s.power.target = n) ∧ (s.pState < n))) ∧
    (∃ s : State, ∃ n : Nat, ((s.handling = true) ∧ (s.power.vdoneWait ≠ []) ∧ (s.power.move = .up) ∧ (s.power.target = n))) ∧
    (∃ s : State, (s.handling = true)) ∧
    (∃ s : State, (s.handling = true)) ∧
    (∃ s : State, ∃ i : Nat, ((s.handling = true) ∧ (s.masked i = true))) ∧
    (∃ s : State, ∃ i : Nat, (s.masked i = false)) :=
    ⟨⟨base, 3, by decide +kernel⟩,
    ⟨4, by decide +kernel⟩,
    ⟨{ base with power := { move := .down, target := 3 } }, 3, by decide +kernel⟩,
    ⟨{ base with power := { move := .up, vdoneWait := [0] } }, 0, by decide +kernel⟩,
    ⟨base, by decide +kernel⟩,
    ⟨base, by decide +kernel⟩,
    ⟨od [((inputIdx 4) * 256 + 2, 1)], 4, by decide +kernel⟩,
    ⟨base, 4, by decide +kernel⟩⟩

/-- Concrete values that meet the hypotheses of `Obligations.ThermalControl`, clause by clause. -/
theorem witness_ThermalControl :
    (∃ s : State, ∃ rs, ((s.handling = true) ∧ (rs.length = 88) ∧ ((smallestMargin rs).2 ≤ 0) ∧ (s.power.excursion = false))) ∧
    (∃ s : State, ∃ rs, ((s.handling = true) ∧ (rs.length = 88) ∧ (0 < (smallestMargin rs).2) ∧ ((smallestMargin rs).2 < s.marginOf 5))) ∧
    (∃ s : State, ((s.handling = true) ∧ (s.marginOf 6 ≤ toSigned 32 (s.odGet 0 0x9030 2)))) ∧
    (∃ s : State, ∃ k, ∃ t, ((s.pwrgd = true) ∧ (s.tripN = false) ∧ (k < 88) ∧ (sensorTrip k ≤ t))) ∧
    (∃ s : State, (s.handling = true)) ∧
    (∃ s : State, (s.handling = true)) ∧
    (∃ s : State, ∃ i : Nat, ∃ n : Nat, ((s.handling = true) ∧ (i ∈ s.power.droop) ∧ (0 < n))) :=
    ⟨⟨base, List.replicate 88 2000, by decide +kernel⟩,
    ⟨base, List.replicate 88 0 |>.set 0 (sensorLimit 0 - 1), by decide +kernel⟩,
    ⟨od [(0x903002, 2000)], by decide +kernel⟩,
    ⟨base, 87, 2000, by decide +kernel⟩,
    ⟨base, by decide +kernel⟩,
    ⟨base, by decide +kernel⟩,
    ⟨{ base with power := { droop := [1103] } }, 1103, 1, by decide +kernel⟩⟩

/-- Concrete values that meet the hypotheses of `Obligations.PowerAndBoot`, clause by clause. -/
theorem witness_PowerAndBoot :
    (∃ s : State, (s.pwrgd = false)) ∧
    (∃ s : State, (s.pwrgd = false)) ∧
    (∃ s : State, ((s.rstN = true) ∧ (s.pwrgd = true) ∧ (s.tripN = false))) ∧
    (∃ s : State, ((s.rstN = true) ∧ (s.pwrgd = false))) ∧
    (∃ s : State, (s.boot = .firmware)) ∧
    (∃ s : State, (s.boot = .training)) :=
    ⟨⟨{}, by decide +kernel⟩,
    ⟨{}, by decide +kernel⟩,
    ⟨State.reset, by decide +kernel⟩,
    ⟨{}, by decide +kernel⟩,
    ⟨{ base with boot := .firmware }, by decide +kernel⟩,
    ⟨{ base with boot := .training }, by decide +kernel⟩⟩

/-- Concrete values that meet the hypotheses of `Obligations.Attestation`, clause by clause. -/
theorem witness_Attestation :
    (∃ s : State, (s.rstN = true)) ∧
    (∃ s : State, (s.rstN = false)) ∧
    (∃ s : State, ∃ b, ((s.spdmUp = true) ∧ (s.cxl.link = 3) ∧ (4 ≤ b.length) ∧ (fieldAt b 1 1 = 0x84))) ∧
    (∃ s : State, ∃ b, ((s.spdmUp = true) ∧ (s.cxl.link = 3) ∧ (4 ≤ b.length) ∧ (fieldAt b 0 1 = 0x12) ∧ (fieldAt b 1 1 = 0x83) ∧ (s.cxl.spdmDoe < 3))) ∧
    (∃ s : State, ∃ lid, ∃ b, ((s.spdmUp = true) ∧ (4 ≤ b.length) ∧ (fieldAt b 1 1 = 0x84) ∧ (s.spdmPeer lid = none) ∧ (s.cxl.spdmPeers.length < 8))) ∧
    (∃ s : State, ∃ lid, ((s.spdmUp = true) ∧ (s.spdmPeer lid = none) ∧ (8 ≤ s.cxl.spdmPeers.length))) ∧
    (∃ s : State, (s.spdmUp = true)) ∧
    (∃ s : State, ∃ b, ((s.cxl.link = 3) ∧ (s.fwReady = true) ∧ (b.length ≤ 16384) ∧ (s.unitOut (spireUnit 0) = false) ∧ (fieldAt b 0 1 = 0))) ∧
    (∃ s : State, ((s.spdmUp = true) ∧ (s.cxl.link = 3) ∧ (s.unitOut (spireUnit 0) = false) ∧ (s.cxl.spdmDoe = 5))) :=
    ⟨⟨State.reset, by decide +kernel⟩,
    ⟨base, by decide +kernel⟩,
    ⟨base, [0x10, 0x84, 0, 0], by decide +kernel⟩,
    ⟨base, [0x12, 0x83, 0, 0], by decide +kernel⟩,
    ⟨base, 0xFFFF, [0x10, 0x84, 0, 0], by decide +kernel⟩,
    ⟨hp { spdmPeers := (List.range 8).map fun k => (k, 1) }, 8, by decide +kernel⟩,
    ⟨base, by decide +kernel⟩,
    ⟨base, [0, 0], by decide +kernel⟩,
    ⟨hp { spdmDoe := 5 }, by decide +kernel⟩⟩

/-- Concrete values that meet the hypotheses of `Obligations.StepRunsCommand`, clause by clause. -/
theorem witness_StepRunsCommand :
    (∃ c : Instr, ∃ s : State, ∃ r, s.pending = c :: r) ∧
    (∃ s : State, (s.pending = [])) :=
    ⟨⟨.hotReset, { base with pending := [.hotReset] }, [], rfl⟩,
    ⟨base, by decide +kernel⟩⟩

/-- Concrete values that meet the hypotheses of `Obligations.MemoriesCanonical`, clause by clause. -/
theorem witness_MemoriesCanonical :
    (∃ s u : State, memoriesWf s ∧ step s = .next u) :=
    ⟨State.reset, _, ⟨mapWf_nil _, fun _ => ⟨mapWf_nil _, mapWf_nil _⟩⟩, rfl⟩

/-- Concrete values that meet the hypotheses of `Obligations.BundleEncoding`, clause by clause. -/
theorem witness_BundleEncoding :
    (∃ x : Spar, ∃ b : List SlotWord, ∃ pc : Nat, b.length = 8 ∧ x.pc = pc) :=
    ⟨{ pc := 511 }, soloBundle 0 {}, 511, rfl, rfl⟩

/-! The well-formedness checks: for each a command that passes, and one that is refused. -/

/-- For each check of `Instr.wf` a command that passes it and one that fails it alone. -/
theorem test_wellFormed : ∀ p ∈ (
  [(.br 1023 {}, .br 1024 {}), (.conflictQueueServe 0 31, .conflictQueueServe 0 32),
   (.channelBytesArrive 0 31 0, .channelBytesArrive 0 32 0), (.update 3, .update 4), (.barrierRelease 0 15, .barrierRelease 0 16),
   (.hostSnoop (2 ^ 64 - 1), .hostSnoop (2 ^ 64)), (.spdmConnectionIdle 65535, .spdmConnectionIdle 65536), (.fence 7, .fence 8),
   (.grantOverhold 16, .grantOverhold 17), (.grantOverhold 0x43, .grantOverhold 0x44), (.starve 0 15 0, .starve 0 16 0),
   (.birsp (2 ^ 35 - 1), .birsp (2 ^ 35)), (.patrolScrubRead 15 .clean, .patrolScrubRead 16 .clean),
   (.patrolScrubRead 0 (.twoDies 0 1), .patrolScrubRead 0 (.twoDies 1 1)), (.windowSegmentWrite 15 0, .windowSegmentWrite 16 0),
   (.routeTableWrite true 255 0, .routeTableWrite true 256 0), (.audit 35, .audit 36),
   (.packetArrival 0 [0] (List.replicate 2 (List.replicate 64 0)) [0, 0] [0, 0] [List.replicate 16 0],
    .packetArrival 0 [0] [List.replicate 64 0] [0] [0] [List.replicate 16 0]),
   (.train 0 { pools := [0, 0, 0, 0] } 0, .train 0 { pools := [0, 0, 0] } 0), (.laserLoss 11, .laserLoss 12),
   (.packetForward 0 3, .packetForward 0 4), (.ringEnable 31 false, .ringEnable 32 false), (.msixUnmask 63, .msixUnmask 64),
   (.registerWrite 0x1FFFFF 4 0, .registerWrite 0x200000 4 0), (.registerWrite 0 8 0, .registerWrite 0 3 0),
   (.deferredAnswer (.mctp 255), .deferredAnswer (.mctp 256)), (.read .cxl { index := 65535 }, .read .cxl { index := 65536 }),
   (.sessionTimeout .cxl 0 0xFFFFFF, .sessionTimeout .cxl 0 0x1000000), (.testStartTimeout 0, .testStartTimeout (2 ^ 32)),
   (.avsbusPoll 3 {}, .avsbusPoll 4 {}), (.inputUnmask 4 false, .inputUnmask 5 false),
   (.rstNRelease 0 [] (List.replicate 8192 0), .rstNRelease 0 [] (List.replicate 8191 0)), (.supplyDroop 1103, .supplyDroop 1104)] : List (Instr × Instr)),
    p.1.wf = true ∧ p.2.wf = false := by decide +kernel

/-! Tables and worked examples of the spec. -/

/-- 02 Table 2-3: the largest finite values of the narrow formats, and the NaN of e4m3. -/
theorem test_format_limits :
    widen 0 0x7E 0 = f32OfNat 448 ∧ widen 1 0x7B 0 = f32OfNat 57344 ∧ widen 5 0x1F 127 = f32OfNat 28 ∧ widen 6 0x7 127 = f32OfNat 6 ∧
    widen 11 0x7BFF 0 = f32OfNat 65504 ∧ widen 0 0x7F 0 = 0x7FC00000 ∧ widen 2 0 0xFF = 0x7FC00000 := by decide +kernel

/-- 02 2.6, the worked example: 1.3 to e4m3 rounds to 0x3B below 6,710,880, to 0x3A from there on, and to 0x3A to nearest. -/
theorem test_e4m3_stochastic :
    (narrowFloat fdE4m3 false (.sr 0x123456) (f32Val 0x3FA66666)).elems = [0x3B] ∧
    (narrowFloat fdE4m3 false (.sr 6710880) (f32Val 0x3FA66666)).elems = [0x3A] ∧
    (narrowFloat fdE4m3 false .rne (f32Val 0x3FA66666)).elems = [0x3A] := by decide +kernel

/-- 02 R40: in a block of e4m3 a value of 470 saturates to 448, under a scale of 1. -/
theorem test_block_saturates :
    blockEncode 2 false [.rne, .rne] [f32Val (f32OfNat 470), f32Val (f32OfNat 1)] = { elems := [0x7E, 0x38], scales := [127] } := by
  decide +kernel

/-- 02 R37: two FP4 elements share a byte, the even one low; four FP6 elements share three bytes. -/
theorem test_packing : packElems 6 [0x1, 0x7] = [0x71] ∧ packElems 4 [1, 0, 0, 0x3F] = [0x01, 0x00, 0xFC] := by decide +kernel

/-- 02 2.7, the worked example: three S16 contributions reduce to exponent 129 and mantissas 20,268, -31,750, 2,648 and 4,108. -/
theorem test_s16_reduction :
    let b (e : Nat) (m : List Int) : S16Block := ⟨e, m ++ List.replicate 28 0⟩
    s16Reduce [b 130 [16384, -20000, 300, 7], b 128 [-30000, 16500, 8191, -3], b 126 [20001, 5, -16385, 32767]] =
      (b 129 [20268, -31750, 2648, 4108], {}) := by decide +kernel

/-- 03 Table 3-5: a sum wraps at 2^64. -/
theorem test_scAdd_wraps :
    (match exec (.scAdd 0 { d := 2, a := 1, b := 1 })
       (sp { run := .running, istore := code 0 1 { d := 2, a := 1, b := 1 }, sreg := [(1, 0x8000000000000001)] }) with
     | .next u => (u.spar 0).sget 2
     | _ => 0) = 2 := by decide +kernel

/-- 03 R75: s0 reads zero and a write to it is discarded. -/
theorem test_s0_discards : (({ sreg := [] } : Spar).sset 0 7).sget 0 = 0 := by decide +kernel

/-- 07, the worked example: of 182 choices behind 345, a capacity of 200 takes none; of 175 behind 170 it takes 30. -/
theorem test_regular_grants :
    ({ batch .scoring with record := padTo 192 (leBytes 16 0 ++ leBytes 4 200), demand := [175], pref := [170] } : Batch).grant 0 = 30 ∧
    ({ batch .scoring with record := padTo 192 (leBytes 16 0 ++ leBytes 4 200), demand := [182], pref := [345] } : Batch).grant 0 = 0 := by
  decide +kernel

/-- The opcode table gives no row bits, so no word spells a command. -/
theorem test_decode_none : decodeTableWord 32 0 = none ∧ State.reset.withFetchWord 32 0 = State.reset := by decide +kernel

end Sys2Proof.Tests
end

section
/-! PROOF. The settings in use by a running job (02 R52, 03 R90). -/

namespace Sys2Proof.Machine

open Sys2Proof Sys2Proof.Safety

/-- The job settings are in use exactly while the job runs (02 R52, 03 R90). -/
theorem objBusy_jobSetting {s : State} {q i : Nat} (sub : Nat) (hi : i ∈ [0x2010, 0x2011, 0x2020, 0x2100, 0x2101]) :
    s.objBusy q i sub = s.jobRuns q := by
  simp only [List.mem_cons, List.not_mem_nil, or_false] at hi
  rcases hi with rfl | rfl | rfl | rfl | rfl <;> simp [State.objBusy]

/-- A scalar job setting is written without side effects: busy while the job runs, and checked for its value otherwise. -/
theorem writeScalar_jobSetting {q i : Nat} (sub v : Nat) (s : State) (hi : i ∈ [0x2011, 0x2020, 0x2100, 0x2101]) :
    writeScalar q i sub v s =
      if s.jobRuns q then (stBusy, s)
      else if ¬ s.scalarOk i sub v then (stRefused, s)
      else (stDone, s.odSet q i sub (scalarMask i sub v)) := by
  have hb := objBusy_jobSetting (s := s) (q := q) sub (List.mem_cons_of_mem 0x2010 hi)
  simp only [List.mem_cons, List.not_mem_nil, or_false] at hi
  rcases hi with rfl | rfl | rfl | rfl <;> simp [writeScalar, hb, State.afterScalar]

/-- A job setting takes every value, but that OD 0x2011, the wait limit, is never 0 (Table 3-9). -/
theorem scalarOk_jobSetting {i v : Nat} (sub : Nat) (s : State) (hi : i ∈ [0x2011, 0x2020, 0x2100, 0x2101])
    (hv : i = 0x2011 → v ≠ 0) : s.scalarOk i sub v = true := by
  simp only [List.mem_cons, List.not_mem_nil, or_false] at hi
  unfold State.scalarOk
  rcases hi with rfl | rfl | rfl | rfl <;> simp
  simpa using hv

/-- While no job runs, a job setting takes the value written, less its reserved bits. -/
theorem writeScalar_jobSetting_idle {q i v : Nat} (sub : Nat) {s : State} (hi : i ∈ [0x2011, 0x2020, 0x2100, 0x2101])
    (hv : i = 0x2011 → v ≠ 0) (hj : s.jobRuns q = false) :
    writeScalar q i sub v s = (stDone, s.odSet q i sub (scalarMask i sub v)) := by
  simp [writeScalar_jobSetting sub v s hi, scalarOk_jobSetting sub s hi hv, hj]

/-- The barrier groups are written without side effects, whatever the value: busy while the job runs. -/
theorem writeBlob_barrierGroups (q k : Nat) (b : Bytes) (s : State) :
    writeBlob q 0x2010 k b s = if s.jobRuns q then (stBusy, s) else (stDone, s.blobSet q 0x2010 k b) := by
  have hb := objBusy_jobSetting (s := s) (q := q) k (i := 0x2010) (by simp)
  simp [writeBlob, hb, blobOk, blobMask, State.afterBlob]

theorem cmdStartJob_busy {q v tok : Nat} {s : State} (h : s.jobRuns q = true) : cmdStartJob q v tok s = (stBusy, s) := by
  simp [cmdStartJob, h]

/-- Of a partition that neither runs a job nor is fenced, a start is answered done unless a spar of it is absent (R425). -/
theorem cmdStartJob_done_or_absent {q v tok : Nat} {s : State} (hj : s.jobRuns q = false) (hf : s.startFenced q = false) :
    (cmdStartJob q v tok s).1 = stDone ∨ ∃ i ∈ s.sparsOf q, s.absent i = true := by
  unfold cmdStartJob
  simp only [hj, hf, Bool.or_self, Bool.false_eq_true, if_false]
  split
  · exact .inl rfl
  split
  · exact .inl rfl
  split
  · next ha =>
    obtain ⟨e, he, hea⟩ := List.any_eq_true.1 ha
    obtain ⟨i, hi, rfl⟩ := List.mem_map.1 he
    simp only [Bool.and_eq_true] at hea
    exact .inr ⟨i, hi, hea.2⟩
  · split <;> exact .inl rfl

/-- Settles O32: each setting's write is busy or applied by the one rule for job settings, and the start command by its own. -/
theorem settingsInUse : Obligations.SettingsInUse := by
  unfold Obligations.SettingsInUse
  refine ⟨fun s q k v tok b h => ?_, fun s q k v b h => ⟨?_, ?_, ?_, fun hv => ?_, ?_, cmdStartJob_done_or_absent h⟩⟩
  · simp [writeScalar_jobSetting, writeBlob_barrierGroups, cmdStartJob_busy h, h, stBusy]
  · exact writeScalar_jobSetting_idle k (by simp) (by simp) h
  · exact writeScalar_jobSetting_idle 0 (by simp) (by simp) h
  · simp [writeBlob_barrierGroups, h, stDone]
  · exact writeScalar_jobSetting_idle 0 (by simp) (fun _ => hv) h
  · exact writeScalar_jobSetting_idle 1 (by simp) (by simp) h

end Sys2Proof.Machine
end

section
/-! PROOF. FP32's exact values, and the widening of S16 elements (02 R53, R57, R59). -/

namespace Sys2Proof.Machine

open Sys2Proof Sys2Proof.Safety

/-- Sign, exponent and fraction of an FP32 word put together from them (02 Table 2-2). -/
theorem f32Val_bits (neg : Bool) {E n : Nat} (hE : E < 255) (hn : n < 2 ^ 23) :
    f32Val (BitVec.ofNat 32 (fdF32.bits neg (E, n))) =
      if E = 0 then .fin neg n (-149) else .fin neg (n + 2 ^ 23) ((E : Int) - 150) := by
  have hb : fdF32.bits neg (E, n) = neg.toNat * 2 ^ 31 + E * 2 ^ 23 + n := by cases neg <;> simp [FmtDesc.bits, fdF32]
  have hlt : neg.toNat ≤ 1 := neg.toNat_le
  have hw : (BitVec.ofNat 32 (fdF32.bits neg (E, n))).toNat = neg.toNat * 2 ^ 31 + E * 2 ^ 23 + n := by
    rw [hb, BitVec.toNat_ofNat, Nat.mod_eq_of_lt (by omega)]
  have hs : (neg.toNat * 2 ^ 31 + E * 2 ^ 23 + n).testBit 31 = neg := by
    have : (neg.toNat * 2 ^ 31 + E * 2 ^ 23 + n) / 2 ^ 31 % 2 = neg.toNat := by omega
    rw [Nat.testBit_eq_decide_div_mod_eq, this]
    cases neg <;> rfl
  have he : bitsOf (neg.toNat * 2 ^ 31 + E * 2 ^ 23 + n) 23 8 = E := by
    simp only [bitsOf, Nat.shiftRight_eq_div_pow]; omega
  have hf : bitsOf (neg.toNat * 2 ^ 31 + E * 2 ^ 23 + n) 0 23 = n := by
    simp only [bitsOf, Nat.shiftRight_eq_div_pow]; omega
  rw [f32Val, hw]
  unfold FmtDesc.decode
  simp only [fdF32, FmtDesc.emin, hs, he, hf]
  by_cases h0 : E = 0
  · simp [h0]
  · simp only [show E ≠ 2 ^ 8 - 1 by omega, h0, and_false, if_false, OfNat.one_ne_ofNat, false_and]
    congr 1
    omega

/-- A magnitude whose last place is no finer than its grid's is only shifted onto the grid (02 R53). -/
theorem roundMag_exact {m p : Nat} {e emin : Int} (mode : RMode) (hm : m ≠ 0) (h : max ((Nat.log2 m : Int) + e) emin - p ≤ e) :
    roundMag m e p emin mode =
      (m * 2 ^ (e - (max ((Nat.log2 m : Int) + e) emin - p)).toNat, max ((Nat.log2 m : Int) + e) emin - p) := by
  simp [roundMag, hm, h, Nat.shiftLeft_eq]

theorem fdF32_pack_subnormal {n : Nat} (u : Int) (h : n < 2 ^ 23) : fdF32.pack n u = (0, n) := if_pos h

theorem fdF32_pack_normal {n : Nat} (u : Int) (h : 2 ^ 23 ≤ n) (h' : n < 2 ^ 24) :
    fdF32.pack n u = ((u + 150).toNat, n - 2 ^ 23) := by
  have hl : Nat.log2 n = 23 := (Nat.log2_eq_iff (by omega)).2 ⟨h, h'⟩
  have hn : ¬ n < 2 ^ 23 := by omega
  simp only [FmtDesc.pack, fdF32, hn, if_false, hl, Nat.sub_self, Nat.shiftRight_zero]
  congr 2
  omega

/-- A finite value that rounds to `n * 2^u`, in place and within FP32's binades, reads back as that. -/
theorem f32Val_toF32_of_roundMag (neg : Bool) {m n : Nat} {e u : Int} (hr : roundMag m e 23 (-126) .rne = (n, u))
    (hn : n < 2 ^ 24) (hsub : n < 2 ^ 23 → u = -149) (hlo : -149 ≤ u) (hhi : u ≤ 104) :
    f32Val (toF32 (.fin neg m e)) = .fin neg n u := by
  have hw : ∀ E f, fdF32.pack n u = (E, f) → E < 255 → toF32 (.fin neg m e) = BitVec.ofNat 32 (fdF32.bits neg (E, f)) := by
    intro E f hp hE
    have hr' : roundMag m e fdF32.fb fdF32.emin .rne = (n, u) := hr
    have hb : fdF32.beyond (E, f) = false := decide_eq_false (by simp [fdF32]; omega)
    simp [toF32, FmtDesc.encode, hr', hp, hb]
  by_cases h : n < 2 ^ 23
  · rw [hw 0 n (fdF32_pack_subnormal u h) (by decide), f32Val_bits neg (by decide) h, if_pos rfl, hsub h]
  · have hE : (u + 150).toNat < 255 ∧ (u + 150).toNat ≠ 0 := by omega
    rw [hw _ _ (fdF32_pack_normal u (by omega) hn) hE.1, f32Val_bits neg hE.1 (by omega), if_neg hE.2]
    congr 1 <;> omega

/-- FP32 holds every 24-bit magnitude whose last place is no finer than its own and whose binade lies below its infinities: the
word stands for the same magnitude, its last place moved `k` places down. -/
theorem f32Val_toF32_exact (neg : Bool) {m : Nat} {e : Int} (hm : m < 2 ^ 24) (he : -149 ≤ e) (ht : (Nat.log2 m : Int) + e ≤ 127) :
    ∃ k : Nat, f32Val (toF32 (.fin neg m e)) = .fin neg (m * 2 ^ k) (e - k) := by
  by_cases h0 : m = 0
  · subst h0
    refine ⟨(e + 149).toNat, ?_⟩
    have hr : roundMag 0 e 23 (-126) .rne = (0, -149) := if_pos rfl
    rw [f32Val_toF32_of_roundMag neg hr (by decide) (fun _ => rfl) (by decide) (by decide), Nat.zero_mul]
    congr 1
    omega
  have hL : Nat.log2 m ≤ 23 := Nat.le_of_lt_succ ((Nat.log2_lt h0).2 hm)
  obtain ⟨u, hu⟩ : ∃ u, u = max ((Nat.log2 m : Int) + e) (-126) - (23 : Nat) := ⟨_, rfl⟩
  have hr : roundMag m e 23 (-126) .rne = (m * 2 ^ (e - u).toNat, u) := by
    rw [roundMag_exact .rne h0 (by omega), ← hu]
  have hlt : m * 2 ^ (e - u).toNat < 2 ^ 24 := calc
    m * 2 ^ (e - u).toNat < 2 ^ (Nat.log2 m + 1) * 2 ^ (e - u).toNat := Nat.mul_lt_mul_of_pos_right Nat.lt_log2_self (by positivity)
    _ = 2 ^ (Nat.log2 m + 1 + (e - u).toNat) := (pow_add ..).symm
    _ ≤ 2 ^ 24 := Nat.pow_le_pow_right (by decide) (by omega)
  have hsub : m * 2 ^ (e - u).toNat < 2 ^ 23 → u = -149 := by
    intro h
    by_contra hne
    have : 2 ^ 23 ≤ m * 2 ^ (e - u).toNat := calc
      2 ^ 23 = 2 ^ Nat.log2 m * 2 ^ (e - u).toNat := by rw [← pow_add]; congr 1; omega
      _ ≤ m * 2 ^ (e - u).toNat := Nat.mul_le_mul_right _ (Nat.log2_self_le h0)
    omega
  refine ⟨(e - u).toNat, ?_⟩
  rw [f32Val_toF32_of_roundMag neg hr hlt hsub (by omega) (by omega)]
  congr 1
  omega

/-- Moving the last place of a finite value leaves the number it is. -/
theorem eqv_fin_moved (neg : Bool) (m k : Nat) (e : Int) : (FVal.fin neg (m * 2 ^ k) (e - k)).eqv (.fin neg m e) = true := by
  cases neg <;> simp [FVal.eqv, FVal.lt, addFin, Nat.shiftLeft_eq]

/-- An integer of 24 bits is exact in FP32 at every scale that keeps it on FP32's grid and below its infinities. -/
theorem toF32_ofInt_exact {z e : Int} (hz : z.natAbs < 2 ^ 24) (he : -149 ≤ e) (ht : (Nat.log2 z.natAbs : Int) + e ≤ 127) :
    (f32Val (toF32 (ofInt z e))).eqv (ofInt z e) = true := by
  obtain ⟨k, hk⟩ := f32Val_toF32_exact (decide (z < 0)) hz he ht
  rw [ofInt, hk]
  exact eqv_fin_moved _ _ _ _

/-- Settles O42: a mantissa of at most 15 bits and a sign is exact in FP32 at every scale of a finite block (02 R57, R59). -/
theorem s16Widening : Obligations.S16Widening := by
  unfold Obligations.S16Widening
  refine ⟨fun e m he hlo hhi => ?_, by decide, by decide, by decide⟩
  have hm : m.natAbs < 2 ^ 15 := by omega
  have hlog : Nat.log2 m.natAbs ≤ 14 := by
    by_cases h0 : m.natAbs = 0
    · simp [h0]
    · exact Nat.le_of_lt_succ ((Nat.log2_lt h0).2 hm)
  exact toF32_ofInt_exact (by omega) (by omega) (by omega)

end Sys2Proof.Machine
end

section
/-! PROOF. The vector units (03 Table 3-5, R79, R80, R500; 04 R145): registers from lanes, and the rows of slots 4 and 5. -/

namespace Sys2Proof.Machine

open Sys2Proof Sys2Proof.Safety

/-- Digit `j` of a number spelled in base `b`. -/
theorem ofDigits_div_pow_mod {b : Nat} {l : List Nat} (hl : ∀ d ∈ l, d < b) {j : Nat} (hj : j < l.length) :
    Nat.ofDigits b l / b ^ j % b = l[j] := by
  have hd : l[j] < b := hl _ (List.getElem_mem hj)
  rw [Nat.ofDigits_div_pow_eq_ofDigits_drop j (by omega) l hl, List.drop_eq_getElem_cons hj, Nat.ofDigits_cons,
    Nat.add_mul_mod_self_left, Nat.mod_eq_of_lt hd]

/-- The bits of digit `j` of a number spelled in base 2^w are the number's bits from `w * j` on. -/
theorem testBit_ofDigits {w i j : Nat} {l : List Nat} (hl : ∀ d ∈ l, d < 2 ^ w) (hj : j < l.length) (hi : i < w) :
    (Nat.ofDigits (2 ^ w) l).testBit (w * j + i) = l[j].testBit i := by
  rw [← ofDigits_div_pow_mod hl hj, Nat.testBit_mod_two_pow, ← pow_mul, Nat.testBit_div_two_pow]
  simp [hi, Nat.add_comm]

/-- A lane of a vector register is the lane it was put together from. -/
theorem lane_ofLanes {ls : List W32} {j : Nat} (h : ls.length = 256) (hj : j < 256) : lane (ofLanes ls) j = ls[j] := by
  have hn : ls.foldr (fun l acc => acc * 2 ^ 32 + l.toNat) 0 = Nat.ofDigits (2 ^ 32) (ls.map BitVec.toNat) := by
    rw [Nat.ofDigits_eq_foldr, List.foldr_map]
    simp [Nat.add_comm, Nat.mul_comm]
  have hd : ∀ d ∈ ls.map BitVec.toNat, d < 2 ^ 32 := by simpa using fun l _ => l.isLt
  ext i hi
  have ht := testBit_ofDigits (i := i) (j := j) (l := ls.map BitVec.toNat) (w := 32) hd (by simpa [h] using hj) hi
  have hb : 32 * j + i < 8192 := by omega
  simp only [lane, ofLanes, hn, BitVec.getElem_extractLsb', BitVec.getLsbD_ofNat, hb, decide_true, Bool.true_and, ht, List.getElem_map]
  rw [BitVec.getElem_eq_testBit_toNat]

theorem getLsbD_ofPred (p : Nat → Bool) {j : Nat} (hj : j < 256) : (ofPred p).getLsbD j = p j := by
  have hn : (List.range 256).foldr (fun k acc => acc * 2 + if p k then 1 else 0) 0 =
      Nat.ofDigits (2 ^ 1) ((List.range 256).map fun k => (p k).toNat) := by
    rw [Nat.ofDigits_eq_foldr, List.foldr_map]
    congr 1
    funext k acc
    cases p k <;> simp [Nat.add_comm, Nat.mul_comm]
  have ht := testBit_ofDigits (i := 0) (j := j) (l := (List.range 256).map fun k => (p k).toNat) (w := 1)
    (by simpa using fun k _ => Bool.toNat_lt _) (by simpa using hj) (by decide)
  have hb : ∀ b : Bool, decide (b.toNat % 2 = 1) = b := by decide
  rw [ofPred, hn, BitVec.getLsbD_ofNat]
  simpa [hj, hb] using ht

/-! Rows of slots 4 and 5. -/

@[simp] theorem lane_and (u v : BitVec 8192) (j : Nat) : lane (u &&& v) j = lane u j &&& lane v j := BitVec.extractLsb'_and
@[simp] theorem lane_or (u v : BitVec 8192) (j : Nat) : lane (u ||| v) j = lane u j ||| lane v j := BitVec.extractLsb'_or
@[simp] theorem lane_xor (u v : BitVec 8192) (j : Nat) : lane (u ^^^ v) j = lane u j ^^^ lane v j := BitVec.extractLsb'_xor

theorem lanesOf_eq (v : BitVec 8192) : lanesOf v = (List.range 256).map (lane v) := rfl

theorem lanesOf_map (v : BitVec 8192) (g : W32 → W32) : (lanesOf v).map g = (List.range 256).map fun j => g (lane v j) := by
  simp [lanesOf_eq]

/-- A register computed lane by lane. -/
theorem lane_ofLanes_map (g : Nat → W32) {j : Nat} (hj : j < 256) : lane (ofLanes ((List.range 256).map g)) j = g j := by
  rw [lane_ofLanes (by simp) hj]
  simp

/-- A slot-4 or slot-5 row that issues alone, whose effect changes its spar by what the spar held before the bundle (03 R73) and
leaves its place in the program: it changes the spar so, and moves on. -/
theorem exec_reads {c : Nat → Fields → Instr} {k : Nat} {op : BitVec 8} (g : Spar → Fields → Spar → Spar)
    (he : ∀ x i f s, effSlot k op.toNat x i f s = s.modSpar i (g x f)) (hp : ∀ x f y, (g x f y).pc = y.pc)
    (hl : ∀ x f y, (g x f y).loops = y.loops) (hr : ∀ x f y, (g x f y).run = y.run) (hk : k = 4 ∨ k = 5 := by decide)
    (ho : op ≠ 0 := by decide) (hc : ∀ i f s, exec (c i f) s = issueRow k op i f s := by exact fun _ _ _ => rfl) :
    ∀ s i f, issuesAlone s i k op f → exec (c i f) s = .next (s.modSpar i fun y => stepped (g (s.spar i) f y)) :=
  changesSpar_of (g := fun x f => g x f x) (by omega) ho (by omega) (by omega) (by omega) hc (fun i f s => he (s.spar i) i f s)
    (fun x f => hp x f x) (fun x f l h => by rwa [hl] at h) fun x f => hr x f x

/-- A row whose effect writes one scalar register. -/
theorem writesScalar_reads {c : Nat → Fields → Instr} {k : Nat} {op : BitVec 8} {v : Spar → Fields → W64}
    (he : ∀ x i f s, effSlot k op.toNat x i f s = writeS i f (v x f) s) (hk : k = 4 ∨ k = 5 := by decide)
    (ho : op ≠ 0 := by decide) (hc : ∀ i f s, exec (c i f) s = issueRow k op i f s := by exact fun _ _ _ => rfl) :
    writesScalar c k op v :=
  exec_reads (fun x f y => y.sset f.d.toNat (v x f)) he (fun _ _ _ => sset_pc ..) (fun _ _ _ => sset_loops ..)
    (fun _ _ _ => sset_run ..) hk ho hc

/-- A row whose effect writes one predicate register. -/
theorem changesSpar_pset {c : Nat → Fields → Instr} {k : Nat} {op : BitVec 8} (v : Spar → Fields → BitVec 256)
    (he : ∀ x i f s, effSlot k op.toNat x i f s = s.modSpar i fun y => y.pset f.d.toNat (v x f)) (hk : k = 4 ∨ k = 5 := by decide)
    (ho : op ≠ 0 := by decide) (hc : ∀ i f s, exec (c i f) s = issueRow k op i f s := by exact fun _ _ _ => rfl) :
    changesSpar c k op fun x f => stepped (x.pset f.d.toNat (v x f)) :=
  exec_reads (fun x f y => y.pset f.d.toNat (v x f)) he (fun _ _ _ => rfl) (fun _ _ _ => rfl) (fun _ _ _ => rfl) hk ho hc

/-- A row whose effect writes `v` of its spar to v[D], `w` being its lanes. -/
theorem writesVector_reads {c : Nat → Fields → Instr} {k : Nat} {op : BitVec 8} {v : Spar → Fields → BitVec 8192}
    {w : Spar → Fields → Nat → W32} (he : ∀ x i f s, effSlot k op.toNat x i f s = s.modSpar i fun y => y.vset f.d.toNat (v x f))
    (hw : ∀ x f, ∀ j < 256, lane (v x f) j = w x f j) (hk : k = 4 ∨ k = 5 := by decide)
    (ho : op ≠ 0 := by decide) (hc : ∀ i f s, exec (c i f) s = issueRow k op i f s := by exact fun _ _ _ => rfl) :
    writesVector c k op w := fun s i f h =>
  ⟨v (s.spar i) f,
    exec_reads (fun x f y => y.vset f.d.toNat (v x f)) he (fun _ _ _ => rfl) (fun _ _ _ => rfl) (fun _ _ _ => rfl) hk ho hc s i f h,
    hw (s.spar i) f⟩

/-- A row that computes v[D] lane by lane. -/
theorem writesVector_lanes {c : Nat → Fields → Instr} {k : Nat} {op : BitVec 8} {w : Spar → Fields → Nat → W32}
    (he : ∀ x i f s, effSlot k op.toNat x i f s =
      s.modSpar i fun y => y.vset f.d.toNat (ofLanes ((List.range 256).map (w x f)))) (hk : k = 4 ∨ k = 5 := by decide)
    (ho : op ≠ 0 := by decide) (hc : ∀ i f s, exec (c i f) s = issueRow k op i f s := by exact fun _ _ _ => rfl) :
    writesVector c k op w :=
  writesVector_reads he (fun _ _ _ => lane_ofLanes_map _) hk ho hc

/-- A row that computes each lane of v[D] from those of v[A] and v[B]. -/
theorem writesVector_vec2 {c : Nat → Fields → Instr} {k : Nat} {op : BitVec 8} {w : Spar → Fields → Nat → W32}
    {g : Fields → W32 → W32 → W32} (he : ∀ x i f s, effSlot k op.toNat x i f s = vec2 x i f (g f) s)
    (hw : ∀ x f j, w x f j = g f (lane (x.vget f.a.toNat) j) (lane (x.vget f.b.toNat) j)) (hk : k = 4 ∨ k = 5 := by decide)
    (ho : op ≠ 0 := by decide) (hc : ∀ i f s, exec (c i f) s = issueRow k op i f s := by exact fun _ _ _ => rfl) :
    writesVector c k op w := by
  refine writesVector_lanes (fun x i f s => ?_) hk ho hc
  rw [he, vec2, funext (hw x f)]
  simp [lanesOf_eq, List.zipWith_map, List.zipWith_self]

/-- Counting a conversion changes only the dictionary (02 R62). -/
@[simp] theorem spar_countRange (s : State) (q slot i : Nat) (c : Conv) : (s.countRange q slot c).spar i = s.spar i := by
  have key : ∀ (l : List (Nat × Nat)) (t : State),
      (l.foldl (fun s e => if e.2 = 0 then s else s.odAdd q (0x2200 + slot) (e.1 + 1) e.2) t).spar i = t.spar i := by
    intro l
    induction l with
    | nil => exact fun _ => rfl
    | cons e r ih =>
      intro t
      rw [List.foldl_cons, ih]
      split <;> rfl
  exact key _ s



/-- `va.cmp` writes p[D] with its comparison on every lane. -/
theorem exec_vaCmp : ∀ s i f, issuesAlone s i 4 0x07 f → exec (.vaCmp i f) s = .next (s.modSpar i fun y => stepped (y.pset f.d.toNat
    (ofPred fun j => laneCmp f (lane ((s.spar i).vget f.a.toNat) j) (lane ((s.spar i).vget f.b.toNat) j)))) :=
  exec_reads (fun x f y => y.pset f.d.toNat (ofPred fun j => laneCmp f (lane (x.vget f.a.toNat) j) (lane (x.vget f.b.toNat) j)))
    (fun _ _ _ _ => rfl) (fun _ _ _ => rfl) (fun _ _ _ => rfl) fun _ _ _ => rfl

/-- `vb.cvt` writes v[D] with the conversion's bytes and counts the conversion (02 R62, 03 R79). -/
theorem exec_vbCvt (s : State) (i : Nat) (f : Fields) (h : issuesAlone s i 5 0x02 f) :
    let c := vbConv s (s.spar i) i f
    exec (.vbCvt i f) s = .next (((s.modSpar i fun y => y.vset f.d.toNat (vecOfBytes (padTo 1024 (convBytes f.fmt c))))
      |>.countRange (s.sparPart i) (f.immBits 8 8) c).modSpar i stepped) :=
  issueRow_effect (by decide) (by decide) (by decide) (by decide) (by decide) h rfl
    (by rw [spar_countRange, spar_modSpar]; rfl) (fun l hl => by rw [spar_countRange, spar_modSpar] at hl; exact hl)
    (by rw [spar_countRange, spar_modSpar]; exact running_of_canIssue h.1)

/-- Settles O11, row by row: each lane-wise row by the lane it computes, the others by the register they write. -/
theorem vectorUnits : Obligations.VectorUnits := by
  unfold Obligations.VectorUnits
  refine ⟨⟨?_, ?_, ?_, ?_, ?_, ?_⟩, ⟨?_, ?_, ?_, ?_, ?_, ?_⟩, ?_, ?_, ?_, ?_, ?_, ?_, ?_, ?_⟩
  · exact writesVector_vec2 (fun _ _ _ _ => rfl) fun _ _ _ => rfl
  · exact writesVector_vec2 (fun _ _ _ _ => rfl) fun _ _ _ => rfl
  · exact writesVector_vec2 (fun _ _ _ _ => rfl) fun _ _ _ => rfl
  · exact writesVector_lanes fun _ _ _ _ => rfl
  · exact writesVector_vec2 (fun _ _ _ _ => rfl) fun _ _ _ => by simp only [laneOp2, BitVec.slt_eq_decide, decide_eq_true_eq]; rfl
  · exact writesVector_vec2 (fun _ _ _ _ => rfl) fun _ _ _ => by simp only [laneOp2, BitVec.slt_eq_decide, decide_eq_true_eq]; rfl
  · exact fun s i f h => ⟨_, exec_vaCmp s i f h, fun j hj => getLsbD_ofPred _ hj⟩
  · exact writesVector_lanes fun _ _ _ _ => rfl
  · exact writesVector_reads (fun _ _ _ _ => rfl) fun _ _ _ _ => lane_and ..
  · exact writesVector_reads (fun _ _ _ _ => rfl) fun _ _ _ _ => lane_or ..
  · exact writesVector_reads (fun _ _ _ _ => rfl) fun _ _ _ _ => lane_xor ..
  · exact writesVector_reads (fun _ _ _ _ => rfl) fun _ _ _ _ => rfl
  · exact writesVector_lanes fun x _ f _ => by rw [← lanesOf_map (x.vget f.a.toNat) (sfuApply f.low)]; rfl
  · exact exec_vbCvt
  · exact writesVector_lanes fun _ _ _ _ => rfl
  · exact writesScalar_reads fun x _ f _ => by rw [← lanesOf_eq]; rfl
  · exact writesVector_lanes fun _ _ _ _ => rfl
  · exact writesVector_lanes fun _ _ _ _ => by rw [List.map_const', List.length_range]; rfl
  · exact writesVector_lanes fun _ _ _ _ => rfl
  · exact changesSpar_pset _ fun _ _ _ _ => rfl

end Sys2Proof.Machine
end

section
/-! PROOF. The clear commands (02 R51, 04 R149, 06 R198, R205, 07 R243): counter records set to zero, and what a notice leaves of the dictionary. -/

namespace Sys2Proof.Machine

open Sys2Proof Sys2Proof.Safety

/-! Objects set to zero one after another. -/

/-- The scalar objects `os`, index and subindex, of partition `q` set to zero. -/
def State.clearObjs (s : State) (q : Nat) (os : List (Nat × Nat)) : State := os.foldl (fun t o => t.odSet q o.1 o.2 0) s

@[simp] theorem State.clearObjs_dome (s : State) (q : Nat) (os : List (Nat × Nat)) : (s.clearObjs q os).dome = s.dome := by
  induction os generalizing s with
  | nil => rfl
  | cons o r ih => exact ih (s.odSet q o.1 o.2 0)

@[simp] theorem State.clearObjs_spars (s : State) (q : Nat) (os : List (Nat × Nat)) : (s.clearObjs q os).spars = s.spars := by
  induction os generalizing s with
  | nil => rfl
  | cons o r ih => exact ih (s.odSet q o.1 o.2 0)

/-- An object with another key reads as before. -/
theorem State.mapGet_clearObjs_other (s : State) (q : Nat) {os : List (Nat × Nat)} {key : Nat} (h : ∀ o ∈ os, odKey q o.1 o.2 ≠ key)
    (d : Nat) : mapGet d (s.clearObjs q os).od key = mapGet d s.od key := by
  induction os generalizing s with
  | nil => rfl
  | cons o r ih =>
    obtain ⟨ho, hr⟩ := List.forall_mem_cons.1 h
    exact (ih (s.odSet q o.1 o.2 0) hr).trans (mapGet_mapSet_ne _ _ _ _ ho)

/-- The keys of one partition's objects tell them apart. -/
theorem odKey_inj {q i j a b : Nat} (ha : a < 256) (hb : b < 256) (h : odKey q i a = odKey q j b) : i = j ∧ a = b := by
  unfold odKey at h
  omega

/-- A cleared object reads zero. -/
theorem State.odGet_clearObjs (s : State) (q : Nat) {os : List (Nat × Nat)} (hs : ∀ o ∈ os, o.2 < 256) {o : Nat × Nat} (ho : o ∈ os) :
    (s.clearObjs q os).odGet q o.1 o.2 = 0 := by
  induction os generalizing s with
  | nil => cases ho
  | cons p r ih =>
    obtain ⟨hp, hr⟩ := List.forall_mem_cons.1 hs
    by_cases hmem : o ∈ r
    · exact ih (s.odSet q p.1 p.2 0) hr hmem
    obtain rfl : o = p := (List.mem_cons.1 ho).resolve_right hmem
    have hne : ∀ x ∈ r, odKey q x.1 x.2 ≠ odKey q o.1 o.2 := fun x hx he => by
      obtain ⟨h1, h2⟩ := odKey_inj (hr x hx) hp he
      exact hmem (Prod.ext h1 h2 ▸ hx)
    exact (State.mapGet_clearObjs_other _ q hne _).trans (State.odGet_odSet_self s q o.1 o.2 0)

/-! Counter records: subindices 1 to `n` of `base` + number. -/

/-- The objects of the records of the numbers `vs`. -/
def recordObjs (base n : Nat) (vs : List Nat) : List (Nat × Nat) := vs.flatMap fun v => (List.range n).map fun k => (base + v, 1 + k)

theorem mem_recordObjs {base n : Nat} {vs : List Nat} {o : Nat × Nat} :
    o ∈ recordObjs base n vs ↔ ∃ v ∈ vs, o.1 = base + v ∧ 1 ≤ o.2 ∧ o.2 ≤ n := by
  simp only [recordObjs, List.mem_flatMap, List.mem_map, List.mem_range]
  refine exists_congr fun v => and_congr_right fun _ => ⟨?_, fun ⟨h1, h2, h3⟩ => ⟨o.2 - 1, by omega, ?_⟩⟩
  · rintro ⟨k, hk, rfl⟩
    exact ⟨rfl, by simp, by simp; omega⟩
  · exact Prod.ext h1.symm (by simp; omega)

theorem foldl_clearSubs (s : State) (q base n : Nat) (vs : List Nat) :
    vs.foldl (fun t v => t.clearSubs q (base + v) 1 n) s = s.clearObjs q (recordObjs base n vs) := by
  simp [State.clearObjs, recordObjs, List.foldl_flatMap, List.foldl_map, State.clearSubs]

/-- The slots a clear command names by its value: one, or all of them (Table 2-8, Table 6-8, Table 7-9). -/
def slotsNamed (val : Nat) : List Nat := if val = 0xFFFF then List.range 256 else [val]

theorem mem_slotsNamed {val v : Nat} (h : val < 256 ∨ val = 0xFFFF) : v ∈ slotsNamed val ↔ v < 256 ∧ (val = v ∨ val = 0xFFFF) := by
  unfold slotsNamed
  split
  · simp [*]
  · simp only [List.mem_singleton]; omega

theorem clearSlots_eq (s : State) (q base n val : Nat) : s.clearSlots q base n val = s.clearObjs q (recordObjs base n (slotsNamed val)) := by
  rw [← foldl_clearSubs, State.clearSlots, slotsNamed]
  split <;> rfl

theorem clearTowers_eq (s : State) (q base n : Nat) : s.clearTowers q base n = s.clearObjs 0 (recordObjs base n (s.towersOf q)) :=
  foldl_clearSubs s 0 base n (s.towersOf q)

/-! A notice leaves every counter from OD 0x1801 on: of the dictionary it writes only the counters of lost records (13 R410). -/

theorem mapGet_od_countLost {s : State} {k key : Nat} (hk : k < 48) (h : 0x180100 ≤ key) (d : Nat) :
    mapGet d (s.countLost k).od key = mapGet d s.od key := by
  unfold State.countLost State.odAdd
  split
  · exact mapGet_mapSet_ne _ _ _ _ (by simp [odKey]; omega)
  split
  · exact mapGet_mapSet_ne _ _ _ _ (by simp [odKey]; omega)
  · exact mapGet_mapSet_ne _ _ _ _ (by simp [odKey]; omega)

@[simp] theorem msix_od (s : State) (v : Nat) : (s.msix v).od = s.od := by
  unfold State.msix
  split <;> rfl

theorem mapGet_od_deliverTo {s : State} {n : Notice} {k key : Nat} (hk : k < 48) (h : 0x180100 ≤ key) (d : Nat) :
    mapGet d (s.deliverTo n k).od key = mapGet d s.od key := by
  have hl : ∀ e, mapGet d ((s.setDest k e).countLost k).od key = mapGet d s.od key := fun e => mapGet_od_countLost hk h d
  dsimp only [State.deliverTo]
  split
  · rfl
  split
  · split
    · rw [msix_od]
      exact hl _
    · exact hl _
  · split <;> rfl

/-- A notice goes to the ring, the MCTP endpoint and the subscribers of the four partitions (Table 13-17). -/
theorem destsOf_lt {s : State} {n : Notice} {k : Nat} (h : k ∈ s.destsOf n) : k < 48 := by
  have hsub : ∀ q < 4, ∀ sev, k ∈ s.subscribers q sev → k < 48 := by
    intro q hq sev hk
    obtain ⟨i, hi, rfl⟩ := List.mem_map.1 hk
    have := List.mem_range.1 (List.mem_of_mem_filter hi)
    unfold subscriberKey
    omega
  simp only [State.destsOf, List.mem_append] at h
  rcases h with ((h | h) | h) | h <;> split at h
  · simp_all
  · cases h
  · simp_all
  · cases h
  · exact hsub 0 (by decide) _ h
  · cases h
  · next hp =>
    simp only [Bool.and_eq_true, decide_eq_true_eq] at hp
    exact hsub _ hp.2 _ h
  · cases h

theorem mapGet_od_deliver (s : State) (n : Notice) {key : Nat} (h : 0x180100 ≤ key) (d : Nat) :
    mapGet d (s.deliver n).od key = mapGet d s.od key := by
  have hfold : ∀ (ks : List Nat) (t : State), (∀ k ∈ ks, k < 48) →
      mapGet d (ks.foldl (fun t k => t.deliverTo n k) t).od key = mapGet d t.od key := by
    intro ks
    induction ks with
    | nil => exact fun _ _ => rfl
    | cons k r ih =>
      intro t hks
      obtain ⟨hk, hr⟩ := List.forall_mem_cons.1 hks
      exact (ih (t.deliverTo n k) hr).trans (mapGet_od_deliverTo hk h d)
  exact hfold _ s fun k hk => destsOf_lt hk

/-- A completion notice leaves the objects from OD 0x1801 on. -/
theorem odGet_complete (s : State) (p obj sub status tok val : Nat) (more : Bytes) {q i k : Nat} (hi : 0x1801 ≤ i) :
    (s.complete p obj sub status tok val more).odGet q i k = s.odGet q i k :=
  mapGet_od_deliver s _ (by unfold odKey; omega) _

/-- What a clear of records does to the dictionary: they read zero, also past the completion notice, and the others are kept. -/
theorem clearObjs_records {s z : State} {q base n : Nat} {vs : List Nat} (hz : z.od = (s.clearObjs q (recordObjs base n vs)).od)
    (hn : n < 256) (hb : 0x1801 ≤ base) (p obj sub status tok val : Nat) (more : Bytes) :
    (∀ v ∈ vs, ∀ k, 1 ≤ k → k ≤ n →
      z.odGet q (base + v) k = 0 ∧ (z.complete p obj sub status tok val more).odGet q (base + v) k = 0) ∧
    (∀ key, (∀ v ∈ vs, ∀ k, 1 ≤ k → k ≤ n → key ≠ odKey q (base + v) k) → ∀ d, mapGet d z.od key = mapGet d s.od key) := by
  refine ⟨fun v hv k h1 h2 => ?_, fun key hk d => ?_⟩
  · have h0 : z.odGet q (base + v) k = 0 := by
      have hs : ∀ o ∈ recordObjs base n vs, o.2 < 256 := fun o ho => by
        obtain ⟨-, -, -, -, h⟩ := mem_recordObjs.1 ho
        omega
      rw [State.odGet, hz]
      exact s.odGet_clearObjs q hs (mem_recordObjs.2 ⟨v, hv, rfl, h1, h2⟩ : (base + v, k) ∈ _)
    exact ⟨h0, (odGet_complete z p obj sub status tok val more (by omega)).trans h0⟩
  · rw [hz]
    refine s.mapGet_clearObjs_other q (fun o ho he => ?_) d
    obtain ⟨v, hv, ho1, h1, h2⟩ := mem_recordObjs.1 ho
    exact hk v hv o.2 h1 h2 (ho1 ▸ he.symm)

/-- A served command of a present partition takes effect. -/
theorem runCmd_next {q : Nat} {s t : State} {r : CmdRes} {st : Nat} (hs : s.served = true) (hp : s.present q = true) (hr : r = (st, t)) :
    runCmd q s r = .next t := by
  simp [runCmd, hs, hp, hr]

theorem slotOrAll_iff {val : Nat} : slotOrAll val = true ↔ val < 256 ∨ val = 0xFFFF := by simp [slotOrAll]

/-- A command that, before its notice, clears the records of the slots its value names and leaves the rest of the dictionary, dome
memory and the spars. -/
theorem slotClear_clears {s z : State} {q val tok obj base n : Nat} {o : Res} (hv : val < 256 ∨ val = 0xFFFF)
    (ho : o = .next (z.complete q obj 0 0 tok val [])) (hz : z.od = (s.clearSlots q base n val).od)
    (hd : z.dome = (s.clearSlots q base n val).dome) (hs : z.spars = (s.clearSlots q base n val).spars)
    (hn : n < 256) (hb : 0x1801 ≤ base) :
    ∃ z : State, o = .next (z.complete q obj 0 0 tok val []) ∧
      (∀ v < 256, val = v ∨ val = 0xFFFF → ∀ k, 1 ≤ k → k ≤ n →
        z.odGet q (base + v) k = 0 ∧ (z.complete q obj 0 0 tok val []).odGet q (base + v) k = 0) ∧
      (∀ key, (∀ v < 256, val = v ∨ val = 0xFFFF → ∀ k, 1 ≤ k → k ≤ n → key ≠ odKey q (base + v) k) →
        ∀ d, mapGet d z.od key = mapGet d s.od key) ∧
      z.dome = s.dome ∧ z.spars = s.spars := by
  rw [clearSlots_eq] at hz hd hs
  obtain ⟨h0, hkeep⟩ := clearObjs_records hz hn hb q obj 0 0 tok val []
  refine ⟨z, ho, fun v hlt hsel => h0 v ((mem_slotsNamed hv).2 ⟨hlt, hsel⟩), fun key hk => hkeep key fun v hmem => ?_, ?_, ?_⟩
  · obtain ⟨hlt, hsel⟩ := (mem_slotsNamed hv).1 hmem
    exact hk v hlt hsel
  · simpa using hd
  · simpa using hs

/-- Settles O18: every clear is a clear of the records it names, by slot or by tower, and its notice touches none of them. -/
theorem counterClears : Obligations.CounterClears := by
  unfold Obligations.CounterClears
  refine ⟨fun s q val tok hs hp => ⟨fun c obj base n hc hv => ?_, fun c obj base n hc => ?_⟩, fun s q val tok hs hp hv => ?_⟩
  · simp only [List.mem_cons, Prod.mk.injEq, List.not_mem_nil, or_false] at hc
    rcases hc with ⟨rfl, rfl, rfl, rfl⟩ | ⟨rfl, rfl, rfl, rfl⟩
    · exact slotClear_clears hv (runCmd_next hs hp (if_pos (slotOrAll_iff.2 hv))) rfl rfl rfl (by decide) (by decide)
    · exact slotClear_clears hv (runCmd_next hs hp (if_pos (slotOrAll_iff.2 hv))) rfl rfl rfl (by decide) (by decide)
  · simp only [List.mem_cons, Prod.mk.injEq, List.not_mem_nil, or_false] at hc
    rcases hc with ⟨rfl, rfl, rfl, rfl⟩ | ⟨rfl, rfl, rfl, rfl⟩
    · have hz : ((s.clearTowers q 0x2310 9).dropGated q).od = (s.clearObjs 0 (recordObjs 0x2310 9 (s.towersOf q))).od := by
        rw [← clearTowers_eq]
        rfl
      obtain ⟨h0, hkeep⟩ := clearObjs_records hz (by decide) (by decide) q 0x2301 0 0 tok val []
      exact ⟨_, runCmd_next hs hp rfl, h0, hkeep, by simp [State.dropGated, clearTowers_eq]⟩
    · have hz := congrArg State.od (clearTowers_eq s q 0x2410 11)
      obtain ⟨h0, hkeep⟩ := clearObjs_records hz (by decide) (by decide) q 0x2401 0 0 tok val []
      exact ⟨_, runCmd_next hs hp rfl, h0, hkeep, by simp [clearTowers_eq]⟩
  · exact slotClear_clears hv (runCmd_next hs hp (if_pos (slotOrAll_iff.2 hv))) rfl rfl rfl (by decide) (by decide)

end Sys2Proof.Machine
end

section
/-! PROOF. What a notice leaves of the state (13 R408-R411). -/

namespace Sys2Proof.Machine

open Sys2Proof Sys2Proof.Safety

/-- The states agree in everything but the dictionary's scalars, the notice destinations and the host port: all that a notice
writes. -/
def sameBeyondNotices (s u : State) : Prop := { u with od := s.od, dests := s.dests, cxl := s.cxl } = s

theorem sameBeyondNotices.trans {s t u : State} (h : sameBeyondNotices s t) (h' : sameBeyondNotices t u) : sameBeyondNotices s u := by
  unfold sameBeyondNotices at *
  rw [← h, ← h']

theorem sameBeyondNotices_countLost (s : State) (k : Nat) : sameBeyondNotices s (s.countLost k) := by
  unfold State.countLost
  split
  · rfl
  · split <;> rfl

theorem sameBeyondNotices_msix (s : State) (c : Cxl) (v : Nat) : sameBeyondNotices s (({ s with cxl := c } : State).msix v) := by
  unfold State.msix
  split <;> rfl

theorem sameBeyondNotices_deliverTo (s : State) (n : Notice) (k : Nat) : sameBeyondNotices s (s.deliverTo n k) := by
  have hl : ∀ d, sameBeyondNotices s ((s.setDest k d).countLost k) := fun d =>
    sameBeyondNotices.trans (t := s.setDest k d) rfl (sameBeyondNotices_countLost _ k)
  dsimp only [State.deliverTo]
  split
  · rfl
  split
  · split
    · exact (hl _).trans (sameBeyondNotices_msix _ _ 5)
    · exact hl _
  · split <;> rfl

theorem sameBeyondNotices_deliver (s : State) (n : Notice) : sameBeyondNotices s (s.deliver n) := by
  have hfold : ∀ (ks : List Nat) (t : State), sameBeyondNotices t (ks.foldl (fun t k => t.deliverTo n k) t) := fun ks => by
    induction ks with
    | nil => exact fun _ => rfl
    | cons k r ih => exact fun t => (sameBeyondNotices_deliverTo t n k).trans (ih _)
  exact hfold _ s

theorem sameBeyondNotices_complete (s : State) (q i sub status tok val : Nat) (more : Bytes) :
    sameBeyondNotices s (s.complete q i sub status tok val more) := sameBeyondNotices_deliver s _

theorem sameBeyondNotices.spars {s u : State} (h : sameBeyondNotices s u) : u.spars = s.spars := (congrArg State.spars h :)

theorem sameBeyondNotices.parts {s u : State} (h : sameBeyondNotices s u) : u.parts = s.parts := (congrArg State.parts h :)

end Sys2Proof.Machine
end
section
/-! PROOF. The canonical form of the memories (03 R66, 10 R297): at reset, and why a step need not keep it. -/

namespace Sys2Proof.Machine

open Sys2Proof Sys2Proof.Safety

/-- Settles O58: after a reset no memory lists a byte. -/
theorem memoriesAtReset : Obligations.MemoriesAtReset :=
  ⟨⟨reset_memory_wf, fun _ => ⟨mapWf_nil _, mapWf_nil _⟩⟩, rfl⟩

/-- A device in service whose spar table lists spar 0 twice: first with one gated product and nothing else, and behind that, where
no read reaches it, with a scratch memory that lists a byte of value 0. A CLEAR_ARRAY_COUNTERS waits. -/
def twiceListed : State :=
  { boot := .ready, pwrgd := true, od := [(0x1100, 15)], pending := [.clearArrayCounters 0 0 0]
    spars := [(0, { gated := 1 }), (0, { scratch := [(0, 0)] })] }

theorem memoriesWf_twiceListed : memoriesWf twiceListed := by
  refine ⟨mapWf_nil _, fun i => ?_⟩
  by_cases h : 0 = i
  · subst h
    exact ⟨mapWf_nil _, mapWf_nil _⟩
  · have hi : twiceListed.spar i = {} := by simp [twiceListed, State.spar, mapGet, h]
    rw [hi]
    exact ⟨mapWf_nil _, mapWf_nil _⟩

/-- The clear takes the first listing of spar 0 out, which is all default once its gated product is gone, and uncovers the second. -/
theorem step_twiceListed : ∃ u, step twiceListed = .next u ∧ u.spars = [(0, { scratch := [(0, 0)] })] := by
  have hs : { twiceListed with pending := [] }.served = true := by decide +kernel
  have hp : { twiceListed with pending := [] }.present 0 = true := by decide +kernel
  refine ⟨_, runCmd_next (r := cmdClearArrayCounters 0 0 0 _) hs hp rfl, ?_⟩
  rw [(sameBeyondNotices_complete _ ..).spars]
  decide +kernel

/-- Refutes O59: `memoriesWf` speaks of the listing of a spar that a read finds. In `twiceListed` the clear of the array counters (04
R149) drops that listing, and spar 0 then reads as one whose scratch memory lists a byte of value 0. The statement does not ask that
the spar table itself be in canonical form, one listing for each spar, which `twiceListed` is not. -/
theorem not_memoriesCanonical : ¬ Obligations.MemoriesCanonical := by
  unfold Obligations.MemoriesCanonical
  intro h
  obtain ⟨u, hu, hspars⟩ := step_twiceListed
  have hwf := ((h _ _ memoriesWf_twiceListed hu).2 0).1
  have h0 : u.spar 0 = { scratch := [(0, 0)] } := by simp [State.spar, hspars, mapGet]
  rw [h0] at hwf
  exact hwf.2 (0, 0) (by simp) rfl

end Sys2Proof.Machine
end

section
/-! PROOF. Slots and bundles: their bytes and what reads back (03 R69, R70). -/

namespace Sys2Proof.Machine

open Sys2Proof Sys2Proof.Safety

theorem length_leBytes (n v : Nat) : (leBytes n v).length = n := by
  induction n generalizing v with
  | zero => rfl
  | succ n ih => simp [leBytes, ih]

/-- Little-endian bytes read back as the number they spell, modulo what they hold (01 R11). -/
theorem leNat_leBytes (n v : Nat) : leNat (leBytes n v) = v % 256 ^ n := by
  induction n generalizing v with
  | zero => simp [leBytes, leNat, Nat.mod_one]
  | succ n ih =>
    have h := Nat.mod_mul (x := v) (a := 256) (b := 256 ^ n)
    simp only [leBytes, leNat, ih, BitVec.toNat_ofNat, pow_succ']
    omega

/-- A part of what was written reads back as that part. -/
theorem memRead_write_part (m : List Host.Cell) (a : Nat) (b : Bytes) {o n : Nat} (h : o + n ≤ b.length) :
    memRead (memWrite m a b) (a + o) n = (b.drop o).take n := by
  refine List.ext_getElem (by simp [memRead]; omega) fun k hk hk' => ?_
  have hlt : k < n := by simpa [memRead] using hk
  simpa [memRead, Nat.add_assoc] using memByte_write_in m a b (k := o + k) (by omega)

/-- Pieces of one length, put one behind the other, are found again at that length's multiples. -/
theorem drop_take_flatMap {α β : Type} {f : α → List β} {n : Nat} (hf : ∀ x, (f x).length = n) (l : List α) {k : Nat} (hk : k < l.length) :
    ((l.flatMap f).drop (n * k)).take n = f l[k] := by
  induction l generalizing k with
  | nil => simp at hk
  | cons x r ih =>
    cases k with
    | zero => simp [List.take_append_of_le_length (Nat.le_of_eq (hf x).symm), List.take_of_length_le (Nat.le_of_eq (hf x))]
    | succ k =>
      have hd : (f x ++ r.flatMap f).drop (n * (k + 1)) = (r.flatMap f).drop (n * k) := by
        rw [Nat.mul_succ, Nat.add_comm, ← List.drop_drop, List.drop_left' (hf x)]
      simpa [hd] using ih (k := k) (by simpa using hk)

/-! A slot's 128 bits (Table 3-3). -/

theorem bitsOf_eq (w lo n : Nat) : bitsOf w lo n = w / 2 ^ lo % 2 ^ n := by rw [bitsOf, Nat.shiftRight_eq_div_pow]

theorem bitAt_eq (w i : Nat) : bitAt w i = decide (w / 2 ^ i % 2 = 1) := Nat.testBit_eq_decide_div_mod_eq

theorem ofNat_of_eq_toNat {w n : Nat} {x : BitVec w} (h : n = x.toNat) : BitVec.ofNat w n = x := by
  rw [h, BitVec.ofNat_toNat, BitVec.setWidth_eq]

theorem encodeSlotNat_lt (v : SlotWord) : encodeSlotNat v < 2 ^ 128 := by
  unfold encodeSlotNat
  split <;> split <;> omega

theorem decodeSlotNat_encodeSlotNat (v : SlotWord) : decodeSlotNat (encodeSlotNat v) = v := by
  obtain ⟨op, gen, gneg, greg, mod, d, a, b, c, x, imm⟩ := v
  have hgen : ∀ n : Nat, (if gen then n else 0) = gen.toNat * n := by cases gen <;> simp
  have hgneg : ∀ n : Nat, (if gneg then n else 0) = gneg.toNat * n := by cases gneg <;> simp
  have hgen' := gen.toNat_lt
  have hgneg' := gneg.toNat_lt
  have hbit : ∀ (u : Bool) {n : Nat}, n = u.toNat → decide (n = 1) = u := fun u n h => by cases u <;> simp [h]
  simp only [decodeSlotNat, encodeSlotNat, bitsOf_eq, bitAt_eq, hgen, hgneg, SlotWord.mk.injEq, Fields.mk.injEq]
  refine ⟨ofNat_of_eq_toNat ?_, hbit _ ?_, hbit _ ?_, ofNat_of_eq_toNat ?_, ofNat_of_eq_toNat ?_, ofNat_of_eq_toNat ?_, ofNat_of_eq_toNat ?_,
    ofNat_of_eq_toNat ?_, ofNat_of_eq_toNat ?_, ofNat_of_eq_toNat ?_, ofNat_of_eq_toNat ?_⟩ <;> omega

theorem length_encodeSlot (v : SlotWord) : (encodeSlot v).length = 16 := length_leBytes 16 _

/-- The bundle at an index reads back as encoded there. -/
theorem slotAt_encodeBundle (x : Spar) (pc : Nat) {b : List SlotWord} {k : Nat} (hk : k < b.length) :
    ({ x with istore := memWrite x.istore (128 * pc) (encodeBundle b) } : Spar).slotAt pc k = b[k] := by
  have hlen : 16 * k + 16 ≤ (encodeBundle b).length := by
    have hl : (encodeBundle b).length = 16 * b.length := by simp [encodeBundle, List.length_flatMap, length_encodeSlot, Nat.mul_comm]
    omega
  simp only [Spar.slotAt, memNat]
  rw [memRead_write_part _ _ _ hlen, encodeBundle, drop_take_flatMap length_encodeSlot b hk, encodeSlot, leNat_leBytes,
    Nat.mod_eq_of_lt (show encodeSlotNat b[k] < 256 ^ 16 from encodeSlotNat_lt _), decodeSlotNat_encodeSlotNat]

/-- Settles O60: a slot's fields lie side by side in its 128 bits, and a bundle's slots side by side in its bytes. -/
theorem bundleEncoding : Obligations.BundleEncoding := by
  unfold Obligations.BundleEncoding
  refine ⟨fun v => ⟨decodeSlotNat_encodeSlotNat v, encodeSlotNat_lt v⟩, fun x b pc hb hpc => ?_⟩
  subst hpc
  refine List.ext_getElem (by simp [Spar.bundle, hb]) fun k hk hk' => ?_
  simpa [Spar.bundle] using slotAt_encodeBundle x x.pc hk'

end Sys2Proof.Machine
end

section
/-! PROOF. Slots 0 and 1: scalar and address results (03 Table 3-5, R76, R78). -/

namespace Sys2Proof.Machine

open Sys2Proof Sys2Proof.Safety

/-- A slot-0 or slot-1 row whose effect writes one scalar register, by what the spar held before the bundle (03 R73). -/
theorem writesScalar_slot {c : Nat → Fields → Instr} {k : Nat} {op : BitVec 8} {v : Spar → Fields → W64}
    (he : ∀ x i f s, effSlot k op.toNat x i f s = writeS i f (v x f) s) (hk : k < 2 := by decide) (ho : op ≠ 0 := by decide)
    (h0 : k = 0 → op ≠ 0x20 ∧ op ≠ 0x21 ∧ op ≠ 0x22 ∧ op ≠ 0x23 := by decide) (h1 : k = 1 → op ≠ 0x10 := by decide)
    (hc : ∀ i f s, exec (c i f) s = issueRow k op i f s := by exact fun _ _ _ => rfl) : writesScalar c k op v :=
  writesScalar_of (by omega) ho (by omega) h0 h1 hc fun i f s => he (s.spar i) i f s

/-- A slot-1 row whose effect writes one address register. -/
theorem writesAddress_slot {c : Nat → Fields → Instr} {op : BitVec 8} {v : Spar → Fields → W64}
    (he : ∀ x i f s, effSlot 1 op.toNat x i f s = writeA i f (v x f) s) (ho : op ≠ 0 := by decide) (h1 : op ≠ 0x10 := by decide)
    (hc : ∀ i f s, exec (c i f) s = issueRow 1 op i f s := by exact fun _ _ _ => rfl) : writesAddress c 1 op v :=
  writesAddress_of (by omega) ho (by omega) (by omega) (fun _ => h1) hc fun i f s => he (s.spar i) i f s

/-! The operations of Table 3-5 in the terms of the statements. -/

theorem lessBy_iff (f : Fields) (a b : W64) :
    lessBy f a b = true ↔ if f.modBit 1 then a.toNat < b.toNat else a.toInt < b.toInt := by
  unfold lessBy
  split
  · rw [BitVec.ult_iff_lt, BitVec.lt_def]
  · exact BitVec.slt_iff_toInt_lt

/-- The conditions of `sc.cmp` (03 R76). -/
theorem intCond_word (c : Nat) (a b : W64) : intCond c a b = match c with
    | 0 => decide (a = b)
    | 1 => decide (a ≠ b)
    | 2 => decide (a.toInt < b.toInt)
    | 3 => decide (a.toInt ≤ b.toInt)
    | 4 => decide (a.toNat < b.toNat)
    | _ => decide (a.toNat ≤ b.toNat) := by
  match c with
  | 0 => exact beq_eq_decide a b
  | 1 => simp [intCond, bne, Bool.beq_eq_decide_eq]
  | 2 => exact BitVec.slt_eq_decide
  | 3 => exact BitVec.sle_eq_decide
  | 4 => rfl
  | _ + 5 => rfl

/-- A signed quotient is the integers' quotient toward zero, wrapped (R78). -/
theorem sdiv_eq_ofInt_tdiv (a b : W64) : a.sdiv b = BitVec.ofInt 64 (a.toInt.tdiv b.toInt) := by
  apply BitVec.eq_of_toInt_eq
  rw [BitVec.toInt_sdiv, BitVec.toInt_ofInt]

/-- A signed remainder is the integers' remainder of the dividend's sign. -/
theorem srem_eq_ofInt_tmod (a b : W64) : a.srem b = BitVec.ofInt 64 (a.toInt.tmod b.toInt) := by
  rw [← BitVec.toInt_srem, BitVec.ofInt_toInt]

theorem udiv_eq_ofNat (a b : W64) : a.udiv b = BitVec.ofNat 64 (a.toNat / b.toNat) :=
  (ofNat_of_eq_toNat BitVec.toNat_udiv.symm).symm

theorem umod_eq_ofNat (a b : W64) : a.umod b = BitVec.ofNat 64 (a.toNat % b.toNat) :=
  (ofNat_of_eq_toNat BitVec.toNat_umod.symm).symm

/-- Settles O1: each row writes its effect's value, which is the operation of Table 3-5. -/
theorem scalarResults : Obligations.ScalarResults := by
  unfold Obligations.ScalarResults
  refine ⟨⟨?_, ?_, ?_, ?_, ?_, ?_, ?_⟩, ?_, ?_, ?_, ?_⟩
  · exact writesScalar_slot fun _ _ _ _ => rfl
  · exact writesScalar_slot fun _ _ _ _ => rfl
  · exact writesScalar_slot fun _ _ _ _ => rfl
  · exact writesScalar_slot fun _ _ _ _ => rfl
  · exact writesScalar_slot fun _ _ _ _ => rfl
  · exact writesScalar_slot fun _ _ _ _ => rfl
  · exact writesScalar_slot fun _ _ _ _ => rfl
  · exact writesScalar_slot fun x i f s => congrArg (writeS i f · s) (if_congr (lessBy_iff ..) rfl rfl)
  · exact writesScalar_slot fun x i f s => congrArg (writeS i f · s) (if_congr (lessBy_iff ..) rfl rfl)
  · exact writesScalar_slot fun x i f s => congrArg (writeS i f · s) (if_congr (Bool.eq_iff_iff.1 (intCond_word ..)) rfl rfl)
  · exact writesScalar_slot fun _ _ _ _ => rfl

/-- Settles O2: the words' operations wrap, and those of a signed division are the integers' toward zero. -/
theorem wrappingArithmetic : Obligations.WrappingArithmetic := by
  unfold Obligations.WrappingArithmetic
  refine ⟨?_, ?_, ?_, ?_, ?_, ?_, ?_⟩
  · exact writesScalar_slot fun _ _ _ _ => rfl
  · exact writesScalar_slot fun _ _ _ _ => rfl
  · exact writesScalar_slot fun _ _ _ _ => rfl
  · exact writesAddress_slot fun _ _ _ _ => rfl
  · exact writesAddress_slot fun x i f s => congrArg (writeA i f · s) (if_congr (by simp [BitVec.ule]) rfl rfl)
  · exact writesScalar_slot fun x i f s => congrArg (writeS i f · s) (by rw [divide, sdiv_eq_ofInt_tdiv, udiv_eq_ofNat])
  · exact writesScalar_slot fun x i f s => congrArg (writeS i f · s) (by rw [remain, srem_eq_ofInt_tmod, umod_eq_ofNat])

end Sys2Proof.Machine
end

section
/-! PROOF. Branches, hardware loops and address moves (03 Table 3-5, R81, R82). -/

namespace Sys2Proof.Machine

open Sys2Proof Sys2Proof.Safety

/-- A change of one spar is by what it makes of that spar as it stands. -/
theorem modSpar_congr {s : State} {i : Nat} {g h : Spar → Spar} (e : g (s.spar i) = h (s.spar i)) : s.modSpar i g = s.modSpar i h :=
  congrArg (s.setSpar i) e

/-- A row that issues alone, whose effect makes `e` of its spar: the sequencer then makes `g` of it. -/
theorem changesSpar_advance {c : Nat → Fields → Instr} {k : Nat} {op : BitVec 8} {g : Spar → Fields → Spar} (e : Spar → Fields → Spar)
    (he : ∀ i f s h, (effSlot k op.toNat (s.spar i) i f s).modSpar i h = s.modSpar i fun y => h (e y f))
    (ha : ∀ x f, guardOn x f = true → (∀ l ∈ x.loops, l.last ≠ x.pc) → advance x (soloBundle k ⟨op, f⟩) (e x f) = g x f)
    (hr : ∀ x f, (g x f).run = x.run) (hk : k < 7 := by decide) (ho : op ≠ 0 := by decide)
    (hc : ∀ i f s, exec (c i f) s = issueRow k op i f s := by exact fun _ _ _ => rfl) : changesSpar c k op g := by
  intro s i f h
  obtain ⟨hci, -, hg, -, -, hl⟩ := id h
  have hm : (s.modSpar i fun y => advance (s.spar i) (soloBundle k ⟨op, f⟩) (e y f)) = s.modSpar i fun x => g x f :=
    modSpar_congr (ha _ f hg hl)
  rw [hc, issueRow_alone (by omega) ho (by omega) h, he, hm, haltComplete_running]
  rw [spar_modSpar, hr, running_of_canIssue hci]
  decide

/-- Past a slot-0 instruction alone in its bundle, at which no loop ends, a taken branch goes to its target (R81). -/
theorem advance_slot0 {x y : Spar} {w : SlotWord} (hl : ∀ m ∈ y.loops, m.last ≠ x.pc) :
    advance x (soloBundle 0 w) y =
      { y with pc := if branchTaken x w then branchTarget x w.f else x.pc + 1, waiting := false } := by
  have hb := loopBack_none x.pc y.loops y hl
  by_cases h : branchTaken x w <;> simp [advance, soloBundle, List.range_succ, h, hb]

section

variable {x : Spar} {f : Fields} (hg : guardOn x f = true)

include hg

theorem branchTaken_br : branchTaken x ⟨0x20, f⟩ = true := by simp [branchTaken, slotActs, hg]

theorem branchTaken_brLink : branchTaken x ⟨0x23, f⟩ = true := by simp [branchTaken, slotActs, hg]

theorem branchTaken_brNz : branchTaken x ⟨0x21, f⟩ = true ↔ x.sget f.c.toNat ≠ 0 := by simp [branchTaken, slotActs, hg]

theorem branchTaken_brZ : branchTaken x ⟨0x22, f⟩ = true ↔ x.sget f.c.toNat = 0 := by simp [branchTaken, slotActs, hg]

end

@[simp] theorem branchTaken_zero (x : Spar) (f : Fields) : branchTaken x ⟨0#8, f⟩ = false := by simp [branchTaken]

/-- Past an `lp.begin` alone in its bundle, at which no loop ends, a count of zero skips the body (R82). -/
theorem advance_lpBegin {x y : Spar} {f : Fields} (hg : guardOn x f = true) (hl : ∀ m ∈ y.loops, m.last ≠ x.pc) :
    advance x (soloBundle 1 ⟨0x10, f⟩) y =
      { y with pc := if loopCount x f = 0 then loopEnd x f + 1 else x.pc + 1, waiting := false } := by
  have hb := loopBack_none x.pc y.loops y hl
  by_cases h : loopCount x f = 0 <;> simp [advance, soloBundle, List.range_succ, slotActs, hg, h, hb]

/-- A branch row: it changes nothing, and goes where the sequencer takes it. -/
theorem changesSpar_branch {c : Nat → Fields → Instr} {op : BitVec 8} {t : Spar → Fields → Nat}
    (he : ∀ x i f s, effSlot 0 op.toNat x i f s = s)
    (ht : ∀ x f, guardOn x f = true → (if branchTaken x ⟨op, f⟩ then branchTarget x f else x.pc + 1) = t x f) (ho : op ≠ 0 := by decide)
    (hc : ∀ i f s, exec (c i f) s = issueRow 0 op i f s := by exact fun _ _ _ => rfl) :
    changesSpar c 0 op fun x f => { x with pc := t x f, waiting := false } :=
  changesSpar_advance (fun x _ => x) (fun _ _ _ _ => by rw [he]) (fun x f hg hl => by rw [advance_slot0 hl, ← ht x f hg]) (fun _ _ => rfl)
    (ho := ho) (hc := hc)

/-- The active loops without those on counter `k`. -/
theorem loops_off (l : List Loop) (k : Nat) : (l.filter fun m => m.x != k) = l.filter (·.x ≠ k) :=
  List.filter_congr fun m _ => by simp [bne, Bool.beq_eq_decide_eq]

/-- What `lp.begin` makes of its spar before the sequencer moves on. -/
def beginLoop (x : Spar) (f : Fields) : Spar :=
  { x.lset f.x.toNat (BitVec.ofNat 32 (loopCount x f)) with
    loops := (if loopCount x f = 0 then [] else [{ x := f.x.toNat, first := x.pc + 1, last := loopEnd x f }]) ++
      x.loops.filter (·.x ≠ f.x.toNat) }

theorem effLpBegin_eq (i : Nat) (f : Fields) (s : State) : effLpBegin (s.spar i) i f s = s.modSpar i fun x => beginLoop x f := by
  refine modSpar_congr ?_
  unfold beginLoop
  rw [← loops_off]
  split
  · next h => simp [h]
  · next h => simp [h]

theorem effLpBreak_eq (x : Spar) (i : Nat) (f : Fields) (s : State) :
    effLpBreak x i f s = s.modSpar i fun y => { y with loops := y.loops.filter (·.x ≠ f.x.toNat) } := by
  simp only [effLpBreak, loops_off]

/-- The body of a loop that begins lies behind its bundle. -/
theorem beginLoop_last {x : Spar} {f : Fields} (hl : ∀ m ∈ x.loops, m.last ≠ x.pc) : ∀ m ∈ (beginLoop x f).loops, m.last ≠ x.pc := by
  intro m hm
  rcases List.mem_append.1 hm with h | h
  · split at h
    · cases h
    · rw [List.mem_singleton.1 h, loopEnd]
      simp only []
      omega
  · exact hl m (List.mem_of_mem_filter h)

/-- Settles O3: a branch is the sequencer's, a loop's begin both its effect and the sequencer's; the rest write one register. -/
theorem controlFlow : Obligations.ControlFlow := by
  unfold Obligations.ControlFlow
  refine ⟨⟨?_, ?_, ?_, ?_⟩, ⟨?_, ?_, ?_⟩, ?_, ?_, ?_⟩
  · exact changesSpar_branch (fun _ _ _ _ => rfl) fun x f hg => if_pos (branchTaken_br hg)
  · exact changesSpar_branch (fun _ _ _ _ => rfl) fun x f hg => if_congr (branchTaken_brNz hg) rfl rfl
  · exact changesSpar_branch (fun _ _ _ _ => rfl) fun x f hg => if_congr (branchTaken_brZ hg) rfl rfl
  · refine changesSpar_advance (fun x f => x.sset f.d.toNat (BitVec.ofNat 64 (x.pc + 1))) (fun i f s h => modSpar_modSpar ..)
      (fun x f hg hl => ?_) fun x f => sset_run ..
    rw [advance_slot0 (by simpa using hl), if_pos (branchTaken_brLink hg)]
  · exact writesAddress_slot fun _ _ _ _ => rfl
  · exact writesAddress_slot fun _ _ _ _ => rfl
  · exact writesScalar_slot fun _ _ _ _ => rfl
  · refine changesSpar_advance beginLoop (fun i f s h => ?_) (fun x f hg hl => ?_) fun _ _ => rfl
    · exact (congrArg (State.modSpar · i h) (effLpBegin_eq i f s)).trans (modSpar_modSpar ..)
    · exact advance_lpBegin hg (beginLoop_last hl)
  · exact changesSpar_of (by decide) (by decide) (by decide) (by decide) (by decide) (fun _ _ _ => rfl)
      (fun i f s => effLpBreak_eq (s.spar i) i f s) (fun _ _ => rfl)
      (fun x f l hl => List.mem_of_mem_filter hl) fun _ _ => rfl
  · exact writesScalar_slot fun _ _ _ _ => rfl

end Sys2Proof.Machine
end

section
/-! PROOF. Self-description, the cycle count, halting and the end of a job (03 R88, R107, Table 3-12). -/

namespace Sys2Proof.Machine

open Sys2Proof Sys2Proof.Safety

/-- A slot-0 row that writes one scalar register, with a value of the whole device. -/
theorem exec_writeS {c : Nat → Fields → Instr} {op : BitVec 8} {s : State} {i : Nat} {f : Fields} {v : W64} (h : issuesAlone s i 0 op f)
    (he : effSlot 0 op.toNat (s.spar i) i f s = writeS i f v s) (ho : op ≠ 0 := by decide)
    (h0 : op ≠ 0x20 ∧ op ≠ 0x21 ∧ op ≠ 0x22 ∧ op ≠ 0x23 := by decide) (hc : exec (c i f) s = issueRow 0 op i f s := by exact rfl) :
    exec (c i f) s = .next (s.modSpar i fun x => stepped (x.sset f.d.toNat v)) := by
  rw [hc, issueRow_effect (by decide) ho (by simp) (fun _ => h0) (by simp) h he (by simp [writeS])
    (fun l hl => by simpa [writeS] using hl) (by simp [writeS, running_of_canIssue h.1])]
  rw [writeS, modSpar_modSpar]

/-! The masks of absent spars. -/

/-- The sum of the powers of two at the places below `n` where `p` holds. -/
theorem testBit_sum_two_pow (p : Nat → Bool) (n : Nat) :
    let w := (List.range n).foldl (fun acc k => if p k then acc + 2 ^ k else acc) 0
    w < 2 ^ n ∧ ∀ b, w.testBit b = (decide (b < n) && p b) := by
  induction n with
  | zero => simp
  | succ n ih =>
    obtain ⟨hlt, hbit⟩ := ih
    simp only [List.range_succ, List.foldl_append, List.foldl_cons, List.foldl_nil]
    split
    · next hp =>
      refine ⟨by omega, fun b => ?_⟩
      have hor := Nat.two_pow_add_eq_or_of_lt hlt 1
      rw [Nat.add_comm, ← Nat.mul_one (2 ^ n), hor, Nat.testBit_or, hbit]
      rcases Nat.lt_trichotomy b n with h | rfl | h
      · simp [h, Nat.lt_succ_of_lt h, Nat.testBit_two_pow_of_ne h.ne']
      · simp [hp]
      · simp [h.not_gt, (show ¬ b < n + 1 by omega), Nat.testBit_two_pow_of_ne h.ne]
    · next hp =>
      refine ⟨by omega, fun b => ?_⟩
      rw [hbit]
      by_cases h : b = n
      · simp [h, hp]
      · simp [(show b < n + 1 ↔ b < n by omega)]

theorem getLsbD_absentMask (s : State) (t lo : Nat) {b : Nat} (hb : b < 64) :
    (BitVec.ofNat 64 (s.absentMask t lo)).getLsbD b = s.absent (128 * t + lo + b) := by
  rw [BitVec.getLsbD_ofNat, State.absentMask, (testBit_sum_two_pow (fun k => s.absent (128 * t + lo + k)) 64).2]
  simp [hb]

/-- The item of a tower's mask (Table 3-12). -/
theorem cfgItem_mask (s : State) (i : Nat) {t h : Nat} (ht : t < 8) (hh : h < 2) :
    s.cfgItem i (0x110 + 2 * t + h) = some (if s.towerPart t = s.sparPart i then s.absentMask t (64 * h) else 0) := by
  have h1 : (0x110 + 2 * t + h - 0x110) / 2 = t := by omega
  have h2 : (0x110 + 2 * t + h - 0x110) % 2 = h := by omega
  simp only [State.cfgItem, h1, h2]
  repeat rw [if_neg (by omega)]
  rw [if_pos (by omega)]

/-- Settles O4: the item is looked up in Table 3-12, and a tower's mask is a sum of powers of two. -/
theorem selfDescription : Obligations.SelfDescription := by
  unfold Obligations.SelfDescription
  intro s i f h
  refine ⟨_, exec_writeS h rfl, ?_, ?_, ?_, ?_, ?_, ?_, ?_, ?_⟩
  · intro n c hn he
    obtain ⟨hle, hc⟩ := (show ∀ p ∈ _, p.1 ≤ 0x12 ∧ aelayCounts.getD p.1 0 = p.2 by decide) (n, c) hn
    rw [he, State.cfgItem, if_pos hle, Option.getD_some, hc]
  · intro he; rw [he]; rfl
  · intro he; rw [he]; rfl
  · intro he; rw [he]; rfl
  · intro he; rw [he]; rfl
  · intro he; rw [he]; rfl
  · intro he; rw [he]; exact BitVec.ofNat_toNat ..
  · intro t ht k hk he b hb
    rw [he, cfgItem_mask s i ht hk, Option.getD_some]
    by_cases hp : s.towerPart t = s.sparPart i
    · simp [hp, getLsbD_absentMask s t _ hb]
    · simp [hp]

/-! Halting and the end of a job (03 R88). -/

theorem haltComplete_quiet {s : State} {i : Nat} (hr : (s.spar i).run = .halting) (hq : (s.spar i).quiet = true) :
    haltComplete i s =
      (s.modSpar i fun x => { x with run := .halted, regions := [], barrier := none, waiting := false }).endJob (s.sparPart i) := by
  simp [haltComplete, hr, hq]

theorem haltComplete_busy {s : State} {i : Nat} (hq : (s.spar i).quiet = false) : haltComplete i s = s := by simp [haltComplete, hq]

/-- A spar that may bring a bundle to issue stands at no barrier. -/
theorem barrier_of_canIssue {s : State} {i : Nat} (h : s.canIssue i = true) : (s.spar i).barrier = none := by
  simp only [State.canIssue, Bool.and_eq_true, Option.isNone_iff_eq_none] at h
  obtain ⟨⟨-, hb⟩, -⟩ := h
  exact hb

/-- An `sc.halt` that issues alone makes its spar halt, and the spar halts at once where nothing it issued is outstanding. -/
theorem exec_scHalt {s : State} {i : Nat} {f : Fields} (h : issuesAlone s i 0 0x3F f) :
    exec (.scHalt i f) s = .next (haltComplete i (s.modSpar i fun x => { stepped x with run := .halting })) := by
  obtain ⟨-, -, -, -, -, hl⟩ := id h
  have ha : ((s.modSpar i fun x => { x with run := .halting }).modSpar i (advance (s.spar i) (soloBundle 0 ⟨0x3F, f⟩))) =
      s.modSpar i fun x => { stepped x with run := .halting } := by
    rw [modSpar_modSpar]
    exact modSpar_congr (advance_next (by decide) rfl hl (by decide) (by decide))
  exact (issueRow_alone (by decide) (by decide) (by decide) h).trans (congrArg (fun t => Host.Outcome.next (haltComplete i t)) ha)

theorem endJob_last {s : State} {q : Nat} (hj : s.jobRuns q = true) (h : ∀ i ∈ (s.part q).started, (s.spar i).run = .halted) :
    s.endJob q = (s.odSet q 0x2020 4 4).jobNotice q := by
  rw [State.endJob, if_pos]
  simpa [hj] using h

theorem endJob_before {s : State} {q : Nat} (h : ∃ i ∈ (s.part q).started, (s.spar i).run ≠ .halted) : s.endJob q = s := by
  rw [State.endJob, if_neg]
  simpa using fun _ => h

/-- Settles O5: the cycle count is a register write; a halt is the effect of `sc.halt` and, once the spar is quiet, its completion. -/
theorem runAndHalt : Obligations.RunAndHalt := by
  unfold Obligations.RunAndHalt
  refine ⟨⟨fun s i f h => exec_writeS h rfl, fun s i f h hq => ?_, fun s i f h hq => ?_, fun s i hl hr hq => ?_⟩,
    fun s q hj => ⟨endJob_last hj, endJob_before⟩⟩
  · rw [exec_scHalt h, haltComplete_busy]
    rwa [spar_modSpar]
  · rw [exec_scHalt h, haltComplete_quiet (by rw [spar_modSpar]) (by rwa [spar_modSpar]), modSpar_modSpar]
    refine congrArg (fun t : State => Host.Outcome.next (t.endJob (s.sparPart i))) (modSpar_congr ?_)
    simp [barrier_of_canIssue h.1]
  · have he : exec (.haltComplete i) s = .next (haltComplete i s) := congrArg Host.Outcome.next (if_pos hl)
    rw [he, haltComplete_quiet hr hq]

end Sys2Proof.Machine
end

section
/-! PROOF. The issue of a bundle: of one in which no slot acts, and of one that faults (03 R71-R73, R83, R102-R106). -/

namespace Sys2Proof.Machine

open Sys2Proof Sys2Proof.Safety

/-- The command of a slot instruction brings to issue the bundle that holds it: of most rows by definition, of the others, which share
an opcode, where the fields select the row. -/
theorem exec_slotRow : ∀ r ∈ slotRows, ∀ i f s, r.sel f = true → exec (r.cmd i f) s = issueRow r.slot r.op i f s := by
  rw [← List.forall_iff_forall_mem]
  and_intros
  any_goals exact fun _ _ _ _ => rfl
  all_goals exact fun i f s h => if_pos (by simpa [Fields.fmt] using h)

theorem issueRow_issues {s : State} {i k : Nat} {op : BitVec 8} {f : Fields} (hc : s.canIssue i = true)
    (hs : (s.spar i).slotAt (s.spar i).pc k = ⟨op, f⟩) : issueRow k op i f s = .next (issue i s) := by
  simp [issueRow, State.slotIs, hc, hs]

/-! A bundle none of whose slots acts. -/

/-- No slot of the bundle acts: each is a no-operation or guarded off. -/
def noneActs (x : Spar) (ws : List SlotWord) : Prop := ∀ w ∈ ws, slotActs x w = false

theorem slotsEffect_noneActs {x : Spar} {ws : List SlotWord} (h : noneActs x ws) (i : Nat) (s : State) : slotsEffect x i ws s = s := by
  have hz : ∀ n, (ws.zipIdx n).foldl (fun s wk => if slotActs x wk.1 then effSlot wk.2 wk.1.op.toNat x i wk.1.f s else s) s = s := by
    induction ws with
    | nil => exact fun _ => rfl
    | cons w r ih =>
      obtain ⟨hw, hr⟩ := List.forall_mem_cons.1 h
      intro n
      simpa [hw] using ih hr (n + 1)
  exact hz 0

theorem barrierOf_noneActs {x : Spar} {ws : List SlotWord} (h : noneActs x ws) : barrierOf x ws = none := by
  unfold barrierOf
  split
  · next w hw => simp [h w (List.mem_of_getElem? hw)]
  · rfl

/-- Past a bundle none of whose slots acts, only the loops that end at it decide where issue continues (R81, R83). -/
theorem advance_noneActs {x : Spar} {ws : List SlotWord} (h : noneActs x ws) (y : Spar) :
    advance x ws y = { (loopBack x.pc y.loops y).1 with pc := (loopBack x.pc y.loops y).2.getD (x.pc + 1), waiting := false } := by
  have h0 : slotActs x (ws.headD {}) = false := by
    cases ws with
    | nil => rfl
    | cons w r => exact h w (List.mem_cons_self ..)
  have h1 : slotActs x ((ws[1]?).getD {}) = false := by
    cases hw : ws[1]? with
    | none => rfl
    | some w => exact h w (List.mem_of_getElem? hw)
  simp only [advance, branchTaken, h0, h1, Bool.false_and, Bool.false_eq_true, false_and, if_false]

theorem loopBack_run (b : Nat) (l : List Loop) (y : Spar) : (loopBack b l y).1.run = y.run := by
  induction l generalizing y with
  | nil => rfl
  | cons m r ih =>
    unfold loopBack
    split
    · simp only []
      split
      · exact ih _
      · rfl
    · exact ih y

/-- A bundle that neither waits nor faults and none of whose slots acts moves its spar on, and does nothing else. -/
theorem issue_noneActs {s : State} {i : Nat} (hc : s.canIssue i = true) (hn : noneActs (s.spar i) (s.spar i).bundle)
    (hw : bundleWaits (s.spar i) (s.spar i).bundle = false) (hf : bundleFault s (s.spar i) i (s.spar i).bundle = none) :
    issue i s = s.modSpar i (advance (s.spar i) (s.spar i).bundle) := by
  simp only [issue, hw, hf, barrierOf_noneActs hn, issueNow, slotsEffect_noneActs hn]
  refine haltComplete_running ?_
  rw [spar_modSpar, advance_noneActs hn]
  simp only [loopBack_run, running_of_canIssue hc]
  decide

/-! A bundle with one instruction. -/

theorem noneActs_solo {x : Spar} {k : Nat} {w : SlotWord} (h : slotActs x w = false) : noneActs x (soloBundle k w) := by
  intro v hv
  obtain ⟨j, -, rfl⟩ := List.mem_map.1 hv
  split
  · exact h
  · rfl

theorem zipIdx_soloBundle (k : Nat) (w : SlotWord) :
    (soloBundle k w).zipIdx = (List.range 8).map fun j => (if j = k then w else {}, j) := rfl

/-- A search in which only one number answers gives its answer. -/
theorem findSome?_range_one {α : Type} {g : Nat → Option α} {k n : Nat} (hk : k < n) (h : ∀ j, j ≠ k → g j = none) :
    (List.range n).findSome? g = g k := by
  induction n with
  | zero => omega
  | succ n ih =>
    rw [List.range_succ, List.findSome?_append]
    by_cases he : k = n
    · subst he
      have hnone : (List.range k).findSome? g = none :=
        List.findSome?_eq_none_iff.2 fun j hj => h j (Nat.ne_of_lt (List.mem_range.1 hj))
      simp [hnone]
    · rw [ih (by omega)]
      simp [h n (Ne.symm he)]

/-- The fault of a bundle with one instruction is that instruction's. -/
theorem bundleFault_solo {s : State} {x : Spar} {i k : Nat} {w : SlotWord} (hk : k < 8) :
    bundleFault s x i (soloBundle k w) = (worstFault (slotFaults s x i (soloBundle k w) k w)).map fun t => (k, t) := by
  rw [bundleFault, zipIdx_soloBundle, List.findSome?_map, findSome?_range_one hk, Function.comp_apply, if_pos rfl]
  intro j hj
  simp [hj, slotFaults, worstFault]

/-! A bundle that faults. -/

/-- An error of a running spar joins the faults raised and stops the spar (R102, R106). -/
theorem sparFault_stops {s : State} {i code : Nat} (hs : 2 ≤ faultSev code) (hr : (s.spar i).run = .running)
    (bundle slot cause block value : Nat) (phase : W32) :
    ∃ n, s.sparFault i code bundle slot cause block value phase = (raised s n).modSpar i stoppedSpar ∧
      isSparRecord n i code bundle slot cause block value phase := by
  refine ⟨faultRecord s code (sparUnit i) (s.sparPart i) (s.sparIsland i) (sparPayload bundle slot cause block value phase), ?_, rfl, rfl,
    rfl, rfl⟩
  rw [State.sparFault, if_pos hs]
  refine modSpar_congr ?_
  have hx : ((s.raise code (sparUnit i) (s.sparPart i) (s.sparIsland i) (sparPayload bundle slot cause block value phase)).spar i).run =
      .running := hr
  simp [stoppedSpar, hx]

theorem issue_faults {s : State} {i k : Nat} {t : IFault} (hc : s.canIssue i = true) (hw : bundleWaits (s.spar i) (s.spar i).bundle = false)
    (hf : bundleFault s (s.spar i) i (s.spar i).bundle = some (k, t)) (hs : 2 ≤ faultSev t.code) :
    ∃ n, issue i s = (raised s n).modSpar i stoppedSpar ∧ isSparRecord n i t.code (s.spar i).pc k t.cause 0 t.value (s.spar i).phase := by
  simp only [issue, hw, hf]
  exact sparFault_stops hs (running_of_canIssue hc) ..

end Sys2Proof.Machine
end

section
/-! PROOF. No-operations, guarded-off slots, and the faults checked at issue (03 R67, R71, R72, R76, R81, R83, R100-R106, Table 3-11). -/

namespace Sys2Proof.Machine

open Sys2Proof Sys2Proof.Safety

/-! What a slot is checked for (R72, R104). -/

theorem code_of_mem_ite {p : Prop} [Decidable p] {t : IFault} {c v : Nat} (h : t ∈ if p then [badBundle c v] else []) : t.code = 0x0106 := by
  split at h
  · rw [List.mem_singleton.1 h]; rfl
  · cases h

/-- Every encoding check of a slot is of BUNDLE_INVALID (Table 3-11). -/
theorem encSlot_code {s : State} {x : Spar} {i k : Nat} {w : SlotWord} {t : IFault} (h : t ∈ encSlot s x i k w) : t.code = 0x0106 := by
  unfold encSlot at h
  split at h
  · rcases List.mem_append.1 h with h | h <;> exact code_of_mem_ite h
  · exact code_of_mem_ite h
  · exact code_of_mem_ite h
  · rcases List.mem_append.1 h with h | h <;> exact code_of_mem_ite h
  · simp only [encSlot5, List.mem_append] at h
    rcases h with ((h | h) | h) | h <;> exact code_of_mem_ite h
  · exact code_of_mem_ite h
  · rcases List.mem_append.1 h with h | h <;> exact code_of_mem_ite h
  · cases h

/-- Every fault of a guarded-off slot is BUNDLE_INVALID (R72). -/
theorem slotFaults_guardedOff {s : State} {x : Spar} {i k : Nat} {ws : List SlotWord} {w : SlotWord} (hg : guardOn x w.f = false)
    {t : IFault} (h : t ∈ slotFaults s x i ws k w) : t.code = 0x0106 := by
  unfold slotFaults at h
  split at h
  · cases h
  split at h
  · rw [List.mem_singleton.1 h]; rfl
  · simp only [hg, Bool.false_and, Bool.false_eq_true, if_false, List.append_nil, List.mem_append, Option.mem_toList,
      Option.map_eq_some_iff] at h
    rcases h with (h | ⟨r, -, rfl⟩) | ⟨r, -, rfl⟩
    · exact encSlot_code h
    · rfl
    · rfl

theorem slotFaults_undefined {s : State} {x : Spar} {i k : Nat} {ws : List SlotWord} {w : SlotWord} (ho : w.op ≠ 0)
    (hn : slotRegs k w = none) : slotFaults s x i ws k w = [badBundle 1 0] := by
  rw [slotFaults, if_neg ho, hn]

/-- A slot whose guard holds and whose registers lie within their files is checked as its instruction asks (R104). -/
theorem mem_slotFaults_of_chkSlot {s : State} {x : Spar} {i k : Nat} {ws : List SlotWord} {w : SlotWord} {rd wr : List Reg} {t : IFault}
    (ho : w.op ≠ 0) (hr : slotRegs k w = some (rd, wr)) (hin : ((rd ++ wr).find? fun r => r.1.size ≤ r.2) = none) (hg : guardOn x w.f = true)
    (h : t ∈ chkSlot s x i k w) : t ∈ slotFaults s x i ws k w := by
  rw [slotFaults, if_neg ho, hr]
  simp only [hin, hg, Option.isNone_none, Bool.and_self, if_true]
  exact List.mem_append_right _ h

/-! Bundles of no-operations, and of an undefined opcode. -/

/-- Slots whose opcodes are undefined or zero wait for nothing (R104). -/
theorem bundleWaits_unnamed {x : Spar} {ws : List SlotWord} (hf : x.fillWaits x.pc = false)
    (h : ∀ wk ∈ ws.zipIdx, wk.1.op = 0 ∨ slotRegs wk.2 wk.1 = none) : bundleWaits x ws = false := by
  rw [bundleWaits, hf, Bool.false_or, List.any_eq_false]
  intro wk hwk
  rcases h wk hwk with h | h <;> simp [slotNamed, h]

theorem exec_noOperation {s : State} {i : Nat} (hc : s.canIssue i = true)
    (h : ∀ wk ∈ (s.spar i).bundle.zipIdx, wk.1.op = 0 ∨ slotRegs wk.2 wk.1 = none) : exec (.noOperation i) s = .next (issue i s) := by
  refine if_pos ?_
  rw [hc, Bool.true_and, List.all_eq_true]
  intro wk hwk
  rcases h wk hwk with h | h <;> simp [h]

/-- A bundle of no-operations is no fault. -/
theorem bundleFault_noOperations {s : State} {x : Spar} {i : Nat} {ws : List SlotWord} (h : ∀ w ∈ ws, w.op = 0) :
    bundleFault s x i ws = none := by
  refine List.findSome?_eq_none_iff.2 fun wk hwk => ?_
  simp [slotFaults, h _ (List.fst_mem_of_mem_zipIdx hwk), worstFault]

/-- A bundle of no-operations only moves its spar on (R71, R83). -/
theorem exec_noOperations {s : State} {i : Nat} (hc : s.canIssue i = true) (h : ∀ w ∈ (s.spar i).bundle, w.op = 0)
    (hf : (s.spar i).fillWaits (s.spar i).pc = false) :
    exec (.noOperation i) s = .next (s.modSpar i (advance (s.spar i) (s.spar i).bundle)) := by
  have hz : ∀ wk ∈ (s.spar i).bundle.zipIdx, wk.1.op = 0 ∨ slotRegs wk.2 wk.1 = none := fun wk hwk =>
    .inl (h _ (List.fst_mem_of_mem_zipIdx hwk))
  rw [exec_noOperation hc hz, issue_noneActs hc (fun w hw => by simp [slotActs, h w hw]) (bundleWaits_unnamed hf hz) (bundleFault_noOperations h)]

theorem slotRow_slot_lt : ∀ r ∈ slotRows, r.slot < 8 := by
  rw [← List.forall_iff_forall_mem]
  and_intros
  all_goals decide

/-! The loop begun most recently, at its end bundle (R83). -/

theorem loopBack_again {b : Nat} {l : Loop} {r : List Loop} {y : Spar} (hl : l.last = b) (hne : y.lget l.x ≠ 1) :
    loopBack b (l :: r) y = (y.lset l.x (y.lget l.x - 1), some l.first) := by
  have hc : y.lget l.x - 1 ≠ 0 := sub_ne_zero.2 hne
  rw [loopBack, if_pos hl]
  exact if_neg hc

theorem loopBack_last {b : Nat} {l : Loop} {r : List Loop} {y : Spar} (hl : l.last = b) (h1 : y.lget l.x = 1) :
    loopBack b (l :: r) y = loopBack b r { y.lset l.x 0 with loops := y.loops.filter fun m => m.x != l.x } := by
  simp [loopBack, hl, h1]
  rfl

/-- Settles O6: where no slot acts, issue is the sequencer's alone; what a guarded-off slot is checked for is its encoding. -/
theorem guardedOff : Obligations.GuardedOff := by
  unfold Obligations.GuardedOff
  refine ⟨⟨fun s i k w hc hb hk ho hn hf => ?_, fun s i hc hall hf => ?_⟩, fun r hr s i f hsel hc hb hgen hg => ?_⟩
  · have hz : ∀ wk ∈ (s.spar i).bundle.zipIdx, wk.1.op = 0 ∨ slotRegs wk.2 wk.1 = none := by
      rw [hb, zipIdx_soloBundle]
      intro wk hwk
      obtain ⟨j, -, rfl⟩ := List.mem_map.1 hwk
      by_cases hj : j = k
      · subst hj; simp [hn]
      · simp [hj]
    have hbf : bundleFault s (s.spar i) i (s.spar i).bundle = some (k, badBundle 1 0) := by
      rw [hb, bundleFault_solo hk, slotFaults_undefined ho hn]
      rfl
    obtain ⟨n, hn, hrec⟩ := issue_faults hc (bundleWaits_unnamed hf hz) hbf (by decide)
    exact ⟨n, by rw [exec_noOperation hc hz, hn], hrec⟩
  · have hops : ∀ w ∈ (s.spar i).bundle, w.op = 0 := by simpa using hall
    have hn : noneActs (s.spar i) (s.spar i).bundle := fun w hw => by simp [slotActs, hops w hw]
    rw [exec_noOperations hc hops hf]
    refine ⟨fun hl => ?_, fun l r hl hlast hne => ?_, fun l r hl hlast hone hr => ?_⟩
    · refine congrArg Host.Outcome.next (modSpar_congr ?_)
      rw [advance_noneActs hn, loopBack_none _ _ _ hl]
      rfl
    · refine congrArg Host.Outcome.next (modSpar_congr ?_)
      rw [advance_noneActs hn, hl, loopBack_again hlast hne]
      rfl
    · refine congrArg Host.Outcome.next (modSpar_congr ?_)
      rw [advance_noneActs hn, hl, loopBack_last hlast hone, loopBack_none _ _ _ hr, hl, loops_off]
      rfl
  · have hoff : guardOn (s.spar i) f = false := by
      cases hn : f.gneg <;> simp_all [guardOn]
    have hn : noneActs (s.spar i) (s.spar i).bundle := hb ▸ noneActs_solo (by simp [slotActs, hoff])
    refine ⟨fun t => slotFaults_guardedOff hoff, fun hw hf hl => ?_⟩
    rw [← hb] at hw hf
    rw [exec_slotRow r hr i f s hsel, issueRow_issues hc (slotAt_of_bundle (slotRow_slot_lt r hr) hb), issue_noneActs hc hn hw hf]
    refine congrArg Host.Outcome.next (modSpar_congr ?_)
    rw [advance_noneActs hn, loopBack_none _ _ _ hl]
    rfl

/-- Settles O7: each fault is one record, joined to those raised by the operation that stops the spar; what is checked is the list
of the slot's faults. -/
theorem preciseFaults : Obligations.PreciseFaults := by
  unfold Obligations.PreciseFaults
  refine ⟨fun r hr s i f k t hsel hc hs hw hf hsev => ?_, ⟨fun s x i ws k w ho hn => slotFaults_undefined ho hn, ?_, ?_, ?_⟩, ?_, ?_⟩
  · obtain ⟨n, hn, hrec⟩ := issue_faults hc hw hf hsev
    exact ⟨n, by rw [exec_slotRow r hr i f s hsel, issueRow_issues hc hs, hn], hrec⟩
  · intro s x i ws k w rd wr r ho hr hfind
    rw [slotFaults, if_neg ho, hr]
    simp [hfind, badBundle]
  · intro s x i ws f hg ha hd hout
    refine mem_slotFaults_of_chkSlot (show (0x03 : BitVec 8) ≠ 0 by decide) rfl ?_ hg (List.mem_append_left _ ?_)
    · cases hp : f.modBit 1 <;> simp [RFile.size, Nat.not_le.2 ha, Nat.not_le.2 hd]
    · rw [if_pos hout]
      exact List.mem_singleton_self _
  · intro s x i ws f hg ha hb hmis
    refine mem_slotFaults_of_chkSlot (show (0x04 : BitVec 8) ≠ 0 by decide) rfl ?_ hg (List.mem_append_right _ ?_)
    · cases hp : f.modBit 1 <;> simp [RFile.size, Nat.not_le.2 ha, Nat.not_le.2 hb]
    · rw [if_pos hmis]
      exact List.mem_singleton_self _
  · intro s i hl hrun hp hpc
    obtain ⟨n, hn, hrec⟩ := sparFault_stops (code := 0x0106) (by decide) hrun 512 0xFF 5 0 512 (s.spar i).phase
    exact ⟨n, congrArg Host.Outcome.next ((if_pos hl).trans ((if_pos (by simp [State.overran, hrun, hp, hpc])).trans hn)), hrec⟩
  · intro s i hl hrun hwait
    obtain ⟨n, hn, hrec⟩ := sparFault_stops (code := 0x0107) (by decide) hrun (s.spar i).pc 0xFF 0 0 0 (s.spar i).phase
    exact ⟨n, congrArg Host.Outcome.next ((if_pos hl).trans ((if_pos ⟨hrun, hwait⟩).trans hn)), hrec⟩

end Sys2Proof.Machine
end

section
/-! PROOF. Fences and barriers (03 R97-R99). -/

namespace Sys2Proof.Machine

open Sys2Proof Sys2Proof.Safety

/-- A fence waits for the quiet of its spar (R97, R98). -/
theorem bundleWaits_fence {x : Spar} {f : Fields} {op : BitVec 8} (hg : guardOn x f = true) (ho : op = 0x10 ∨ op = 0x11)
    (hq : x.quiet = false) : bundleWaits x (soloBundle 7 ⟨op, f⟩) = true := by
  rw [bundleWaits, Bool.or_eq_true, List.any_eq_true]
  refine .inr ⟨(⟨op, f⟩, 7), ?_, ?_⟩
  · rw [zipIdx_soloBundle]
    exact List.mem_map.2 ⟨7, by decide, rfl⟩
  · rcases ho with rfl | rfl <;> simp [slotNamed, slotRegs, slotActs, slotHolds, hg, hq]

theorem spar_effFence (x : Spar) (i : Nat) (f : Fields) (s : State) : (effFence x i f s).spar i = { s.spar i with
    phase := (s.spar i).phase + 1, step := BitVec.ofNat 64 (s.odGet (s.sparPart i) 0x6400 3), barrier := none } := spar_modSpar ..

/-! A barrier's members issue. -/

theorem sameBeyondSpars_trans {s t u : State} (h : sameBeyondSpars s t) (h' : sameBeyondSpars t u) : sameBeyondSpars s u :=
  (congrArg (fun v : State => { v with spars := s.spars }) h').trans h

theorem barrierOf_fence {x : Spar} {f : Fields} (hg : guardOn x f = true) : barrierOf x (soloBundle 7 ⟨0x11, f⟩) = some (f.immBits 0 4) := by
  simp [barrierOf, soloBundle, slotActs, hg]

/-- A spar at its fence issues it: its phase ends, the step number is latched, and it goes on (R97-R99). -/
theorem issueNow_atFence {s : State} {i g : Nat} (h : atFence s i g) : issueNow i s = s.setSpar i (pastFence s i) := by
  obtain ⟨hr, hl, f, hb, -, hg⟩ := h
  have he : (slotsEffect (s.spar i) i (s.spar i).bundle s).modSpar i (advance (s.spar i) (s.spar i).bundle) =
      s.setSpar i (pastFence s i) := by
    rw [hb, slotsEffect_solo (by decide) (by decide) hg]
    refine (modSpar_modSpar ..).trans (congrArg (s.setSpar i) ?_)
    exact advance_next (by decide) rfl hl (by decide) (by decide)
  rw [issueNow]
  simp only [he]
  refine haltComplete_running ?_
  rw [spar_setSpar]
  exact hr ▸ by decide

/-- The members of a barrier, each at its fence, issue one after another. -/
theorem foldl_issueNow {g : Nat} {m : List Nat} (hm : m.Nodup) {s : State} (h : ∀ j ∈ m, atFence s j g) :
    (∀ j, (m.foldl (fun t i => issueNow i t) s).spar j = if j ∈ m then pastFence s j else s.spar j) ∧
      sameBeyondSpars s (m.foldl (fun t i => issueNow i t) s) := by
  induction m generalizing s with
  | nil => exact ⟨fun _ => by simp, rfl⟩
  | cons i r ih =>
    obtain ⟨hi, hr⟩ := List.forall_mem_cons.1 h
    obtain ⟨hni, hnr⟩ := List.nodup_cons.1 hm
    have hother : ∀ j, i ≠ j → (s.setSpar i (pastFence s i)).spar j = s.spar j := fun j hj => spar_setSpar_ne s _ hj
    rw [List.foldl_cons, issueNow_atFence hi]
    obtain ⟨hspar, hsame⟩ := ih hnr (s := s.setSpar i (pastFence s i)) fun j hj => by
      rw [atFence, hother j (fun e => hni (e ▸ hj))]
      exact hr j hj
    refine ⟨fun j => ?_, ?_⟩
    · rw [hspar]
      by_cases hj : i = j
      · subst hj
        simp [hni]
      · rw [pastFence, hother j hj]
        simp only [List.mem_cons, Ne.symm hj, false_or]
        rfl
    · exact sameBeyondSpars_trans (t := s.setSpar i (pastFence s i)) rfl hsame

/-! Who is a member, and who has arrived. -/

/-- A spar that comes to wait at a barrier, as a spar that issues, halts nothing: the group's members are the same. -/
theorem members_modSpar {s : State} {i : Nat} {g : Spar → Spar} (hr : (g (s.spar i)).run = (s.spar i).run) (q k : Nat) :
    (s.modSpar i g).members q k = s.members q k := by
  refine List.filter_congr fun j _ => ?_
  have hj : ((s.modSpar i g).spar j).run = (s.spar j).run := by
    by_cases h : i = j
    · subst h
      rw [spar_modSpar, hr]
    · rw [State.spar_modSpar_other s g h]
  rw [hj]
  rfl

theorem allArrived_iff {s : State} {q g : Nat} : s.allArrived q g = true ↔ ∀ j ∈ s.members q g, (s.spar j).barrier = some g := by
  simp [State.allArrived]

theorem releaseBarrier_arrived {s : State} {q g : Nat} (hne : s.members q g ≠ []) (h : ∀ j ∈ s.members q g, (s.spar j).barrier = some g) :
    releaseBarrier q g s = (s.members q g).foldl (fun t i => issueNow i t) s := if_pos ⟨hne, allArrived_iff.2 h⟩

theorem releaseBarrier_waits {s : State} {q g j : Nat} (hj : j ∈ s.members q g) (h : (s.spar j).barrier ≠ some g) :
    releaseBarrier q g s = s := if_neg fun ha => h (allArrived_iff.1 ha.2 j hj)

/-- The spar that reaches the barrier of group `g`. -/
def reach (g : Nat) (x : Spar) : Spar := { x with waiting := true, barrier := some g }

/-- An `fc.phase` that issues alone reaches its barrier, and the barrier is released if it was the last. -/
theorem exec_fcPhase {s : State} {i : Nat} {f : Fields} (h : issuesAlone s i 7 0x11 f) :
    exec (.fcPhase i f) s = .next (releaseBarrier (s.sparPart i) (f.immBits 0 4) (s.modSpar i (reach (f.immBits 0 4)))) := by
  obtain ⟨hc, hb, hg, hw, hf, -⟩ := h
  refine (issueRow_issues hc (slotAt_of_bundle (by decide) hb)).trans (congrArg Host.Outcome.next ?_)
  simp only [issue, hb, hw, hf, barrierOf_fence hg]
  rfl

/-- The spar of an `fc.phase` that issues alone is at its fence, and its barrier is the one it reached. -/
theorem atFence_reach {s : State} {i : Nat} {f : Fields} (h : issuesAlone s i 7 0x11 f) :
    ((s.modSpar i (reach (f.immBits 0 4))).spar i).barrier = some (f.immBits 0 4) ∧
      atFence (s.modSpar i (reach (f.immBits 0 4))) i (f.immBits 0 4) := by
  obtain ⟨hc, hb, hg, -, -, hl⟩ := h
  rw [atFence, spar_modSpar]
  exact ⟨rfl, running_of_canIssue hc, hl, f, hb, rfl, hg⟩

/-- What reaching the barrier changed, passing the fence sets anew. -/
theorem pastFence_reach (s : State) (i g : Nat) : pastFence (s.modSpar i (reach g)) i = pastFence s i := by
  rw [pastFence, spar_modSpar]
  rfl

/-- Settles O13: a fence is an effect on its own spar; the last member to reach a barrier finds all arrived, and the members issue one
after another, none changing what another reads. -/
theorem fences : Obligations.Fences := by
  unfold Obligations.Fences
  refine ⟨⟨fun s i f h => ?_, fun x f op hg ho hq => bundleWaits_fence hg ho hq, fun s i f h hm => ?_, fun s i f h => ?_,
    fun s i j f h hji hj hjb => ?_⟩, fun s q g hl hne hm h => ?_, fun s q g i hl hi hb => ?_⟩
  · refine (issueRow_effect (t := effFence (s.spar i) i f s) (k := 7) (op := 0x10) (by decide) (by decide) (by decide) (by decide)
      (by decide) h rfl ?_ ?_ ?_).trans (congrArg Host.Outcome.next (modSpar_modSpar ..))
    · rw [spar_effFence]
    · rw [spar_effFence]
      exact fun _ hl => hl
    · rw [spar_effFence]
      exact running_of_canIssue h.1
  · have hm' := (members_modSpar (i := i) (g := reach (f.immBits 0 4)) rfl (s.sparPart i) (f.immBits 0 4)).trans hm
    obtain ⟨hbar, hat⟩ := atFence_reach h
    rw [exec_fcPhase h, releaseBarrier_arrived (by simp [hm']) (by simpa [hm'] using hbar), hm', List.foldl_cons, List.foldl_nil,
      issueNow_atFence hat, pastFence_reach]
    exact congrArg Host.Outcome.next (setSpar_setSpar ..)
  · intro g m hi hm hall
    have hm' : (s.modSpar i (reach g)).members (s.sparPart i) g = m := members_modSpar rfl ..
    have hat : ∀ j ∈ m, ((s.modSpar i (reach g)).spar j).barrier = some g ∧ atFence (s.modSpar i (reach g)) j g := fun j hj => by
      by_cases hji : i = j
      · subst hji
        exact atFence_reach h
      · rw [atFence, State.spar_modSpar_other s _ hji]
        exact hall j hj (Ne.symm hji)
    obtain ⟨hspar, hsame⟩ := foldl_issueNow hm fun j hj => (hat j hj).2
    refine ⟨_, (exec_fcPhase h).trans (congrArg Host.Outcome.next (releaseBarrier_arrived ?_ ?_)), fun j => ?_, ?_⟩
    · exact hm' ▸ List.ne_nil_of_mem hi
    · exact hm' ▸ fun j hj => (hat j hj).1
    · rw [hm', hspar]
      by_cases hji : i = j
      · subst hji
        rw [if_pos hi, if_pos hi, pastFence_reach]
      · rw [pastFence, State.spar_modSpar_other s _ hji]
        rfl
    · rw [hm']
      exact sameBeyondSpars_trans (t := s.modSpar i (reach g)) rfl hsame
  · rw [exec_fcPhase h, releaseBarrier_waits (j := j)]
    · rfl
    · rwa [members_modSpar rfl]
    · rwa [State.spar_modSpar_other s _ hji.symm]
  · exact ⟨_, congrArg Host.Outcome.next ((if_pos hl).trans (releaseBarrier_arrived hne fun j hj => (h j hj).1)),
      foldl_issueNow hm fun j hj => (h j hj).2.1⟩
  · exact congrArg Host.Outcome.next ((if_pos hl).trans (releaseBarrier_waits hi hb))

end Sys2Proof.Machine
end

section
/-! PROOF. Channel bytes, the retirement of transfers, and instruction fills (03 R84, R87, R92, R94, R95). -/

namespace Sys2Proof.Machine

open Sys2Proof Sys2Proof.Safety

theorem raised_modSpar (s : State) (i : Nat) (g : Spar → Spar) (n : Notice) : raised (s.modSpar i g) n = (raised s n).modSpar i g := rfl

/-- Transfers with no scratch access left to make have no turn: nothing moves (R95). -/
theorem pump_settled {s : State} {i : Nat} (h : ∀ v ∈ (s.spar i).xfers, v.settled = true) : s.pump i = s := by
  have hn : (s.spar i).turnXfer = none := by simpa [Spar.turnXfer] using h
  simp [State.pump, pumpXfers, hn]

section

variable {s : State} {i : Nat} {t : Xfer} {r : List Xfer} (hx : (s.spar i).xfers = t :: r) (hd : t.done = true)
  (hr : ∀ v ∈ r, v.settled = true)

include hx hd hr

/-- With the oldest transfer complete and the others having nothing to move, nothing moves. -/
theorem pump_done : s.pump i = s := pump_settled (hx ▸ List.forall_mem_cons.2 ⟨by simp [Xfer.settled, hd], hr⟩)

/-- A complete transfer that met no error retires (R94). -/
theorem transferRetire_clean (hu : t.ue = none) (hs : t.status = 0) : transferRetire i s = s.modSpar i fun x => { x with xfers := r } := by
  simp only [transferRetire, pump_done hx hd hr, hx, hd, hu, hs, not_true_eq_false, if_false, ne_eq]
  rfl

/-- A complete transfer that met a poisoned line retires with its fault (R309). -/
theorem transferRetire_ue {a : Nat} (hu : t.ue = some a) :
    transferRetire i s = (s.modSpar i fun x => { x with xfers := r }).sparFault i 0x0301 t.bundle 7 0 0 a (s.spar i).phase := by
  simp only [transferRetire, pump_done hx hd hr, hx, hd, hu, not_true_eq_false, if_false]
  rfl

end

/-! Fills. -/

theorem memRead_add (m : List Host.Cell) (a x y : Nat) : memRead m a (x + y) = memRead m a x ++ memRead m (a + x) y := by
  simp [memRead, List.range_add, Function.comp_def, Nat.add_assoc]

/-- Where no line is poisoned a fill copies its bundles, and changes nothing but its spar's instruction store (R87). -/
theorem fillBundles_clean (n : Nat) {s : State} (hp : s.poison = []) (i b a : Nat) :
    (fillBundles n s i b a).2 = none ∧ (fillBundles n s i b a).1.dome = s.dome ∧
      ((fillBundles n s i b a).1.spar i).istore = memWrite (s.spar i).istore (128 * b) (s.domeRead a (128 * n)) := by
  induction n generalizing s b a with
  | zero => exact ⟨rfl, rfl, rfl⟩
  | succ n ih =>
    have hclean : ((linesOf a 128).find? fun l => mapGet false s.poison l) = none := by simp [hp, mapGet]
    have hlen : (memRead s.dome a 128).length = 128 := by simp [memRead]
    obtain ⟨hnone, hdome, hstore⟩ :=
      ih (s := s.modSpar i fun y => { y with istore := memWrite y.istore (128 * b) (s.domeRead a 128) }) hp (b + 1) (a + 128)
    unfold fillBundles
    rw [hclean]
    refine ⟨hnone, hdome, hstore.trans ?_⟩
    rw [spar_modSpar, Nat.mul_succ 128 n, Nat.add_comm (128 * n), State.domeRead, State.domeRead, State.domeRead, memRead_add, memWrite_append,
      hlen]
    rfl

/-- The fill of a job start, its access open and no line poisoned, leaves its bundles in the instruction store (R84, R86). -/
theorem ifillComplete_clean {s : State} {i : Nat} {f : Fill} (hf : (s.spar i).fill = some f) (hp : s.poison = [])
    (ho : portOpen s i [(f.da, 128 * f.count)]) :
    ∃ v : State, (ifillComplete i s = v.modSpar i fun y => { y with fill := none }) ∧ v.dome = s.dome ∧
      (v.spar i).istore = memWrite (s.spar i).istore 0 (s.domeRead f.da (128 * f.count)) := by
  obtain ⟨hheld, htr, hcut, hgr⟩ := ho
  obtain ⟨as, ws, htake⟩ := s.takeAsk_frame i [(f.da, 128 * f.count)]
  obtain ⟨hnone, hdome, hstore⟩ := fillBundles_clean f.count (s := s.takeAsk i [(f.da, 128 * f.count)]) (by rw [htake]; exact hp) i 0 f.da
  refine ⟨_, ?_, hdome.trans (by rw [htake]), hstore.trans (by rw [htake]; rfl)⟩
  simp only [ifillComplete, hf]
  rw [State.portGate_open hheld htr hcut hgr]
  simp only [hnone]

/-- Settles O16: with nothing left to move, the queue's own progress changes nothing; a fill is its bundles written one after another. -/
theorem transferEvents : Obligations.TransferEvents := by
  unfold Obligations.TransferEvents
  refine ⟨fun s i e n hl hp hx => ?_, fun s i t r hl hx hd hr hu hs => ?_, fun s i t r a hl hrun hx hd hr hu => ?_, fun s i f hl hf hp ho => ?_⟩
  · refine ⟨_, congrArg Host.Outcome.next ((if_pos hl).trans ((if_neg (by simp [hp])).trans (pump_settled ?_))), ?_, ?_⟩
    · rw [spar_modSpar]
      simp [hx]
    · rw [spar_modSpar]
      exact mapGet_mapSet_self ..
    · rw [spar_modSpar]
      exact mapGet_mapSet_self ..
  · exact congrArg Host.Outcome.next ((if_pos hl).trans (transferRetire_clean hx hd hr hu hs))
  · obtain ⟨n, hn, hrec⟩ := sparFault_stops (s := s.modSpar i fun x => { x with xfers := r }) (i := i) (code := 0x0301) (by decide)
      (by rwa [spar_modSpar]) t.bundle 7 0 0 a (s.spar i).phase
    refine ⟨n, congrArg Host.Outcome.next ((if_pos hl).trans ?_), hrec⟩
    rw [transferRetire_ue hx hd hr hu, hn, raised_modSpar, modSpar_modSpar]
  · obtain ⟨v, hv, hdome, hstore⟩ := ifillComplete_clean hf hp ho
    have hlen : (s.domeRead f.da (128 * f.count)).length = 128 * f.count := by simp [State.domeRead, memRead]
    refine ⟨_, congrArg Host.Outcome.next ((if_pos hl).trans hv), ?_, hdome, fun k hk => ?_, fun k hk => ?_⟩
    · rw [spar_modSpar]
    · rw [spar_modSpar]
      simp only [hstore]
      have hbyte := memByte_write_in (s.spar i).istore 0 (s.domeRead f.da (128 * f.count)) (k := k) (by omega)
      simpa [State.domeRead, memRead] using hbyte
    · rw [spar_modSpar]
      simp only [hstore]
      exact memByte_write_out _ _ _ (.inr (by omega))

end Sys2Proof.Machine
end

section
/-! PROOF. The start, the fill and the stop of a job (03 R84-R86, R99, R105, 06 R190). -/

namespace Sys2Proof.Machine

open Sys2Proof Sys2Proof.Safety

/-! Spars changed one after another. -/

section

variable {β : Type} (key : β → Nat) (g : β → Spar → Spar)

theorem sameBeyondSpars_foldl_modSpar (l : List β) (s : State) : sameBeyondSpars s (l.foldl (fun t e => t.modSpar (key e) (g e)) s) := by
  induction l generalizing s with
  | nil => rfl
  | cons e r ih => exact sameBeyondSpars_trans (t := s.modSpar (key e) (g e)) rfl (ih _)

theorem spar_foldl_modSpar_other (l : List β) (s : State) {i : Nat} (h : i ∉ l.map key) :
    (l.foldl (fun t e => t.modSpar (key e) (g e)) s).spar i = s.spar i := by
  induction l generalizing s with
  | nil => rfl
  | cons e r ih =>
    obtain ⟨he, hr⟩ := not_or.1 (mt List.mem_cons.2 h)
    exact (ih _ hr).trans (State.spar_modSpar_other s _ (Ne.symm he))

/-- Of distinct spars each is changed by its own entry. -/
theorem spar_foldl_modSpar {l : List β} (hl : (l.map key).Nodup) (s : State) {e : β} (he : e ∈ l) :
    (l.foldl (fun t e => t.modSpar (key e) (g e)) s).spar (key e) = g e (s.spar (key e)) := by
  induction l generalizing s with
  | nil => cases he
  | cons a r ih =>
    obtain ⟨ha, hr⟩ := List.nodup_cons.1 hl
    rcases List.mem_cons.1 he with rfl | he
    · exact (spar_foldl_modSpar_other key g r _ ha).trans (spar_modSpar ..)
    · have hne : key a ≠ key e := fun h => ha (h ▸ List.mem_map_of_mem he)
      exact (ih hr _ he).trans (congrArg (g e) (State.spar_modSpar_other s _ hne))

end

/-- Listed spars, each changed in the same way. -/
theorem spar_foldl_modSpar_id {l : List Nat} (hl : l.Nodup) (g : Spar → Spar) (s : State) (i : Nat) :
    (l.foldl (fun t i => t.modSpar i g) s).spar i = if i ∈ l then g (s.spar i) else s.spar i := by
  split
  · next h => exact spar_foldl_modSpar id (fun _ => g) (by simpa using hl) s h
  · next h => exact spar_foldl_modSpar_other id (fun _ => g) l s (by simpa using h)

theorem spar_of_spars {s u : State} (h : u.spars = s.spars) (i : Nat) : u.spar i = s.spar i := by simp only [State.spar, h]

theorem dome_of_sameBeyondSpars {s u : State} (h : sameBeyondSpars s u) : u.dome = s.dome := (congrArg State.dome h :)

theorem parts_of_sameBeyondSpars {s u : State} (h : sameBeyondSpars s u) : u.parts = s.parts := (congrArg State.parts h :)

theorem part_of_parts {s u : State} (h : u.parts = s.parts) (q : Nat) : u.part q = s.part q := by simp only [State.part, h]

/-! The start. -/

/-- A partition's spars are listed once each. -/
theorem nodup_sparsOf (s : State) (q : Nat) : (s.sparsOf q).Nodup := by
  refine List.nodup_flatMap.2 ⟨fun t _ => ?_, ?_⟩
  · exact (List.nodup_range).map fun a b h => by simpa using h
  · refine List.Pairwise.imp (fun {a b} hab x ha hb => ?_) (List.nodup_range.filter _)
    obtain ⟨j, hj, rfl⟩ := List.mem_map.1 ha
    obtain ⟨k, hk, hjk⟩ := List.mem_map.1 hb
    rw [List.mem_range] at hj hk
    omega

/-- The entries of the image table for a partition's spars. -/
def State.imageEntries (s : State) (q : Nat) : List (Nat × Nat × Nat) := (s.sparsOf q).map fun i => (i, s.imageEntry (s.odGet q 0x2020 1) i)

section

variable {s : State} {q : Nat} (hj : s.jobRuns q = false) (hf : s.startFenced q = false)
  (ht : s.tableBad q (s.odGet q 0x2020 1) = false) (hp : s.poison = [])
  (he : ∀ i ∈ s.sparsOf q, (s.imageEntry (s.odGet q 0x2020 1) i).2 ≠ 0 →
    s.absent i = false ∧ s.entryBad q (s.imageEntry (s.odGet q 0x2020 1) i) = false)

include hj hf ht hp he

/-- A start that nothing turns away launches its job (R86). -/
theorem cmdStartJob_launches (val tok : Nat) : cmdStartJob q val tok s = (stDone, s.launchJob q val tok (s.imageEntries q)) := by
  have hpois : ∀ ls, s.poisonedOf ls = [] := fun ls => by simp [State.poisonedOf, hp, mapGet]
  have hab : ((s.sparsOf q).map fun i => (i, s.imageEntry (s.odGet q 0x2020 1) i)).any (fun e => e.2.2 ≠ 0 && s.absent e.1) = false := by
    simpa using fun i hi h0 => (he i hi h0).1
  have hbad : ((s.sparsOf q).map fun i => (i, s.imageEntry (s.odGet q 0x2020 1) i)).find? (fun e => s.entryBad q e.2) = none := by
    refine List.find?_eq_none.2 fun e hmem => ?_
    obtain ⟨i, hi, rfl⟩ := List.mem_map.1 hmem
    by_cases h0 : (s.imageEntry (s.odGet q 0x2020 1) i).2 = 0
    · simp [State.entryBad, h0]
    · simp [(he i hi h0).2]
  simp only [cmdStartJob, hj, hf, ht, hpois, hab, hbad, Bool.or_self, Bool.false_eq_true, if_false, ne_eq, not_true_eq_false]
  rfl

end

/-- A spar as the launch of a job leaves it, by its entry of the image table. -/
def launchSpar (e : Nat × Nat × Nat) (x : Spar) : Spar :=
  if e.2.2 ≠ 0 then x.begun { da := e.2.1, count := e.2.2 } else { x with run := .off }

/-- The partition's context as the launch leaves it. -/
def launchPart (val tok : Nat) (es : List (Nat × Nat × Nat)) (p : Part) : Part :=
  { p with jobNo := BitVec.ofNat 32 val, started := (es.filter fun e => e.2.2 ≠ 0).map (·.1), jobToken := tok }

/-- A launch sets the spars, the partition and the job state; beyond them it ends asks and resets work counters (R84, R85, R190). -/
theorem launchJob_eq (s : State) (q val tok : Nat) (es : List (Nat × Nat × Nat)) : ∃ as ws cs rs, s.launchJob q val tok es =
    { ((es.foldl (fun t e => t.modSpar e.1 (launchSpar e)) s).modPart q (launchPart val tok es)).odSet q 0x2020 4 1 with
      asks := as, biWaits := ws, counters := cs, ctrResets := rs } := ⟨_, _, _, _, rfl⟩

/-- A launch: the job state is 1, and each spar with bundles to fill begins as its entry says. -/
theorem launchJob_begins (s : State) (q val tok : Nat) {es : List (Nat × Nat × Nat)} (hnd : (es.map (·.1)).Nodup) :
    (s.launchJob q val tok es).odGet q 0x2020 4 = 1 ∧ ((s.launchJob q val tok es).part q).jobNo = BitVec.ofNat 32 val ∧
      (s.launchJob q val tok es).dome = s.dome ∧
      ∀ e ∈ es, e.2.2 ≠ 0 → e.1 ∈ ((s.launchJob q val tok es).part q).started ∧
        (s.launchJob q val tok es).spar e.1 = (s.spar e.1).begun { da := e.2.1, count := e.2.2 } := by
  obtain ⟨as, ws, cs, rs, hu⟩ := launchJob_eq s q val tok es
  have hpart := State.part_modPart_self (es.foldl (fun t e => t.modSpar e.1 (launchSpar e)) s) q (launchPart val tok es)
  rw [hu]
  have hdome : (es.foldl (fun t e => t.modSpar e.1 (launchSpar e)) s).dome = s.dome :=
    dome_of_sameBeyondSpars (sameBeyondSpars_foldl_modSpar (·.1) launchSpar es s)
  refine ⟨State.odGet_odSet_self (State.modPart _ q (launchPart val tok es)) q 0x2020 4 1, congrArg Part.jobNo hpart, hdome,
    fun e he h0 => ⟨(congrArg Part.started hpart).symm ▸ ?_, ?_⟩⟩
  · exact List.mem_map.2 ⟨e, List.mem_filter.2 ⟨he, by simpa using h0⟩, rfl⟩
  · exact (spar_foldl_modSpar (·.1) launchSpar hnd s he).trans (if_pos h0)

/-- Every register of a spar that begins reads zero (R75, R84). -/
theorem begun_registers (x : Spar) (f : Fill) (r : Nat) : (x.begun f).sget r = 0 ∧ (x.begun f).aget r = 0 ∧ (x.begun f).pget r = 0 ∧
    (x.begun f).mget r = 0 ∧ (x.begun f).vget r = 0 ∧ (x.begun f).lget r = 0 ∧ (x.begun f).tget r = 0 ∧ (x.begun f).chan r = 0 ∧
    (x.begun f).accGet r = 0 :=
  ⟨ite_self _, rfl, rfl, rfl, rfl, rfl, rfl, rfl, rfl⟩

/-! The end of the fill. -/

/-- The spar as its job runs it from its first bundle on, the step number latched (R85, R99). -/
def runSpar (step : W64) (x : Spar) : Spar := { x with run := .running, step := step }

/-- Every started spar of the partition runs. -/
def State.runStarted (s : State) (q : Nat) : State :=
  (s.part q).started.foldl (fun t i => t.modSpar i (runSpar (BitVec.ofNat 64 (s.odGet q 0x6400 3)))) s

theorem spar_runStarted (s : State) {q : Nat} (hnd : (s.part q).started.Nodup) (i : Nat) : (s.runStarted q).spar i =
    if i ∈ (s.part q).started then runSpar (BitVec.ofNat 64 (s.odGet q 0x6400 3)) (s.spar i) else s.spar i :=
  spar_foldl_modSpar_id hnd _ s i

theorem parts_runStarted (s : State) (q : Nat) : (s.runStarted q).parts = s.parts :=
  parts_of_sameBeyondSpars (sameBeyondSpars_foldl_modSpar id (fun _ => runSpar (BitVec.ofNat 64 (s.odGet q 0x6400 3))) _ s)

/-- A start command whose table read is open runs at once (R86). -/
theorem exec_startJob {s : State} {q val tok : Nat} {r : CmdRes} (hs : s.served = true) (hq : s.present q = true)
    (ho : portOpen s manageUnit (s.tableRanges q)) (hr : cmdStartJob q val tok (s.takeAsk manageUnit (s.tableRanges q)) = r) :
    exec (.startJob q val tok) s = .next r.2 := by
  obtain ⟨hheld, htr, hcut, hgr⟩ := ho
  have hready : s.portReady manageUnit (s.tableRanges q) = true := by simp [State.portReady, State.hostLines, hheld, htr, hgr]
  have hserved : startServed q val tok s = some r := by simp [startServed, hready, hcut, hr]
  exact (if_pos (by simp [hs, hq])).trans (by rw [hserved])

/-- Settles O17: nothing turns the start away, and its launch sets each spar by its own entry; the end of the fill and the stop change
the started spars one after another, and their notices change none. -/
theorem jobLifecycle : Obligations.JobLifecycle := by
  unfold Obligations.JobLifecycle
  refine ⟨fun s q val tok hs hq hj hf ht hp ho he => ?_, ⟨fun s q hl hj hfl hne hnd => ?_, fun s q i hl hi hf => ?_⟩,
    fun s q val tok hs hq hj hnd => ?_⟩
  · obtain ⟨as, ws, htake⟩ := s.takeAsk_frame manageUnit (s.tableRanges q)
    have hcmd : cmdStartJob q val tok (s.takeAsk manageUnit (s.tableRanges q)) = (stDone, (s.takeAsk manageUnit (s.tableRanges q)).launchJob q val tok
        (s.imageEntries q)) := by
      rw [htake]
      exact cmdStartJob_launches (s := { s with asks := as, biWaits := ws }) hj hf ht hp he val tok
    obtain ⟨hstate, hno, hdome, hspar⟩ := launchJob_begins (s.takeAsk manageUnit (s.tableRanges q)) q val tok
      (es := s.imageEntries q) (by simpa [State.imageEntries, Function.comp_def] using nodup_sparsOf s q)
    refine ⟨_, exec_startJob hs hq ho hcmd, hstate, hno, hdome.trans (by rw [htake]), fun i hi h0 => ?_⟩
    obtain ⟨hst, hbeg⟩ := hspar (i, s.imageEntry (s.odGet q 0x2020 1) i) (List.mem_map_of_mem hi) h0
    have hspar0 : (s.takeAsk manageUnit (s.tableRanges q)).spar i = s.spar i := by rw [htake]; rfl
    simp only [hspar0] at hbeg
    rw [State.canIssue, hbeg]
    exact ⟨hst, rfl, by simp [Spar.begun], rfl, begun_registers _ _, rfl, rfl, rfl, rfl, rfl, rfl⟩
  · have hspar := fun i => (spar_of_spars (sameBeyondNotices_complete (s.runStarted q) q 0x2020 2 0 (s.part q).jobToken
      (s.part q).jobNo.toNat []).spars i).trans (spar_runStarted s hnd i)
    refine ⟨_, congrArg Host.Outcome.next ((if_pos hl).trans ((if_pos (by simp [hj, hfl])).trans (endJob_before ?_))), hspar⟩
    obtain ⟨i, hi⟩ := List.exists_mem_of_ne_nil _ hne
    refine ⟨i, ?_, ?_⟩
    · exact (congrArg Part.started (part_of_parts ((sameBeyondNotices_complete ..).parts.trans (parts_runStarted s q)) q)).symm ▸ hi
    · exact ne_of_eq_of_ne (congrArg Spar.run ((hspar i).trans (if_pos hi))) (by simp [runSpar])
  · refine congrArg Host.Outcome.next ((if_pos hl).trans (if_neg ?_))
    have hnot : s.filled q = false := by
      rw [State.filled, List.all_eq_false]
      exact ⟨i, hi, by simp [hf]⟩
    simp [hnot]
  · have hstop : exec (.stopJob q val tok) s = .next ((s.stopJob q 3).complete q 0x2020 3 0 tok val []) := runCmd_next hs hq rfl
    refine ⟨_, hstop, ?_, fun i => ?_⟩
    · rw [odGet_complete _ _ _ _ _ _ _ _ (by decide), State.stopJob, if_pos hj, State.odGet_odSet_self]
    · rw [spar_of_spars (sameBeyondNotices_complete ..).spars, State.stopJob, if_pos hj]
      exact spar_foldl_modSpar_id hnd _ s i

end Sys2Proof.Machine
end

section
/-! PROOF. What an instruction that issues alone has passed: the checks of its slot and of its tile (03 R104, 05 R152, R160, R161). -/

namespace Sys2Proof.Machine

open Sys2Proof Sys2Proof.Safety

/-- Of any faults one is the worst. -/
theorem worstFault_eq_none {l : List IFault} : worstFault l = none ↔ l = [] := by
  cases l with
  | nil => simp [worstFault]
  | cons a r =>
    simp only [worstFault, reduceCtorEq, iff_false]
    split
    · simp
    · split <;> simp

/-- An instruction that issues alone has no fault. -/
theorem slotFaults_issuesAlone {s : State} {i k : Nat} {op : BitVec 8} {f : Fields} (hk : k < 8) (h : issuesAlone s i k op f) :
    slotFaults s (s.spar i) i (soloBundle k ⟨op, f⟩) k ⟨op, f⟩ = [] := by
  obtain ⟨-, -, -, -, hf, -⟩ := h
  rw [bundleFault_solo hk, Option.map_eq_none_iff] at hf
  exact worstFault_eq_none.1 hf

/-- An instruction that issues alone has passed its encoding's checks and its own (R72, R104). -/
theorem checks_issuesAlone {s : State} {i k : Nat} {op : BitVec 8} {f : Fields} {rd wr : List Reg} (hk : k < 8) (ho : op ≠ 0)
    (hr : slotRegs k ⟨op, f⟩ = some (rd, wr)) (h : issuesAlone s i k op f) :
    encSlot s (s.spar i) i k ⟨op, f⟩ = [] ∧ chkSlot s (s.spar i) i k ⟨op, f⟩ = [] := by
  have hnil := slotFaults_issuesAlone hk h
  obtain ⟨-, -, hg, -⟩ := h
  rw [slotFaults, if_neg ho, hr] at hnil
  obtain ⟨⟨⟨henc, hfar⟩, -⟩, hchk⟩ : ((_ ∧ _) ∧ _) ∧ _ := by simpa only [List.append_eq_nil_iff] using hnil
  refine ⟨henc, ?_⟩
  rw [Option.toList_eq_nil_iff, Option.map_eq_none_iff] at hfar
  rwa [if_pos (by simp only [hg, hfar, Option.isNone_none, Bool.and_self])] at hchk

/-- Where two checks hide those behind them, no fault means that those found none. -/
theorem laterChecks_of_nil {b c : Bool} {u v : IFault} {l : List IFault}
    (h : (if b || c then (if b then [u] else []) ++ (if c then [v] else []) else l) = []) : l = [] := by
  cases b with
  | true => simp at h
  | false =>
    cases c with
    | true => simp at h
    | false => simpa using h

/-- A tile without a fault that no pointer list places has an origin (05 R152, R161). -/
theorem originOf_of_evalTile {x : Spar} {d : Desc} {a k : Nat} {u : TileUse} {kl : List Nat} {ib wb : Bool} (hp : d.plist = false)
    (h : (evalTile x d a u k kl ib wb).faults = []) : ∃ o, originOf x d a = some o := by
  refine Option.ne_none_iff_exists'.1 fun hn => ?_
  simp [evalTile, hn, hp] at h

/-- The origin of a plain row-ordered tensor's tile is the row and column its address names (05 R152). -/
theorem originOf_rows {x : Spar} {d : Desc} {a : Nat} {o : Origin} (hp : d.plist = false) (hl : d.layout = 0) (h : originOf x d a = some o) :
    o.r0 = (a - d.base) / d.rstride ∧ o.c0 = (a - d.base) % d.rstride * 8 / d.bits := by
  simp only [originOf, hp, hl, Bool.false_eq_true, false_and, not_false_eq_true, true_and, if_false, if_true] at h
  split at h
  · cases h
  split at h
  · cases h
  · cases h
    exact ⟨rfl, rfl⟩

end Sys2Proof.Machine
end

section
/-! PROOF. The feeder queues: what a read takes and what it leaves (04 R114, R115, log 69). -/

namespace Sys2Proof.Machine

open Sys2Proof Sys2Proof.Safety

/-- The instructions agree in everything but the rows read for them. -/
def sameButRead (o p : ArrOp) : Prop := { p with queued := o.queued, fetched := o.fetched } = o

theorem sameButRead_fetch (x : Spar) (o : ArrOp) (want room : Nat) : sameButRead o (x.fetch o want room) := rfl

theorem rowRoom_of_sameButRead {o p : ArrOp} (h : sameButRead o p) : p.rowRoom = o.rowRoom :=
  (congrArg ArrOp.rowRoom h :)

/-- An instruction's room is that of its rows before the read and of the rows read, which the free entries hold. -/
theorem room_fetch (x : Spar) (o : ArrOp) (want room : Nat) :
    o.room ≤ (x.fetch o want room).room ∧ (x.fetch o want room).room ≤ o.room + room := by
  have hroom : (x.fetch o want room).room = o.room + min (want - o.fetched) (room / o.rowRoom) * o.rowRoom := by
    rw [ArrOp.room, rowRoom_of_sameButRead (sameButRead_fetch x o want room), Spar.fetch]
    simp [ArrOp.room, Nat.add_mul]
  have hle : min (want - o.fetched) (room / o.rowRoom) * o.rowRoom ≤ room :=
    (Nat.mul_le_mul_right _ (Nat.min_le_right ..)).trans (Nat.div_mul_le_self ..)
  omega

/-- What the started instructions' rows take more, the free entries lose. -/
theorem room_fillRuns (x : Spar) (room : Nat) (rs : List ArrRun) :
    ((x.fillRuns room rs).2.map (·.op.room)).sum + (x.fillRuns room rs).1 = (rs.map (·.op.room)).sum + room := by
  induction rs generalizing room with
  | nil => rfl
  | cons r rs ih =>
    obtain ⟨hge, hle⟩ := room_fetch x r.op r.wants room
    have hrest := ih (room - ((x.fetch r.op r.wants room).room - r.op.room))
    simp only [Spar.fillRuns, List.map_cons, List.sum_cons]
    omega

/-- The waiting instructions' rows take no more than the free entries. -/
theorem room_fillOps (x : Spar) (room : Nat) (os : List ArrOp) :
    ((x.fillOps room os).map ArrOp.room).sum ≤ (os.map ArrOp.room).sum + room := by
  induction os generalizing room with
  | nil => exact Nat.zero_le _
  | cons o os ih =>
    unfold Spar.fillOps
    split
    · exact Nat.le_add_right ..
    split
    · obtain ⟨hge, hle⟩ := room_fetch x o o.m room
      have hrest := ih (room - ((x.fetch o o.m room).room - o.room))
      simp only [List.map_cons, List.sum_cons]
      omega
    · have hrest := ih room
      simp only [List.map_cons, List.sum_cons]
      omega

/-- The last of the waiting instructions is still the last, and only its rows read may be more. -/
theorem fillOps_concat (x : Spar) (room : Nat) (os : List ArrOp) (o : ArrOp) :
    ∃ r p, x.fillOps room (os ++ [o]) = r ++ [p] ∧ r.length = os.length ∧ sameButRead o p := by
  induction os generalizing room with
  | nil =>
    simp only [List.nil_append, Spar.fillOps]
    split
    · exact ⟨[], o, rfl, rfl, rfl⟩
    split
    · exact ⟨[], _, rfl, rfl, sameButRead_fetch ..⟩
    · exact ⟨[], o, rfl, rfl, rfl⟩
  | cons a os ih =>
    simp only [List.cons_append, Spar.fillOps]
    split
    · exact ⟨a :: os, o, rfl, rfl, rfl⟩
    split
    · obtain ⟨r, p, hfill, hlen, hsame⟩ := ih (room - ((x.fetch a a.m room).room - a.room))
      exact ⟨x.fetch a a.m room :: r, p, by rw [hfill]; rfl, congrArg (· + 1) hlen, hsame⟩
    · obtain ⟨r, p, hfill, hlen, hsame⟩ := ih room
      exact ⟨a :: r, p, by rw [hfill]; rfl, congrArg (· + 1) hlen, hsame⟩

/-- The feeder fills its queues no further than they reach (R114). -/
theorem room_fillFeeder {x : Spar} (h : (x.rows.map (·.op.room)).sum + (x.stream.map ArrOp.room).sum ≤ 1024) :
    (x.fillFeeder.rows.map (·.op.room)).sum + (x.fillFeeder.stream.map ArrOp.room).sum ≤ 1024 := by
  have hrun := room_fillRuns x (1024 - ((x.rows.map (·.op.room)).sum + (x.stream.map ArrOp.room).sum)) x.rows
  have hops := room_fillOps x
    (x.fillRuns (1024 - ((x.rows.map (·.op.room)).sum + (x.stream.map ArrOp.room).sum)) x.rows).1 x.stream
  simp only [Spar.fillFeeder]
  omega

/-- The only instruction of the array has as many of its rows read as the queues' entries take (R115). -/
theorem fillFeeder_only {x : Spar} {o : ArrOp} (hr : x.rows = []) (hs : x.stream = [o]) (hk : o.kind = .mmx) (hl : o.listBad = none)
    (hq : o.queued = []) : x.fillFeeder.stream = [x.fetch o o.m 1024] := by
  simp [Spar.fillFeeder, Spar.fillRuns, Spar.fillOps, hr, hs, hk, hl, ArrOp.room, hq]

/-- A first read is of the first rows, in row order (R115). -/
theorem fetch_first (x : Spar) {o : ArrOp} (room : Nat) (hq : o.queued = []) (hf : o.fetched = 0) :
    (x.fetch o o.m room).fetched = min o.m (room / o.rowRoom) ∧
    (x.fetch o o.m room).queued = (List.range (min o.m (room / o.rowRoom))).map (x.fetchRow o) := by
  refine ⟨by simp [Spar.fetch, hf], ?_⟩
  simp only [Spar.fetch, hq, hf, Nat.sub_zero, List.nil_append, Nat.zero_add]
  refine List.map_congr_left fun j hj => ?_
  rw [Nat.mod_eq_of_lt ((List.mem_range.1 hj).trans_le (Nat.min_le_left ..))]

end Sys2Proof.Machine
end

section
/-! PROOF. The rows of slot 3: what joins the queues of the array, and the accumulator regions (04 R110, R119, R134, R141, R144). -/

namespace Sys2Proof.Machine

open Sys2Proof Sys2Proof.Safety

/-- A slot-3 row whose effect changes only its spar, and leaves its place in the program. -/
theorem changesSpar_array {c : Nat → Fields → Instr} {op : BitVec 8} (g : Spar → Fields → Spar)
    (he : ∀ i f s, effSlot 3 op.toNat (s.spar i) i f s = s.modSpar i fun x => g x f) (hp : ∀ x f, (g x f).pc = x.pc)
    (hl : ∀ x f, (g x f).loops = x.loops) (hr : ∀ x f, (g x f).run = x.run) (ho : op ≠ 0 := by decide)
    (hc : ∀ i f s, exec (c i f) s = issueRow 3 op i f s := by exact fun _ _ _ => rfl) : changesSpar c 3 op fun x f => stepped (g x f) :=
  changesSpar_of (by decide) ho (by simp) (by simp) (by simp) hc he hp (fun x f l h => by rwa [hl] at h) hr

/-- What an `mmx` of pair `p` queues: its operands, and its tile's place and extent (R110, R160). -/
def mmxOp (x : Spar) (f : Fields) (p : Pair) : ArrOp :=
  let rl := if Fields.feed f = 1 then x.rowLists.head?.getD {} else {}
  ArrOp.ofTile {
    kind := .mmx, desc := x.tget f.b.toNat, addr := mmxAddr x f (mmxDepth x f p), base := (x.aget f.d.toNat).toNat,
    rowMask := x.mget f.c.toNat, colMask := x.mget f.x.toNat, f1 := f.fmt, f2 := f.low, swap := Fields.swap f,
    colOrder := Fields.colOrder f, fresh := f.imm.getLsbD 2, feed := Fields.feed f, list := rl.idx, skip := rl.skip,
    lbundle := rl.bundle, m := mmxRows x f (mmxTile x f p), kk := mmxDepth x f p, bundle := x.pc } (mmxTile x f p)

/-- A spar after an `mmx` has joined its stream queue as `o`: the feeder has read, and the list it was bound to is taken. -/
def Spar.joinMmx (f : Fields) (o : ArrOp) (x : Spar) : Spar :=
  { ({ x with stream := x.stream ++ [o] } : Spar).fillFeeder with
    rowLists := if f.immBits 3 2 = 1 then x.rowLists.drop 1 else x.rowLists
    blockLists := if f.immBits 3 2 = 2 then (match x.blockLists with
      | l :: r => if l.idx.length ≤ 1 then r else { l with idx := l.idx.drop 1 } :: r
      | [] => []) else x.blockLists }

/-- Three changes of one spar are one. -/
theorem modSpar_modSpar_modSpar (s : State) (i : Nat) (g h k : Spar → Spar) :
    ((s.modSpar i g).modSpar i h).modSpar i k = s.modSpar i fun x => k (h (g x)) := by
  rw [modSpar_modSpar, modSpar_modSpar]

/-- The effect of an `mmx` of a pair of Table 2-5: it joins the stream queue, the feeder reads, and its list is taken. -/
theorem effMmx_eq {f : Fields} {p : Pair} (hp : pairOf f.fmt f.low = some p) (x : Spar) (i : Nat) (s : State) :
    effMmx x i f s = s.modSpar i (Spar.joinMmx f (mmxOp x f p)) := by
  rw [effMmx, hp]
  by_cases h1 : f.immBits 3 2 = 1
  · refine (if_pos h1).trans ((modSpar_modSpar_modSpar ..).trans (modSpar_congr ?_))
    simp only [Spar.joinMmx, h1]
    rfl
  by_cases h2 : f.immBits 3 2 = 2
  · refine ((if_neg h1).trans (if_pos h2)).trans ((modSpar_modSpar_modSpar ..).trans (modSpar_congr ?_))
    simp only [Spar.joinMmx, h2]
    rfl
  · refine ((if_neg h1).trans (if_neg h2)).trans ((modSpar_modSpar ..).trans (modSpar_congr ?_))
    simp only [Spar.joinMmx, h1, h2]
    rfl

/-- An `mmx` that issues alone names a format pair, its tile is without a fault, and it joins the stream queue. -/
theorem exec_mmx {s : State} {i : Nat} {f : Fields} (h : issuesAlone s i 3 0x02 f) :
    ∃ p, (mmxTile (s.spar i) f p).faults = [] ∧
      exec (.mmx i f) s = .next (s.modSpar i fun x => stepped (x.joinMmx f (mmxOp (s.spar i) f p))) := by
  obtain ⟨henc, hchk⟩ := checks_issuesAlone (by decide) (by decide) rfl h
  obtain ⟨p, hp⟩ : ∃ p, pairOf f.fmt f.low = some p := by
    refine Option.ne_none_iff_exists'.1 fun hn => ?_
    simp [encSlot, encSlot3, hn] at henc
  refine ⟨p, ?_, ?_⟩
  · replace hchk : chkMmx (s.spar i) f = [] := hchk
    rw [chkMmx, hp] at hchk
    have hlater := laterChecks_of_nil hchk
    simp only [List.append_eq_nil_iff] at hlater
    obtain ⟨⟨⟨ht, -⟩, -⟩, -⟩ := hlater
    exact ht
  · refine (issueRow_effect (by decide) (by decide) (by decide) (by decide) (by decide) h (effMmx_eq hp ..) ?_ ?_ ?_).trans
      (congrArg Host.Outcome.next (modSpar_modSpar ..))
    · rw [spar_modSpar]; rfl
    · rw [spar_modSpar]; exact fun _ hl => hl
    · rw [spar_modSpar]; exact running_of_canIssue h.1

/-- The `mmx` that joined is the last of the queue, and only its rows read may be more. -/
theorem stream_joinMmx (x : Spar) (f : Fields) (o : ArrOp) :
    ∃ r p, (x.joinMmx f o).stream = r ++ [p] ∧ r.length = x.stream.length ∧ sameButRead o p :=
  fillOps_concat _ _ x.stream o

/-- The first `mmx` of an idle array is alone in the queue, with the rows that an empty feeder takes (R115). -/
theorem stream_joinMmx_idle {x : Spar} {f : Fields} {o : ArrOp} (hr : x.rows = []) (hs : x.stream = []) (hk : o.kind = .mmx)
    (hl : o.listBad = none) (hq : o.queued = []) : (x.joinMmx f o).stream = [x.fetch o o.m 1024] :=
  fillFeeder_only (x := { x with stream := x.stream ++ [o] }) hr (by rw [hs]; rfl) hk hl hq

theorem listBad_mmxOp {x : Spar} {f : Fields} (p : Pair) (h0 : f.immBits 3 2 = 0) : (mmxOp x f p).listBad = none :=
  if_neg (ne_of_eq_of_ne h0 (by decide))

/-- The tile of an `mmx` without a row list is evaluated at the address as its register holds it. -/
theorem mmxTile_noList {x : Spar} {f : Fields} {p : Pair} (h0 : f.immBits 3 2 = 0) :
    mmxTile x f p = evalTile x (Desc.of (x.tget f.b.toNat)) (x.aget f.a.toNat).toNat .stream (mmxDepth x f p) (sparseDepths f.low) false false := by
  simp [mmxTile, mmxAddr, Fields.feed, h0]

/-- The rows of an `mmx` without a row list are its tile's extent (05 R159). -/
theorem mmxOp_rows {x : Spar} {f : Fields} (p : Pair) (h0 : f.immBits 3 2 = 0) :
    (mmxOp x f p).m = (boundOf x (Desc.of (x.tget f.b.toNat))).getD 0 := by
  have hm : (mmxOp x f p).m = mmxRows x f (mmxTile x f p) := rfl
  rw [hm, mmxTile_noList h0, mmxRows, if_neg (by simp [Fields.feed, h0])]
  rfl

/-- The origin of a plain row-ordered `mmx` without a row list is the row and column its address names (05 R152). -/
theorem mmxOp_origin {x : Spar} {f : Fields} {p : Pair} (h0 : f.immBits 3 2 = 0) (ht : (mmxTile x f p).faults = [])
    (hp : (Desc.of (x.tget f.b.toNat)).plist = false) (hl : (Desc.of (x.tget f.b.toNat)).layout = 0) :
    let d := Desc.of (x.tget f.b.toNat)
    let a := (x.aget f.a.toNat).toNat - d.base
    (mmxOp x f p).r0 = a / d.rstride ∧ (mmxOp x f p).c0 = a % d.rstride * 8 / d.bits := by
  rw [mmxTile_noList h0] at ht
  obtain ⟨o, ho⟩ := originOf_of_evalTile hp ht
  have hto : (mmxTile x f p).o = some o := (congrArg TileEv.o (mmxTile_noList h0)).trans ho
  simpa [mmxOp, ArrOp.ofTile, hto] using originOf_rows hp hl ho

/-- A spar with the region of its `mal` allocated: the region's base is in a[D], and its clear is queued (04 R141). -/
def Spar.allocate (x : Spar) (f : Fields) : Spar :=
  { x.aset f.d.toNat (BitVec.ofNat 64 (65536 - x.accFree)) with
    regions := (65536 - x.accFree, malSize x f) :: x.regions
    stream := x.stream ++ [{ kind := .mal, base := 65536 - x.accFree, m := malSize x f, bundle := x.pc }] }

theorem effMal_eq (i : Nat) (f : Fields) (s : State) : effMal (s.spar i) i f s = s.modSpar i fun x => x.allocate f := by
  rw [effMal, pushOp, modSpar_modSpar]
  rfl

/-- Settles O10: each row of slot 3 joins its queue with the operands it reads; what an `mmx` then lets the feeder read leaves it the
last of its queue. -/
theorem arrayIssue : Obligations.ArrayIssue := by
  unfold Obligations.ArrayIssue
  refine ⟨⟨?_, fun s i f h => ?_, ?_, ?_⟩, ⟨fun s i f h h0 => ?_, fun x => room_fillFeeder⟩, fun s i f h => ?_, ?_⟩
  · exact changesSpar_array _ (fun _ _ _ => rfl) (fun _ _ => rfl) (fun _ _ => rfl) fun _ _ => rfl
  · obtain ⟨p, -, hexec⟩ := exec_mmx h
    refine ⟨mmxOp (s.spar i) f p, hexec, rfl, rfl, rfl, rfl, rfl, rfl, rfl, rfl, rfl, rfl, rfl, rfl, rfl, fun h1 l r hl => ?_⟩
    simp [mmxOp, ArrOp.ofTile, mmxRows, Fields.feed, h1, hl]
  · refine changesSpar_array _ (fun i f s => ?_) (fun _ _ => rfl) (fun _ _ => rfl) fun _ _ => rfl
    by_cases hsrc : f.imm.getLsbD 4 = true
    · refine (if_pos hsrc).trans (modSpar_congr ?_)
      simp only [Fields.mewSrc, hsrc]
      rfl
    · refine (if_neg hsrc).trans (modSpar_congr ?_)
      simp only [Fields.mewSrc, hsrc]
      rfl
  · exact changesSpar_array _ (fun _ _ _ => rfl) (fun _ _ => rfl) (fun _ _ => rfl) fun _ _ => rfl
  · obtain ⟨p, ht, hexec⟩ := exec_mmx h
    obtain ⟨r, o, hstream, hlen, hsame⟩ := stream_joinMmx (s.spar i) f (mmxOp (s.spar i) f p)
    have hm : o.m = (boundOf (s.spar i) (Desc.of ((s.spar i).tget f.b.toNat))).getD 0 := (congrArg ArrOp.m hsame).trans (mmxOp_rows p h0)
    refine ⟨_, o, r, hexec, ?_, hlen, fun hb => ?_, fun hb => ?_, fun hp hl => ?_, fun hs hr => ?_⟩
    · rw [spar_modSpar]
      exact hstream
    · simp [hm, boundOf, hb]
    · simp [hm, boundOf, hb]
    · obtain ⟨hr0, hc0⟩ := mmxOp_origin h0 ht hp hl
      exact ⟨(congrArg ArrOp.r0 hsame).trans hr0, (congrArg ArrOp.c0 hsame).trans hc0⟩
    · have hlast : r ++ [o] = [(s.spar i).fetch (mmxOp (s.spar i) f p) (mmxOp (s.spar i) f p).m 1024] :=
        hstream.symm.trans (stream_joinMmx_idle hr hs rfl (listBad_mmxOp p h0) rfl)
      obtain ⟨-, ho⟩ := List.append_inj' (s₂ := []) hlast rfl
      cases ho
      obtain ⟨hf, hq⟩ := fetch_first (s.spar i) (o := mmxOp (s.spar i) f p) 1024 rfl rfl
      exact ⟨hf, hq.trans (by rw [hf]; rfl)⟩
  · exact changesSpar_array (c := .mal) (op := 0x05) Spar.allocate effMal_eq (fun _ _ => rfl) (fun _ _ => rfl) (fun _ _ => rfl)
      (by decide) (fun _ _ _ => rfl) s i f h
  · exact changesSpar_array _ (fun _ _ _ => rfl) (fun _ _ => rfl) (fun _ _ => rfl) fun _ _ => rfl

end Sys2Proof.Machine
end

section
/-! PROOF. Loads and stores of scratch memory, and the stores of `st.vt` (03 Table 3-5, 05 R164). -/

namespace Sys2Proof.Machine

open Sys2Proof Sys2Proof.Safety

/-- A slot-2 row that puts `v` of what its spar held before the bundle (R73) at place `n` of a register file or of scratch, and ends with
the post-increment (R76). -/
theorem changesSpar_put {α : Type} {c : Nat → Fields → Instr} {op : BitVec 8} (put : Spar → Nat → α → Spar) (n : Spar → Fields → Nat)
    (v : Spar → Fields → α) (hp : ∀ y k w, (put y k w).pc = y.pc := by exact fun _ _ _ => rfl)
    (hl : ∀ y k w, (put y k w).loops = y.loops := by exact fun _ _ _ => rfl)
    (hr : ∀ y k w, (put y k w).run = y.run := by exact fun _ _ _ => rfl) (ho : op ≠ 0 := by decide)
    (he : ∀ x i f s, effSlot 2 op.toNat x i f s = s.modSpar i fun y => postInc x f (put y (n x f) (v x f)) := by
      exact fun _ _ _ _ => rfl)
    (hc : ∀ i f s, exec (c i f) s = issueRow 2 op i f s := by exact fun _ _ _ => rfl) :
    changesSpar c 2 op fun x f => stepped (postInc x f (put x (n x f) (v x f))) :=
  changesSpar_of (by decide) ho (by simp) (by simp) (by simp) hc (fun i f s => he (s.spar i) i f s)
    (fun x f => (postInc_pc ..).trans (hp ..)) (fun x f l h => by rwa [postInc_loops, hl] at h)
    fun x f => (postInc_run ..).trans (hr ..)

/-- The low bits read as two's complement are the bit vector's integer. -/
theorem toSigned_eq_toInt {n : Nat} (hn : 0 < n) (v : Nat) : toSigned n v = (BitVec.ofNat n v).toInt := by
  have hpow : 2 * 2 ^ (n - 1) = 2 ^ n := mul_pow_sub_one hn.ne' 2
  rw [toSigned, BitVec.toInt_eq_toNat_cond, BitVec.toNat_ofNat]
  by_cases h : 2 ^ (n - 1) ≤ v % 2 ^ n
  · rw [if_pos h, if_neg (by omega)]
    simp
  · rw [if_neg h, if_pos (by omega)]
    simp

/-- `ld.s` extends by sign when MOD[0] = 1 (03 Table 3-5). -/
theorem loadScalar_eq (x : Spar) (f : Fields) :
    loadScalar x f =
      let n := 2 ^ (f.mod.toNat / 4 % 4)
      let v := leNat (memRead x.scratch (slot2Addr x f) n)
      if f.modBit 0 then (BitVec.ofNat (8 * n) v).signExtend 64 else BitVec.ofNat 64 v := by
  rw [loadScalar, toSigned_eq_toInt (by simp [scalarSize])]
  rfl

/-! What the stores of a tensor leave alone. -/

theorem memByte_applyWrites_out (m : List Host.Cell) (ws : Writes) {a : Nat} (h : ∀ w ∈ ws, w.1 ≠ a) :
    memByte (applyWrites m ws) a = memByte m a := by
  refine List.foldlRecOn (motive := fun t => memByte t a = memByte m a) ws _ rfl fun t ht w hw => ?_
  rw [← ht]
  exact mapGet_mapSet_ne 0 0 t w.2 (h w hw)

theorem addr_mem_of_mem_elemWrites {rd : Nat → Byte} {d : Desc} {o : Origin} {r c v : Nat} {w : Nat × Byte}
    (h : w ∈ elemWrites rd d o r c v) : w.1 ∈ elemAddrs d o r c :=
  (List.of_mem_zip h).1

/-- Items stored unscaled change no byte outside their elements' addresses (02 R37). -/
theorem memByte_storeItems_out (p : RPolicy) {d : Desc} (o : Origin) {its : List Item} (m : List Host.Cell) {a : Nat} (hg : d.g = 0)
    (h : ∀ it ∈ its, a ∉ elemAddrs d o it.1.1 it.1.2) : memByte (storeItems p d o its m).1 a = memByte m a := by
  rw [storeItems, if_pos hg]
  refine List.foldlRecOn (motive := fun acc : List Host.Cell × Conv => memByte acc.1 a = memByte m a) its _ rfl fun acc hacc it hit => ?_
  rw [← hacc]
  exact memByte_applyWrites_out acc.1 _ fun w hw ha => h it hit (ha ▸ addr_mem_of_mem_elemWrites hw)

@[simp] theorem dome_countRange (s : State) (q slot : Nat) (c : Conv) : (s.countRange q slot c).dome = s.dome := by
  refine List.foldlRecOn (motive := fun t : State => t.dome = s.dome) _ _ rfl fun t ht e _ => ?_
  split
  · exact ht
  · exact (State.odAdd_dome ..).trans ht

/-- Scratch after the stores of `st.vt`, with its conversions' counts: the lanes of v[B] that fall inside the tensor of t[C] (05 R164). -/
def vtStored (s : State) (i : Nat) (f : Fields) : List Host.Cell × Conv :=
  let x := s.spar i
  let d := Desc.of (x.tget f.c.toNat)
  storeItems (s.policy (s.sparPart i) d.policy x.step.toNat d.tid) d d.whole (vtItems x f d) x.scratch

/-- `st.vt` leaves its stores in scratch, counts its conversions and moves on (02 R62, 05 R164). -/
theorem exec_stVt {s : State} {i : Nat} {f : Fields} (h : issuesAlone s i 2 0x05 f) :
    exec (.stVt i f) s = .next (((s.modSpar i fun y => { y with scratch := (vtStored s i f).1 })
      |>.countRange (s.sparPart i) (Desc.of ((s.spar i).tget f.c.toNat)).layer (vtStored s i f).2).modSpar i stepped) :=
  issueRow_effect (by decide) (by decide) (by decide) (by decide) (by decide) h rfl
    (by rw [spar_countRange, spar_modSpar]) (fun l hl => by rw [spar_countRange, spar_modSpar] at hl; exact hl)
    (by rw [spar_countRange, spar_modSpar]; exact running_of_canIssue h.1)

/-- Settles O8: each load and store is an effect on its own spar; `st.vt` writes the addresses of its elements and the range counters. -/
theorem scratchAccesses : Obligations.ScratchAccesses := by
  unfold Obligations.ScratchAccesses
  refine ⟨⟨?_, ?_, ?_, ?_, ?_⟩, ⟨?_, ?_, ?_, ?_⟩, fun s i f h => ⟨_, exec_stVt h, ?_, ?_, ?_, fun j hj => ?_, fun hg a ha => ?_⟩⟩
  · simp only [← loadScalar_eq]
    exact changesSpar_put Spar.sset (fun _ f => f.d.toNat) loadScalar sset_pc sset_loops sset_run
  · exact changesSpar_put Spar.vset (fun _ f => f.d.toNat) fun x f => vecOfBytes (x.scr (slot2Addr x f) 1024)
  · exact changesSpar_put Spar.pset (fun _ f => f.d.toNat) fun x f => BitVec.ofNat 256 (leNat (x.scr (slot2Addr x f) 32))
  · exact changesSpar_put Spar.mset (fun _ f => f.d.toNat) fun x f => BitVec.ofNat 128 (leNat (x.scr (slot2Addr x f) 16))
  · exact changesSpar_put Spar.tset (fun _ f => f.d.toNat) fun x f => BitVec.ofNat 512 (leNat (x.scr (slot2Addr x f) 64))
  · exact changesSpar_put Spar.scrPut slot2Addr fun x f => leBytes (scalarSize f) (x.sget f.b.toNat).toNat
  · exact changesSpar_put Spar.scrPut slot2Addr fun x f => vecBytes (x.vget f.b.toNat)
  · exact changesSpar_put Spar.scrPut slot2Addr fun x f => leBytes 32 (x.pget f.b.toNat).toNat
  · exact changesSpar_put Spar.scrPut slot2Addr fun x f => leBytes 16 (x.mget f.b.toNat).toNat
  · rw [spar_modSpar, spar_countRange, spar_modSpar]; rfl
  · rw [spar_modSpar, spar_countRange, spar_modSpar]
  · rw [State.modSpar_dome, dome_countRange, State.modSpar_dome]
  · rw [State.spar_modSpar_other _ _ hj.symm, spar_countRange, State.spar_modSpar_other _ _ hj.symm]
  · rw [spar_modSpar, spar_countRange, spar_modSpar]
    exact memByte_storeItems_out _ _ _ hg ha

end Sys2Proof.Machine
end

section
/-! PROOF. The engines at issue: list operations, work-counter operations, transfers and channels (06 R168, R169, R191, 03 R91-R94). -/

namespace Sys2Proof.Machine

open Sys2Proof Sys2Proof.Safety

/-- A slot-6 or slot-7 instruction that issues alone and is no barrier, whose effect changes only its spar and leaves its place in the
program: the spar is changed so, and moves on. -/
theorem exec_engine {c : Instr} {k : Nat} {op : BitVec 8} {s : State} {i : Nat} {f : Fields} (g : Spar → Spar)
    (h : issuesAlone s i k op f) (he : effSlot k op.toNat (s.spar i) i f s = s.modSpar i g) (hp : (g (s.spar i)).pc = (s.spar i).pc)
    (hl : (g (s.spar i)).loops = (s.spar i).loops) (hr : (g (s.spar i)).run = (s.spar i).run) (hk : k = 6 ∨ k = 7 := by decide)
    (ho : op ≠ 0 := by decide) (hb : ¬(k = 7 ∧ op = 0x11) := by decide) (hc : exec c s = issueRow k op i f s := by exact rfl) :
    exec c s = .next (s.modSpar i fun x => stepped (g x)) := by
  rw [hc, issueRow_effect (by omega) ho hb (by omega) (by omega) h he (by rwa [spar_modSpar])
    (fun l hmem => by rwa [spar_modSpar, hl] at hmem) (by rw [spar_modSpar, hr, running_of_canIssue h.1]), modSpar_modSpar]

/-! List operations (06 R168, R169). -/

/-- The list operations of Table 6-1. -/
def listRows : List ((Nat → Fields → Instr) × BitVec 8) :=
  [(.tgGather, 0x01), (.tgUnperm, 0x02), (.tkScatter, 0x03), (.tkScatadd, 0x04), (.tkPerm, 0x05), (.tkRowfeed, 0x06)]

theorem listRows_op_ne_zero : ∀ r ∈ listRows, r.2 ≠ 0 := by
  rw [← List.forall_iff_forall_mem]
  and_intros
  all_goals decide

/-- Each list operation brings its bundle to issue. -/
theorem exec_listRows : ∀ r ∈ listRows, ∀ i f s, exec (r.1 i f) s = issueRow 6 r.2 i f s := by
  rw [← List.forall_iff_forall_mem]
  and_intros
  all_goals exact fun _ _ _ => rfl

theorem effSlot_listRows : ∀ r ∈ listRows, effSlot 6 r.2.toNat = pushTk r.2.toNat := by
  rw [← List.forall_iff_forall_mem]
  and_intros
  all_goals rfl

/-- What a list operation queues: its operands, and its place in the issue order. -/
def queuedTk (x : Spar) (op : BitVec 8) (f : Fields) : TkOp := { tkOpOf x ⟨op, f⟩ with num := x.opNum }

theorem dst_queuedTk (x : Spar) {op : BitVec 8} (f : Fields) (h : op = 1 ∨ op = 3 ∨ op = 5) :
    (queuedTk x op f).dst = x.tget f.c.toNat :=
  if_pos (by rcases h with rfl | rfl | rfl <;> simp)

theorem srcDome_queuedTk (x : Spar) {op : BitVec 8} (f : Fields) (h : op ≠ 4 ∧ op ≠ 6) : (queuedTk x op f).srcDome = f.modBit 0 := by
  have h4 : op.toNat ≠ 4 := BitVec.toNat_ne.1 h.1
  have h6 : op.toNat ≠ 6 := BitVec.toNat_ne.1 h.2
  simp only [queuedTk, tkOpOf, h4, h6, ne_eq, not_false_eq_true, decide_true, Bool.and_true]

/-- A list operation that issues alone joins its engine's queue (06 R168). -/
theorem exec_listRow {c : Nat → Fields → Instr} {op : BitVec 8} (hr : (c, op) ∈ listRows) {s : State} {i : Nat} {f : Fields}
    (h : issuesAlone s i 6 op f) :
    exec (c i f) s = .next (s.modSpar i fun x =>
      stepped { x with tackleQ := x.tackleQ ++ [queuedTk (s.spar i) op f], opNum := x.opNum + 1 }) := by
  refine exec_engine (fun x => { x with tackleQ := x.tackleQ ++ [queuedTk (s.spar i) op f], opNum := x.opNum + 1 }) h ?_ rfl rfl rfl
    (ho := listRows_op_ne_zero _ hr) (hb := by simp) (hc := exec_listRows _ hr i f s)
  rw [effSlot_listRows _ hr, pushTk, BitVec.ofNat_toNat, BitVec.setWidth_eq]
  rfl

/-! Work-counter operations (06 R191, R192). -/

/-- A spar with one counter operation more outstanding. -/
def Spar.queueClaim (x : Spar) (o : CtrOp) (a b : W64) (f : Fields) : Spar :=
  { x with claims := x.claims ++ [{ op := o, ctr := ctrOf x f, a := a, b := b, dest := f.d.toNat, bundle := x.pc }] }

/-- A work-counter operation that issues alone is outstanding on its counter, with the operands `a` and `b` of its spar. -/
theorem exec_claimRow {c : Instr} {op : BitVec 8} {s : State} {i : Nat} {f : Fields} (o : CtrOp) (a b : Spar → W64)
    (h : issuesAlone s i 6 op f) (he : effSlot 6 op.toNat (s.spar i) i f s = pushClaim o (a (s.spar i)) (b (s.spar i)) (s.spar i) i f s)
    (hc : exec c s = issueRow 6 op i f s) (ho : op ≠ 0 := by decide) :
    exec c s = .next (s.modSpar i fun x => stepped (x.queueClaim o (a x) (b x) f)) :=
  exec_engine (fun x => x.queueClaim o (a x) (b x) f) h he rfl rfl rfl (ho := ho) (hb := by simp) (hc := hc)

section

variable {f : Fields} (x : Spar) (i : Nat) (s : State)

theorem effTkClaim_claim (h : f.mod.toNat % 4 = 0) : effTkClaim x i f s = pushClaim .claim 0 0 x i f s := by
  simp only [effTkClaim, h]

theorem effTkClaim_reset (h : f.mod.toNat % 4 = 1) :
    effTkClaim x i f s = pushClaim .reset (x.sget f.b.toNat) (x.sget f.c.toNat) x i f s := by
  simp only [effTkClaim, h]

theorem effTkClaim_query (h : f.mod.toNat % 4 = 2) : effTkClaim x i f s = pushClaim .query 0 0 x i f s := by
  simp only [effTkClaim, h]

end

/-! Transfers (03 R91-R94). -/

/-- A spar with one transfer more outstanding. -/
def Spar.queueXfer (x : Spar) (t : Xfer) : Spar := { x with xfers := x.xfers ++ [{ t with num := x.opNum }], opNum := x.opNum + 1 }

/-- A transfer row whose effect queues `t` of its spar. -/
theorem exec_xferRow {c : Instr} {op : BitVec 8} {s : State} {i : Nat} {f : Fields} (t : Spar → Xfer) (h : issuesAlone s i 7 op f)
    (he : effSlot 7 op.toNat (s.spar i) i f s = pushXfer i (t (s.spar i)) s) (hc : exec c s = issueRow 7 op i f s)
    (ho : op ≠ 0 := by decide) (hb : op ≠ 0x11 := by decide) :
    exec c s = .next (s.modSpar i fun x => stepped (x.queueXfer (t x))) :=
  exec_engine (fun x => x.queueXfer (t x)) h he rfl rfl rfl (ho := ho) (hb := fun h7 => hb h7.2) (hc := hc)

/-- A transfer of channel bytes, as `tx.send` and `tx.recv` issue it (03 R92). -/
def chanXferOf (kind : XKind) (f : Fields) (x : Spar) : Xfer :=
  { kind := kind, sa := (x.aget f.a.toNat).toNat, len := (x.sget f.c.toNat).toNat, ep := f.immBits 0 5, bundle := x.pc }

/-- The fill of a `tx.ifill` (03 R87). -/
def fillXferOf (f : Fields) (x : Spar) : Xfer :=
  { kind := .ifill, sa := (fillRange f).1, da := (x.aget f.b.toNat).toNat, len := 128 * (fillRange f).2, bundle := x.pc }

/-- The remote requests of `tx.fq`, by selector (11 Table 11-8). -/
def fqKinds : List (Nat × XKind) := [(0, .fqWrite), (1, .fqArrival), (2, .fqRead)]

/-- The remote request of a `tx.fq` (11 R347). -/
def fqXferOf (kind : XKind) (f : Fields) (x : Spar) : Xfer :=
  { kind := kind, sa := (x.aget f.a.toNat).toNat, da := (x.aget f.d.toNat).toNat, len := (x.sget f.c.toNat).toNat,
    ep := f.immBits 0 5, route := x.sget f.b.toNat, bundle := x.pc }

/-- The effect of a `tx.fq` queues the remote request its selector names. -/
theorem effTxFq_of_sel {f : Fields} {r : Nat × XKind} (hr : r ∈ fqKinds) (h : f.mod.toNat % 4 = r.1) (x : Spar) (i : Nat) (s : State) :
    effTxFq x i f s = pushXfer i (fqXferOf r.2 f x) s := by
  simp only [fqKinds, List.mem_cons, List.not_mem_nil, or_false] at hr
  rcases hr with rfl | rfl | rfl <;> simp only [effTxFq, h, fqXferOf]

/-- The transfer between scratch and dome that a spar issues (03 R94, 10 R311). -/
def domeXferOf (kind : XKind) (x : Spar) (f : Fields) : Xfer :=
  { kind := kind, sa := (x.aget f.a.toNat).toNat, da := (x.aget f.b.toNat).toNat, len := (x.sget f.c.toNat).toNat,
    code := if kind = .dst then f.fmt else 0, lock := f.modBit 0, closes := !f.modBit 0 && x.lockSeq.isSome, bundle := x.pc, num := x.opNum }

/-- The locked sequence that is open after the transfer, if it has LOCK (10 R319). -/
def lockAfter (kind : XKind) (x : Spar) (f : Fields) : Option (Nat × Nat) :=
  let da := (x.aget f.b.toNat).toNat
  if f.modBit 0 then some (domeOf da, lockTotal x ((if kind = .dst then f.fmt else 0) ≠ 0) da (x.sget f.c.toNat).toNat) else none

theorem isSome_lockAfter (kind : XKind) (x : Spar) (f : Fields) : (lockAfter kind x f).isSome = true ↔ f.modBit 0 = true := by
  unfold lockAfter
  split
  · next h => simp [h]
  · next h => simp [h]

/-- A transfer between scratch and dome that issues alone is outstanding, and its locked sequence is open or closed (10 R319). -/
theorem exec_domeXfer {c : Instr} {op : BitVec 8} {s : State} {i : Nat} {f : Fields} (kind : XKind) (h : issuesAlone s i 7 op f)
    (he : effSlot 7 op.toNat (s.spar i) i f s = domeXfer kind (s.spar i) i f s) (hc : exec c s = issueRow 7 op i f s)
    (ho : op ≠ 0 := by decide) (hb : op ≠ 0x11 := by decide) :
    exec c s = .next (s.modSpar i fun x => stepped { x with
      xfers := x.xfers ++ [domeXferOf kind (s.spar i) f], lockSeq := lockAfter kind (s.spar i) f, opNum := x.opNum + 1 }) := by
  refine exec_engine (fun x => { x with
    xfers := x.xfers ++ [domeXferOf kind (s.spar i) f], lockSeq := lockAfter kind (s.spar i) f, opNum := x.opNum + 1 }) h ?_ rfl rfl rfl
    (ho := ho) (hb := fun h7 => hb h7.2) (hc := hc)
  rw [he, domeXfer, pushXfer, modSpar_modSpar]
  rfl

/-- A table filled entry by entry reads back as what it was filled with. -/
theorem mapGet_foldl_mapSet {α : Type} [DecidableEq α] (d : α) (m : List (Nat × α)) (v : Nat → α) {n k : Nat} (hk : k < n) :
    mapGet d ((List.range n).foldl (fun m j => mapSet d m j (v j)) m) k = v k := by
  induction n with
  | zero => omega
  | succ n ih =>
    rw [List.range_succ, List.foldl_append, List.foldl_cons, List.foldl_nil]
    by_cases h : n = k
    · subst h
      exact mapGet_mapSet_self ..
    · rw [mapGet_mapSet_ne d d _ _ h]
      exact ih (by omega)

/-- An acting instruction that waits by its own rule holds its bundle back (03 R73). -/
theorem bundleWaits_of_slotHolds {x : Spar} {k : Nat} {w : SlotWord} (hk : k < 8) (ho : w.op ≠ 0) (hn : slotNamed k w = true)
    (hg : guardOn x w.f = true) (hh : slotHolds x k w = true) : bundleWaits x (soloBundle k w) = true := by
  rw [bundleWaits, zipIdx_soloBundle, Bool.or_eq_true, List.any_eq_true]
  have h0 : ¬w.op = 0#8 := ho
  exact .inr ⟨(w, k), List.mem_map.2 ⟨k, List.mem_range.2 hk, by rw [if_pos rfl]⟩, by simp [slotActs, h0, hn, hg, hh]⟩

/-- Settles O12: each row of slots 6 and 7 queues what it read of its spar; the channel table is filled entry by entry, and `tx.wait`
only holds its bundle back. -/
theorem engineIssue : Obligations.EngineIssue := by
  unfold Obligations.EngineIssue
  refine ⟨fun c op hr s i f h => ?_, ⟨fun s i f h hm => ?_, fun s i f h hm => ?_, fun s i f h hm => ?_, fun s i f h => ?_⟩,
    ⟨fun c op hr s i f h h0 h1 => ?_, fun c op kind hr s i f h => ?_, fun c sel kind hr s i f h hm => ?_, fun s i f h => ?_⟩,
    fun s i f h => ?_, fun s i f h => ?_, fun x f hg hlt => ?_⟩
  · exact ⟨queuedTk (s.spar i) op f, exec_listRow hr h, rfl, rfl, rfl, rfl, dst_queuedTk _ f, fun _ => rfl, fun _ => rfl,
      srcDome_queuedTk _ f, rfl, rfl⟩
  · exact exec_claimRow .claim (fun _ => 0) (fun _ => 0) h (effTkClaim_claim _ _ _ hm) (if_pos (by omega))
  · exact exec_claimRow .reset (·.sget f.b.toNat) (·.sget f.c.toNat) h (effTkClaim_reset _ _ _ hm) (if_pos hm)
  · exact exec_claimRow .query (fun _ => 0) (fun _ => 0) h (effTkClaim_query _ _ _ hm) (if_pos hm)
  · exact exec_claimRow .done (·.sget f.b.toNat) (fun _ => 0) h rfl rfl
  · simp only [List.mem_cons, Prod.mk.injEq, List.not_mem_nil, or_false] at hr
    rcases hr with ⟨rfl, rfl⟩ | ⟨rfl, rfl⟩ | ⟨rfl, rfl⟩
    · exact ⟨_, _, exec_domeXfer .dld h rfl rfl, rfl, rfl, rfl, rfl, rfl, rfl, rfl, rfl, isSome_lockAfter ..⟩
    · exact ⟨_, _, exec_domeXfer .dst h rfl (if_pos (h0 rfl)), rfl, rfl, rfl, rfl, rfl, rfl, rfl, rfl, isSome_lockAfter ..⟩
    · exact ⟨_, _, exec_domeXfer .dst h rfl (if_pos (h1 rfl)), rfl, rfl, rfl, rfl, rfl, rfl, rfl, rfl, isSome_lockAfter ..⟩
  · simp only [List.mem_cons, Prod.mk.injEq, List.not_mem_nil, or_false] at hr
    rcases hr with ⟨rfl, rfl, rfl⟩ | ⟨rfl, rfl, rfl⟩
    · exact exec_xferRow (chanXferOf .send f) h rfl rfl
    · exact exec_xferRow (chanXferOf .recv f) h rfl rfl
  · simp only [List.mem_cons, Prod.mk.injEq, List.not_mem_nil, or_false] at hr
    rcases hr with ⟨rfl, rfl, rfl⟩ | ⟨rfl, rfl, rfl⟩ | ⟨rfl, rfl, rfl⟩
    · exact exec_xferRow (fqXferOf .fqWrite f) h (effTxFq_of_sel (r := (0, .fqWrite)) (by decide) hm ..) (if_pos (by omega))
    · exact exec_xferRow (fqXferOf .fqArrival f) h (effTxFq_of_sel (r := (1, .fqArrival)) (by decide) hm ..) (if_pos hm)
    · exact exec_xferRow (fqXferOf .fqRead f) h (effTxFq_of_sel (r := (2, .fqRead)) (by decide) hm ..) (if_pos hm)
  · exact exec_xferRow (fillXferOf f) h rfl rfl
  · exact ⟨_, exec_engine (k := 7) (op := 0x07) _ h rfl rfl rfl rfl, fun k hk => mapGet_foldl_mapSet 0 [] _ hk⟩
  · exact issueRow_effect (by decide) (by decide) (by decide) (by decide) (by decide) h rfl rfl (fun _ hl => hl) (running_of_canIssue h.1)
  · exact bundleWaits_of_slotHolds (by decide) (show (0x08 : BitVec 8) ≠ 0 by decide) rfl hg (by simpa [slotHolds] using hlt)

end Sys2Proof.Machine
end

section
/-! PROOF. The tackle engine's events and the conflict queues (06 R168, R175, R176, R186, 04 R137, R138). -/

namespace Sys2Proof.Machine

open Sys2Proof Sys2Proof.Safety

/-- An operation on at least one position starts where none is in progress (06 R168). -/
theorem tackleStart_idle {s : State} {i : Nat} {o : TkOp} {r : List TkOp} (ht : (s.spar i).tackle = none)
    (hq : (s.spar i).tackleQ = o :: r) (hn : o.n ≠ 0) :
    tackleStart i s = (s.modSpar i fun x => { x with tackleQ := r, tackle := some { op := o } }).odAdd 0 (0x2410 + i / 128) 1 1 := by
  simp only [tackleStart, ht, hq, hn, if_false]
  rfl

/-- No write stands ahead of an access that reads nothing of dome. -/
theorem writesAhead_nil (x : Spar) (n : Nat) : x.writesAhead n [] = false := by
  simp [Spar.writesAhead]

/-- An access that needs no slot at any port is served at once. -/
theorem portGate_nil (s : State) (unit q : Nat) (no k : State → State) : s.portGate unit q [] no k = k s := rfl

/-- The list of a `tk.rowfeed` in row mode (06 R186). -/
def fedList (x : Spar) (o : TkOp) : RowList := { idx := (o.blockPos 0).map (listIdx x o), skip := o.skipVal, bundle := o.bundle }

@[simp] theorem spar_tackleCount (s : State) (i sub n j : Nat) : (s.tackleCount i sub n).spar j = s.spar j := rfl

theorem spar_blockFeed {s : State} {i : Nat} {o : TkOp} (hf : o.fmode = false) :
    (blockFeed i o s).spar i =
      { s.spar i with rowLists := (s.spar i).rowLists ++ [fedList (s.spar i) o], tackle := none } := by
  rw [blockFeed, spar_modSpar]
  simp only [hf, Bool.false_eq_true, if_false]
  rfl

/-- A list of 1 to 4,096 positions is one block (06 R175). -/
theorem blocks_eq_one {o : TkOp} (h0 : 0 < o.n) (h1 : o.n ≤ 4096) : o.blocks = 1 := by
  unfold TkOp.blocks ceilDiv
  omega

theorem blockPos_zero {o : TkOp} (h : o.n ≤ 4096) : o.blockPos 0 = List.range o.n := by
  simp [TkOp.blockPos, h]

/-- The block of a `tk.rowfeed` in row mode queues its list, with no index checked and no access of dome (06 R186). -/
theorem blockValidated_rowfeed {s : State} {i : Nat} {r : TkRun} (ht : (s.spar i).tackle = some r) (ho : r.op.op = 6)
    (hf : r.op.fmode = false) (hb : r.block = 0) (hr : r.reqs = []) (h0 : 0 < r.op.n) (h1 : r.op.n ≤ 4096) :
    (blockValidated i s).spar i =
      { s.spar i with rowLists := (s.spar i).rowLists ++ [fedList (s.spar i) r.op], tackle := none } := by
  simp only [blockValidated, ht, hr, hb, blocks_eq_one h0 h1, ho, hf, Bool.false_eq_true, not_false_eq_true, and_self, ne_eq,
    not_true_eq_false, Nat.le_zero, Nat.one_ne_zero, or_self, if_true, if_false, ite_self, writesAhead_nil, portGate_nil]
  simp only [spar_blockFeed hf, spar_tackleCount]

/-- An index outside its bound ends its operation before any access of its block (06 R176). -/
theorem blockValidated_bad {s : State} {i : Nat} {r : TkRun} {v : Int} (ht : (s.spar i).tackle = some r) (ho : r.op.op ≠ 6)
    (hr : r.reqs = []) (hb : r.block < r.op.blocks) (hv : firstBad r.op.bound (blockIdx (s.spar i) r.op r.block) = some v) :
    blockValidated i s =
      (s.modSpar i Spar.endTackle).sparFault i 0x0103 r.op.bundle 6 0 r.block (ofSigned 64 v) (s.spar i).phase := by
  simp only [blockValidated, ht, hr, hv, ho, false_and, ne_eq, not_true_eq_false, Nat.not_le.2 hb, or_self, if_false]

/-- Additions that enter the conflict queues leave everything else of the spar. -/
theorem pumpAdds_frame (x : Spar) : ∃ b t, x.pumpAdds = { x with banks := b, tackle := t } := by
  unfold Spar.pumpAdds
  split
  · exact ⟨x.banks, x.tackle, rfl⟩
  · exact ⟨_, _, rfl⟩

/-- A bank adds the head of its conflict queue to its entry (04 R137, R138). -/
theorem spar_serveBank {s : State} {i bank : Nat} {r : AccReq} {rs : List AccReq} (h : mapGet [] (s.spar i).banks bank = r :: rs) :
    ∃ b t, (serveBank i bank s).spar i =
      { (s.spar i).accSet r.entry (f32Add ((s.spar i).accGet r.entry) r.val) with banks := b, tackle := t } := by
  simp only [serveBank, h, spar_setSpar]
  obtain ⟨b, t, hx⟩ := pumpAdds_frame (({ s.spar i with banks := mapSet [] (s.spar i).banks bank rs } : Spar).accSet r.entry
    (f32Add ((s.spar i).accGet r.entry) r.val))
  exact ⟨b, t, hx⟩

end Sys2Proof.Machine
end

section
/-! PROOF. The work counters (06 R190-R195, Table 6-5, 10 R314), and the statement of the tackle engines. -/

namespace Sys2Proof.Machine

open Sys2Proof Sys2Proof.Safety

theorem epoch_counter_lt (s : State) (n : Nat) : (s.counter n).epoch < 2 ^ 24 := Nat.mod_lt _ (Nat.two_pow_pos 24)

section

/-! The counters' table is left a variable here: the kernel would work out its entries where only the other fields count. -/

variable (s : State) (cs : List (Nat × WorkCounter))

theorem counter_withCounters (n : Nat) : ({ s with counters := cs } : State).counter n =
    { mapGet {} cs n with epoch := ((mapGet {} cs n).epoch + s.resetsOf (n / 4096)) % 2 ^ 24 } := rfl

theorem spar_withCounters (i : Nat) : ({ s with counters := cs } : State).spar i = s.spar i := rfl

end

theorem setCounter_eq (s : State) (n : Nat) (k : WorkCounter) : s.setCounter n k =
    { s with
      counters := mapSet {} s.counters n { k with epoch := (k.epoch + 2 ^ 24 - s.resetsOf (n / 4096) % 2 ^ 24) % 2 ^ 24 } } := rfl

/-- A counter put back reads as what it was set to: the resets of its dome are taken off its epoch and added again (06 R190). -/
theorem counter_setCounter_self (s : State) (n : Nat) {k : WorkCounter} (h : k.epoch < 2 ^ 24) : (s.setCounter n k).counter n = k := by
  have he : ((k.epoch + 2 ^ 24 - s.resetsOf (n / 4096) % 2 ^ 24) % 2 ^ 24 + s.resetsOf (n / 4096)) % 2 ^ 24 = k.epoch := by omega
  rw [setCounter_eq, counter_withCounters, mapGet_mapSet_self, he]

theorem counter_setCounter_other (s : State) {n m : Nat} (k : WorkCounter) (h : n ≠ m) : (s.setCounter n k).counter m = s.counter m := by
  rw [setCounter_eq, counter_withCounters, mapGet_mapSet_ne _ _ _ _ h]
  rfl

@[simp] theorem spar_setCounter (s : State) (n : Nat) (k : WorkCounter) (i : Nat) : (s.setCounter n k).spar i = s.spar i := by
  rw [setCounter_eq, spar_withCounters]

@[simp] theorem spar_takeAsk (s : State) (unit : Nat) (rs : List (Nat × Nat)) (i : Nat) : (s.takeAsk unit rs).spar i = s.spar i := by
  obtain ⟨as, ws, h⟩ := s.takeAsk_frame unit rs
  rw [h]
  rfl

@[simp] theorem counter_takeAsk (s : State) (unit : Nat) (rs : List (Nat × Nat)) (n : Nat) :
    (s.takeAsk unit rs).counter n = s.counter n := by
  obtain ⟨as, ws, h⟩ := s.takeAsk_frame unit rs
  rw [h]
  rfl

/-- A fault changes no work counter. -/
@[simp] theorem counter_sparFault (s : State) (i code bundle slot cause block value n : Nat) (phase : W32) :
    (s.sparFault i code bundle slot cause block value phase).counter n = s.counter n := by
  unfold State.sparFault
  split <;> rfl

/-- A fault keeps the counter operations of its spar. -/
@[simp] theorem claims_sparFault (s : State) (i code bundle slot cause block value : Nat) (phase : W32) :
    ((s.sparFault i code bundle slot cause block value phase).spar i).claims = (s.spar i).claims := by
  unfold State.sparFault
  split
  · rw [spar_modSpar]
    rfl
  · rfl

@[simp] theorem counter_setSpar (s : State) (i : Nat) (x : Spar) (n : Nat) : (s.setSpar i x).counter n = s.counter n := rfl

@[simp] theorem counter_odAdd (s : State) (q i sub v n : Nat) : (s.odAdd q i sub v).counter n = s.counter n := rfl

@[simp] theorem spar_odAdd (s : State) (q i sub v j : Nat) : (s.odAdd q i sub v).spar j = s.spar j := rfl

@[simp] theorem counter_countClaim (s : State) (i : Nat) (op : CtrOp) (r : W64) (n : Nat) :
    (s.countClaim i op r).counter n = s.counter n := by
  cases op <;> rfl

@[simp] theorem spar_countClaim (s : State) (i : Nat) (op : CtrOp) (r : W64) (j : Nat) : (s.countClaim i op r).spar j = s.spar j := by
  cases op <;> rfl

/-- A spar's oldest counter operation as its dome leaves it (06 R192). -/
def performedClaim (k : WorkCounter) (c : Claim) : Claim := { c with performed := true, result := (counterOp k c).2 }

/-- What `tk.done` answers (Table 6-5). -/
def doneCode (k : WorkCounter) (c : Claim) : Nat :=
  let ix := c.a.toNat % 2 ^ 40
  if c.a.toNat / 2 ^ 40 ≠ k.epoch then 2 else if ix < k.start ∨ k.next ≤ ix - k.start then 3
  else if ix - k.start ∈ k.ledger then 1 else 0

theorem counterOp_done {c : Claim} (h : c.op = .done) (k : WorkCounter) :
    let ix := c.a.toNat % 2 ^ 40
    counterOp k c = (if doneCode k c = 0 then { k with ledger := setIns k.ledger (ix - k.start), completed := k.completed + 1 } else k,
      BitVec.ofNat 64 (doneCode k c)) := by
  have hix : bitsOf c.a.toNat 0 40 = c.a.toNat % 2 ^ 40 := by simp [bitsOf_eq]
  have hep : bitsOf c.a.toNat 40 24 = c.a.toNat / 2 ^ 40 := by
    rw [bitsOf_eq, Nat.mod_eq_of_lt (by have := c.a.isLt; omega)]
  simp only [counterOp, h, doneCode, hix, hep, List.contains_iff_mem]
  split
  · rfl
  split
  · rfl
  split
  · rfl
  · rfl

theorem counterOp_claim {c : Claim} (h : c.op = .claim) (k : WorkCounter) :
    counterOp k c = (if k.next = k.count then k else { k with next := k.next + 1 },
      BitVec.ofNat 64 (k.epoch * 2 ^ 40 + (if k.next = k.count then 0xFFFFFFFFFF else (k.start + k.next) % 2 ^ 40))) := by
  simp only [counterOp, h, epochWord]
  split <;> rfl

theorem counterOp_query {c : Claim} (h : c.op = .query) (k : WorkCounter) :
    counterOp k c = (k, BitVec.ofNat 64 (k.epoch * 2 ^ 40 + (k.completed * 2 ^ 16 + k.next))) := by
  simp only [counterOp, h, epochWord]

theorem counterOp_reset {c : Claim} (h : c.op = .reset) (k : WorkCounter) :
    counterOp k c = ({ epoch := (k.epoch + 1) % 2 ^ 24, start := c.a.toNat, count := c.b.toNat },
      BitVec.ofNat 64 ((k.epoch + 1) % 2 ^ 24 * 2 ^ 40 + (k.next - k.completed))) := by
  simp only [counterOp, h, epochWord]

/-- An operation leaves its counter an epoch of 24 bits (06 R190). -/
theorem epoch_counterOp_lt {k : WorkCounter} (h : k.epoch < 2 ^ 24) (c : Claim) : (counterOp k c).1.epoch < 2 ^ 24 := by
  cases hop : c.op with
  | claim => rw [counterOp_claim hop]; split <;> exact h
  | done => rw [counterOp_done hop]; split <;> exact h
  | reset => rw [counterOp_reset hop]; exact Nat.mod_lt _ (Nat.two_pow_pos 24)
  | query => rw [counterOp_query hop]; exact h

/-- Its port open, the oldest counter operation of a spar is performed on its counter (06 R191, 10 R314). -/
theorem workCounterOp_open {s : State} {i : Nat} {c : Claim} {r : List Claim} (hc : (s.spar i).claims = c :: r)
    (hp : c.performed = false) (ho : portOpen s i [(c.ctr / 4096 * 2 ^ 37 + domeBytes, 1)]) :
    ((workCounterOp i s).spar i).claims = performedClaim (s.counter c.ctr) c :: r ∧
      (workCounterOp i s).counter c.ctr = (counterOp (s.counter c.ctr) c).1 ∧
      ∀ n, n ≠ c.ctr → (workCounterOp i s).counter n = s.counter n := by
  obtain ⟨hheld, htr, hcut, hgr⟩ := ho
  have hfirst : (c :: r).findIdx? (fun c => !c.performed) = some 0 := by simp [List.findIdx?_cons, hp]
  have hepoch := epoch_counterOp_lt (epoch_counter_lt s c.ctr) c
  simp only [workCounterOp, hc, hfirst, List.getElem?_cons_zero, State.portGate_open hheld htr hcut hgr, spar_takeAsk, counter_takeAsk,
    List.set_cons_zero]
  refine ⟨?_, ?_, fun n hn => ?_⟩
  · split <;> simp [performedClaim]
  · split <;> simp [counter_setCounter_self _ _ hepoch]
  · split <;> simp [counter_setCounter_other _ _ hn.symm]

/-- The oldest counter result, of an operation that was not refused, reaches s[D] (06 R192). -/
theorem counterResult_arrives {s : State} {i : Nat} {c : Claim} {r : List Claim} (hc : (s.spar i).claims = c :: r)
    (hp : c.performed = true) (hr : c.refused = false) :
    counterResult i s = s.modSpar i fun x => ({ x with claims := r } : Spar).sset c.dest c.result := by
  simp only [counterResult, hc, hp, hr, not_true_eq_false, if_false, Bool.false_eq_true]
  rfl

/-- Settles O15: each event of the engine is one change of its spar; a counter operation is `counterOp` on a counter that reads back as
it was left. -/
theorem tackleWork : Obligations.TackleWork := by
  unfold Obligations.TackleWork
  refine ⟨⟨fun s i o r hl ht hq hn => ?_, fun s i r hl ht ho hf hb hr h0 h1 => ?_, fun s i r v hl hrun ht ho hr hb hv => ?_,
    fun s i bank r rs hl h => ?_⟩, fun s i c r hl hc hp ho => ?_, fun s i c r hl hc hp hr => ?_⟩
  · exact congrArg Host.Outcome.next ((if_pos hl).trans (tackleStart_idle ht hq hn))
  · have hspar := blockValidated_rowfeed ht ho hf hb hr h0 h1
    refine ⟨_, fedList (s.spar i) r.op, congrArg Host.Outcome.next (if_pos hl), ?_, ?_, ?_, rfl, ?_⟩
    · rw [hspar]
    · rw [hspar]
    · rw [fedList, blockPos_zero h1]
    · rw [hspar]
  · obtain ⟨n, hn, hrec⟩ := sparFault_stops (s := s.modSpar i Spar.endTackle) (i := i) (code := 0x0103) (by decide)
      (by rwa [spar_modSpar]) r.op.bundle 6 0 r.block (ofSigned 64 v) (s.spar i).phase
    refine ⟨n, congrArg Host.Outcome.next ((if_pos hl).trans ?_), hrec⟩
    rw [blockValidated_bad ht ho hr hb hv, hn, raised_modSpar, modSpar_modSpar]
    rfl
  · obtain ⟨b, t, hspar⟩ := spar_serveBank (i := i) h
    refine ⟨_, congrArg Host.Outcome.next (if_pos hl), ?_, fun e he => ?_, ?_⟩
    · rw [hspar]
      exact mapGet_mapSet_self ..
    · rw [hspar]
      exact mapGet_mapSet_ne 0 0 _ _ he.symm
    · rw [hspar]
      rfl
  · intro k ix code
    obtain ⟨hclaims, hself, hother⟩ := workCounterOp_open hc hp ho
    refine ⟨_, performedClaim k c, congrArg Host.Outcome.next (if_pos hl), hclaims, rfl, rfl, rfl, hother, fun hop => ?_,
      fun hop => ?_, fun hop => ?_, fun hop => ?_⟩
    · rw [hself, performedClaim, counterOp_claim hop]
      exact ⟨rfl, rfl⟩
    · rw [hself, performedClaim, counterOp_query hop]
      exact ⟨rfl, rfl⟩
    · rw [hself, performedClaim, counterOp_reset hop]
      exact ⟨rfl, rfl⟩
    · rw [hself, performedClaim, counterOp_done hop]
      exact ⟨rfl, rfl⟩
  · exact congrArg Host.Outcome.next ((if_pos hl).trans (counterResult_arrives hc hp hr))

end Sys2Proof.Machine
end

section
/-! PROOF. The choice of what is kept of a group (04 R128, 06 R201). -/

namespace Sys2Proof.Machine

open Sys2Proof Sys2Proof.Safety

/-- Position `j` goes before position `i`: its magnitude is larger, or it is the same and `j` is lower (06 R201). -/
def goesBefore (ms : List Nat) (j i : Nat) : Bool :=
  decide (ms.getD i 0 < ms.getD j 0) || (ms.getD j 0 = ms.getD i 0 && decide (j < i))

theorem goesBefore_iff {ms : List Nat} {j i : Nat} :
    goesBefore ms j i = true ↔ ms.getD i 0 < ms.getD j 0 ∨ (ms.getD i 0 = ms.getD j 0 ∧ j < i) := by
  simp only [goesBefore, Bool.or_eq_true, Bool.and_eq_true, decide_eq_true_eq, eq_comm (a := ms.getD i 0) (b := ms.getD j 0)]

/-- The positions that go before position `i`. -/
def before (ms : List Nat) (i : Nat) : List Nat := (List.range ms.length).filter (goesBefore ms · i)

theorem mem_before {ms : List Nat} {i j : Nat} : j ∈ before ms i ↔ j < ms.length ∧ goesBefore ms j i = true := by
  rw [before, List.mem_filter, List.mem_range]

theorem nodup_before (ms : List Nat) (i : Nat) : (before ms i).Nodup := List.nodup_range.filter _

/-- The positions kept are those before which fewer than `n` go. -/
theorem keptOf_eq (n : Nat) (ms : List Nat) :
    keptOf n ms = (List.range ms.length).filter fun i => decide ((before ms i).length < n) := by
  refine List.filter_congr fun i _ => ?_
  rw [before, ← List.countP_eq_length_filter]
  rfl

theorem mem_keptOf {n : Nat} {ms : List Nat} {i : Nat} : i ∈ keptOf n ms ↔ i < ms.length ∧ (before ms i).length < n := by
  rw [keptOf_eq, List.mem_filter, List.mem_range, decide_eq_true_eq]

theorem nodup_keptOf (n : Nat) (ms : List Nat) : (keptOf n ms).Nodup := List.nodup_range.filter _

/-- Of two positions one goes before the other. -/
theorem goesBefore_total (ms : List Nat) {i j : Nat} (h : i ≠ j) : goesBefore ms i j = true ∨ goesBefore ms j i = true := by
  rw [goesBefore_iff, goesBefore_iff]
  omega

/-- Where `j` goes before `i`, fewer positions go before `j`: all of them go before `i`, and `j` itself does. -/
theorem length_before_lt {ms : List Nat} {i j : Nat} (hj : j < ms.length) (h : goesBefore ms j i = true) :
    (before ms j).length < (before ms i).length := by
  have hnot : j ∉ before ms j := by
    rw [mem_before, goesBefore_iff]
    omega
  have hsub : j :: before ms j ⊆ before ms i := by
    refine List.cons_subset.2 ⟨mem_before.2 ⟨hj, h⟩, fun k hk => ?_⟩
    rw [mem_before, goesBefore_iff] at hk ⊢
    rw [goesBefore_iff] at h
    omega
  exact (List.subperm_of_subset (List.nodup_cons.2 ⟨hnot, nodup_before ms j⟩) hsub).length_le

/-- A position's place in the order is one of the group's places, since it does not go before itself. -/
theorem length_before_lt_length {ms : List Nat} {i : Nat} (hi : i < ms.length) : (before ms i).length < ms.length := by
  have hnot : i ∉ before ms i := by
    rw [mem_before, goesBefore_iff]
    omega
  have hsub : i :: before ms i ⊆ List.range ms.length :=
    List.cons_subset.2 ⟨List.mem_range.2 hi, List.filter_subset_self _⟩
  simpa using (List.subperm_of_subset (List.nodup_cons.2 ⟨hnot, nodup_before ms i⟩) hsub).length_le

/-- The places of a group's positions are the numbers from 0 on, each once. -/
theorem places_perm (ms : List Nat) : ((List.range ms.length).map fun i => (before ms i).length).Perm (List.range ms.length) := by
  refine (List.subperm_of_subset (List.Nodup.map_on (fun i hi j hj he => ?_) List.nodup_range) fun p hp => ?_).perm_of_length_le (by simp)
  · by_contra hne
    rcases goesBefore_total ms hne with h | h
    · exact absurd he (length_before_lt (List.mem_range.1 hi) h).ne
    · exact absurd he.symm (length_before_lt (List.mem_range.1 hj) h).ne
  · obtain ⟨i, hi, rfl⟩ := List.mem_map.1 hp
    exact List.mem_range.2 (length_before_lt_length (List.mem_range.1 hi))

theorem countP_lt_range {n m : Nat} (h : n ≤ m) : (List.range m).countP (fun i => decide (i < n)) = n := by
  obtain ⟨d, rfl⟩ := Nat.exists_eq_add_of_le h
  have hlow : (List.range n).countP (fun i => decide (i < n)) = (List.range n).length :=
    List.countP_eq_length.2 fun i hi => by simpa using hi
  have hhigh : ((List.range d).map (n + ·)).countP (fun i => decide (i < n)) = 0 := List.countP_eq_zero.2 fun i hi => by
    obtain ⟨k, -, rfl⟩ := List.mem_map.1 hi
    simp
  rw [List.range_add, List.countP_append, hlow, hhigh, List.length_range, Nat.add_zero]

/-- As many positions are kept as the group's share. -/
theorem length_keptOf {n : Nat} {ms : List Nat} (h : n ≤ ms.length) : (keptOf n ms).length = n := by
  calc (keptOf n ms).length
    _ = ((List.range ms.length).map fun i => (before ms i).length).countP (fun p => decide (p < n)) := by
      rw [keptOf_eq, ← List.countP_eq_length_filter, List.countP_map]
      rfl
    _ = n := by rw [(places_perm ms).countP_eq, countP_lt_range h]

/-- A kept position goes before a dropped one. -/
theorem goesBefore_of_kept {n : Nat} {ms : List Nat} {i j : Nat} (hi : i ∈ keptOf n ms) (hj : j < ms.length) (hd : j ∉ keptOf n ms) :
    goesBefore ms i j = true := by
  rw [mem_keptOf] at hi hd
  have hne : i ≠ j := by
    rintro rfl
    exact hd hi
  refine (goesBefore_total ms hne).resolve_right fun h => ?_
  have hlt := length_before_lt hj h
  omega

end Sys2Proof.Machine
end

section
/-! PROOF. The pruning units: a request handed over, refused, and served (06 R199-R203). -/

namespace Sys2Proof.Machine

open Sys2Proof Sys2Proof.Safety

/-! What serving a tile leaves: every line unpoisoned, and the updates in progress. -/

/-- The states agree in the lines poisoned and in the updates in progress. -/
def samePoisonUpd (s u : State) : Prop := u.poison = s.poison ∧ ∀ q, (u.part q).upd = (s.part q).upd

theorem samePoisonUpd.trans {s t u : State} (h : samePoisonUpd s t) (h' : samePoisonUpd t u) : samePoisonUpd s u :=
  ⟨h'.1.trans h.1, fun q => (h'.2 q).trans (h.2 q)⟩

theorem samePoisonUpd_of_frame {s u : State} (hp : u.poison = s.poison) (hq : u.parts = s.parts) : samePoisonUpd s u :=
  ⟨hp, fun q => by rw [State.part, State.part, hq]⟩

/-- What each of a row of changes keeps, all of them keep. -/
theorem samePoisonUpd_foldl {α : Type} {f : State → α → State} (hf : ∀ t a, samePoisonUpd t (f t a)) (l : List α) (s : State) :
    samePoisonUpd s (l.foldl f s) := by
  induction l generalizing s with
  | nil => exact ⟨rfl, fun _ => rfl⟩
  | cons a r ih => exact (hf s a).trans (ih (f s a))

theorem samePoisonUpd_odAdd (s : State) (q i sub n : Nat) : samePoisonUpd s (s.odAdd q i sub n) := samePoisonUpd_of_frame rfl rfl

theorem samePoisonUpd_countRange (s : State) (q slot : Nat) (c : Conv) : samePoisonUpd s (s.countRange q slot c) :=
  samePoisonUpd_foldl (fun t e => by
    split
    · exact samePoisonUpd_of_frame rfl rfl
    · exact samePoisonUpd_odAdd ..) _ s

theorem samePoisonUpd_pruneAdd (s : State) (q k sub n : Nat) : samePoisonUpd s (s.pruneAdd q k sub n) := by
  unfold State.pruneAdd
  split
  · exact samePoisonUpd_of_frame rfl rfl
  · exact samePoisonUpd_odAdd ..

theorem samePoisonUpd_pruneSums (s : State) (q k drop tot bad : Nat) : samePoisonUpd s (s.pruneSums q k drop tot bad) := by
  obtain ⟨x, hparts, hx⟩ : ∃ x : Part, (s.pruneSums q k drop tot bad).parts = (s.setPart q x).parts ∧ x.upd = (s.part q).upd :=
    ⟨_, rfl, rfl⟩
  refine ⟨rfl, fun p => ?_⟩
  rw [State.part, hparts]
  by_cases h : q = p
  · subst h
    exact (congrArg Part.upd (State.part_setPart_self s q x)).trans hx
  · exact congrArg Part.upd (State.part_setPart_other s x h)

theorem samePoisonUpd_pruneCount (s : State) (q k mode inside : Nat) (cols : List (List W32)) :
    samePoisonUpd s (s.pruneCount q k mode inside cols) :=
  (samePoisonUpd_pruneAdd ..).trans <| (samePoisonUpd_pruneAdd ..).trans <| (samePoisonUpd_pruneAdd ..).trans <|
    (samePoisonUpd_pruneAdd ..).trans <| (samePoisonUpd_pruneAdd ..).trans (samePoisonUpd_pruneSums ..)

theorem poisonedOf_clean {s : State} (h : s.poison = []) (ls : List Nat) : s.poisonedOf ls = [] := by
  simp [State.poisonedOf, h, mapGet]

/-- With no line poisoned, a tile is written and meets no poison. -/
theorem pruneTile_clean {s : State} (h : s.poison = []) (r : PruneReq) (src dst : Desc) (step k : Nat) :
    samePoisonUpd s (s.pruneTile r src dst step k).1 ∧ (s.pruneTile r src dst step k).2 = [] := by
  have h1 : ∀ a bs, (s.domePut a bs).poison = [] := fun _ _ => h
  simp only [State.pruneTile, poisonedOf_clean h, State.domeWrite_clean h, State.domeWrite_clean (h1 _ _), ne_eq, not_true_eq_false,
    if_false, List.append_nil, and_true]
  refine samePoisonUpd.trans ?_ (samePoisonUpd_pruneCount ..)
  refine samePoisonUpd.trans ?_ (samePoisonUpd_foldl (fun t c => samePoisonUpd_countRange t r.q dst.layer c) _ _)
  exact samePoisonUpd_of_frame rfl rfl

/-- The state with tile `k` of a request written. -/
def State.withTile (r : PruneReq) (src dst : Desc) (step : Nat) (v : State) (k : Nat) : State := (v.pruneTile r src dst step k).1

/-- With no line poisoned, the tiles of a request are written one after another, and none meets poison. -/
theorem pruneTiles_clean {s : State} (h : s.poison = []) (r : PruneReq) (src dst : Desc) (step : Nat) (ks : List Nat) :
    ks.foldl (fun (u : State × List Nat) k =>
      let v := u.1.pruneTile r src dst step k
      (v.1, u.2 ++ v.2)) (s, []) = (ks.foldl (State.withTile r src dst step) s, []) ∧
    samePoisonUpd s (ks.foldl (State.withTile r src dst step) s) := by
  induction ks generalizing s with
  | nil => exact ⟨rfl, rfl, fun _ => rfl⟩
  | cons k ks ih =>
    obtain ⟨hsame, hnone⟩ := pruneTile_clean h r src dst step k
    obtain ⟨hfold, hrest⟩ := ih (s := s.withTile r src dst step k) (hsame.1.trans h)
    refine ⟨?_, hsame.trans hrest⟩
    simp only [List.foldl_cons, hnone, List.append_nil]
    exact hfold

/-! The end of a request. -/

theorem sameBeyondNotices.dome {s u : State} (h : sameBeyondNotices s u) : u.dome = s.dome := (congrArg State.dome h :)

theorem sameBeyondNotices.pruneBusy {s u : State} (h : sameBeyondNotices s u) : u.pruneBusy = s.pruneBusy :=
  (congrArg State.pruneBusy h :)

/-- The state with tower `t`'s unit free of its request and of what it asked for. -/
def State.pruneFreed (s : State) (t : Nat) (r : PruneReq) : State :=
  ({ s with prune := mapDel s.prune t, pruneBusy := setDel s.pruneBusy t } : State).dropAsks (pruneUnit t) r.q

theorem postWaiting_idle {s : State} {q : Nat} (h : (s.part q).upd = none) (t : Nat) : s.postWaiting q t = s := by
  simp only [State.postWaiting, h, Option.bind_none]

/-- A command's request, no update being in progress, ends with its unit free and its completion notice (06 R199, R200). -/
theorem pruneEnd_command {s : State} {r : PruneReq} (hb : r.boom = false) (hu : (s.part r.q).upd = none) (t status : Nat) :
    s.pruneEnd t r status = (s.pruneFreed t r).complete r.q 0x2500 2 status r.token (t * 256 + r.slot) [] := by
  have hidle : (((s.pruneFreed t r).complete r.q 0x2500 2 status r.token (t * 256 + r.slot) []).part r.q).upd = none := by
    rw [State.part, (sameBeyondNotices_complete ..).parts]
    exact hu
  rw [State.pruneEnd, hb]
  exact postWaiting_idle hidle t

/-- The descriptors of a request's record stand one behind the other (06 R199). -/
theorem pruneDescs_eq (s : State) (r : PruneReq) :
    s.pruneDescs r = (Desc.ofBytes (memRead s.dome r.addr 64), Desc.ofBytes (memRead s.dome (r.addr + 64) 64)) := by
  have hlen : (memRead s.dome r.addr 64).length = 64 := by simp [memRead]
  have hsplit : s.domeRead r.addr 128 = memRead s.dome r.addr 64 ++ memRead s.dome (r.addr + 64) 64 := memRead_add s.dome r.addr 64 64
  rw [State.pruneDescs, hsplit, List.take_left' hlen, List.drop_left' hlen]

section

variable {s : State} {r : PruneReq} (hp : s.poison = []) (hb : r.boom = false) (hu : (s.part r.q).upd = none)

include hp hb hu

/-- A request whose descriptors are not acceptable writes nothing and completes with status 1 (06 R200). -/
theorem pruneServe_refused (hv : s.pruneValid r.q (s.pruneDescs r).1 (s.pruneDescs r).2 = false) (t : Nat) :
    s.pruneServe t r = (s.pruneFreed t r).complete r.q 0x2500 2 1 r.token (t * 256 + r.slot) [] := by
  rw [← pruneEnd_command hb hu]
  simp only [State.pruneServe, poisonedOf_clean hp, hv, ne_eq, not_true_eq_false, if_false, Bool.false_eq_true]

/-- An acceptable request has every tile of its target written (06 R200). -/
theorem pruneServe_served (hv : s.pruneValid r.q (s.pruneDescs r).1 (s.pruneDescs r).2 = true) (t : Nat) :
    s.pruneServe t r =
      (((List.range (s.pruneDescs r).2.tiles).foldl
        (State.withTile r (s.pruneDescs r).1 (s.pruneDescs r).2 (s.odGet r.q 0x6400 3)) s).pruneFreed t r).complete
        r.q 0x2500 2 0 r.token (t * 256 + r.slot) [] := by
  obtain ⟨hfold, hsame⟩ := pruneTiles_clean hp r (s.pruneDescs r).1 (s.pruneDescs r).2 (s.odGet r.q 0x6400 3)
    (List.range (s.pruneDescs r).2.tiles)
  rw [← pruneEnd_command hb ((hsame.2 r.q).trans hu)]
  simp only [State.pruneServe, poisonedOf_clean hp, hv, State.unitStep, hfold, ne_eq, not_true_eq_false, if_false, if_true]

end

/-- The unit's accesses granted, its request is served (06 R199, R204). -/
theorem exec_pruningRequestComplete {s : State} {t : Nat} {r : PruneReq} (hl : s.live = true) (ht : t ∈ s.pruneBusy)
    (ho : s.towerOut 0xA t = false) (hr : mapGet {} s.prune t = r) (hopen : portOpen s (pruneUnit t) (s.pruneRanges r)) :
    exec (.pruningRequestComplete t) s = .next ((s.takeAsk (pruneUnit t) (s.pruneRanges r)).pruneServe t r) := by
  obtain ⟨hheld, htr, hcut, hgr⟩ := hopen
  have hin : (s.pruneBusy.contains t && !s.towerOut 0xA t) = true := by simp [ht, ho]
  refine congrArg Host.Outcome.next ((if_pos hl).trans ((if_pos hin).trans ?_))
  simp only [hr]
  exact State.portGate_open hheld htr hcut hgr ..

/-- A request's accesses taken, its service finds the state it asked in. -/
theorem takeAsk_reads (s : State) (unit : Nat) (rs : List (Nat × Nat)) (r : PruneReq) :
    (s.takeAsk unit rs).poison = s.poison ∧ (s.takeAsk unit rs).parts = s.parts ∧ (s.takeAsk unit rs).od = s.od ∧
      (s.takeAsk unit rs).pruneDescs r = s.pruneDescs r ∧ (s.takeAsk unit rs).pruneValid = s.pruneValid := by
  obtain ⟨as, ws, h⟩ := s.takeAsk_frame unit rs
  rw [h]
  exact ⟨rfl, rfl, rfl, rfl, rfl⟩

/-- Settles O19: the command fills the unit's request; its service, where no line is poisoned, is a refusal or tile after tile; what
is kept of a group are the positions of its first places. -/
theorem pruningRequests : Obligations.PruningRequests := by
  unfold Obligations.PruningRequests
  refine ⟨⟨fun s q val tok hs hq hu hb ht ho => ?_, fun s t r hl ht ho hr hb hp hopen hv hu => ?_,
    fun s t r src dst hl ht ho hr hb hp hopen hsrc hdst hv hu => ?_⟩, fun n ms hn => ⟨length_keptOf hn, nodup_keptOf n ms,
    fun i hi j hj hd => goesBefore_iff.1 (goesBefore_of_kept hi hj hd)⟩⟩
  · refine runCmd_next (st := stDone) hs hq (if_neg ?_)
    simp [hu, hb, ht, ho]
  · have hd : s.pruneValid r.q (s.pruneDescs r).1 (s.pruneDescs r).2 = false := by rwa [pruneDescs_eq]
    have hrs : s.pruneRanges r = [(r.addr, 128)] := by simp [State.pruneRanges, hd]
    obtain ⟨hpz, hparts, -, hdescs, hvalid⟩ := takeAsk_reads s (pruneUnit t) (s.pruneRanges r) r
    rw [exec_pruningRequestComplete hl ht ho hr hopen, pruneServe_refused (hpz.trans hp) hb (by rwa [State.part, hparts])
      (by rw [hdescs, hvalid, hd]), hrs]
    rfl
  · have hd : s.pruneDescs r = (src, dst) := by rw [pruneDescs_eq, hsrc, hdst]
    obtain ⟨hpz, hparts, hod, hdescs, hvalid⟩ := takeAsk_reads s (pruneUnit t) (s.pruneRanges r) r
    have hserve := pruneServe_served (hpz.trans hp) hb (by rwa [State.part, hparts]) (by rw [hdescs, hvalid, hd, hv]) t
    rw [hdescs, hd, State.odGet, hod] at hserve
    refine ⟨_, (exec_pruningRequestComplete hl ht ho hr hopen).trans (congrArg Host.Outcome.next hserve), ?_, ?_⟩
    · rw [(sameBeyondNotices_complete ..).pruneBusy]
      simp [State.pruneFreed, State.dropAsks, setDel]
    · rw [(sameBeyondNotices_complete ..).dome]
      rfl

end Sys2Proof.Machine
end

section
/-! PROOF. The order of scores, and the choices of a token (07 R213-R215). -/

namespace Sys2Proof.Machine

open Sys2Proof Sys2Proof.Safety

/-! A legal score as a number: -∞ or the rational its bits spell (02 R33). -/

/-- The rational number that a finite value is. -/
def finRat (neg : Bool) (m : Nat) (e : Int) : ℚ := (if neg then -1 else 1) * (m : ℚ) * (2 : ℚ) ^ e

/-- A value that is neither NaN nor +∞, as a number; -∞ is the least. -/
def FVal.rank : FVal → WithBot ℚ
  | .fin n m e => (finRat n m e : ℚ)
  | _ => ⊥

theorem shiftLeft_mul_zpow (m : Nat) {x e : Int} (h : e ≤ x) : ((m <<< (x - e).toNat : Nat) : ℚ) * (2 : ℚ) ^ e = m * (2 : ℚ) ^ x := by
  have hx : ((x - e).toNat : Int) + e = x := by omega
  rw [Nat.shiftLeft_eq, Nat.cast_mul, Nat.cast_pow, Nat.cast_ofNat, mul_assoc, ← zpow_natCast, ← zpow_add₀ two_ne_zero, hx]

/-- The sum that `addFin` holds is exact. -/
theorem addFin_mul_zpow (n1 : Bool) (m1 : Nat) (e1 : Int) (n2 : Bool) (m2 : Nat) (e2 : Int) :
    ((addFin n1 m1 e1 n2 m2 e2).1 : ℚ) * (2 : ℚ) ^ (min e1 e2) = finRat n1 m1 e1 + finRat n2 m2 e2 := by
  have h1 := shiftLeft_mul_zpow m1 (min_le_left e1 e2)
  have h2 := shiftLeft_mul_zpow m2 (min_le_right e1 e2)
  simp only [finRat, mul_assoc, ← h1, ← h2, addFin, Int.cast_add, Int.cast_mul, Int.cast_natCast, add_mul]
  cases n1 <;> cases n2 <;> simp

theorem lt_fin_iff (n1 : Bool) (m1 : Nat) (e1 : Int) (n2 : Bool) (m2 : Nat) (e2 : Int) :
    (FVal.fin n1 m1 e1).lt (.fin n2 m2 e2) = true ↔ finRat n1 m1 e1 < finRat n2 m2 e2 := by
  have hpos : (0 : ℚ) < (2 : ℚ) ^ (min e1 e2) := by positivity
  have hneg : finRat (!n2) m2 e2 = -finRat n2 m2 e2 := by cases n2 <;> simp [finRat]
  have hsum := addFin_mul_zpow n1 m1 e1 (!n2) m2 e2
  rw [hneg] at hsum
  rw [FVal.lt, decide_eq_true_iff, ← Int.cast_lt (R := ℚ), Int.cast_zero, ← sub_neg (a := finRat n1 m1 e1), sub_eq_add_neg, ← hsum]
  exact ⟨fun h => mul_neg_of_neg_of_pos h hpos, fun h => neg_of_mul_neg_left h hpos.le⟩

/-- Among legal scores `lt` compares the numbers they are. -/
theorem lt_iff_rank {v w : W32} (hv : badScore v = false) (hw : badScore w = false) :
    (f32Val v).lt (f32Val w) = true ↔ (f32Val v).rank < (f32Val w).rank := by
  unfold badScore at hv hw
  cases hfv : f32Val v with
  | nan => simp [hfv] at hv
  | inf a =>
    cases hfw : f32Val w with
    | nan => simp [hfw] at hw
    | inf b => simp_all [FVal.lt, FVal.rank]
    | fin n m e => simp_all [FVal.lt, FVal.rank]
  | fin n m e =>
    cases hfw : f32Val w with
    | nan => simp [hfw] at hw
    | inf b => simp_all [FVal.lt, FVal.rank]
    | fin n' m' e' => rw [lt_fin_iff, FVal.rank, FVal.rank, WithBot.coe_lt_coe]

theorem not_lt_iff_rank {v w : W32} (hv : badScore v = false) (hw : badScore w = false) :
    (f32Val v).lt (f32Val w) = false ↔ (f32Val w).rank ≤ (f32Val v).rank := by
  rw [← not_lt, ← lt_iff_rank hv hw, Bool.not_eq_true]

/-! The list of the largest (07 R214). -/

/-- `x` stands before `y` in the list, whichever came first: its score is higher. -/
abbrev scoresAbove (x y : Nat × W32) : Prop := (f32Val y.2).lt (f32Val x.2) = true

theorem insertTop_eq (k : Nat) (x : Nat × W32) (l : List (Nat × W32)) : insertTop k x l = (l.orderedInsert scoresAbove x).take k := by
  have hp : (fun y => decide ¬ scoresAbove x y) = fun y : Nat × W32 => !(f32Val y.2).lt (f32Val x.2) := by
    funext y
    simp [scoresAbove]
  have hd : l.drop (l.takeWhile fun y => !(f32Val y.2).lt (f32Val x.2)).length = l.dropWhile fun y => !(f32Val y.2).lt (f32Val x.2) := by
    conv_lhs => arg 2; rw [← List.takeWhile_append_dropWhile (p := fun y => !(f32Val y.2).lt (f32Val x.2)) (l := l)]
    exact List.drop_left
  rw [insertTop, List.orderedInsert_eq_take_drop, hp, hd]

/-- Of an insertion's first `k` only the first `k` of the list matter. -/
theorem take_orderedInsert_take {α : Type} (r : α → α → Prop) [DecidableRel r] (x : α) (l : List α) (k : Nat) :
    ((l.take k).orderedInsert r x).take k = (l.orderedInsert r x).take k := by
  induction l generalizing k with
  | nil => simp
  | cons y l ih =>
    cases k with
    | zero => simp
    | succ k =>
      by_cases h : r x y
      · cases k <;> simp [h, List.take_take]
      · simp [h, ih]

/-- Every expert of `us` put in at its place. -/
def rankedAll (f : Nat → W32) (us : List Nat) : List (Nat × W32) :=
  us.foldl (fun l e => l.orderedInsert scoresAbove (e, f e)) []

theorem rankedAll_concat (f : Nat → W32) (us : List Nat) (e : Nat) :
    rankedAll f (us ++ [e]) = (rankedAll f us).orderedInsert scoresAbove (e, f e) := by simp [rankedAll]

theorem foldl_insertTop (k : Nat) (f : Nat → W32) (us : List Nat) :
    us.foldl (fun l e => insertTop k (e, f e) l) [] = (rankedAll f us).take k := by
  induction us using List.reverseRecOn with
  | nil => exact List.take_nil.symm
  | append_singleton us e ih =>
    rw [List.foldl_append, ih, rankedAll_concat, List.foldl_cons, List.foldl_nil, insertTop_eq, take_orderedInsert_take]

theorem rankedAll_perm (f : Nat → W32) (us : List Nat) : (rankedAll f us).Perm (us.map fun e => (e, f e)) := by
  induction us using List.reverseRecOn with
  | nil => exact .refl _
  | append_singleton us e ih =>
    rw [rankedAll_concat, List.map_append]
    exact (List.perm_orderedInsert _ _ _).trans ((ih.cons _).trans (List.perm_append_singleton _ _).symm)

theorem mem_rankedAll {f : Nat → W32} {us : List Nat} {y : Nat × W32} : y ∈ rankedAll f us ↔ y.1 ∈ us ∧ y.2 = f y.1 := by
  rw [(rankedAll_perm f us).mem_iff, List.mem_map]
  constructor
  · rintro ⟨e, he, rfl⟩
    exact ⟨he, rfl⟩
  · rintro ⟨he, hf⟩
    exact ⟨y.1, he, Prod.ext rfl hf.symm⟩

theorem pairwise_orderedInsert {x : Nat × W32} {l : List (Nat × W32)} (hx : badScore x.2 = false) (hl : ∀ y ∈ l, badScore y.2 = false)
    (h : l.Pairwise fun y z => (f32Val z.2).rank ≤ (f32Val y.2).rank) :
    (l.orderedInsert scoresAbove x).Pairwise fun y z => (f32Val z.2).rank ≤ (f32Val y.2).rank := by
  induction l with
  | nil => simp
  | cons y l ih =>
    obtain ⟨hy, hl⟩ := List.forall_mem_cons.1 hl
    obtain ⟨hyl, hll⟩ := List.pairwise_cons.1 h
    rw [List.orderedInsert_cons]
    split
    · next hr =>
      have hyx : (f32Val y.2).rank ≤ (f32Val x.2).rank := ((lt_iff_rank hy hx).1 hr).le
      exact List.pairwise_cons.2 ⟨List.forall_mem_cons.2 ⟨hyx, fun z hz => (hyl z hz).trans hyx⟩, h⟩
    · next hr =>
      have hxy : (f32Val x.2).rank ≤ (f32Val y.2).rank := not_lt.1 (mt (lt_iff_rank hy hx).2 hr)
      refine List.pairwise_cons.2 ⟨fun z hz => ?_, ih hl hll⟩
      rcases (List.mem_orderedInsert _).1 hz with rfl | hz
      · exact hxy
      · exact hyl z hz

/-- Legal scores end up in descending order. -/
theorem rankedAll_descending {f : Nat → W32} {us : List Nat} (hf : ∀ e ∈ us, badScore (f e) = false) :
    (rankedAll f us).Pairwise fun y z => (f32Val z.2).rank ≤ (f32Val y.2).rank := by
  induction us using List.reverseRecOn with
  | nil => exact List.Pairwise.nil
  | append_singleton us e ih =>
    obtain ⟨hus, he⟩ := List.forall_mem_append.1 hf
    rw [rankedAll_concat]
    refine pairwise_orderedInsert (he e (List.mem_singleton_self e)) (fun y hy => ?_) (ih hus)
    obtain ⟨hmem, hval⟩ := mem_rankedAll.1 hy
    exact hval ▸ hus _ hmem

theorem map_fst_rankedAll_perm (f : Nat → W32) (us : List Nat) : ((rankedAll f us).map (·.1)).Perm us := by
  simpa [Function.comp_def] using (rankedAll_perm f us).map (·.1)

/-! What a token chooses (07 R214, R215). -/

theorem nodup_unmasked (b : Batch) : b.unmasked.Nodup := List.nodup_range.filter _

/-- A token chooses when every score of an unmasked expert is legal, and then the first K of the descending list. -/
theorem choose_eq_some {b : Batch} {bias row : Bytes} {c : List Nat} (h : b.choose bias row = some c) :
    (∀ e ∈ b.unmasked, badScore (b.selScore bias row e) = false) ∧
      c = ((rankedAll (b.selScore bias row) b.unmasked).take b.k).map (·.1) := by
  rw [Batch.choose, foldl_insertTop] at h
  split at h
  · cases h
  · next hany =>
    refine ⟨fun e he => ?_, (Option.some.inj h).symm⟩
    have := mt (fun hb => List.any_eq_true.2 ⟨e, he, hb⟩) hany
    simp only [Bool.or_eq_true, not_or, Bool.not_eq_true] at this
    exact this.2

theorem choose_nonfinite {b : Batch} {row : Bytes} {e : Nat} (he : e ∈ b.unmasked) (h : badScore (b.score row e) = true) (bias : Bytes) :
    b.choose bias row = none := if_pos (List.any_eq_true.2 ⟨e, he, by simp [h]⟩)

theorem length_choose {b : Batch} {bias row : Bytes} {c : List Nat} (h : b.choose bias row = some c) :
    c.length = min b.k b.unmasked.length := by
  rw [(choose_eq_some h).2, List.length_map, List.length_take, (rankedAll_perm _ _).length_eq, List.length_map]

theorem nodup_choose {b : Batch} {bias row : Bytes} {c : List Nat} (h : b.choose bias row = some c) : c.Nodup := by
  rw [(choose_eq_some h).2, List.map_take]
  exact ((map_fst_rankedAll_perm _ _).nodup_iff.2 (nodup_unmasked b)).sublist (List.take_sublist _ _)

theorem mem_choose_unmasked {b : Batch} {bias row : Bytes} {c : List Nat} (h : b.choose bias row = some c) {e : Nat} (he : e ∈ c) :
    e ∈ b.unmasked := by
  rw [(choose_eq_some h).2, List.map_take] at he
  exact (map_fst_rankedAll_perm _ _).mem_iff.1 (List.mem_of_mem_take he)

/-- The numbers of the selection scores descend along the choices. -/
theorem choose_descending {b : Batch} {bias row : Bytes} {c : List Nat} (h : b.choose bias row = some c) :
    c.Pairwise fun e f => (f32Val (b.selScore bias row f)).rank ≤ (f32Val (b.selScore bias row e)).rank := by
  obtain ⟨hgood, rfl⟩ := choose_eq_some h
  refine List.pairwise_map.2 (((rankedAll_descending hgood).sublist (List.take_sublist ..)).imp_of_mem fun hy hz hle => ?_)
  rwa [← (mem_rankedAll.1 (List.mem_of_mem_take hy)).2, ← (mem_rankedAll.1 (List.mem_of_mem_take hz)).2]

/-- An expert left out has no higher number than one chosen. -/
theorem rank_le_of_not_chosen {b : Batch} {bias row : Bytes} {c : List Nat} (h : b.choose bias row = some c) {e f : Nat} (he : e ∈ c)
    (hf : f ∈ b.unmasked) (hn : f ∉ c) : (f32Val (b.selScore bias row f)).rank ≤ (f32Val (b.selScore bias row e)).rank := by
  obtain ⟨hgood, rfl⟩ := choose_eq_some h
  obtain ⟨y, hy, rfl⟩ := List.mem_map.1 he
  have hsplit := List.take_append_drop b.k (rankedAll (b.selScore bias row) b.unmasked)
  have hlater : (f, b.selScore bias row f) ∈ (rankedAll (b.selScore bias row) b.unmasked).drop b.k := by
    have hmem := hsplit ▸ (mem_rankedAll (f := b.selScore bias row) (y := (f, b.selScore bias row f))).2 ⟨hf, rfl⟩
    exact (List.mem_append.1 hmem).resolve_left fun ht => hn (List.mem_map_of_mem ht)
  have hall := (List.pairwise_append.1 (hsplit ▸ rankedAll_descending hgood)).2.2 y hy _ hlater
  rwa [(mem_rankedAll.1 (List.mem_of_mem_take hy)).2] at hall

end Sys2Proof.Machine
end

section
/-! PROOF. A unit's selection and the assignment of a device's choices (07 R213-R218, R221). -/

namespace Sys2Proof.Machine

open Sys2Proof Sys2Proof.Safety

/-! The choices kept for a token. -/

theorem find_mapIns_self {α : Type} {m : List (Nat × α)} {k : Nat} (h : ∀ x ∈ m, x.1 ≠ k) (v : α) :
    (mapIns m k v).find? (fun x => x.1 = k) = some (k, v) := by
  induction m with
  | nil => simp [mapIns]
  | cons x m ih =>
    obtain ⟨hx, hm⟩ := List.forall_mem_cons.1 h
    rw [mapIns]
    split
    · simp
    · simpa [hx] using ih hm

theorem find_mapIns_other {α : Type} (m : List (Nat × α)) {k j : Nat} (h : k ≠ j) (v : α) :
    (mapIns m k v).find? (fun x => x.1 = j) = m.find? (fun x => x.1 = j) := by
  induction m with
  | nil => simp [mapIns, h]
  | cons x m ih =>
    rw [mapIns]
    split
    · simp [h]
    · simp [List.find?_cons, ih]

section
variable (b : Batch) (bias : Bytes)

/-- Selecting a token writes the choices and the weights alone. -/
theorem selectToken_frame (row : Bytes) (t : Nat) :
    ∃ cs ws, b.selectToken bias row t = { b with choices := cs, weights := ws } := by
  unfold Batch.selectToken
  split
  · exact ⟨_, _, rfl⟩
  · exact ⟨_, _, rfl⟩

theorem choices_selectToken_self {t : Nat} (h : ∀ x ∈ b.choices, x.1 ≠ t) (row : Bytes) :
    ((b.selectToken bias row t).choices.find? fun x => x.1 = t).map (·.2) = b.choose bias row := by
  unfold Batch.selectToken
  split
  · next hc => simpa [hc] using h
  · next c hc => simp [hc, find_mapIns_self h]

theorem choices_selectToken_other {t k : Nat} (h : t ≠ k) (row : Bytes) :
    ((b.selectToken bias row t).choices.find? fun x => x.1 = k) = b.choices.find? fun x => x.1 = k := by
  unfold Batch.selectToken
  split
  · rfl
  · exact find_mapIns_other _ h _

/-- The tokens `toks` selected one after another, `row` giving their score rows. -/
def Batch.selectAll (row : Nat → Bytes) (toks : List Nat) : Batch := toks.foldl (fun c k => c.selectToken bias (row k) k) b

variable (row : Nat → Bytes) (toks : List Nat)

theorem selectAll_concat (t : Nat) : b.selectAll bias row (toks ++ [t]) = (b.selectAll bias row toks).selectToken bias (row t) t := by
  simp [Batch.selectAll]

theorem selectAll_frame : ∃ cs ws, b.selectAll bias row toks = { b with choices := cs, weights := ws } := by
  induction toks using List.reverseRecOn with
  | nil => exact ⟨_, _, rfl⟩
  | append_singleton toks t ih =>
    obtain ⟨cs, ws, h⟩ := ih
    rw [selectAll_concat, h]
    exact selectToken_frame _ bias (row t) t

theorem choices_selectAll_other {k : Nat} (h : k ∉ toks) :
    ((b.selectAll bias row toks).choices.find? fun x => x.1 = k) = b.choices.find? fun x => x.1 = k := by
  induction toks using List.reverseRecOn with
  | nil => rfl
  | append_singleton toks t ih =>
    simp only [List.mem_append, List.mem_singleton, not_or] at h
    rw [selectAll_concat, choices_selectToken_other _ bias (Ne.symm h.2), ih h.1]

/-- Each token's choices are those of its own score row. -/
theorem choices_selectAll (hn : toks.Nodup) (h : ∀ k ∈ toks, ∀ x ∈ b.choices, x.1 ≠ k) {k : Nat} (hk : k ∈ toks) :
    ((b.selectAll bias row toks).choices.find? fun x => x.1 = k).map (·.2) = b.choose bias (row k) := by
  induction toks using List.reverseRecOn with
  | nil => cases hk
  | append_singleton toks t ih =>
    obtain ⟨hnt, -, hdisj⟩ := List.nodup_append.1 hn
    obtain ⟨hb, hbt⟩ := List.forall_mem_append.1 h
    have htn : t ∉ toks := fun ht => hdisj t ht t (List.mem_singleton_self t) rfl
    rw [selectAll_concat]
    by_cases hkt : k = t
    · subst hkt
      have hnone : ∀ x ∈ (b.selectAll bias row toks).choices, x.1 ≠ k := by
        have hb0 : (b.choices.find? fun x => x.1 = k) = none := List.find?_eq_none.2 (by simpa using hbt k (List.mem_singleton_self k))
        simpa using (choices_selectAll_other b bias row toks htn).trans hb0
      obtain ⟨cs, ws, hf⟩ := selectAll_frame b bias row toks
      rw [choices_selectToken_self _ bias hnone, hf]
      rfl
    · have hkm : k ∈ toks := by simpa [hkt] using hk
      rw [choices_selectToken_other _ bias (Ne.symm hkt), ih hnt hb hkm]

end

theorem nodup_tokens (b : Batch) (i : Nat) : (b.tokens i).Nodup :=
  List.nodup_range.map fun _ _ h => Nat.add_left_cancel h

theorem mem_setIns {l : List Nat} {a x : Nat} : x ∈ setIns l a ↔ x = a ∨ x ∈ l := by
  induction l with
  | nil => simp [setIns]
  | cons k r ih =>
    rw [setIns]
    split
    · simp
    split
    · next h => simp [h]
    · simp [ih, or_left_comm]

theorem mem_maskBits {w n k : Nat} : k ∈ maskBits w n ↔ k < n ∧ w.testBit k = true := by simp [maskBits]

/-- A unit with tokens, not the last, whose accesses are served: its batch with its tokens selected and the unit noted. -/
theorem exec_unitSelectionComplete {s : State} {q tag gen t row : Nat} {b : Batch} {toks : List Nat} {rs : List (Nat × Nat)}
    (hup : spireUp s 3) (ho : s.towerOut 9 t = false) (hb : s.batchOf q tag gen = some b) (hph : b.phase = .scoring) (ht : t < 8)
    (hm : b.tmask.testBit t = true) (hu : t ∉ b.units) (hlast : ∃ k < 8, b.tmask.testBit k = true ∧ k ≠ t ∧ k ∉ b.units)
    (htoks : toks = b.tokens ((maskBits b.tmask 8).findIdx (· = t))) (hne : toks ≠ []) (hrow : row = b.e * b.scoreBytes)
    (hrs : rs = (b.addr 32 + toks.headD 0 * row, toks.length * row) :: (if b.biasen then [(b.addr 40, 4 * b.e)] else []))
    (hport : cleanPort s (engineUnit 0) rs) :
    exec (.unitSelectionComplete q tag gen t) s = .next ((s.takeAsk (engineUnit 0) rs).putBatch q
      { b.selectAll (if b.biasen then s.domeRead (b.addr 40) (4 * b.e) else []) (fun k => s.domeRead (b.addr 32 + k * row) row) toks
          with units := setIns b.units t }) := by
  obtain ⟨hp, hheld, htr, hcut, hgr⟩ := hport
  have hread : (s.takeAsk (engineUnit 0) rs).domeRead = s.domeRead := by
    obtain ⟨as, ws, htake⟩ := s.takeAsk_frame (engineUnit 0) rs
    rw [htake]
    rfl
  have hall : (maskBits b.tmask 8).all (setIns b.units t).contains = false := by
    obtain ⟨k, hk, hkm, hkt, hku⟩ := hlast
    exact List.all_eq_false.2 ⟨k, mem_maskBits.2 ⟨hk, hkm⟩, by simp [mem_setIns, hkt, hku]⟩
  have hreads : (if toks = [] then [] else [(b.addr 32 + toks.headD 0 * row, toks.length * row)]) ++
      (if b.biasen ∧ toks ≠ [] then [(b.addr 40, 4 * b.e)] else []) = rs := by simp [hne, hrs]
  have hin : b.phase = .scoring ∧ (maskBits b.tmask 8).contains t = true ∧ ¬ b.units.contains t = true :=
    ⟨hph, by simpa using mem_maskBits.2 ⟨ht, hm⟩, by simpa using hu⟩
  change execUnitSelectionComplete q tag gen t s = _
  rw [execUnitSelectionComplete, spireEvent_up _ hup.1 hup.2]
  simp only [ho, hb, if_pos hin, ← htoks, ← hrow, hreads, Bool.false_eq_true, if_false]
  rw [← List.append_nil rs] at hcut hgr
  rw [State.engineRun_open hheld htr hp hcut hgr, List.append_nil]
  simp only [hread]
  refine congrArg Host.Outcome.next (if_neg ?_)
  exact Bool.not_eq_true _ ▸ hall

/-! Assignment (07 R217, R218). -/

/-- The assignment so far keeps to the device's grants: it has counted its served choices and the regular rows of each expert, no
expert has more than its grant, and every slot lies under CAP or POOL. -/
structure keepsGrants (b : Batch) (a : Assign) : Prop where
  count : a.count = a.served.length
  regular : ∀ e, (a.served.countP fun x => !x.pool && x.expert = e) = mapGet 0 a.reg e
  granted : ∀ e, mapGet 0 a.reg e ≤ b.grant e
  slots : ∀ x ∈ a.served, if x.pool then x.slot < b.pool else x.slot < b.cap

theorem keepsGrants_assignOne {b : Batch} {a : Assign} (h : keepsGrants b a) (g : List Nat) (tok : Nat) (re : Nat × Nat) :
    keepsGrants b (b.assignOne g tok a re) := by
  obtain ⟨hc, hr, hg, hs⟩ := h
  unfold Batch.assignOne
  dsimp only
  split
  · next hlt =>
    have hslot : min b.cap (b.pref.getD re.2 0) + mapGet 0 a.reg re.2 < b.cap := by
      unfold Batch.grant at hlt
      omega
    refine ⟨by simp [hc], fun e => ?_, fun e => ?_, List.forall_mem_cons.2 ⟨by simpa using hslot, hs⟩⟩
    · by_cases he : re.2 = e
      · subst he; simp [hr]
      · simp [hr, he, mapGet_mapSet_ne 0 0 a.reg _ he]
    · by_cases he : re.2 = e
      · subst he; simpa using hlt
      · simpa [mapGet_mapSet_ne 0 0 a.reg _ he] using hg e
  split
  · next hlt =>
    refine ⟨by simp [hc], fun e => by simp [hr], hg, List.forall_mem_cons.2 ⟨?_, hs⟩⟩
    simp only [if_true]
    omega
  · exact ⟨hc, hr, hg, hs⟩

theorem keepsGrants_foldl_assignOne {b : Batch} (g : List Nat) (tok : Nat) (l : List (Nat × Nat)) {a : Assign} (h : keepsGrants b a) :
    keepsGrants b (l.foldl (b.assignOne g tok) a) := by
  induction l generalizing a with
  | nil => exact h
  | cons re l ih => exact ih (keepsGrants_assignOne h g tok re)

theorem keepsGrants_assignToken {b : Batch} {acc : Assign × Bytes × Bytes × Bytes} (h : keepsGrants b acc.1) (g : List Nat) (tok : Nat) :
    keepsGrants b (b.assignToken g acc tok).1 := by
  unfold Batch.assignToken
  split
  · exact ⟨h.count, h.regular, h.granted, h.slots⟩
  · exact keepsGrants_foldl_assignOne g tok _ ⟨h.count, h.regular, h.granted, h.slots⟩

theorem keepsGrants_assignTokens {b : Batch} (g toks : List Nat) {acc : Assign × Bytes × Bytes × Bytes} (h : keepsGrants b acc.1) :
    keepsGrants b (toks.foldl (b.assignToken g) acc).1 := by
  induction toks generalizing acc with
  | nil => exact h
  | cons t toks ih => exact ih (keepsGrants_assignToken h g t)

theorem keepsGrants_start (b : Batch) : keepsGrants b {} := ⟨rfl, fun _ => rfl, fun _ => Nat.zero_le _, by simp⟩

/-- Settles O37: a unit's batch is that of its tokens selected one by one; a token's choices are the first K of the list of all its
scores, which descends; the assignment keeps to the grants from the first choice on. -/
theorem expertSelection : Obligations.ExpertSelection := by
  unfold Obligations.ExpertSelection
  refine ⟨⟨fun s q tag gen t row b toks rs hup ho hb hph ht hm hu hlast htoks hne hrow hrs hport hnew => ?_, fun b bias row c h => ?_,
    fun b bias row e he h => choose_nonfinite he h bias⟩, fun b g toks a ha => ?_⟩
  · obtain ⟨cs, ws, hsel⟩ := selectAll_frame b (if b.biasen then s.domeRead (b.addr 40) (4 * b.e) else [])
      (fun k => s.domeRead (b.addr 32 + k * row) row) toks
    refine ⟨_, exec_unitSelectionComplete hup ho hb hph ht hm hu hlast htoks hne hrow hrs hport, mem_setIns.2 (.inl rfl), ?_, ?_,
      fun k hk => ?_, fun k hk => choices_selectAll_other b _ _ toks hk⟩
    · rw [hsel]
      exact hph
    · rw [hsel]
    · exact choices_selectAll b _ _ toks (htoks ▸ nodup_tokens b _) hnew hk
  · obtain ⟨hgood, -⟩ := choose_eq_some h
    have hc : ∀ e ∈ c, badScore (b.selScore bias row e) = false := fun e he => hgood e (mem_choose_unmasked h he)
    exact ⟨length_choose h, nodup_choose h, fun e he => ⟨mem_choose_unmasked h he, hc e he⟩,
      (choose_descending h).imp_of_mem fun he hf hle => (not_lt_iff_rank (hc _ he) (hc _ hf)).2 hle,
      fun e he f hf hn => (not_lt_iff_rank (hc e he) (hgood f hf)).2 (rank_le_of_not_chosen h he hf hn)⟩
  · subst ha
    obtain ⟨hc, hr, hg, hs⟩ := keepsGrants_assignTokens (acc := (({}, [], [], []) : Assign × Bytes × Bytes × Bytes)) g toks (keepsGrants_start b)
    exact ⟨hc, fun e => (hr e).trans_le (hg e), hs⟩

end Sys2Proof.Machine
end

section
/-! PROOF. Halyard's events: accesses that are open, command records, the batches of a partition, the counters, and what dome
writes, sends, notices of faults and the books leave of the state (07 R207, R208, R225-R230, R241, R243). -/

namespace Sys2Proof.Machine

open Sys2Proof Sys2Proof.Safety

/-! An open access taken. -/

theorem State.takeAsk_keeps {β : Type} (f : State → β) (hf : ∀ s as ws, f { s with asks := as, biWaits := ws } = f s) (s : State) (unit : Nat)
    (rs : List (Nat × Nat)) : f (s.takeAsk unit rs) = f s := by
  obtain ⟨as, ws, h⟩ := s.takeAsk_frame unit rs
  rw [h, hf]

section
variable (s : State) (unit : Nat) (rs : List (Nat × Nat))

@[simp] theorem takeAsk_poison : (s.takeAsk unit rs).poison = s.poison := State.takeAsk_keeps State.poison (fun _ _ _ => rfl) s unit rs

@[simp] theorem takeAsk_dome : (s.takeAsk unit rs).dome = s.dome := State.takeAsk_keeps State.dome (fun _ _ _ => rfl) s unit rs

@[simp] theorem takeAsk_od : (s.takeAsk unit rs).od = s.od := State.takeAsk_keeps State.od (fun _ _ _ => rfl) s unit rs

@[simp] theorem takeAsk_blobs : (s.takeAsk unit rs).blobs = s.blobs := State.takeAsk_keeps State.blobs (fun _ _ _ => rfl) s unit rs

@[simp] theorem takeAsk_parts : (s.takeAsk unit rs).parts = s.parts := State.takeAsk_keeps State.parts (fun _ _ _ => rfl) s unit rs

@[simp] theorem takeAsk_spars : (s.takeAsk unit rs).spars = s.spars := State.takeAsk_keeps State.spars (fun _ _ _ => rfl) s unit rs

@[simp] theorem takeAsk_halCmd : (s.takeAsk unit rs).halCmd = s.halCmd := State.takeAsk_keeps State.halCmd (fun _ _ _ => rfl) s unit rs

@[simp] theorem takeAsk_delivery : (s.takeAsk unit rs).delivery = s.delivery :=
  State.takeAsk_keeps State.delivery (fun _ _ _ => rfl) s unit rs

end

theorem portGate_clean {s : State} {unit : Nat} {rs : List (Nat × Nat)} (h : cleanPort s unit rs) (q : Nat) (no k : State → State) :
    s.portGate unit q rs no k = k (s.takeAsk unit rs) := State.portGate_open h.2.1 h.2.2.1 h.2.2.2.1 h.2.2.2.2 q no k

/-- With no line poisoned a granted read goes on. -/
theorem engineRead_clean {s : State} (h : s.poison = []) (q : Nat) (reads : List (Nat × Nat)) (bad k : State → State) :
    s.engineRead q reads bad k = k s := by
  have : (reads.flatMap fun r => s.poisonLines r.1 r.2) = [] := List.flatMap_eq_nil_iff.2 fun r _ => by simp [State.poisonLines, h]
  simp [State.engineRead, this, uniq]

/-- The oldest delivered packet, where it is a frame of the row and its access is open, is taken. -/
theorem onFrame_clean {s : State} {k : Packet} {r : List Packet} {p : Packet → Bool} {unit : Nat} {g : State → Packet → List (Nat × Nat)}
    {rs : List (Nat × Nat)} (hd : delivered s k r) (hp : p k = true) (hg : g s k = rs) (hc : cleanPort s unit rs) (f : Packet → State → State) :
    s.onFrame p unit g f = f k { s.takeAsk unit rs with delivery := r } := by
  have hd' : (s.takeAsk unit rs).delivery = k :: r := (takeAsk_delivery ..).trans hd
  simp only [State.onFrame, State.takeDelivered_head hd hp, hg, portGate_clean hc, State.takeDelivered_head hd' hp]

/-- A frame whose row touches no dome memory is taken. -/
theorem onFrame_noAccess {s : State} {k : Packet} {r : List Packet} {p : Packet → Bool} {g : State → Packet → List (Nat × Nat)}
    (hd : delivered s k r) (hp : p k = true) (hg : g s k = []) (unit : Nat) (f : Packet → State → State) :
    s.onFrame p unit g f = f k { s with delivery := r } := by
  simp only [State.onFrame, State.takeDelivered_head hd hp, hg, portGate_nil]

/-! Command records (07 R208). -/

theorem halRow_command {s : State} {t code : Nat} {r : Bytes} (h : halCommand s t r code) (f : Nat → Bytes → State → State) :
    halRow t code f s = .next (f (s.towerPart t) r s) := by
  obtain ⟨⟨hl, hu⟩, ho, hh, hc⟩ := h
  rw [halRow, spireEvent_up _ hl hu]
  simp [ho, hh, hc]

theorem halOnBatch_names {s : State} {t : Nat} {r : Bytes} {b : Batch} (h : halNames s t r b) (f : Batch → State → State) :
    halOnBatch t (s.towerPart t) r s f = f b s := by simp only [halOnBatch, h]

/-! The batches of a partition (07 R207). -/

theorem batchOf_of_part {s u : State} {q : Nat} (h : u.part q = s.part q) (tag gen : Nat) : u.batchOf q tag gen = s.batchOf q tag gen := by
  simp only [State.batchOf, h]

theorem batchOf_some {s : State} {q tag gen : Nat} {b : Batch} (h : s.batchOf q tag gen = some b) :
    b.tag = tag ∧ b.gen = gen ∧ b.phase ≠ .opening := by
  simpa [and_assoc] using List.find?_some h

/-- An open batch replaced is the open batch of its pair. -/
theorem batchOf_putBatch {s : State} {q : Nat} {b c : Batch} (h : s.batchOf q b.tag b.gen = some c) (hb : b.phase ≠ .opening) :
    (s.putBatch q b).batchOf q b.tag b.gen = some b := by
  obtain ⟨htag, hgen, hph⟩ := batchOf_some h
  have hfun : ((fun x : Batch => x.tag = b.tag && x.gen = b.gen && x.phase != .opening) ∘
      fun x => if x.tag = b.tag && x.gen = b.gen && x.phase != .opening then b else x) =
      fun x : Batch => x.tag = b.tag && x.gen = b.gen && x.phase != .opening := by
    funext x
    by_cases hx : (decide (x.tag = b.tag) && decide (x.gen = b.gen) && x.phase != .opening) = true
    · simp only [Function.comp_apply, hx]
      simp [hb]
    · simp only [Function.comp_apply, if_neg hx]
  rw [State.batchOf, State.putBatch, State.part_modPart_self, List.find?_map, hfun]
  change ((s.batchOf q b.tag b.gen).map _) = _
  rw [h]
  simp [htag, hgen, hph]

theorem batchOf_putBatch_eq {s : State} {q : Nat} {b d : Batch} (h : (s.putBatch q b).batchOf q b.tag b.gen = some d) : d = b := by
  obtain ⟨htag, hgen, hph⟩ := batchOf_some h
  rw [State.batchOf, State.putBatch, State.part_modPart_self] at h
  obtain ⟨c, -, hc⟩ := List.mem_map.1 (List.mem_of_find?_eq_some h)
  split at hc
  · exact hc.symm
  · next hn =>
    subst hc
    exact absurd (by simp [htag, hgen, hph]) hn

theorem batchOf_endBatch {s : State} {q : Nat} {b : Batch} (hb : b.phase ≠ .opening) : (s.endBatch q b).batchOf q b.tag b.gen = none := by
  change (s.dropBatch q b).batchOf q b.tag b.gen = none
  rw [State.batchOf, State.dropBatch, State.part_modPart_self, List.find?_eq_none]
  intro c hc
  have := (List.mem_filter.1 hc).2
  simp [hb] at this ⊢
  tauto

/-! Routing counters (07 R243, Table 7-8): objects 0x5100 and above. -/

theorem odKey_route (q slot sub : Nat) : 0x510000 ≤ odKey q (0x5100 + slot) sub := by unfold odKey; omega

theorem odKey_ne_of_sub {q i a b : Nat} (h : a ≠ b) : odKey q i a ≠ odKey q i b := by unfold odKey; omega

theorem routeAdd_od_congr {s u : State} (h : u.od = s.od) (q slot sub n : Nat) : (u.routeAdd q slot sub n).od = (s.routeAdd q slot sub n).od := by
  unfold State.routeAdd
  split
  · exact h
  · simp [State.odAdd, State.odSet, State.odGet, h]

/-- Several counters of a layer slot grow, each by its number. -/
def State.routeAdds (s : State) (q slot : Nat) (l : List (Nat × Nat)) : State := l.foldl (fun t x => t.routeAdd q slot x.1 x.2) s

theorem odGet_routeAdd_self (s : State) (q slot sub : Nat) {n : Nat} (h : 0 < n) :
    (s.routeAdd q slot sub n).odGet q (0x5100 + slot) sub = (s.odGet q (0x5100 + slot) sub + n) % 2 ^ 64 := by
  rw [State.routeAdd, if_neg (by omega), State.odGet_odAdd_self]

theorem odGet_routeAdd_other (s : State) (q slot : Nat) {sub k : Nat} (h : sub ≠ k) (n : Nat) :
    (s.routeAdd q slot sub n).odGet q (0x5100 + slot) k = s.odGet q (0x5100 + slot) k := by
  unfold State.routeAdd
  split
  · rfl
  · exact s.odGet_odAdd_other n (odKey_ne_of_sub h)

theorem odGet_routeAdds_other {s : State} {q slot k : Nat} {l : List (Nat × Nat)} (h : k ∉ l.map (·.1)) :
    (s.routeAdds q slot l).odGet q (0x5100 + slot) k = s.odGet q (0x5100 + slot) k := by
  induction l generalizing s with
  | nil => rfl
  | cons x l ih =>
    simp only [List.map_cons, List.mem_cons, not_or] at h
    exact (ih (s := s.routeAdd q slot x.1 x.2) h.2).trans (odGet_routeAdd_other s q slot (Ne.symm h.1) _)

theorem odGet_routeAdds {s : State} {q slot sub x : Nat} {l : List (Nat × Nat)} (hn : (l.map (·.1)).Nodup) (h : (sub, x) ∈ l) (hx : 0 < x) :
    (s.routeAdds q slot l).odGet q (0x5100 + slot) sub = (s.odGet q (0x5100 + slot) sub + x) % 2 ^ 64 := by
  induction l generalizing s with
  | nil => cases h
  | cons y l ih =>
    obtain ⟨hy, hl⟩ := List.nodup_cons.1 hn
    rcases List.mem_cons.1 h with rfl | h
    · exact (odGet_routeAdds_other hy).trans (odGet_routeAdd_self s q slot sub hx)
    · have hne : y.1 ≠ sub := fun he => hy (List.mem_map.2 ⟨_, h, he.symm⟩)
      refine (ih (s := s.routeAdd q slot y.1 y.2) hl h).trans ?_
      rw [odGet_routeAdd_other _ _ _ hne]

/-! What stays: with no line poisoned none becomes so, command records stay, and bytes on their way to an endpoint and fault
records on their way to the management cores only gain more behind them. -/

structure goesOn (s u : State) : Prop where
  poison : s.poison = [] → u.poison = []
  halCmd : u.halCmd = s.halCmd
  inflight : ∀ i e, mapGet [] (s.spar i).inflight e <+: mapGet [] (u.spar i).inflight e
  faults : s.faultQ <+: u.faultQ

/-- And every routing counter stays. -/
structure keepsCounts (s u : State) : Prop extends goesOn s u where
  counts : ∀ key, 0x510000 ≤ key → ∀ d, mapGet d u.od key = mapGet d s.od key

theorem goesOn.trans {s t u : State} (h : goesOn s t) (h' : goesOn t u) : goesOn s u :=
  ⟨fun hp => h'.poison (h.poison hp), h'.halCmd.trans h.halCmd, fun i e => (h.inflight i e).trans (h'.inflight i e), h.faults.trans h'.faults⟩

theorem keepsCounts.trans {s t u : State} (h : keepsCounts s t) (h' : keepsCounts t u) : keepsCounts s u :=
  ⟨h.togoesOn.trans h'.togoesOn, fun key hk d => (h'.counts key hk d).trans (h.counts key hk d)⟩

theorem keepsCounts.odGet {s u : State} (h : keepsCounts s u) (q slot sub : Nat) :
    u.odGet q (0x5100 + slot) sub = s.odGet q (0x5100 + slot) sub := h.counts _ (odKey_route q slot sub) _

theorem goesOn_of_same {s u : State} (hp : u.poison = s.poison) (hh : u.halCmd = s.halCmd) (hs : u.spars = s.spars) (hf : u.faultQ = s.faultQ) :
    goesOn s u := ⟨fun h => hp.trans h, hh, fun i e => by simp only [State.spar, hs]; exact List.prefix_rfl, hf ▸ List.prefix_rfl⟩

theorem keepsCounts_of_same {s u : State} (hp : u.poison = s.poison) (hh : u.halCmd = s.halCmd) (hs : u.spars = s.spars)
    (hf : u.faultQ = s.faultQ) (ho : u.od = s.od) : keepsCounts s u := ⟨goesOn_of_same hp hh hs hf, fun _ _ _ => by rw [ho]⟩

theorem keepsCounts.refl (s : State) : keepsCounts s s := keepsCounts_of_same rfl rfl rfl rfl rfl

theorem keepsCounts_foldl {α : Type} {f : State → α → State} (hf : ∀ t a, keepsCounts t (f t a)) (l : List α) (s : State) :
    keepsCounts s (l.foldl f s) := by
  induction l generalizing s with
  | nil => exact .refl s
  | cons a l ih => exact (hf s a).trans (ih _)

theorem goesOn_routeAdd (s : State) (q slot sub n : Nat) : goesOn s (s.routeAdd q slot sub n) := by
  unfold State.routeAdd
  split
  · exact (keepsCounts.refl s).togoesOn
  · exact goesOn_of_same rfl rfl rfl rfl

theorem keepsCounts_modPart (s : State) (q : Nat) (f : Part → Part) : keepsCounts s (s.modPart q f) :=
  keepsCounts_of_same rfl rfl rfl rfl rfl

theorem keepsCounts_raiseOpen (s : State) (code source part isl : Nat) (vals : List Nat) :
    keepsCounts s (s.raiseOpen code source part isl vals) :=
  ⟨⟨id, rfl, fun _ _ => List.prefix_rfl, List.prefix_append ..⟩, fun _ _ _ => rfl⟩

theorem keepsCounts_engineWrite {s : State} (h : s.poison = []) (q : Nat) (ws : List (Nat × Bytes)) : keepsCounts s (s.engineWrite q ws) := by
  rw [State.engineWrite_clean h]
  exact keepsCounts_of_same rfl rfl rfl rfl rfl

theorem keepsCounts_checkBooks (s : State) (q : Nat) (ok : Bool) : keepsCounts s (s.checkBooks q ok) := by
  unfold State.checkBooks
  split
  · exact .refl s
  · exact (keepsCounts_modPart ..).trans (keepsCounts_raiseOpen ..)

theorem keepsCounts_event (s : State) (q spar ep : Nat) (bytes : Bytes) : keepsCounts s (s.event q spar ep bytes) := by
  unfold State.event
  split
  · refine ⟨⟨id, rfl, fun i e => ?_, List.prefix_rfl⟩, fun _ _ _ => rfl⟩
    unfold State.channelPut
    by_cases hi : spar = i
    · subst hi
      rw [State.spar_modSpar_self]
      by_cases he : ep = e
      · subst he
        simp
      · simp [mapGet_mapSet_ne [] [] _ _ he]
    · rw [State.spar_modSpar_other s _ hi]
  · exact .refl s

theorem keepsCounts_batchEvent (s : State) (q : Nat) (b : Batch) (code status j : Nat) : keepsCounts s (s.batchEvent q b code status j) :=
  keepsCounts_event ..

theorem keepsCounts_retireIfDone (s : State) (q : Nat) (b : Batch) : keepsCounts s (s.retireIfDone q b) := by
  unfold State.retireIfDone
  split
  · exact keepsCounts_of_same rfl rfl rfl rfl rfl
  · exact keepsCounts_modPart ..

/-! Packets sent (11 R341): of the dictionary they touch the router's counters alone. -/

theorem keepsCounts_routerCount (s : State) {sub : Nat} (h : sub < 256) : keepsCounts s (s.routerCount sub) :=
  ⟨goesOn_of_same rfl rfl rfl rfl, fun key hk d => mapGet_mapSet_ne _ _ _ _ (by unfold odKey; omega)⟩

theorem keepsCounts_deliverLocal (s : State) (p : Packet) : keepsCounts s (s.deliverLocal p) :=
  keepsCounts.trans (t := { s with delivery := s.delivery ++ [p] }) (keepsCounts_of_same rfl rfl rfl rfl rfl)
    (keepsCounts_routerCount _ (by decide))

theorem keepsCounts_injectHead {s t : State} {key : Nat} (h : s.injectHead key = some t) : keepsCounts s t := by
  have hq : ∀ r, keepsCounts s { s with inject := mapSet [] s.inject key r } := fun _ => keepsCounts_of_same rfl rfl rfl rfl rfl
  unfold State.injectHead at h
  split at h
  · cases h
  dsimp only at h
  split at h
  · split at h
    · cases h
      exact (hq _).trans (keepsCounts_deliverLocal ..)
    · cases h
  split at h
  · cases h
    exact (hq _).trans (keepsCounts_routerCount (sub := 3) _ (by decide))
  · split at h
    · cases h
      exact keepsCounts_of_same rfl rfl rfl rfl rfl
    · cases h

theorem keepsCounts_injectNext {s t : State} {key : Nat} (h : s.injectNext key = some t) : keepsCounts s t := by
  unfold State.injectNext at h
  split at h
  · cases h
  split at h
  · cases h
    exact keepsCounts_of_same rfl rfl rfl rfl rfl
  · cases h

theorem keepsCounts_pumpKey (n : Nat) (s : State) (key : Nat) : keepsCounts s (State.pumpKey n s key) := by
  induction n generalizing s with
  | zero => exact .refl s
  | succ n ih =>
    rw [State.pumpKey]
    split
    · next t h => exact (keepsCounts_injectHead h).trans (ih t)
    split
    · next t h => exact (keepsCounts_injectNext h).trans (ih t)
    · exact .refl s

theorem keepsCounts_launch (s : State) (src : Nat) (p : Packet) : keepsCounts s (s.launch src p) :=
  keepsCounts.trans (t := { s with outbox := mapSet [] s.outbox (4 * src + p.vl) (mapGet [] s.outbox (4 * src + p.vl) ++ [p]) })
    (keepsCounts_of_same rfl rfl rfl rfl rfl) (keepsCounts_pumpKey ..)

theorem keepsCounts_sendFlow (s : State) (src q kind dlid qdst : Nat) (payload : Bytes) :
    keepsCounts s (s.sendFlow src q kind dlid qdst payload) := by
  refine keepsCounts.trans (t := (s.nextFlow dlid).2) (keepsCounts_of_same rfl rfl rfl rfl rfl) ?_
  rw [State.sendFlow, State.sendPacket]
  split
  · exact .refl _
  split
  · exact .refl _
  · exact keepsCounts_launch ..

theorem keepsCounts_sendRows (s : State) (q : Nat) (b : Batch) (kind final : Nat) (rows : List (Nat × Bytes)) :
    keepsCounts s (s.sendRows q b kind final rows) := keepsCounts_foldl (fun _ _ => keepsCounts_sendFlow ..) _ s

/-! ARRIVED and RETURNED (07 R228, R230, R241). -/

theorem keepsCounts_checkArrived {s : State} (h : s.poison = []) (q : Nat) (b : Batch) : keepsCounts s (s.checkArrived q b) := by
  unfold State.checkArrived
  split
  · rw [engineRead_clean h]
    exact (((keepsCounts_engineWrite h ..).trans (keepsCounts_checkBooks ..)).trans (keepsCounts_batchEvent ..)).trans
      (keepsCounts_retireIfDone ..)
  · exact keepsCounts_modPart ..

theorem keepsCounts_checkReturned {s : State} (h : s.poison = []) (q : Nat) (b : Batch) : keepsCounts s (s.checkReturned q b) := by
  unfold State.checkReturned
  split
  · exact (((keepsCounts_engineWrite h ..).trans (keepsCounts_checkBooks ..)).trans (keepsCounts_batchEvent ..)).trans
      (keepsCounts_retireIfDone ..)
  · exact keepsCounts_retireIfDone ..

theorem batchOf_retireIfDone {s : State} {q : Nat} {b d : Batch} (hb : b.phase ≠ .opening)
    (h : (s.retireIfDone q b).batchOf q b.tag b.gen = some d) : d = b := by
  unfold State.retireIfDone at h
  split at h
  · have hnone : ((s.endBatch q b).sweepFetches).batchOf q b.tag b.gen = none := batchOf_endBatch hb
    rw [hnone] at h
    cases h
  · exact batchOf_putBatch_eq h

theorem batchOf_checkArrived {s : State} {q : Nat} {b d : Batch} (hp : s.poison = []) (hb : b.phase ≠ .opening)
    (h : (s.checkArrived q b).batchOf q b.tag b.gen = some d) : d = b ∨ d = { b with arrived := true } := by
  unfold State.checkArrived at h
  split at h
  · rw [engineRead_clean hp] at h
    exact .inr (batchOf_retireIfDone (b := { b with arrived := true }) hb h)
  · exact .inl (batchOf_putBatch_eq h)

theorem batchOf_checkReturned {s : State} {q : Nat} {b d : Batch} (hb : b.phase ≠ .opening)
    (h : (s.checkReturned q b).batchOf q b.tag b.gen = some d) : d = b ∨ d = { b with returned := true } := by
  unfold State.checkReturned at h
  split at h
  · exact .inr (batchOf_retireIfDone (b := { b with returned := true }) hb h)
  · exact .inl (batchOf_retireIfDone hb h)

/-! Events (07 R208). -/

/-- Which partition holds a spar stands in the objects below the routing counters. -/
theorem sparPart_of_low {s u : State} (h : ∀ key < 0x510000, ∀ d, mapGet d u.od key = mapGet d s.od key) (i : Nat) :
    u.sparPart i = s.sparPart i := by
  have hget : ∀ q < 4, ∀ k < 256, u.odGet 0 (0x1010 + q) k = s.odGet 0 (0x1010 + q) k := fun q hq k hk =>
    h _ (by unfold odKey; omega) _
  refine congrArg (Option.getD · 4) (List.find?_congr fun q hq => ?_)
  have hq4 : q < 4 := List.mem_range.1 hq
  simp only [State.present, State.towerMask, hget q hq4 1 (by decide), hget q hq4 2 (by decide)]

theorem sparPart_of_od {s u : State} (h : u.od = s.od) (i : Nat) : u.sparPart i = s.sparPart i := sparPart_of_low (fun _ _ _ => by rw [h]) i

theorem sparPart_routeAdd (s : State) (q slot sub n i : Nat) : (s.routeAdd q slot sub n).sparPart i = s.sparPart i := by
  unfold State.routeAdd
  split
  · rfl
  · exact sparPart_of_low (fun key hk d => mapGet_mapSet_ne _ _ _ _ (by have := odKey_route q slot sub; omega)) i

/-- An event sent on the way from one state to another went out. -/
theorem eventSent_of_event {s t u : State} {q spar ep : Nat} {bytes : Bytes} (hs : t.spars = s.spars) (hq : t.sparPart spar = s.sparPart spar)
    (h : goesOn (t.event q spar ep bytes) u) : eventSent s u q spar ep bytes := by
  intro hin
  have hget : mapGet [] ((t.event q spar ep bytes).spar spar).inflight ep =
      mapGet [] (s.spar spar).inflight ep ++ padTo 64 bytes := by
    rw [State.event, if_pos (hq.trans hin), State.channelPut, State.spar_modSpar_self, mapGet_mapSet_self, State.spar, State.spar, hs]
  obtain ⟨more, hmore⟩ := h.inflight spar ep
  exact ⟨more, by rw [← hmore, hget]⟩

end Sys2Proof.Machine
end

section
/-! PROOF. Rows arriving and returning (07 R225, R229, R232). -/

namespace Sys2Proof.Machine

open Sys2Proof Sys2Proof.Safety

/-! What the counters, the books' check, an event and a batch's end leave of dome memory, the spars and the delivery buffer. -/

section
variable (s : State) (q : Nat)

@[simp] theorem routeAdd_dome (slot sub n : Nat) : (s.routeAdd q slot sub n).dome = s.dome := by
  unfold State.routeAdd
  split <;> rfl

@[simp] theorem routeAdd_delivery (slot sub n : Nat) : (s.routeAdd q slot sub n).delivery = s.delivery := by
  unfold State.routeAdd
  split <;> rfl

@[simp] theorem routeAdd_spars (slot sub n : Nat) : (s.routeAdd q slot sub n).spars = s.spars := by
  unfold State.routeAdd
  split <;> rfl

@[simp] theorem routeAdd_parts (slot sub n : Nat) : (s.routeAdd q slot sub n).parts = s.parts := by
  unfold State.routeAdd
  split <;> rfl

@[simp] theorem routeAdd_faultQ (slot sub n : Nat) : (s.routeAdd q slot sub n).faultQ = s.faultQ := by
  unfold State.routeAdd
  split <;> rfl

@[simp] theorem checkBooks_dome (ok : Bool) : (s.checkBooks q ok).dome = s.dome := by
  unfold State.checkBooks
  split <;> rfl

@[simp] theorem checkBooks_delivery (ok : Bool) : (s.checkBooks q ok).delivery = s.delivery := by
  unfold State.checkBooks
  split <;> rfl

@[simp] theorem checkBooks_spars (ok : Bool) : (s.checkBooks q ok).spars = s.spars := by
  unfold State.checkBooks
  split <;> rfl

@[simp] theorem checkBooks_od (ok : Bool) : (s.checkBooks q ok).od = s.od := by
  unfold State.checkBooks
  split <;> rfl

@[simp] theorem batchEvent_dome (b : Batch) (code status j : Nat) : (s.batchEvent q b code status j).dome = s.dome := by
  unfold State.batchEvent State.event
  split <;> rfl

@[simp] theorem batchEvent_delivery (b : Batch) (code status j : Nat) : (s.batchEvent q b code status j).delivery = s.delivery := by
  unfold State.batchEvent State.event
  split <;> rfl

@[simp] theorem retireIfDone_dome (b : Batch) : (s.retireIfDone q b).dome = s.dome := by
  unfold State.retireIfDone
  split <;> rfl

@[simp] theorem retireIfDone_delivery (b : Batch) : (s.retireIfDone q b).delivery = s.delivery := by
  unfold State.retireIfDone
  split <;> rfl

@[simp] theorem putBatch_dome (b : Batch) : (s.putBatch q b).dome = s.dome := rfl

@[simp] theorem putBatch_delivery (b : Batch) : (s.putBatch q b).delivery = s.delivery := rfl

@[simp] theorem odGet_putBatch (b : Batch) (p i k : Nat) : (s.putBatch q b).odGet p i k = s.odGet p i k := rfl

end

/-- The batch of a packet replaced is the packet's batch. -/
theorem rowBatch_putBatch {s u : State} {k : Packet} {b c : Batch} (hb : s.rowBatch k = some b) (hu : u.parts = s.parts) (ht : c.tag = b.tag)
    (hg : c.gen = b.gen) (hph : c.phase ≠ .opening) : (u.putBatch k.qdst c).rowBatch k = some c := by
  obtain ⟨htag, hgen, -⟩ := batchOf_some hb
  have hub : u.batchOf k.qdst c.tag c.gen = some b := by
    rw [ht, hg, htag, hgen, batchOf_of_part (show u.part k.qdst = s.part k.qdst by rw [State.part, hu, State.part])]
    exact hb
  have := batchOf_putBatch hub hph
  rwa [ht, hg, htag, hgen] at this

theorem writeAll_one (m : List Host.Cell) (a : Nat) (x : Bytes) : writeAll m [(a, x)] = memWrite m a x := rfl

theorem writeAll_pair (m : List Host.Cell) (a c : Nat) (x y : Bytes) : writeAll m [(a, x), (c, y)] = memWrite (memWrite m a x) c y := rfl

/-- A frame taken from the delivery buffer, and its rows `ws` written: what `t` then holds. -/
structure rowsWritten (s t : State) (r : List Packet) (ws : List (Nat × Bytes)) : Prop where
  poison : t.poison = []
  parts : t.parts = s.parts
  od : t.od = s.od
  spars : t.spars = s.spars
  delivery : t.delivery = r
  dome : t.dome = writeAll s.dome ws

/-- Their number counted in a counter of the layer slot. -/
theorem rowsWritten.odGet_routeAdd {s t : State} {r : List Packet} {ws : List (Nat × Bytes)} (h : rowsWritten s t r ws) (q slot sub : Nat) {n : Nat}
    (hn : 0 < n) : (t.routeAdd q slot sub n).odGet q (0x5100 + slot) sub = (s.odGet q (0x5100 + slot) sub + n) % 2 ^ 64 := by
  rw [odGet_routeAdd_self t q slot sub hn, State.odGet, State.odGet, h.od]

theorem rowsWritten_of_take {s : State} {unit : Nat} {rs : List (Nat × Nat)} {r : List Packet} (hp : s.poison = []) (q : Nat) (ws : List (Nat × Bytes)) :
    rowsWritten s (({ s.takeAsk unit rs with delivery := r } : State).engineWrite q ws) r ws := by
  have ht : ({ s.takeAsk unit rs with delivery := r } : State).poison = [] := (takeAsk_poison ..).trans hp
  rw [State.engineWrite_clean ht]
  exact ⟨ht, takeAsk_parts .., takeAsk_od .., takeAsk_spars .., rfl, congrArg (writeAll · ws) (takeAsk_dome ..)⟩

/-! A dispatched row (07 R225). -/

theorem checkArrived_notClosed {b : Batch} (h : b.phase ≠ .closed) (s : State) (q : Nat) : s.checkArrived q b = s.putBatch q b := by
  simp [State.checkArrived, Batch.arrives, h]

theorem settleRanges_notClosed {b : Batch} (h : b.phase ≠ .closed) (s : State) (q : Nat) : s.settleRanges q b = [] := by
  simp [State.settleRanges, Batch.arrives, Batch.comesBack, h]

/-- The regular row that fills slot `key` noted as received. -/
def Batch.withRow (b : Batch) (key : Nat) : Batch := { b with rxKeys := setIns b.rxKeys key, rxReg := b.rxReg + 1 }

/-- One regular row, at a place of this device not yet filled. -/
theorem noteRows_one {b : Batch} {own w : Nat} {row : Bytes} {ai : Nat × Nat} (hw : bitAt w 16 = false)
    (hplace : b.place own (bitsOf w 0 16) false (bitsOf w 20 20) = some ai)
    (hkey : slotKey (bitsOf w 0 16) false (bitsOf w 20 20) ∉ b.rxKeys) :
    b.noteRows own [(w, row)] = b.withRow (slotKey (bitsOf w 0 16) false (bitsOf w 20 20)) := by
  simp [Batch.withRow, Batch.noteRows, Batch.noteRow, hw, hplace, hkey]

/-- Its writes: the row at its place, and its origin word. -/
theorem dispatchWrites_one {s : State} {k : Packet} {b : Batch} {w a i : Nat} {row : Bytes} (hreplay : b.replay = false)
    (hrows : packetRows k.payload = [(w, row)]) (hw : bitAt w 16 = false)
    (hplace : b.place s.ownLid (bitsOf w 0 16) false (bitsOf w 20 20) = some (a, i)) :
    s.dispatchWrites k b = [(a, row), (b.addr 176 + 8 * i,
      leBytes 8 ((Config.returnPos (fieldAt k.payload 6 2) b.tag b.gen w).toNat + rankIn (s.batchGroup k.qdst b) (fieldAt k.payload 6 2) * 2 ^ 32))] := by
  simp [State.dispatchWrites, hrows, Batch.rowWrites, hw, hplace, hreplay]

/-- A row of an open batch is written, counted and noted. -/
theorem exec_dispatchRowArrival {s : State} {k : Packet} {r : List Packet} {b c : Batch} {ws : List (Nat × Bytes)} (hup : spireUp s 3)
    (hd : delivered s k r) (hk : k.kind = 0x10) (h1 : fieldAt k.payload 0 1 = 1) (hb : s.rowBatch k = some b)
    (hws : s.dispatchWrites k b = ws) (hc : b.noteRows s.ownLid (packetRows k.payload) = c) (hph : c.phase ≠ .closed)
    (hport : cleanPort s (engineUnit 0) (writeRanges ws)) :
    ∃ t, rowsWritten s t r ws ∧ exec .dispatchRowArrival s =
      .next ((t.routeAdd k.qdst b.layer 7 (c.rxReg + c.rxPool - b.rxReg - b.rxPool)).putBatch k.qdst c) := by
  have hframe : (decide (k.kind = 0x10) && fieldAt k.payload 0 1 != 2) = true := by simp [hk, h1]
  have hranges : (match s.rowBatch k with
      | some b => writeRanges (s.dispatchWrites k b) ++ s.settleRanges k.qdst (b.noteRows s.ownLid (packetRows k.payload))
      | none => []) = writeRanges ws := by simp only [hb, hws, hc, settleRanges_notClosed hph, List.append_nil]
  refine ⟨_, rowsWritten_of_take (unit := engineUnit 0) (rs := writeRanges ws) hport.1 k.qdst ws, ?_⟩
  change execDispatchRowArrival s = _
  rw [execDispatchRowArrival, spireEvent_up _ hup.1 hup.2, onFrame_clean hd hframe hranges hport]
  obtain ⟨as, bs, htake⟩ := s.takeAsk_frame (engineUnit 0) (writeRanges ws)
  rw [htake]
  have hbt : ({ s with asks := as, biWaits := bs, delivery := r } : State).rowBatch k = some b := hb
  have hwt : ({ s with asks := as, biWaits := bs, delivery := r } : State).dispatchWrites k b = ws := hws
  have hct : b.noteRows ({ s with asks := as, biWaits := bs, delivery := r } : State).ownLid (packetRows k.payload) = c := hc
  simp only [hbt, hwt, hct, checkArrived_notClosed hph]

/-! A returned row (07 R229). -/

theorem returnWrites_one {b : Batch} {w : Nat} (h : w % 2 ^ 32 < b.served.length) (row : Bytes) :
    b.returnWrites [(w, row)] = [(b.addr 96 + w % 2 ^ 32 * b.stride, row)] := by
  have hplace : b.returnPlace (w % 2 ^ 32) = some (b.addr 96 + w % 2 ^ 32 * b.stride) := if_pos h
  simp only [Batch.returnWrites, List.filterMap_cons, List.filterMap_nil, hplace, Option.map_some]

/-- The row of position `p` noted as returned. -/
def Batch.withReturn (b : Batch) (p : Nat) : Batch := { b with retGot := setIns b.retGot p, returns := b.returns + 1 }

theorem comesBack_withReturn {b : Batch} (hph : b.phase = .closed) (hret : b.returned = false) (p : Nat) :
    (b.withReturn p).comesBack = decide (b.served.length ≤ b.returns + 1) := by
  simp [Batch.comesBack, Batch.withReturn, hph, hret]

/-- One row of a served choice not yet returned. -/
theorem noteReturns_one {b : Batch} {w : Nat} (h : w % 2 ^ 32 < b.served.length) (hgot : w % 2 ^ 32 ∉ b.retGot) (row : Bytes) :
    b.noteReturns [(w, row)] = b.withReturn (w % 2 ^ 32) := by
  have hplace : b.returnPlace (w % 2 ^ 32) = some (b.addr 96 + w % 2 ^ 32 * b.stride) := if_pos h
  refine if_neg ?_
  simpa only [hplace, Option.isNone_some, Bool.false_eq_true, false_or, List.contains_iff_mem] using hgot

/-- Returned rows of an open batch, none of which completes what it awaits, are written, counted and noted, and RETURNED follows the
last one. -/
theorem exec_returnRowArrival {s : State} {k : Packet} {r : List Packet} {b c : Batch} {ws : List (Nat × Bytes)} {rs : List (Nat × Nat)}
    (hup : spireUp s 3) (hd : delivered s k r) (hk : k.kind = 0x10) (h2 : fieldAt k.payload 0 1 = 2) (hb : s.rowBatch k = some b)
    (hws : b.returnWrites (packetRows k.payload) = ws) (hc : b.noteReturns (packetRows k.payload) = c) (harr : c.arrives s.ownLid = false)
    (hrs : rs = writeRanges ws ++ if c.comesBack then [(c.addr 152 + 56, 8)] else []) (hport : cleanPort s (engineUnit 0) rs) :
    ∃ t, rowsWritten s t r ws ∧
      exec .returnRowArrival s = .next ((t.routeAdd k.qdst b.layer 9 (c.returns - b.returns)).checkReturned k.qdst c) := by
  have hframe : (decide (k.kind = 0x10) && decide (fieldAt k.payload 0 1 = 2)) = true := by simp [hk, h2]
  have hranges : (match s.rowBatch k with
      | some b => writeRanges (b.returnWrites (packetRows k.payload)) ++ s.settleRanges k.qdst (b.noteReturns (packetRows k.payload))
      | none => []) = rs := by
    simp only [hb, hws, hc, hrs, State.settleRanges, harr, Bool.false_eq_true, if_false, List.nil_append]
  refine ⟨_, rowsWritten_of_take (unit := engineUnit 0) (rs := rs) hport.1 k.qdst ws, ?_⟩
  change execReturnRowArrival s = _
  rw [execReturnRowArrival, spireEvent_up _ hup.1 hup.2, onFrame_clean hd hframe hranges hport]
  obtain ⟨as, bs, htake⟩ := s.takeAsk_frame (engineUnit 0) rs
  rw [htake]
  have hbt : ({ s with asks := as, biWaits := bs, delivery := r } : State).rowBatch k = some b := hb
  simp only [hbt, State.takeReturns, hws, hc]

theorem checkReturned_waits {b : Batch} (hc : b.comesBack = false) (hr : b.returned = false) (s : State) (q : Nat) :
    s.checkReturned q b = s.putBatch q b := by simp [State.checkReturned, hc, State.retireIfDone, hr]

theorem eventSent_congr {s t u : State} {q spar ep : Nat} {bytes : Bytes} (hs : t.spars = s.spars) (hq : t.sparPart spar = s.sparPart spar)
    (h : eventSent t u q spar ep bytes) : eventSent s u q spar ep bytes := fun hin => by
  have hspar : t.spar spar = s.spar spar := by rw [State.spar, hs, State.spar]
  exact hspar ▸ h (hq.trans hin)

/-- The last return: RETURNS goes to the books, and RETURNED goes out. -/
theorem checkReturned_last {s : State} {b : Batch} (hp : s.poison = []) (hc : b.comesBack = true) (q : Nat) :
    (s.checkReturned q b).dome = memWrite s.dome (b.addr 152 + 56) (leBytes 8 b.returns) ∧
      (s.checkReturned q b).delivery = s.delivery ∧ batchEventSent s (s.checkReturned q b) q b 0x85 0 0 := by
  have hkeep := (keepsCounts_retireIfDone (((s.engineWrite q [(b.addr 152 + 56, leBytes 8 b.returns)]).checkBooks q
      (b.returns = b.books.getD 1 0 + b.books.getD 2 0)).batchEvent q b 0x85 0 0) q { b with returned := true }).togoesOn
  rw [State.checkReturned, if_pos hc]
  refine ⟨?_, ?_, eventSent_of_event ?_ (sparPart_of_od ?_ _) hkeep⟩ <;> simp [State.engineWrite_clean hp]

/-! Rows of a pair that names no open batch (07 R232). -/

theorem stalePacket_counts {s : State} {k : Packet} (hq : s.present k.qdst = true) (hn : 0 < fieldAt k.payload 10 2) :
    (s.stalePacket k).delivery = s.delivery ∧ (s.stalePacket k).dome = s.dome ∧
      (s.stalePacket k).odGet k.qdst 0x5100 0xA = (s.odGet k.qdst 0x5100 0xA + fieldAt k.payload 10 2) % 2 ^ 64 ∧
      if (fieldAt k.payload 2 2, fieldAt k.payload 1 1) ∈ (s.part k.qdst).staleSeen then (s.stalePacket k).faultQ = s.faultQ
      else ∃ n, (s.stalePacket k).faultQ = s.faultQ ++ [n] ∧ n.code = 0x0131 ∧
        n.vals = [fieldAt k.payload 2 2, fieldAt k.payload 1 1, fieldAt k.payload 0 1] := by
  have hod := odGet_routeAdd_self s k.qdst 0 0xA hn
  by_cases hseen : (fieldAt k.payload 2 2, fieldAt k.payload 1 1) ∈ (s.part k.qdst).staleSeen
  · have hst : s.stalePacket k = s.routeAdd k.qdst 0 0xA (fieldAt k.payload 10 2) := by
      simp [State.stalePacket, hq, hseen, State.staleRows]
    rw [hst, if_pos hseen]
    exact ⟨routeAdd_delivery .., routeAdd_dome .., hod, routeAdd_faultQ ..⟩
  · have hst : s.stalePacket k = (((s.routeAdd k.qdst 0 0xA (fieldAt k.payload 10 2)).modPart k.qdst fun p => { p with
        staleSeen := p.staleSeen ++ [(fieldAt k.payload 2 2, fieldAt k.payload 1 1)] }).raiseOpen 0x0131 (spireUnit 3) k.qdst (islSpire 5)
        [fieldAt k.payload 2 2, fieldAt k.payload 1 1, fieldAt k.payload 0 1]) := by
      simp [State.stalePacket, hq, hseen, State.staleRows]
    rw [hst, if_neg hseen]
    exact ⟨routeAdd_delivery .., routeAdd_dome .., hod, _, congrArg (· ++ _) (routeAdd_faultQ ..), rfl, rfl⟩

theorem exec_stalePacket {s : State} {k : Packet} {r : List Packet} (hup : spireUp s 3) (hd : delivered s k r) (hk : k.kind = 0x10)
    (hb : s.rowBatch k = none) :
    exec (if fieldAt k.payload 0 1 = 2 then .returnRowArrival else .dispatchRowArrival) s =
      .next (({ s with delivery := r } : State).stalePacket k) := by
  have hbt : ({ s with delivery := r } : State).rowBatch k = none := hb
  split
  · next h2 =>
    change execReturnRowArrival s = _
    rw [execReturnRowArrival, spireEvent_up _ hup.1 hup.2, onFrame_noAccess hd (by simp [hk, h2]) (by simp only [hb])]
    simp only [hbt]
  · next h2 =>
    change execDispatchRowArrival s = _
    rw [execDispatchRowArrival, spireEvent_up _ hup.1 hup.2, onFrame_noAccess hd (by simp [hk, h2]) (by simp only [hb])]
    simp only [hbt]

/-! The RETURN command (07 R229). -/

theorem noteReturns_frame (b : Batch) (rows : List (Nat × Bytes)) : ∃ got n, b.noteReturns rows = { b with retGot := got, returns := n } := by
  induction rows using List.reverseRecOn with
  | nil => exact ⟨_, _, rfl⟩
  | append_singleton rows x ih =>
    obtain ⟨got, n, h⟩ := ih
    unfold Batch.noteReturns at h ⊢
    rw [List.foldl_append, h, List.foldl_cons, List.foldl_nil]
    dsimp only
    split <;> exact ⟨_, _, rfl⟩

/-- Returned rows taken: what is written and counted before, one counter, and the end of the batch. -/
theorem takeReturns_split {s : State} (hp : s.poison = []) (q : Nat) (b : Batch) (rows : List (Nat × Bytes)) :
    ∃ t n, keepsCounts s t ∧ t.poison = [] ∧ s.takeReturns q b rows = (t.routeAdd q b.layer 9 n).checkReturned q (b.noteReturns rows) :=
  ⟨_, _, keepsCounts_engineWrite hp .., (keepsCounts_engineWrite hp ..).poison hp, rfl⟩

section
variable {s : State} (hp : s.poison = []) (q : Nat) (b : Batch) (rows : List (Nat × Bytes))
include hp

theorem goesOn_takeReturns : goesOn s (s.takeReturns q b rows) := by
  obtain ⟨t, n, hk, ht, h⟩ := takeReturns_split hp q b rows
  rw [h]
  have hadd := goesOn_routeAdd t q b.layer 9 n
  exact (hk.togoesOn.trans hadd).trans (keepsCounts_checkReturned (hadd.poison ht) ..).togoesOn

theorem odGet_takeReturns_other {sub : Nat} (h : 9 ≠ sub) :
    (s.takeReturns q b rows).odGet q (0x5100 + b.layer) sub = s.odGet q (0x5100 + b.layer) sub := by
  obtain ⟨t, n, hk, ht, hr⟩ := takeReturns_split hp q b rows
  rw [hr, (keepsCounts_checkReturned ((goesOn_routeAdd t q b.layer 9 n).poison ht) ..).odGet, odGet_routeAdd_other t q b.layer h,
    hk.odGet]

theorem batchOf_takeReturns (hb : b.phase ≠ .opening) {d : Batch} (h : (s.takeReturns q b rows).batchOf q b.tag b.gen = some d) :
    d.retRows = b.retRows ∧ d.retExp = b.retExp := by
  obtain ⟨t, n, -, -, hr⟩ := takeReturns_split hp q b rows
  obtain ⟨got, m, hn⟩ := noteReturns_frame b rows
  rw [hr, hn] at h
  rcases batchOf_checkReturned (b := { b with retGot := got, returns := m }) hb h with rfl | rfl
  · exact ⟨rfl, rfl⟩
  · exact ⟨rfl, rfl⟩

end

/-- The rows of a RETURN that came from other devices, as `u` reads them, sent back to them. -/
def State.sendReturns (s u : State) (q : Nat) (b : Batch) (src : List (Nat × Nat)) : State :=
  ((u.batchGroup q b).zipIdx.filter fun x => x.1 != u.ownLid).foldl (fun v x => v.sendRows q b 2 x.1 (u.rowsFrom b src x.2)) s

theorem keepsCounts_sendReturns (s u : State) (q : Nat) (b : Batch) (src : List (Nat × Nat)) : keepsCounts s (s.sendReturns u q b src) :=
  keepsCounts_foldl (fun _ _ => keepsCounts_sendRows ..) _ s

/-- RETURN takes its command, counts its rows, sends those of other devices, and takes its own device's. -/
theorem exec_returnRows {s w : State} {t : Nat} {r : Bytes} {b : Batch} {js : List Nat} {src rs : List (Nat × Nat)} (h : halCommand s t r 2)
    (hn : halNames s t r b) (hjs : js = b.toReturn s.ownLid (fieldAt r 8 4) (fieldAt r 12 4)) (hsrc : src = b.returnRows s.ownLid js)
    (hrs : rs = s.returnRanges (s.towerPart t) b src) (hport : cleanPort s (engineUnit 0) rs) (hw : w = s.takeAsk (engineUnit 0) rs) :
    exec (.returnRows t) s = .next ((((w.halPop t).routeAdd (s.towerPart t) b.layer 8 src.length).sendReturns w (s.towerPart t) b src).takeReturns
      (s.towerPart t) { b with retExp := js.foldl setIns b.retExp, retRows := b.retRows + src.length }
      (w.rowsFrom b src (rankIn (s.batchGroup (s.towerPart t) b) s.ownLid))) := by
  have hp : w.poison = [] := by rw [hw, takeAsk_poison]; exact hport.1
  change execReturnRows t s = _
  rw [execReturnRows, halRow_command h, halOnBatch_names hn]
  simp only [← hjs, ← hsrc, ← hrs]
  rw [portGate_clean hport, ← hw, engineRead_clean hp]
  obtain ⟨as, ws, htake⟩ := s.takeAsk_frame (engineUnit 0) rs
  rw [hw, htake]
  rfl

theorem mem_foldl_setIns {js l : List Nat} {x : Nat} : x ∈ js.foldl setIns l ↔ x ∈ js ∨ x ∈ l := by
  induction js generalizing l with
  | nil => simp
  | cons j js ih => rw [List.foldl_cons, ih, mem_setIns, List.mem_cons, or_assoc, or_left_comm]

/-- After RETURN: its rows counted, its command taken, and what the batch holds of them. -/
theorem returnRows_counted {s : State} {t : Nat} {r : Bytes} {b : Batch} {js : List Nat} {src : List (Nat × Nat)} (h : halCommand s t r 2)
    (hn : halNames s t r b) (hjs : js = b.toReturn s.ownLid (fieldAt r 8 4) (fieldAt r 12 4)) (hsrc : src = b.returnRows s.ownLid js)
    (hpos : 0 < src.length) (hport : cleanPort s (engineUnit 0) (s.returnRanges (s.towerPart t) b src)) :
    ∃ u, exec (.returnRows t) s = .next u ∧
      u.odGet (s.towerPart t) (0x5100 + b.layer) 8 = (s.odGet (s.towerPart t) (0x5100 + b.layer) 8 + src.length) % 2 ^ 64 ∧
      mapGet [] u.halCmd t = (mapGet [] s.halCmd t).drop 64 ∧
      ∀ c, u.batchOf (s.towerPart t) b.tag b.gen = some c → c.retRows = b.retRows + src.length ∧ ∀ j ∈ js, j ∈ c.retExp := by
  obtain ⟨w, hw⟩ : ∃ w, w = s.takeAsk (engineUnit 0) (s.returnRanges (s.towerPart t) b src) := ⟨_, rfl⟩
  have hadd := goesOn_routeAdd (w.halPop t) (s.towerPart t) b.layer 8 src.length
  have hsend := keepsCounts_sendReturns ((w.halPop t).routeAdd (s.towerPart t) b.layer 8 src.length) w (s.towerPart t) b src
  have hp := hsend.poison (hadd.poison (show w.poison = [] by rw [hw, takeAsk_poison]; exact hport.1))
  refine ⟨_, exec_returnRows h hn hjs hsrc rfl hport hw, ?_, ?_, fun c hc => ?_⟩
  · refine (odGet_takeReturns_other hp _ { b with retExp := js.foldl setIns b.retExp, retRows := b.retRows + src.length } _ (by decide)).trans
      ((hsend.odGet ..).trans ((odGet_routeAdd_self _ _ _ _ hpos).trans ?_))
    simp [State.odGet, State.halPop, hw]
  · rw [(goesOn_takeReturns hp ..).halCmd, hsend.halCmd, hadd.halCmd]
    simp [State.halPop, hw]
  · obtain ⟨hrows, hexp⟩ := batchOf_takeReturns hp (s.towerPart t) { b with retExp := js.foldl setIns b.retExp, retRows := b.retRows + src.length }
      _ (batchOf_some hn).2.2 hc
    exact ⟨hrows, fun j hj => hexp ▸ mem_foldl_setIns.2 (.inl hj)⟩

section
variable {s : State} {k : Packet} {r : List Packet} {b : Batch} {w : Nat} {row : Bytes}

/-- A regular row of an open batch: written with its origin word, noted and counted. -/
theorem dispatchRow_lands {a i p : Nat} (hup : spireUp s 3) (hd : delivered s k r) (hk : k.kind = 0x10) (h1 : fieldAt k.payload 0 1 = 1)
    (hb : s.rowBatch k = some b) (hph : b.phase = .scoring) (hreplay : b.replay = false) (hrows : packetRows k.payload = [(w, row)])
    (hw : bitAt w 16 = false) (hplace : b.place s.ownLid (bitsOf w 0 16) false (bitsOf w 20 20) = some (a, i))
    (hkey : slotKey (bitsOf w 0 16) false (bitsOf w 20 20) ∉ b.rxKeys)
    (hpos : p = (Config.returnPos (fieldAt k.payload 6 2) b.tag b.gen w).toNat)
    (hport : cleanPort s (engineUnit 0) [(a, row.length), (b.addr 176 + 8 * i, 8)]) :
    ∃ u c, exec .dispatchRowArrival s = .next u ∧ u.delivery = r ∧ u.rowBatch k = some c ∧ c.rxReg = b.rxReg + 1 ∧
      u.odGet k.qdst (0x5100 + b.layer) 7 = (s.odGet k.qdst (0x5100 + b.layer) 7 + 1) % 2 ^ 64 ∧
      u.dome = memWrite (memWrite s.dome a row) (b.addr 176 + 8 * i)
        (leBytes 8 (p + rankIn (s.batchGroup k.qdst b) (fieldAt k.payload 6 2) * 2 ^ 32)) := by
  obtain ⟨c, hc⟩ : ∃ c, c = b.withRow (slotKey (bitsOf w 0 16) false (bitsOf w 20 20)) := ⟨_, rfl⟩
  have hnote : b.noteRows s.ownLid (packetRows k.payload) = c := by rw [hrows, noteRows_one hw hplace hkey, hc]
  have hph' : c.phase = .scoring := by rw [hc]; exact hph
  have hone : c.rxReg + c.rxPool - b.rxReg - b.rxPool = 1 := by
    simp only [hc, Batch.withRow]
    omega
  obtain ⟨u, hu, hexec⟩ := exec_dispatchRowArrival hup hd hk h1 hb (dispatchWrites_one hreplay hrows hw hplace) hnote
    (by simp [hph']) (by simpa [writeRanges, length_leBytes] using hport)
  rw [hone] at hexec
  refine ⟨_, c, hexec, ?_, ?_, by rw [hc]; rfl,
    (odGet_putBatch ..).trans (hu.odGet_routeAdd k.qdst b.layer 7 Nat.one_pos), ?_⟩
  · rw [putBatch_delivery, routeAdd_delivery, hu.delivery]
  · exact rowBatch_putBatch hb ((routeAdd_parts ..).trans hu.parts) (by rw [hc]; rfl) (by rw [hc]; rfl) (by simp [hph'])
  · rw [putBatch_dome, routeAdd_dome, hu.dome, hpos]
    exact writeAll_pair ..

section
variable (hup : spireUp s 3) (hd : delivered s k r) (hk : k.kind = 0x10) (h2 : fieldAt k.payload 0 1 = 2) (hb : s.rowBatch k = some b)
  (hph : b.phase = .closed) (hret : b.returned = false) (harr : b.arrives s.ownLid = false) (hrows : packetRows k.payload = [(w, row)])
  (hserved : w % 2 ^ 32 < b.served.length) (hgot : w % 2 ^ 32 ∉ b.retGot)
include hup hd hk h2 hb hph hret harr hrows hserved hgot

/-- A returned row with others still to come: written, noted and counted. -/
theorem returnRow_lands (hmore : b.returns + 1 < b.served.length)
    (hport : cleanPort s (engineUnit 0) [(b.addr 96 + w % 2 ^ 32 * b.stride, row.length)]) :
    ∃ u c, exec .returnRowArrival s = .next u ∧ u.delivery = r ∧ u.rowBatch k = some c ∧ c.returns = b.returns + 1 ∧
      u.odGet k.qdst (0x5100 + b.layer) 9 = (s.odGet k.qdst (0x5100 + b.layer) 9 + 1) % 2 ^ 64 ∧
      u.dome = memWrite s.dome (b.addr 96 + w % 2 ^ 32 * b.stride) row := by
  have hwait : (b.withReturn (w % 2 ^ 32)).comesBack = false := by simp [comesBack_withReturn hph hret, hmore]
  have hone : (b.withReturn (w % 2 ^ 32)).returns - b.returns = 1 := Nat.add_sub_cancel_left ..
  obtain ⟨u, hu, hexec⟩ := exec_returnRowArrival (c := b.withReturn (w % 2 ^ 32)) hup hd hk h2 hb (hrows ▸ returnWrites_one hserved row)
    (hrows ▸ noteReturns_one hserved hgot row) harr (by rw [hwait]; rfl) hport
  rw [checkReturned_waits hwait hret, hone] at hexec
  refine ⟨_, b.withReturn (w % 2 ^ 32), hexec, ?_, ?_, rfl,
    (odGet_putBatch ..).trans (hu.odGet_routeAdd k.qdst b.layer 9 Nat.one_pos), ?_⟩
  · rw [putBatch_delivery, routeAdd_delivery, hu.delivery]
  · exact rowBatch_putBatch hb ((routeAdd_parts ..).trans hu.parts) rfl rfl (by simp [Batch.withReturn, hph])
  · rw [putBatch_dome, routeAdd_dome, hu.dome]
    exact writeAll_one ..

/-- The last returned row: written and counted, with RETURNS in the books, and RETURNED. -/
theorem lastReturnRow_lands (hlast : b.served.length ≤ b.returns + 1)
    (hport : cleanPort s (engineUnit 0) [(b.addr 96 + w % 2 ^ 32 * b.stride, row.length), (b.addr 152 + 56, 8)]) :
    ∃ u, exec .returnRowArrival s = .next u ∧ u.delivery = r ∧ batchEventSent s u k.qdst b 0x85 0 0 ∧
      u.odGet k.qdst (0x5100 + b.layer) 9 = (s.odGet k.qdst (0x5100 + b.layer) 9 + 1) % 2 ^ 64 ∧
      u.dome = memWrite (memWrite s.dome (b.addr 96 + w % 2 ^ 32 * b.stride) row) (b.addr 152 + 56) (leBytes 8 (b.returns + 1)) := by
  have hback : (b.withReturn (w % 2 ^ 32)).comesBack = true := by simp [comesBack_withReturn hph hret, hlast]
  have hone : (b.withReturn (w % 2 ^ 32)).returns - b.returns = 1 := Nat.add_sub_cancel_left ..
  obtain ⟨u, hu, hexec⟩ := exec_returnRowArrival (c := b.withReturn (w % 2 ^ 32)) hup hd hk h2 hb (hrows ▸ returnWrites_one hserved row)
    (hrows ▸ noteReturns_one hserved hgot row) harr (by rw [hback]; rfl) hport
  rw [hone] at hexec
  have hp := (goesOn_routeAdd u k.qdst b.layer 9 1).poison hu.poison
  obtain ⟨hdome, hdel, hevent⟩ := checkReturned_last hp hback k.qdst
  refine ⟨_, hexec, (hdel.trans (routeAdd_delivery ..)).trans hu.delivery, eventSent_congr ((routeAdd_spars ..).trans hu.spars)
    ((sparPart_routeAdd ..).trans (sparPart_of_od hu.od _)) hevent, ?_, ?_⟩
  · rw [(keepsCounts_checkReturned hp ..).odGet]
    exact hu.odGet_routeAdd k.qdst b.layer 9 Nat.one_pos
  · rw [hdome, routeAdd_dome, hu.dome]
    rfl

end
end

/-- Settles O38: a dispatched row, a returned row, the last returned row, a stale packet, and the RETURN command. -/
theorem rowExchange : Obligations.RowExchange := by
  unfold Obligations.RowExchange
  refine ⟨⟨fun s k r b w row a i p hup hd hk h1 hb hph hreplay hrows hw hplace hkey hpos hport =>
    dispatchRow_lands hup hd hk h1 hb hph hreplay hrows hw hplace hkey hpos hport,
    fun s k r b w row hup hd hk h2 hb hph hret harr hrows hserved hgot =>
      ⟨returnRow_lands hup hd hk h2 hb hph hret harr hrows hserved hgot, lastReturnRow_lands hup hd hk h2 hb hph hret harr hrows hserved hgot⟩,
    fun s k r hup hd hk hb hq hn => ?_⟩, fun s t q r b js src h hn hq hjs hsrc hpos hport => ?_⟩
  · obtain ⟨hdel, hdome, hod, hfault⟩ := stalePacket_counts (s := { s with delivery := r }) hq hn
    exact ⟨_, exec_stalePacket hup hd hk hb, hdel, hdome, hod, hfault⟩
  · subst hq
    exact returnRows_counted h hn hjs hsrc hpos hport

end Sys2Proof.Machine
end

section
/-! PROOF. The life of a batch: its opening, its counting frames, the end of its assignment (07 R208, R209, R219-R225, R241, R243). -/

namespace Sys2Proof.Machine

open Sys2Proof Sys2Proof.Safety

/-! Opening (07 R209, R224). -/

/-- The batch that the first OPEN, of tower `t` with the record `rec` at address `a`, begins. -/
def Batch.begun (rec : Bytes) (t a : Nat) : Batch := { tag := fieldAt rec 0 2, gen := fieldAt rec 2 1, record := rec, opens := [(t, a)] }

theorem openFor_first {s : State} {q t a : Nat} (h : s.openingOf q (fieldAt (s.domeRead a 192) 0 2) (fieldAt (s.domeRead a 192) 2 1) = none) :
    s.openFor q t a = .begun (s.domeRead a 192) t a := by
  unfold State.openFor
  dsimp only
  rw [h]
  rfl

/-- No batch of its pair is being opened: none is taken out of the list. -/
theorem part_dropBatch_begun {s : State} {q : Nat} {b : Batch} (hb : b.phase = .opening) (h : s.openingOf q b.tag b.gen = none) :
    (s.dropBatch q b).part q = s.part q := by
  have hnone : ∀ c ∈ (s.part q).batches, c.tag = b.tag → c.gen = b.gen → c.phase ≠ .opening := by
    simpa [State.openingOf] using h
  have hall : (s.part q).batches.filter (fun c => !(c.tag = b.tag && c.gen = b.gen && ((c.phase = .opening) == (b.phase = .opening)))) =
      (s.part q).batches := List.filter_eq_self.2 fun c hc => by
    have := hnone c hc
    simp [hb]
    tauto
  rw [State.dropBatch, State.part_modPart_self, hall]

theorem modPart_dropBatch_begun {s : State} {q : Nat} {b : Batch} (hb : b.phase = .opening) (h : s.openingOf q b.tag b.gen = none)
    (f : Part → Part) : (s.dropBatch q b).modPart q f = s.modPart q f := by
  rw [State.modPart, part_dropBatch_begun hb h]
  simp [State.dropBatch, State.modPart, State.setPart]

theorem allOpen_begun_false {s : State} {q t a k : Nat} {rec : Bytes} (hk : k ∈ s.towersOf q) (hkt : k ≠ t) (hk8 : k < 8)
    (hbit : (fieldAt rec 7 1).testBit k = true) : s.allOpen q (.begun rec t a) = false := by
  have hmem : k ∈ maskBits (Batch.begun rec t a).tmask 8 := List.mem_filter.2 ⟨List.mem_range.2 hk8, hbit⟩
  rw [State.allOpen, List.all_eq_false]
  refine ⟨k, List.mem_filter.2 ⟨hmem, by simpa using hk⟩, ?_⟩
  simp [Batch.begun, Ne.symm hkt]

theorem allOpen_begun {s : State} {q t a : Nat} {rec : Bytes} (h : ∀ k ∈ s.towersOf q, (fieldAt rec 7 1).testBit k = true → k = t) :
    s.allOpen q (.begun rec t a) = true := by
  rw [State.allOpen, List.all_eq_true]
  intro k hk
  obtain ⟨hmask, hheld⟩ := List.mem_filter.1 hk
  have hkt := h k (by simpa using hheld) (List.mem_filter.1 hmask).2
  simp [Batch.begun, hkt]

/-- An OPEN whose record can be read, its accesses open. -/
theorem exec_openBatch {s : State} {t q a : Nat} {r : Bytes} {rs : List (Nat × Nat)} (h : halCommand s t r 1) (hq : q = s.towerPart t)
    (ha : a = fieldAt r 8 8) (halign : a % 64 = 0) (hmap : s.rangeInMap q a 192 = true) (hrs : s.openRanges q t a = rs)
    (hport : cleanPort s (engineUnit 0) rs) :
    exec (.openBatch t) s = .next (((s.takeAsk (engineUnit 0) rs).halPop t).tryOpen q (s.openFor q t a)) := by
  have hp : (s.takeAsk (engineUnit 0) rs).poison = [] := by rw [takeAsk_poison]; exact hport.1
  change execOpenBatch t s = _
  rw [execOpenBatch, halRow_command h]
  simp only [← hq, ← ha, halign, hmap, hrs]
  simp only [ne_eq, not_true_eq_false, or_self, if_false]
  rw [portGate_clean hport, engineRead_clean hp]
  obtain ⟨as, ws, htake⟩ := s.takeAsk_frame (engineUnit 0) rs
  rw [htake]
  rfl

/-- An OPEN whose record cannot be read is discarded and counted. -/
theorem exec_openBatch_unreadable {s : State} {t : Nat} {r : Bytes} (h : halCommand s t r 1)
    (hbad : fieldAt r 8 8 % 64 ≠ 0 ∨ s.rangeInMap (s.towerPart t) (fieldAt r 8 8) 192 = false) :
    exec (.openBatch t) s = .next ((s.halPop t).staleRows (s.towerPart t) 1) := by
  change execOpenBatch t s = _
  rw [execOpenBatch, halRow_command h]
  rw [if_pos (by simpa using hbad)]

/-- The first OPEN of several is kept. -/
theorem tryOpen_waits {s : State} {q : Nat} {b : Batch} (hall : s.allOpen q b = false) (hb : b.phase = .opening)
    (h : s.openingOf q b.tag b.gen = none) : s.tryOpen q b = s.modPart q fun p => { p with batches := p.batches ++ [b] } := by
  simp [State.tryOpen, hall, modPart_dropBatch_begun hb h]

/-! The checks of a record read the dictionary and the partition's batches alone. -/

section
variable {s u : State} (hod : u.od = s.od) (q : Nat) (b : Batch)
include hod

theorem recordFieldsOk_congr : u.recordFieldsOk q b = s.recordFieldsOk q b := by
  change ({ s with od := u.od } : State).recordFieldsOk q b = _
  rw [hod]

theorem regionsOk_congr : u.regionsOk q b = s.regionsOk q b := by
  change ({ s with od := u.od } : State).regionsOk q b = _
  rw [hod]

theorem openStatus_congr (hblobs : u.blobs = s.blobs) (hpart : u.part q = s.part q) : u.openStatus q b = s.openStatus q b := by
  have hgroup : u.batchGroup q b = s.batchGroup q b := by
    change ({ s with blobs := u.blobs } : State).batchGroup q b = _
    rw [hblobs]
  have hemap : u.emapBad q b = s.emapBad q b := by
    change ({ s with blobs := u.blobs } : State).emapBad q b = _
    rw [hblobs]
  have hown : u.ownLid = s.ownLid := by rw [State.ownLid, State.odGet, hod]; rfl
  unfold State.openStatus State.openBatches
  rw [recordFieldsOk_congr hod, regionsOk_congr hod, hpart, hgroup, hown, batchOf_of_part hpart, hemap]

end

theorem batchOf_of_openStatus {s : State} {q : Nat} {b : Batch} (h : s.openStatus q b = 0) : s.batchOf q b.tag b.gen = none := by
  unfold State.openStatus at h
  split_ifs at h
  simpa using ‹¬(s.batchOf q b.tag b.gen).isSome = true›

@[simp] theorem batchEvent_parts (s : State) (q : Nat) (b : Batch) (code status j : Nat) : (s.batchEvent q b code status j).parts = s.parts := by
  unfold State.batchEvent State.event
  split <;> rfl

theorem part_batchEvent (s : State) (q : Nat) (b : Batch) (code status j p : Nat) : (s.batchEvent q b code status j).part p = s.part p := by
  rw [State.part, batchEvent_parts, State.part]

/-- A batch opens that no counting frame was held for: OPENED goes out with status 0. -/
theorem openBatch_opens {s : State} {q : Nat} {b : Batch}
    (hheld : ∀ m ∈ (s.part q).held, fieldAt m.payload 1 1 = b.gen → fieldAt m.payload 2 2 ≠ b.tag)
    (hreplay : b.replay = false) : ∃ x, s.openBatch q b = (s.setPart q x).batchEvent q b 0x81 0 0 ∧
      x.batches = (s.part q).batches ++ [{ b with phase := .scoring, opens := [] }] := by
  have hmine : ((s.part q).held.filter fun m => fieldAt m.payload 1 1 = b.gen && fieldAt m.payload 2 2 = b.tag) = [] :=
    List.filter_eq_nil_iff.2 fun m hm => by simpa using hheld m hm
  have hr : ({ b with phase := .scoring, opens := [] } : Batch).replay = false := hreplay
  unfold State.openBatch
  simp only [hmine, List.foldl_nil, hr]
  exact ⟨_, rfl, rfl⟩

theorem batchOf_opened {s : State} {q : Nat} {x : Part} {b : Batch} (h : s.batchOf q b.tag b.gen = none)
    (hx : x.batches = (s.part q).batches ++ [{ b with phase := .scoring, opens := [] }]) (c : Batch) (code status j : Nat) :
    ((s.setPart q x).batchEvent q c code status j).batchOf q b.tag b.gen = some { b with phase := .scoring, opens := [] } := by
  rw [State.batchOf] at h ⊢
  rw [part_batchEvent, State.part_setPart_self, hx, List.find?_append, h]
  simp

/-- The event of a batch goes out from a state that holds the spars and the dictionary of the one before. -/
theorem batchEventSent_of_same {s t : State} (hs : t.spars = s.spars) (ho : t.od = s.od) (q : Nat) (b : Batch) (code status j : Nat) :
    batchEventSent s (t.batchEvent q b code status j) q b code status j :=
  eventSent_of_event hs (sparPart_of_od ho _) (keepsCounts.refl _).togoesOn

/-- The last OPEN: OPENED carries the status of the batch with its map, and with status 0 it is open. -/
theorem tryOpen_last {s : State} {q : Nat} {b c : Batch} (hp : s.poison = []) (hall : s.allOpen q b = true) (hb : b.phase = .opening)
    (hfirst : s.openingOf q b.tag b.gen = none) (hc : s.withMap q b = c) (htag : c.tag = b.tag) (hgen : c.gen = b.gen)
    (hheld : ∀ m ∈ (s.part q).held, fieldAt m.payload 1 1 = b.gen → fieldAt m.payload 2 2 ≠ b.tag) (hreplay : c.replay = false) :
    batchEventSent s (s.tryOpen q b) q c 0x81 (s.openStatus q c) 0 ∧
      (s.openStatus q c = 0 → (s.tryOpen q b).batchOf q c.tag c.gen = some { c with phase := .scoring, opens := [] }) := by
  obtain ⟨t, ht⟩ : ∃ t, t = s.dropBatch q b := ⟨_, rfl⟩
  have hpart : t.part q = s.part q := ht ▸ part_dropBatch_begun hb hfirst
  have hmap : t.withMap q b = c := by rw [ht]; exact hc
  have hst : t.openStatus q c = s.openStatus q c := openStatus_congr (by rw [ht]; rfl) q c (by rw [ht]; rfl) hpart
  have hspars : t.spars = s.spars := by rw [ht]; rfl
  have hod : t.od = s.od := by rw [ht]; rfl
  have htry : s.tryOpen q b = if s.openStatus q c = 0 then t.openBatch q c else t.batchEvent q c 0x81 (s.openStatus q c) 0 := by
    rw [State.tryOpen, if_pos hall, ← ht, engineRead_clean (by rw [ht]; exact hp)]
    simp only [hmap, hst]
  by_cases h0 : s.openStatus q c = 0
  · obtain ⟨x, hopen, hx⟩ := openBatch_opens (s := t) (q := q) (b := c) (by rwa [hpart, htag, hgen]) hreplay
    rw [htry, if_pos h0, h0, hopen]
    have hnone : t.batchOf q c.tag c.gen = none := (batchOf_of_part hpart ..).trans (batchOf_of_openStatus h0)
    exact ⟨batchEventSent_of_same (t := t.setPart q x) hspars hod q c _ _ _, fun _ => batchOf_opened hnone hx ..⟩
  · rw [htry, if_neg h0]
    exact ⟨batchEventSent_of_same hspars hod q c _ _ _, fun h => absurd h h0⟩

/-- The OPEN of the last tower, its accesses open. -/
theorem exec_openBatch_last {s : State} {t q a : Nat} {r : Bytes} {b c : Batch} (h : halCommand s t r 1) (hq : q = s.towerPart t)
    (ha : a = fieldAt r 8 8) (halign : a % 64 = 0) (hmap : s.rangeInMap q a 192 = true) (hfor : s.openFor q t a = b) (hall : s.allOpen q b = true)
    (hb : b.phase = .opening) (hfirst : s.openingOf q b.tag b.gen = none) (hc : s.withMap q b = c) (htag : c.tag = b.tag) (hgen : c.gen = b.gen)
    (hheld : ∀ m ∈ (s.part q).held, fieldAt m.payload 1 1 = b.gen → fieldAt m.payload 2 2 ≠ b.tag) (hreplay : c.replay = false)
    (hport : cleanPort s (engineUnit 0) ((a, 192) :: s.mapReads q b)) :
    ∃ u, exec (.openBatch t) s = .next u ∧ batchEventSent s u q c 0x81 (s.openStatus q c) 0 ∧
      (s.openStatus q c = 0 → u.batchOf q c.tag c.gen = some { c with phase := .scoring, opens := [] }) := by
  have hrs : s.openRanges q t a = (a, 192) :: s.mapReads q b := by
    rw [State.openRanges, hfor]
    simp [hall, hc, hreplay]
  obtain ⟨as, ws, htake⟩ := s.takeAsk_frame (engineUnit 0) ((a, 192) :: s.mapReads q b)
  obtain ⟨w, hw⟩ : ∃ w, w = ({ s with asks := as, biWaits := ws } : State).halPop t := ⟨_, rfl⟩
  have hst : w.openStatus q c = s.openStatus q c := by
    rw [hw]
    exact openStatus_congr rfl q c rfl rfl
  obtain ⟨hevent, hopened⟩ := tryOpen_last (s := w) (q := q) (b := b) (c := c) (by rw [hw]; exact hport.1) (by rw [hw]; exact hall) hb
    (by rw [hw]; exact hfirst) (by rw [hw]; exact hc) htag hgen (by rw [hw]; exact hheld) hreplay
  refine ⟨_, by rw [exec_openBatch h hq ha halign hmap hrs hport, hfor, htake, ← hw], ?_⟩
  rw [hst] at hevent hopened
  exact ⟨eventSent_congr (by rw [hw]; rfl) (sparPart_of_od (by rw [hw]; rfl) _) hevent, hopened⟩

/-! Counting frames (07 R219, R220). -/

theorem phase_takeCount (b : Batch) (body : Bytes) : (b.takeCount body).phase = b.phase := by
  unfold Batch.takeCount
  dsimp only
  split <;> rfl

/-- Before the exchanges begin, frames only wait. -/
theorem runExch_scoring {b : Batch} (h : b.phase = .scoring) (s : State) (q : Nat) : s.runExch q b = s.putBatch q b := by
  simp [State.runExch, advanceExch, h]

section
variable {s : State} {k : Packet} {r : List Packet} (hup : spireUp s 3) (hd : delivered s k r) (hk : k.kind = 0x11)
  (h3 : fieldAt k.payload 0 1 = 3) (hq : s.present k.qdst = true)
include hup hd hk h3 hq

theorem exec_countingFrame_open {b : Batch} (hb : s.batchOf k.qdst (fieldAt k.payload 2 2) (fieldAt k.payload 1 1) = some b)
    (hph : b.phase = .scoring) :
    exec .countingFrame s = .next (({ s with delivery := r } : State).putBatch k.qdst (b.takeCount (k.payload.drop 32))) := by
  have hframe : (decide (k.kind = 0x11) && fieldAt k.payload 0 1 != 4) = true := by simp [hk, h3]
  have hqt : ({ s with delivery := r } : State).present k.qdst = true := hq
  have hbt : ({ s with delivery := r } : State).batchOf k.qdst (fieldAt k.payload 2 2) (fieldAt k.payload 1 1) = some b := hb
  change execCountingFrame s = _
  rw [execCountingFrame, spireEvent_up _ hup.1 hup.2, State.takeDelivered_head hd hframe]
  simp only [hqt, h3, hbt, runExch_scoring ((phase_takeCount ..).trans hph)]
  simp

/-- A frame of a pair that is not open: counted as stale where the pair was cancelled or is one too many, held otherwise. -/
theorem exec_countingFrame_notOpen (hb : s.batchOf k.qdst (fieldAt k.payload 2 2) (fieldAt k.payload 1 1) = none) :
    exec .countingFrame s = .next (if (fieldAt k.payload 2 2, fieldAt k.payload 1 1) ∈ (s.part k.qdst).cancelled ∨
        (fieldAt k.payload 1 3 ∉ heldPairs s k.qdst ∧ 16 ≤ (heldPairs s k.qdst).length)
      then ({ s with delivery := r } : State).staleRows k.qdst 1
      else ({ s with delivery := r } : State).modPart k.qdst fun p => { p with held := p.held ++ [k] }) := by
  have hframe : (decide (k.kind = 0x11) && fieldAt k.payload 0 1 != 4) = true := by simp [hk, h3]
  have hqt : ({ s with delivery := r } : State).present k.qdst = true := hq
  have hbt : ({ s with delivery := r } : State).batchOf k.qdst (fieldAt k.payload 2 2) (fieldAt k.payload 1 1) = none := hb
  have hpt : ({ s with delivery := r } : State).part k.qdst = s.part k.qdst := rfl
  change execCountingFrame s = _
  rw [execCountingFrame, spireEvent_up _ hup.1 hup.2, State.takeDelivered_head hd hframe]
  simp only [hqt, h3, hbt, hpt, List.contains_iff_mem, State.modPart]
  simp

end

/-! The assignment's end (07 R221, R223, R225, R241, R243). -/

/-- What a closing batch counts: itself, and its choices, accepted, of the pool, and dropped. -/
def Batch.closeCounts (b : Batch) : List (Nat × Nat) :=
  [(1, 1), (2, b.books.getD 0 0), (3, b.books.getD 1 0), (4, b.books.getD 2 0), (5, b.books.getD 3 0)]

theorem goesOn_routeAdds (s : State) (q slot : Nat) (l : List (Nat × Nat)) : goesOn s (s.routeAdds q slot l) := by
  induction l generalizing s with
  | nil => exact (keepsCounts.refl s).togoesOn
  | cons x l ih => exact (goesOn_routeAdd s q slot x.1 x.2).trans (ih _)

/-- The notice of a batch's drops (07 R221). -/
def State.noteDrops (s : State) (q : Nat) (b : Batch) : State :=
  if b.books.getD 3 0 = 0 then s else s.raiseOpen 0x0121 (spireUnit 3) q (islSpire 5) [b.tag, b.gen, b.layer, b.books.getD 3 0]

theorem keepsCounts_noteDrops (s : State) (q : Nat) (b : Batch) : keepsCounts s (s.noteDrops q b) := by
  unfold State.noteDrops
  split
  · exact .refl s
  · exact keepsCounts_raiseOpen ..

theorem noteDrops_od (s : State) (q : Nat) (b : Batch) : (s.noteDrops q b).od = s.od := by
  unfold State.noteDrops
  split <;> rfl

/-- A closing batch: its books written and checked, CLOSED, the counts, and the notice of a drop. -/
theorem closeBatch_split {s : State} (hp : s.poison = []) (q : Nat) (b : Batch) (nonfin : Nat) :
    ∃ t, keepsCounts s t ∧ t.spars = s.spars ∧ t.od = s.od ∧
      s.closeBatch q b nonfin = ((t.batchEvent q b 0x82 0 0).routeAdds q b.layer b.closeCounts).noteDrops q b := by
  have hw : (s.putBatch q b).poison = [] := hp
  refine ⟨_, ((keepsCounts_modPart ..).trans (keepsCounts_engineWrite hw ..)).trans (keepsCounts_checkBooks ..), ?_, ?_, rfl⟩
  · rw [checkBooks_spars, State.engineWrite_clean hw]
    rfl
  · rw [checkBooks_od, State.engineWrite_clean hw]
    rfl

section
variable {s : State} (hp : s.poison = []) (q : Nat) (b : Batch) (nonfin : Nat)
include hp

/-- CLOSED goes out, whatever follows. -/
theorem closeBatch_event {u : State} (h : goesOn (s.closeBatch q b nonfin) u) : batchEventSent s u q b 0x82 0 0 := by
  obtain ⟨t, -, hspars, hod, hclose⟩ := closeBatch_split hp q b nonfin
  rw [hclose] at h
  exact eventSent_of_event hspars (sparPart_of_od hod _) ((goesOn_routeAdds ..).trans ((keepsCounts_noteDrops ..).togoesOn.trans h))

theorem goesOn_closeBatch : goesOn s (s.closeBatch q b nonfin) := by
  obtain ⟨t, hkeep, -, -, hclose⟩ := closeBatch_split hp q b nonfin
  rw [hclose]
  exact (hkeep.trans (keepsCounts_batchEvent ..)).togoesOn.trans ((goesOn_routeAdds ..).trans (keepsCounts_noteDrops ..).togoesOn)

/-- The counts of a closing batch, and one more counted behind them. -/
theorem odGet_closeBatch {sub n y : Nat} (h : (sub, y) ∈ b.closeCounts ++ [(6, n)]) (hy : 0 < y) :
    ((s.closeBatch q b nonfin).routeAdd q b.layer 6 n).odGet q (0x5100 + b.layer) sub = (s.odGet q (0x5100 + b.layer) sub + y) % 2 ^ 64 := by
  obtain ⟨t, hkeep, -, -, hclose⟩ := closeBatch_split hp q b nonfin
  have hall : ((t.batchEvent q b 0x82 0 0).routeAdds q b.layer b.closeCounts).routeAdd q b.layer 6 n =
      (t.batchEvent q b 0x82 0 0).routeAdds q b.layer (b.closeCounts ++ [(6, n)]) := by
    rw [State.routeAdds, State.routeAdds, List.foldl_append, List.foldl_cons, List.foldl_nil]
  have hnodup : ((b.closeCounts ++ [(6, n)]).map Prod.fst).Nodup := by simp [Batch.closeCounts]
  rw [hclose, State.odGet, routeAdd_od_congr (noteDrops_od ..), hall]
  refine (odGet_routeAdds hnodup h hy).trans ?_
  rw [(hkeep.trans (keepsCounts_batchEvent ..)).odGet]

/-- A drop raises ROUTE_DROP, whatever follows. -/
theorem closeBatch_drop {u : State} (h : goesOn (s.closeBatch q b nonfin) u) (hdrop : 0 < b.books.getD 3 0) :
    faultCarries u 0x0121 [b.tag, b.gen, b.layer, b.books.getD 3 0] := by
  obtain ⟨t, -, -, -, hclose⟩ := closeBatch_split hp q b nonfin
  rw [hclose, State.noteDrops, if_neg (by omega)] at h
  exact ⟨_, h.faults.subset (List.mem_append_right _ List.mem_cons_self), rfl, rfl⟩

end

/-! Rows sent (07 R225). -/

theorem noteSelf_keeps (b : Batch) (own : Nat) :
    (b.noteSelf own).tag = b.tag ∧ (b.noteSelf own).gen = b.gen ∧ (b.noteSelf own).phase = b.phase := by
  unfold Batch.noteSelf
  induction b.servedFor own using List.reverseRecOn with
  | nil => exact ⟨rfl, rfl, rfl⟩
  | append_singleton l x ih =>
    rw [List.foldl_append, List.foldl_cons, List.foldl_nil, Batch.noteRow]
    split <;> exact ih

theorem keepsCounts_dispatchRows {s : State} (hp : s.poison = []) (q : Nat) (b : Batch) (g : List Nat) : keepsCounts s (s.dispatchRows q b g) :=
  (keepsCounts_engineWrite hp ..).trans (keepsCounts_foldl (fun _ _ => keepsCounts_sendRows ..) _ _)

section
variable {s : State} (hp : s.poison = []) (q : Nat) (b : Batch)
include hp

/-- Rows dispatched grow one counter, that of rows written. -/
theorem startDispatch_split : ∃ t n, keepsCounts s t ∧ keepsCounts (t.routeAdd q b.layer 7 n) (s.startDispatch q b) := by
  obtain ⟨t, ht⟩ : ∃ t, t = s.dispatchRows q b (s.batchGroup q b) := ⟨_, rfl⟩
  obtain ⟨c, hc⟩ : ∃ c, c = b.noteSelf s.ownLid := ⟨_, rfl⟩
  obtain ⟨v, hv⟩ : ∃ v, v = (t.routeAdd q b.layer 7 (c.rxReg + c.rxPool - b.rxReg - b.rxPool)).putBatch q c := ⟨_, rfl⟩
  have ht' : keepsCounts s t := ht ▸ keepsCounts_dispatchRows hp ..
  have hv' : keepsCounts (t.routeAdd q b.layer 7 (c.rxReg + c.rxPool - b.rxReg - b.rxPool)) v := hv ▸ keepsCounts_modPart ..
  have hvp : v.poison = [] := hv'.poison ((goesOn_routeAdd ..).poison (ht'.poison hp))
  have harr := keepsCounts_checkArrived hvp q c
  refine ⟨t, _, ht', hv'.trans (harr.trans ?_)⟩
  simp only [State.startDispatch, ← ht, ← hc, ← hv]
  split
  · exact .refl _
  · exact keepsCounts_checkReturned (harr.poison hvp) ..

theorem goesOn_startDispatch : goesOn s (s.startDispatch q b) := by
  obtain ⟨t, n, ht, hd⟩ := startDispatch_split hp q b
  exact ht.togoesOn.trans ((goesOn_routeAdd ..).trans hd.togoesOn)

theorem odGet_startDispatch {sub : Nat} (h : 7 ≠ sub) :
    (s.startDispatch q b).odGet q (0x5100 + b.layer) sub = s.odGet q (0x5100 + b.layer) sub := by
  obtain ⟨t, n, ht, hd⟩ := startDispatch_split hp q b
  rw [hd.odGet, odGet_routeAdd_other _ _ _ h, ht.odGet]

theorem phase_startDispatch {d : Batch} (hb : b.phase = .closed) (h : (s.startDispatch q b).batchOf q b.tag b.gen = some d) :
    d.phase = .closed := by
  obtain ⟨c, hc⟩ : ∃ c, c = b.noteSelf s.ownLid := ⟨_, rfl⟩
  obtain ⟨htag, hgen, hph⟩ : c.tag = b.tag ∧ c.gen = b.gen ∧ c.phase = b.phase := hc ▸ noteSelf_keeps ..
  obtain ⟨v, hv⟩ : ∃ v, v = ((s.dispatchRows q b (s.batchGroup q b)).routeAdd q b.layer 7 (c.rxReg + c.rxPool - b.rxReg - b.rxPool)).putBatch q c :=
    ⟨_, rfl⟩
  have hvp : v.poison = [] := by
    rw [hv]
    exact (goesOn_routeAdd ..).poison ((keepsCounts_dispatchRows hp ..).poison hp)
  simp only [State.startDispatch, ← hc, ← hv] at h
  split at h
  · next hnone =>
    rw [hnone] at h
    cases h
  · next e he =>
    obtain ⟨hetag, hegen, heph⟩ := batchOf_some he
    rw [← htag, ← hgen] at he
    rw [← hetag, ← hegen] at h
    have hclosed : e.phase = .closed := by
      rcases batchOf_checkArrived hvp (by simp [hph, hb]) he with rfl | rfl <;> exact hph.trans hb
    rcases batchOf_checkReturned heph h with rfl | rfl <;> exact hclosed

end

/-- ASSIGNMENT_COMPLETE of an open access: the lists written, the batch closed, its rows sent. -/
theorem exec_assignmentComplete {s w : State} {q tag gen n : Nat} {b c : Batch} {rs : List (Nat × Nat)} (hup : spireUp s 3)
    (hb : s.batchOf q tag gen = some b) (hph : b.phase = .assigning) (hc : c = b.assigned (s.batchGroup q b)) (hn : n = b.n - b.choices.length)
    (hrs : rs = writeRanges (b.assignWrites (s.batchGroup q b)) ++ s.dispatchRanges q c) (hport : cleanPort s (engineUnit 0) rs)
    (hw : w = (s.takeAsk (engineUnit 0) rs).engineWrite q (b.assignWrites (s.batchGroup q b))) :
    exec (.assignmentComplete q tag gen) s = .next (((w.closeBatch q c n).routeAdd q c.layer 6 n).startDispatch q c) := by
  have hp : (s.takeAsk (engineUnit 0) rs).poison = [] := (takeAsk_poison ..).trans hport.1
  have hlayer : c.layer = b.layer := by rw [hc]; rfl
  change execAssignmentComplete q tag gen s = _
  rw [execAssignmentComplete, spireEvent_up _ hup.1 hup.2]
  simp only [hb, hph, if_true, ← hc, ← hn, ← hrs]
  rw [portGate_clean hport, engineRead_clean hp, hw, hlayer]

/-- The assignment's end: CLOSED, the counts, a drop's notice, and the batch closed. -/
theorem assignment_ends {s : State} {q tag gen n : Nat} {b c : Batch} (hup : spireUp s 3) (hb : s.batchOf q tag gen = some b)
    (hph : b.phase = .assigning) (hc : c = b.assigned (s.batchGroup q b)) (hn : n = b.n - b.choices.length)
    (hport : cleanPort s (engineUnit 0) (writeRanges (b.assignWrites (s.batchGroup q b)) ++ s.dispatchRanges q c)) :
    ∃ u, exec (.assignmentComplete q tag gen) s = .next u ∧ batchEventSent s u q c 0x82 0 0 ∧
      (∀ sub x, (sub, x) ∈ c.closeCounts ++ [(6, n)] → 0 < x →
        u.odGet q (0x5100 + c.layer) sub = (s.odGet q (0x5100 + c.layer) sub + x) % 2 ^ 64) ∧
      (0 < c.books.getD 3 0 → faultCarries u 0x0121 [c.tag, c.gen, c.layer, c.books.getD 3 0]) ∧
      ∀ d, u.batchOf q c.tag c.gen = some d → d.phase = .closed := by
  obtain ⟨w, hw⟩ : ∃ w, w = (s.takeAsk (engineUnit 0) (writeRanges (b.assignWrites (s.batchGroup q b)) ++ s.dispatchRanges q c)).engineWrite q
    (b.assignWrites (s.batchGroup q b)) := ⟨_, rfl⟩
  have htp : (s.takeAsk (engineUnit 0) (writeRanges (b.assignWrites (s.batchGroup q b)) ++ s.dispatchRanges q c)).poison = [] :=
    (takeAsk_poison ..).trans hport.1
  have hwclean := hw.trans (State.engineWrite_clean htp q _)
  have hp : w.poison = [] := by rw [hwclean]; exact htp
  have hod : w.od = s.od := by rw [hwclean]; exact takeAsk_od ..
  have hspars : w.spars = s.spars := by rw [hwclean]; exact takeAsk_spars ..
  have hadd := goesOn_routeAdd (w.closeBatch q c n) q c.layer 6 n
  have hap := hadd.poison ((goesOn_closeBatch hp q c n).poison hp)
  have hgo := hadd.trans (goesOn_startDispatch hap q c)
  refine ⟨_, exec_assignmentComplete hup hb hph hc hn rfl hport hw, eventSent_congr hspars (sparPart_of_od hod _) (closeBatch_event hp q c n hgo),
    fun sub x hx hpos => ?_, closeBatch_drop hp q c n hgo, fun d => phase_startDispatch hap q c (by rw [hc]; rfl)⟩
  have hsub : 7 ≠ sub := by
    rintro rfl
    simp [Batch.closeCounts] at hx
  rw [odGet_startDispatch hap q c hsub, odGet_closeBatch hp q c n hx hpos, State.odGet, hod, State.odGet]

/-- Settles O36: the OPENs, the counting frames, and the assignment's end. -/
theorem batchLifecycle : Obligations.BatchLifecycle := by
  unfold Obligations.BatchLifecycle
  refine ⟨⟨fun s t r h hbad => exec_openBatch_unreadable h hbad,
    fun s t q a k r rec h hq ha halign hmap hport hrec hfirst hk hkt hk8 hbit => ?_,
    fun s t q a r rec b h hq ha halign hmap hport hrec hfirst hall hheld hb hok hreplay => ?_⟩,
    ⟨fun s k r b hup hd hk h3 hq hb hph => exec_countingFrame_open hup hd hk h3 hq hb hph,
    fun s k r hup hd hk h3 hq hb hcan hroom => ?_, fun s k r hup hd hk h3 hq hb hbad => ?_⟩,
    fun s q tag gen b c n hup hb hph hc hn hport => ?_⟩
  · obtain ⟨rfl, hp⟩ : rec = s.domeRead a 192 ∧ s.poison = [] := ⟨hrec, hport.1⟩
    have hwait : s.allOpen q (.begun (s.domeRead a 192) t a) = false := allOpen_begun_false hk hkt hk8 hbit
    have hfor := openFor_first (t := t) hfirst
    have hrs : s.openRanges q t a = [(a, 192)] := by simp [State.openRanges, hfor, hwait]
    rw [exec_openBatch h hq ha halign hmap hrs hport, hfor]
    obtain ⟨as, ws, htake⟩ := s.takeAsk_frame (engineUnit 0) [(a, 192)]
    rw [htake]
    exact congrArg _ (tryOpen_waits hwait rfl hfirst)
  · obtain ⟨b0, hb0⟩ : ∃ b0, b0 = Batch.begun rec t a := ⟨_, rfl⟩
    have hmapped : b = { b0 with emap := (List.range b0.e).map (emapEntry (s.domeRead (b0.addr 48) (32 * b0.e))) } := by rw [hb, hb0]; rfl
    have hfor : s.openFor q t a = b0 := by rw [openFor_first (hrec ▸ hfirst), hb0, hrec]
    have hok0 : s.recordFieldsOk q b0 = true := by rw [hmapped] at hok; exact hok
    have hreads : [(a, 192), (fieldAt rec 48 8, 32 * fieldAt rec 12 2)] = (a, 192) :: s.mapReads q b0 := by
      rw [State.mapReads, if_pos hok0, hb0]
      rfl
    exact exec_openBatch_last h hq ha halign hmap hfor (hb0 ▸ allOpen_begun hall) (by rw [hb0]; rfl) (by rw [hb0]; exact hfirst)
      ((if_pos hok0).trans hmapped.symm) (by rw [hmapped]) (by rw [hmapped]) (by rw [hb0]; exact hheld) hreplay (hreads ▸ hport)
  · rw [exec_countingFrame_notOpen hup hd hk h3 hq hb, if_neg]
    rintro (h | ⟨h, hfull⟩)
    · exact hcan h
    · exact hroom.elim h (by omega)
  · rw [exec_countingFrame_notOpen hup hd hk h3 hq hb, if_pos hbad]
  · obtain ⟨htag, hgen, -⟩ := batchOf_some hb
    have := assignment_ends hup hb hph hc hn hport
    subst hc htag hgen
    exact this

end Sys2Proof.Machine
end

section
/-! PROOF. What the collective engine's work leaves of the state (08 R253-R257): what it sends, counts and writes. -/

namespace Sys2Proof.Machine

open Sys2Proof Sys2Proof.Safety

/-- What the engine leaves while a collective is at work: no line becomes poisoned, the spars, the tables and the open collectives stay,
and so do the objects other than the range counters and the router's (02 R62, 11 R341). -/
structure keepsCols (s u : State) : Prop where
  poison : s.poison = [] → u.poison = []
  spars : u.spars = s.spars
  blobs : u.blobs = s.blobs
  cols : ∀ p, (u.part p).cols = (s.part p).cols
  od : ∀ key, key / 2 ^ 16 % 256 ≠ 0x22 → key / 2 ^ 16 % 256 ≠ 0x41 → ∀ d, mapGet d u.od key = mapGet d s.od key

theorem keepsCols.trans {s t u : State} (h : keepsCols s t) (h' : keepsCols t u) : keepsCols s u :=
  ⟨fun hp => h'.poison (h.poison hp), h'.spars.trans h.spars, h'.blobs.trans h.blobs, fun p => (h'.cols p).trans (h.cols p),
    fun key h2 h4 d => (h'.od key h2 h4 d).trans (h.od key h2 h4 d)⟩

theorem keepsCols_of_same {s u : State} (hp : u.poison = s.poison) (hs : u.spars = s.spars) (hb : u.blobs = s.blobs) (hq : u.parts = s.parts)
    (ho : u.od = s.od) : keepsCols s u :=
  ⟨fun h => hp.trans h, hs, hb, fun p => by rw [part_of_parts hq], fun _ _ _ _ => by rw [ho]⟩

theorem keepsCols.refl (s : State) : keepsCols s s := keepsCols_of_same rfl rfl rfl rfl rfl

/-- Steps one after another, each from a state with no line poisoned. -/
theorem keepsCols_foldl {α : Type} {f : State → α → State} (hf : ∀ t a, t.poison = [] → keepsCols t (f t a)) (l : List α) {s : State}
    (h : s.poison = []) : keepsCols s (l.foldl f s) := by
  induction l generalizing s with
  | nil => exact .refl s
  | cons a l ih => exact (hf s a h).trans (ih ((hf s a h).poison h))

theorem keepsCols.odGet {s u : State} (h : keepsCols s u) (q : Nat) {i k : Nat} (hk : k < 256) (h2 : i / 256 % 256 ≠ 0x22)
    (h4 : i / 256 % 256 ≠ 0x41) : u.odGet q i k = s.odGet q i k := by
  have hpage : odKey q i k / 2 ^ 16 % 256 = i / 256 % 256 := by unfold odKey; omega
  exact h.od _ (hpage ▸ h2) (hpage ▸ h4) _

theorem keepsCols.sparPart {s u : State} (h : keepsCols s u) (i : Nat) : u.sparPart i = s.sparPart i := by
  have hget : ∀ q < 4, ∀ k < 256, u.odGet 0 (0x1010 + q) k = s.odGet 0 (0x1010 + q) k := fun q hq k hk =>
    h.odGet 0 hk (by omega) (by omega)
  refine congrArg (Option.getD · 4) (List.find?_congr fun q hq => ?_)
  have hq4 : q < 4 := List.mem_range.1 hq
  simp only [State.present, State.towerMask, hget q hq4 1 (by decide), hget q hq4 2 (by decide)]

theorem keepsCols.members {s u : State} (h : keepsCols s u) (c : ColOp) : u.members' c = s.members' c := by
  have hlid : u.ownLid = s.ownLid := h.odGet 0 (by decide) (by decide) (by decide)
  simp only [State.members', State.colGroup, State.blobGet, hlid, h.blobs]

/-! Counting, squares, writes and frames. -/

/-- An object of the range counters or of the router's changed. -/
theorem keepsCols_odAdd (s : State) (q : Nat) {i k : Nat} (hk : k < 256) (hi : i / 256 % 256 = 0x22 ∨ i / 256 % 256 = 0x41) (n : Nat) :
    keepsCols s (s.odAdd q i k n) := by
  refine ⟨id, rfl, rfl, fun _ => rfl, fun key h2 h4 d => mapGet_mapSet_ne _ _ _ _ ?_⟩
  rintro rfl
  unfold odKey at h2 h4
  omega

theorem keepsCols_countRange (s : State) (q : Nat) {slot : Nat} (hslot : slot < 256) (c : Conv) : keepsCols s (s.countRange q slot c) := by
  have key : ∀ (l : List (Nat × Nat)), (∀ e ∈ l, e.1 < 5) → ∀ t : State,
      keepsCols t (l.foldl (fun s e => if e.2 = 0 then s else s.odAdd q (0x2200 + slot) (e.1 + 1) e.2) t) := by
    intro l
    induction l with
    | nil => exact fun _ t => .refl t
    | cons e l ih =>
      intro hl t
      refine keepsCols.trans (t := if e.2 = 0 then t else t.odAdd q (0x2200 + slot) (e.1 + 1) e.2) ?_
        (ih (fun x hx => hl x (List.mem_cons_of_mem _ hx)) _)
      split
      · exact .refl t
      · have := hl e (List.mem_cons_self ..)
        exact keepsCols_odAdd t q (by omega) (.inl (by omega)) _
  exact key _ (fun e he => List.mem_range.1 (List.of_mem_zip he).1) s

/-- A partition's context changed beside its open collectives. -/
theorem keepsCols_setPart {s : State} {q : Nat} {x : Part} (hx : x.cols = (s.part q).cols) : keepsCols s (s.setPart q x) := by
  refine ⟨id, rfl, rfl, fun p => ?_, fun _ _ _ _ => rfl⟩
  by_cases hp : q = p
  · subst hp
    rw [State.part_setPart_self, hx]
  · rw [State.part_setPart_other s _ hp]

theorem keepsCols_modPart (s : State) (q : Nat) {f : Part → Part} (hf : ∀ p, (f p).cols = p.cols) : keepsCols s (s.modPart q f) :=
  keepsCols_setPart (hf _)

theorem keepsCols_raiseError (s : State) (code source q isl : Nat) (vals : List Nat) : keepsCols s (s.raiseError code source q isl vals) :=
  (keepsCols_modPart s q (f := fun p => { p with errSince := true }) fun _ => rfl).trans (keepsCols_of_same rfl rfl rfl rfl rfl)

theorem keepsCols_normNonfinite (s : State) (q slot k : Nat) : keepsCols s (s.normNonfinite q slot k) := by
  unfold State.normNonfinite
  extract_lets p b t
  have ht : keepsCols s t := keepsCols_setPart rfl
  clear_value t
  split
  · exact ht
  · refine keepsCols.trans ?_ (keepsCols_raiseError ..)
    exact ht.trans (keepsCols_modPart t q fun _ => rfl)

theorem keepsCols_addGradSquares (s : State) (q slot : Nat) (vs : List FVal) : keepsCols s (s.addGradSquares q slot vs) := by
  unfold State.addGradSquares
  extract_lets n t
  have ht : keepsCols s t := keepsCols_modPart _ q fun _ => rfl
  split
  · exact ht
  · exact ht.trans (keepsCols_normNonfinite ..)

theorem keepsCols_engineWrite {s : State} (h : s.poison = []) (q : Nat) (ws : List (Nat × Bytes)) : keepsCols s (s.engineWrite q ws) := by
  rw [State.engineWrite_clean h]
  exact keepsCols_of_same rfl rfl rfl rfl rfl

/-- The router's counters (11 Table 11-10). -/
theorem keepsCols_routerCount (s : State) {sub : Nat} (h : sub < 256) : keepsCols s (s.routerCount sub) :=
  keepsCols_odAdd s 0 h (.inr rfl) 1

theorem keepsCols_deliverLocal (s : State) (p : Packet) : keepsCols s (s.deliverLocal p) :=
  keepsCols.trans (t := { s with delivery := s.delivery ++ [p] }) (keepsCols_of_same rfl rfl rfl rfl rfl)
    (keepsCols_routerCount _ (by decide))

theorem keepsCols_injectHead {s t : State} {key : Nat} (h : s.injectHead key = some t) : keepsCols s t := by
  have hq : ∀ r, keepsCols s { s with inject := mapSet [] s.inject key r } := fun _ => keepsCols_of_same rfl rfl rfl rfl rfl
  unfold State.injectHead at h
  split at h
  · cases h
  dsimp only at h
  split at h
  · split at h
    · cases h
      exact (hq _).trans (keepsCols_deliverLocal ..)
    · cases h
  split at h
  · cases h
    exact (hq _).trans (keepsCols_routerCount (sub := 3) _ (by decide))
  · split at h
    · cases h
      exact keepsCols_of_same rfl rfl rfl rfl rfl
    · cases h

theorem keepsCols_pumpKey (n : Nat) (s : State) (key : Nat) : keepsCols s (State.pumpKey n s key) := by
  induction n generalizing s with
  | zero => exact .refl s
  | succ n ih =>
    rw [State.pumpKey]
    split
    · next t h => exact (keepsCols_injectHead h).trans (ih t)
    split
    · next t h =>
      have hnext : keepsCols s t := by
        unfold State.injectNext at h
        split at h
        · cases h
        split at h
        · cases h
          exact keepsCols_of_same rfl rfl rfl rfl rfl
        · cases h
      exact hnext.trans (ih t)
    · exact .refl s

theorem keepsCols_launch (s : State) (src : Nat) (p : Packet) : keepsCols s (s.launch src p) :=
  keepsCols.trans (t := { s with outbox := mapSet [] s.outbox (4 * src + p.vl) (mapGet [] s.outbox (4 * src + p.vl) ++ [p]) })
    (keepsCols_of_same rfl rfl rfl rfl rfl) (keepsCols_pumpKey ..)

theorem keepsCols_sendFlow (s : State) (src q kind dlid qdst : Nat) (payload : Bytes) :
    keepsCols s (s.sendFlow src q kind dlid qdst payload) := by
  refine keepsCols.trans (t := (s.nextFlow dlid).2) (keepsCols_of_same rfl rfl rfl rfl rfl) ?_
  rw [State.sendFlow, State.sendPacket]
  split
  · exact .refl _
  split
  · exact .refl _
  · exact keepsCols_launch ..

theorem keepsCols_sendBlocks {s : State} (h : s.poison = []) (c : ColOp) (lid fmt part first : Nat) (bs : List Bytes) :
    keepsCols s (s.sendBlocks c lid fmt part first bs) := keepsCols_foldl (fun _ _ _ => keepsCols_sendFlow ..) _ h

theorem keepsCols_sendEntries {s : State} (h : s.poison = []) (c : ColOp) (lid ftype rank level : Nat) (es : List Nat) :
    keepsCols s (s.sendEntries c lid ftype rank level es) := keepsCols_foldl (fun _ _ _ => keepsCols_sendFlow ..) _ h

end Sys2Proof.Machine
end

section
/-! PROOF. The blocks a collective's own contribution writes (08 R254-R257). -/

namespace Sys2Proof.Machine

open Sys2Proof Sys2Proof.Safety

/-! Sets of block numbers. -/

theorem length_setIns {l : List Nat} {a : Nat} (h : a ∉ l) : (setIns l a).length = l.length + 1 := by
  induction l with
  | nil => rfl
  | cons k r ih =>
    obtain ⟨hk, hr⟩ := not_or.1 (mt List.mem_cons.2 h)
    rw [setIns]
    split
    · rfl
    · rw [List.length_cons, ih hr, List.length_cons]

theorem length_foldl_setIns {bs l : List Nat} (hn : bs.Nodup) (hl : ∀ b ∈ bs, b ∉ l) : (bs.foldl setIns l).length = l.length + bs.length := by
  induction bs generalizing l with
  | nil => rfl
  | cons b bs ih =>
    obtain ⟨hb, hbs⟩ := List.nodup_cons.1 hn
    have hnew : ∀ x ∈ bs, x ∉ setIns l b := fun x hx hmem => by
      rcases mem_setIns.1 hmem with rfl | h
      · exact hb hx
      · exact hl x (List.mem_cons_of_mem _ hx) h
    rw [List.foldl_cons, ih hbs hnew, length_setIns (hl b (List.mem_cons_self ..)), List.length_cons]
    omega

/-- Consecutive block numbers. -/
theorem nodup_map_add (a n : Nat) : ((List.range n).map (a + ·)).Nodup := List.nodup_range.map fun _ _ h => Nat.add_left_cancel h

theorem nodup_shard (b n k : Nat) : (shard b n k).Nodup := nodup_map_add _ _

theorem lt_of_mem_shard {b n k x : Nat} (hk : k < n) (h : x ∈ shard b n k) : x < b := by
  obtain ⟨i, hi, rfl⟩ := List.mem_map.1 h
  have hend : shardAt b n (k + 1) ≤ b :=
    Nat.div_le_of_le_mul (Nat.mul_le_mul_right b hk)
  have := List.mem_range.1 hi
  omega

/-- The one shard of a collective with one member is the whole tensor. -/
theorem shard_alone (b : Nat) : shard b 1 0 = List.range b := by
  simp [shard, shardAt]

/-- A collective whose output blocks `bs` have been written. -/
def ColOp.withWrote (c : ColOp) (bs : List Nat) : ColOp := { c with wrote := bs.foldl setIns c.wrote }

/-! Blocks copied (08 R257). -/

theorem copyOut_new {c : ColOp} {b : Nat} (h : b ∉ c.wrote) (s : State) (fmt : Nat) (bytes : Bytes) :
    s.copyOut c b fmt bytes = (s.engineWrite c.q (outWrites c b fmt bytes), { c with wrote := setIns c.wrote b }) := by
  simp [State.copyOut, h]

/-- Blocks copied one after another, none of them written before. -/
theorem copies_new (fmt : Nat) (l : List (Nat × Bytes)) {s : State} {c : ColOp} (hp : s.poison = []) (hn : (l.map (·.1)).Nodup)
    (hl : ∀ x ∈ l, x.1 ∉ c.wrote) :
    keepsCols s (l.foldl (fun (acc : State × ColOp) x => acc.1.copyOut acc.2 x.1 fmt x.2) (s, c)).1 ∧
      (l.foldl (fun (acc : State × ColOp) x => acc.1.copyOut acc.2 x.1 fmt x.2) (s, c)).2 = c.withWrote (l.map (·.1)) := by
  induction l generalizing s c with
  | nil => exact ⟨.refl s, rfl⟩
  | cons x l ih =>
    obtain ⟨hx, hn⟩ := List.nodup_cons.1 hn
    have hw := keepsCols_engineWrite hp c.q (outWrites c x.1 fmt x.2)
    have hnew : ∀ y ∈ l, y.1 ∉ setIns c.wrote x.1 := fun y hy hmem => by
      rcases mem_setIns.1 hmem with h | h
      · exact hx (List.mem_map.2 ⟨y, hy, h⟩)
      · exact hl y (List.mem_cons_of_mem _ hy) h
    rw [List.foldl_cons, copyOut_new (hl x (List.mem_cons_self ..))]
    obtain ⟨hk, hc⟩ := ih (c := { c with wrote := setIns c.wrote x.1 }) (hw.poison hp) hn hnew
    exact ⟨hw.trans hk, hc⟩

/-! LOCAL_PASS (08 R255). -/

theorem dome_raiseError (s : State) (code source q isl : Nat) (vals : List Nat) : (s.raiseError code source q isl vals).dome = s.dome := rfl

theorem dome_normNonfinite (s : State) (q slot k : Nat) : (s.normNonfinite q slot k).dome = s.dome := by
  unfold State.normNonfinite
  extract_lets p b t
  have ht : t.dome = s.dome := rfl
  clear_value t
  split
  · exact ht
  · rw [dome_raiseError, State.modPart_dome, ht]

@[simp] theorem dome_addGradSquares (s : State) (q slot : Nat) (vs : List FVal) : (s.addGradSquares q slot vs).dome = s.dome := by
  unfold State.addGradSquares
  extract_lets n t
  split
  · rfl
  · exact dome_normNonfinite ..

/-- What a local pass counts of an input block. -/
def State.countPassed (t : State) (c : ColOp) (x : Bytes × Conv) : State :=
  let t1 := t.countRange c.q c.layer (if c.ifmt = 1 then x.2 else { nBlk := if fieldAt x.1 64 1 = 0xFF then 1 else 0 })
  if c.gnorm then t1.addGradSquares c.q c.layer (s16Values x.1) else t1

theorem keepsCols_countPassed (t : State) {c : ColOp} (hl : c.layer < 256) (x : Bytes × Conv) : keepsCols t (t.countPassed c x) := by
  have hcount := keepsCols_countRange t c.q hl
  unfold State.countPassed
  dsimp only
  split
  · exact (hcount _).trans (keepsCols_addGradSquares ..)
  · exact hcount _

@[simp] theorem dome_countPassed (t : State) (c : ColOp) (x : Bytes × Conv) : (t.countPassed c x).dome = t.dome := by
  unfold State.countPassed
  dsimp only
  split <;> simp

/-- Blocks passed one after another, none of them written before: each is counted and written. -/
theorem passes_new (s : State) {c : ColOp} (hl : c.layer < 256) (bs : List Nat) {t : State} {w : List Nat} (hp : t.poison = [])
    (hn : bs.Nodup) (hw : ∀ b ∈ bs, b ∉ w) :
    ∃ u, keepsCols t u ∧ u.dome = writeAll t.dome (bs.flatMap fun b => outWrites c b 0 (s.colInput c b).1) ∧
      bs.foldl (fun (acc : State × ColOp) b => (acc.1.countPassed c (s.colInput c b)).copyOut acc.2 b 0 (s.colInput c b).1)
        (t, { c with wrote := w }) = (u, { c with wrote := bs.foldl setIns w }) := by
  induction bs generalizing t w with
  | nil => exact ⟨t, .refl t, rfl, rfl⟩
  | cons b bs ih =>
    obtain ⟨hb, hbs⟩ := List.nodup_cons.1 hn
    have hcount := keepsCols_countPassed t hl (s.colInput c b)
    have hwrite := keepsCols_engineWrite (hcount.poison hp) c.q (outWrites c b 0 (s.colInput c b).1)
    have hnew : ∀ x ∈ bs, x ∉ setIns w b := fun x hx hmem => by
      rcases mem_setIns.1 hmem with rfl | h
      · exact hb hx
      · exact hw x (List.mem_cons_of_mem _ hx) h
    obtain ⟨u, hu, hdome, hfold⟩ := ih (hwrite.poison (hcount.poison hp)) hbs hnew
    refine ⟨u, (hcount.trans hwrite).trans hu, ?_, ?_⟩
    · rw [hdome, State.engineWrite_clean (hcount.poison hp), List.flatMap_cons, writeAll, writeAll, List.foldl_append]
      simp only [dome_countPassed]
    · rw [List.foldl_cons, copyOut_new (hw b (List.mem_cons_self ..))]
      exact hfold

theorem colSend_localPass {s : State} {c : ColOp} (hp : s.poison = []) (hop : c.op = 5) (hl : c.layer < 256) (hw : c.wrote = []) (g : List Nat) :
    ∃ u, keepsCols s u ∧ u.dome = writeAll s.dome ((List.range c.blocks).flatMap fun b => outWrites c b 0 (s.colInput c b).1) ∧
      s.colSend c g = (u, c.withWrote (List.range c.blocks)) := by
  obtain ⟨u, hu, hdome, hfold⟩ := passes_new s hl (List.range c.blocks) (w := c.wrote) hp List.nodup_range (by simp [hw])
  refine ⟨u, hu, hdome, ?_⟩
  rw [State.colSend, if_pos hop]
  exact hfold

/-! The copies (08 R257). -/

theorem colSend_allGather {s : State} {c : ColOp} (hp : s.poison = []) (hop : c.op = 2) (hw : c.wrote = []) (g : List Nat) :
    keepsCols s (s.colSend c g).1 ∧ (s.colSend c g).2 = c.withWrote (shard c.blocks g.length c.rank) := by
  obtain ⟨mine, hmine⟩ : ∃ mine, mine = shard c.blocks g.length c.rank := ⟨_, rfl⟩
  have hzip : (mine.zip (mine.map fun b => (s.colInput c b).1)).map (·.1) = mine := List.map_fst_zip (by simp)
  have hsend := keepsCols_foldl (fun t lid ht => keepsCols_sendBlocks ht c lid c.ifmt 0 (mine.headD 0) (mine.map fun b => (s.colInput c b).1))
    (g.filter (· ≠ s.ownLid)) hp
  obtain ⟨hk, hc⟩ := copies_new c.ifmt (mine.zip (mine.map fun b => (s.colInput c b).1)) (c := c) (hsend.poison hp)
    (by rw [hzip, hmine]; exact nodup_shard ..) (by simp [hw])
  rw [hzip] at hc
  subst hmine
  rw [State.colSend, if_neg (by omega), if_neg (by omega), if_pos hop]
  exact ⟨hsend.trans hk, hc⟩

theorem colSend_allToAll {s : State} {c : ColOp} (hp : s.poison = []) (hop : c.op = 4) (hw : c.wrote = []) (g : List Nat) :
    keepsCols s (s.colSend c g).1 ∧
      (s.colSend c g).2 = c.withWrote ((List.range (c.blocks / g.length)).map (c.rank * (c.blocks / g.length) + ·)) := by
  obtain ⟨p, hpart⟩ : ∃ p, p = c.blocks / g.length := ⟨_, rfl⟩
  obtain ⟨part, hdef⟩ : ∃ part : Nat → List Bytes, part = fun k => (List.range p).map fun i => (s.colInput c (k * p + i)).1 := ⟨_, rfl⟩
  obtain ⟨own, hown⟩ : ∃ own, own = (part c.rank).zipIdx.map fun x => (c.rank * p + x.2, x.1) := ⟨_, rfl⟩
  have hfst : own.map (·.1) = (List.range p).map (c.rank * p + ·) := by
    have hsnd : (part c.rank).zipIdx.map Prod.snd = List.range p := by simp [hdef, List.range_eq_range']
    rw [hown, ← hsnd, List.map_map, List.map_map]
    rfl
  have hsend := keepsCols_foldl (fun t (x : Nat × Nat) ht => keepsCols_sendBlocks ht c x.1 c.ifmt 0 (x.2 * p) (part x.2))
    (g.zipIdx.filter fun x => x.1 != s.ownLid) hp
  obtain ⟨hk, hc⟩ := copies_new c.ifmt own (c := c) (hsend.poison hp) (hfst ▸ nodup_map_add _ _) (by simp [hw])
  rw [hfst] at hc
  rw [hown, List.foldl_map] at hk hc
  rw [State.colSend, if_neg (by omega), if_neg (by omega), if_neg (by omega)]
  subst hdef hpart
  exact ⟨hsend.trans hk, hc⟩

end Sys2Proof.Machine
end

section
/-! PROOF. The reductions and the norm reduction of a collective that starts (08 R256, R259, R264, R269). -/

namespace Sys2Proof.Machine

open Sys2Proof Sys2Proof.Safety

/-! Contributions held, by block. -/

/-- An entry that a filter keeps reads as before. -/
theorem mapGet_filter {α : Type} (d : α) (m : List (Nat × α)) {p : Nat × α → Bool} {a : Nat} (h : ∀ e, e.1 = a → p e = true) :
    mapGet d (m.filter p) a = mapGet d m a := by
  induction m with
  | nil => rfl
  | cons e m ih =>
    obtain ⟨k, v⟩ := e
    by_cases hk : k = a
    · subst hk
      simp [h, mapGet]
    · by_cases hp : p (k, v) = true <;> simp [hp, mapGet, hk, ih]

theorem colKey_inj {r r' b b' : Nat} (hb : b < 2 ^ 32) (hb' : b' < 2 ^ 32) (h : colKey 0 r b = colKey 0 r' b') : r = r' ∧ b = b' := by
  unfold colKey at h
  omega

/-- The own contribution `v` to the blocks `bs` held. -/
def ColOp.holdOwn (c : ColOp) (v : Nat → Bytes) (bs : List Nat) : ColOp :=
  { c with got := bs.foldl (fun m b => mapSet [] m (colKey 0 c.rank b) (v b)) c.got }

theorem got_holdOwn_self {c : ColOp} {v : Nat → Bytes} {bs : List Nat} (hbs : ∀ b ∈ bs, b < 2 ^ 32) {b : Nat} (hb : b ∈ bs) :
    mapGet [] (c.holdOwn v bs).got (colKey 0 c.rank b) = v b := by
  induction bs using List.reverseRecOn with
  | nil => cases hb
  | append_singleton bs x ih =>
    obtain ⟨hlt, hx⟩ := List.forall_mem_append.1 hbs
    have hx32 := hx x (List.mem_singleton_self x)
    rw [ColOp.holdOwn, List.foldl_append, List.foldl_cons, List.foldl_nil]
    by_cases h : x = b
    · subst h
      exact mapGet_mapSet_self ..
    · have hmem : b ∈ bs := (List.mem_append.1 hb).resolve_right fun hm => h (List.mem_singleton.1 hm).symm
      rw [mapGet_mapSet_ne _ _ _ _ fun hk => h (colKey_inj hx32 (hlt b hmem) hk).2]
      exact ih hlt hmem

theorem got_holdOwn_other {c : ColOp} (v : Nat → Bytes) {bs : List Nat} (hbs : ∀ b ∈ bs, b < 2 ^ 32) {b r : Nat} (hb : b < 2 ^ 32)
    (hr : r ≠ c.rank) : mapGet [] (c.holdOwn v bs).got (colKey 0 r b) = mapGet [] c.got (colKey 0 r b) := by
  induction bs using List.reverseRecOn with
  | nil => rfl
  | append_singleton bs x ih =>
    obtain ⟨hlt, hx⟩ := List.forall_mem_append.1 hbs
    rw [ColOp.holdOwn, List.foldl_append, List.foldl_cons, List.foldl_nil,
      mapGet_mapSet_ne _ _ _ _ fun hk => hr (colKey_inj (hx x (List.mem_singleton_self x)) hb hk).1.symm]
    exact ih hlt

/-! A block reduced (08 R256). -/

/-- Every rank's contribution to block `b` is held. -/
def ColOp.holdsAll (c : ColOp) (n b : Nat) : Prop := ∀ r < n, mapGet [] c.got (colKey 0 r b) ≠ []

theorem reduceBlock_missing {c : ColOp} {n b : Nat} (h : ¬ c.holdsAll n b) (s : State) : s.reduceBlock c n b = (s, c, none) := by
  refine if_pos (.inr ?_)
  unfold ColOp.holdsAll at h
  push Not at h
  simpa [List.any_map] using h

/-- A block whose contributions are all held is counted, squared where the command asks for it, and written. -/
theorem reduceBlock_held {s : State} {c : ColOp} {n b : Nat} (hp : s.poison = []) (hl : c.layer < 256) (hw : b ∉ c.wrote)
    (h : c.holdsAll n b) : ∃ t y, keepsCols s t ∧ s.reduceBlock c n b =
      (t, { c with wrote := setIns c.wrote b, got := c.got.filter fun e => e.1 % 2 ^ 32 != b }, some y) := by
  have hnone : ¬ (c.wrote.contains b = true ∨ ((List.range n).map fun r => mapGet [] c.got (colKey 0 r b)).any (· = []) = true) := by
    simpa [List.any_map, hw, ColOp.holdsAll] using h
  obtain ⟨r, hr⟩ : ∃ r, r = s16Reduce (((List.range n).map fun r => mapGet [] c.got (colKey 0 r b)).map S16Block.ofBytes) := ⟨_, rfl⟩
  have hsq : keepsCols s (if c.gnorm then (s.countRange c.q c.layer r.2).addGradSquares c.q c.layer (s16Values r.1.bytes)
      else s.countRange c.q c.layer r.2) := by
    split
    · exact (keepsCols_countRange s c.q hl _).trans (keepsCols_addGradSquares ..)
    · exact keepsCols_countRange s c.q hl _
  subst hr
  exact ⟨_, _, hsq.trans (keepsCols_engineWrite (hsq.poison hp) ..), if_neg hnone⟩

theorem foldl_of_fixed {α β : Type} {f : α → β → α} {a : α} {l : List β} (h : ∀ b ∈ l, f a b = a) : l.foldl f a = a := by
  induction l with
  | nil => rfl
  | cons b l ih => rw [List.foldl_cons, h b (List.mem_cons_self ..), ih fun x hx => h x (List.mem_cons_of_mem _ hx)]

/-- Blocks of which a contribution is missing are left as they are, and nothing goes out. -/
theorem reduceReady_missing {c : ColOp} {g bs : List Nat} (h : ∀ b ∈ bs, ¬ c.holdsAll g.length b) (s : State) :
    s.reduceReady c g bs = (s, c) := by
  unfold State.reduceReady
  rw [foldl_of_fixed fun b hb => by simp only [reduceBlock_missing (h b hb)]]
  exact ite_self _

/-- Blocks reduced one after another, beside what is noted of them. -/
theorem reduces_held {α : Type} {n : Nat} {f : State × ColOp × α → Nat → State × ColOp × α}
    (hf : ∀ acc b, (f acc b).1 = (acc.1.reduceBlock acc.2.1 n b).1 ∧ (f acc b).2.1 = (acc.1.reduceBlock acc.2.1 n b).2.1)
    (bs : List Nat) {s : State} {c : ColOp} {a : α} (hp : s.poison = []) (hl : c.layer < 256) (hn : bs.Nodup)
    (hbs : ∀ b ∈ bs, b < 2 ^ 32 ∧ b ∉ c.wrote ∧ c.holdsAll n b) :
    keepsCols s (bs.foldl f (s, c, a)).1 ∧ ∃ m, (bs.foldl f (s, c, a)).2.1 = { c with wrote := bs.foldl setIns c.wrote, got := m } := by
  induction bs generalizing s c a with
  | nil => exact ⟨.refl s, c.got, rfl⟩
  | cons b bs ih =>
    obtain ⟨hb, hnd⟩ := List.nodup_cons.1 hn
    obtain ⟨hb32, hbw, hheld⟩ := hbs b (List.mem_cons_self ..)
    obtain ⟨t, y, ht, hred⟩ := reduceBlock_held hp hl hbw hheld
    obtain ⟨h1, h2⟩ := hf (s, c, a) b
    rw [hred] at h1 h2
    have hrest : ∀ x ∈ bs, x < 2 ^ 32 ∧ x ∉ setIns c.wrote b ∧
        ColOp.holdsAll { c with got := c.got.filter fun e => e.1 % 2 ^ 32 != b } n x := by
      intro x hx
      obtain ⟨hx32, hxw, hxheld⟩ := hbs x (List.mem_cons_of_mem _ hx)
      have hxb : x ≠ b := fun h => hb (h ▸ hx)
      refine ⟨hx32, fun hmem => (mem_setIns.1 hmem).elim hxb hxw, fun r hr => ?_⟩
      rw [mapGet_filter [] c.got fun e he => ?_]
      · exact hxheld r hr
      · have : colKey 0 r x % 2 ^ 32 = x := by unfold colKey; omega
        rw [he, this]
        simpa using hxb
    obtain ⟨hk, m, hm⟩ := ih (c := { c with wrote := setIns c.wrote b, got := c.got.filter fun e => e.1 % 2 ^ 32 != b })
      (a := (f (s, c, a) b).2.2) (ht.poison hp) hl hnd hrest
    have hstep : f (s, c, a) b = (t, { c with wrote := setIns c.wrote b, got := c.got.filter fun e => e.1 % 2 ^ 32 != b },
        (f (s, c, a) b).2.2) := Prod.ext h1 (Prod.ext h2 rfl)
    rw [List.foldl_cons, hstep]
    exact ⟨ht.trans hk, m, hm⟩

/-- Blocks whose contributions are all held are all reduced; those of an all-reduce go out. -/
theorem reduceReady_held {s : State} {c : ColOp} {g bs : List Nat} (hp : s.poison = []) (hl : c.layer < 256) (hn : bs.Nodup)
    (hbs : ∀ b ∈ bs, b < 2 ^ 32 ∧ b ∉ c.wrote ∧ c.holdsAll g.length b) :
    keepsCols s (s.reduceReady c g bs).1 ∧ ∃ m, (s.reduceReady c g bs).2 = { c with wrote := bs.foldl setIns c.wrote, got := m } := by
  unfold State.reduceReady
  extract_lets r
  obtain ⟨hk, m, hm⟩ : keepsCols s r.1 ∧ ∃ m, r.2.1 = { c with wrote := bs.foldl setIns c.wrote, got := m } := by
    refine reduces_held ?_ bs hp hl hn hbs
    exact fun _ _ => ⟨rfl, rfl⟩
  split
  · exact ⟨hk.trans (keepsCols_foldl (fun t run ht => keepsCols_foldl (fun v lid hv => keepsCols_sendBlocks hv ..) _ ht) _ (hk.poison hp)),
      m, hm⟩
  · exact ⟨hk, m, hm⟩

/-! The start of a reduction (08 R256). -/

theorem colInput_ne_nil {s : State} {c : ColOp} (hop : c.op = 1 ∨ c.op = 3) (b : Nat) : (s.colInput c b).1 ≠ [] := by
  unfold State.colInput
  split
  · simp [State.domeRead, memRead]
  · rw [if_neg (by omega)]
    simp [leBytes]

/-- The inputs are counted and sent, the own shard's are held, and what is complete is reduced. -/
theorem colSend_reduction {s : State} {c : ColOp} (hp : s.poison = []) (hop : c.op = 1 ∨ c.op = 3) (hl : c.layer < 256)
    (g : List Nat) : ∃ t v, keepsCols s t ∧ (∀ b < c.blocks, v b ≠ []) ∧
      s.colSend c g = t.reduceReady (c.holdOwn v (shard c.blocks g.length c.rank)) g (shard c.blocks g.length c.rank) := by
  rw [State.colSend, if_neg (by omega), if_pos hop]
  extract_lets ins t t' mine own
  have hcount : keepsCols s t := keepsCols_foldl (fun u x _ => keepsCols_countRange u c.q hl _) ins hp
  have hsend : keepsCols t t' := keepsCols_foldl (fun u x hu => keepsCols_sendBlocks hu ..) _ (hcount.poison hp)
  refine ⟨t', fun b => (ins.getD b ([], {})).1, hcount.trans hsend, fun b hb => ?_, rfl⟩
  have hget : ins.getD b ([], {}) = s.colInput c b := by simp [ins, hb]
  change (ins.getD b ([], {})).1 ≠ []
  rw [hget]
  exact colInput_ne_nil hop b

/-- Alone, a member reduces its whole shard. -/
theorem colSend_reduction_alone {s : State} {c : ColOp} (hp : s.poison = []) (hop : c.op = 1 ∨ c.op = 3) (hl : c.layer < 256)
    (hb : c.blocks < 2 ^ 32) (hr : c.rank = 0) (hw : c.wrote = []) {g : List Nat} (hg : g.length = 1) :
    keepsCols s (s.colSend c g).1 ∧ ∃ m, (s.colSend c g).2 = { c with wrote := (List.range c.blocks).foldl setIns [], got := m } := by
  obtain ⟨t, v, ht, hv, hsend⟩ := colSend_reduction hp hop hl g
  rw [hg, hr, shard_alone] at hsend
  have hlt : ∀ b ∈ List.range c.blocks, b < 2 ^ 32 := fun b h => (List.mem_range.1 h).trans hb
  have hheld : ∀ b ∈ List.range c.blocks, b < 2 ^ 32 ∧ b ∉ (c.holdOwn v (List.range c.blocks)).wrote ∧
      (c.holdOwn v (List.range c.blocks)).holdsAll g.length b := by
    refine fun b h => ⟨hlt b h, by simp [ColOp.holdOwn, hw], fun r hr' => ?_⟩
    have hr0 : r = c.rank := by omega
    rw [hr0, got_holdOwn_self hlt h]
    exact hv b (List.mem_range.1 h)
  obtain ⟨hk, m, hm⟩ := reduceReady_held (c := c.holdOwn v (List.range c.blocks)) (ht.poison hp) hl List.nodup_range hheld
  rw [hsend]
  refine ⟨ht.trans hk, m, ?_⟩
  rw [hm, ColOp.holdOwn, hw]

/-- Where another member's contribution is to come, no block is reduced. -/
theorem colSend_reduction_waits {s : State} {c : ColOp} (hp : s.poison = []) (hop : c.op = 1 ∨ c.op = 3) (hl : c.layer < 256)
    (hb : c.blocks < 2 ^ 32) (hgot : c.got = []) {g : List Nat} (hr : c.rank < g.length) (hg : 2 ≤ g.length) :
    keepsCols s (s.colSend c g).1 ∧ ∃ m, (s.colSend c g).2 = { c with got := m } := by
  obtain ⟨t, v, ht, hv, hsend⟩ := colSend_reduction hp hop hl g
  have hlt : ∀ b ∈ shard c.blocks g.length c.rank, b < 2 ^ 32 := fun b h => (lt_of_mem_shard hr h).trans hb
  obtain ⟨r, hrlt, hrne⟩ : ∃ r < g.length, r ≠ c.rank := ⟨if c.rank = 0 then 1 else 0, by split <;> omega, by split <;> omega⟩
  rw [hsend, reduceReady_missing fun b h hall => hall r hrlt ?_]
  · exact ⟨ht, _, rfl⟩
  · rw [got_holdOwn_other v hlt (hlt b h) hrne, hgot]
    rfl

/-! The norm reduction (08 R259, R269). -/

/-- An entry of key `k` is listed. -/
def hasKey {α : Type} (m : List (Nat × α)) (k : Nat) : Prop := ∃ e ∈ m, e.1 = k

theorem hasKey_mapIns {α : Type} {m : List (Nat × α)} {a : Nat} {v : α} {k : Nat} : hasKey (mapIns m a v) k ↔ a = k ∨ hasKey m k := by
  induction m with
  | nil => simp [hasKey, mapIns]
  | cons e m ih =>
    unfold hasKey at ih ⊢
    rw [mapIns]
    split
    · simp
    · rw [List.exists_mem_cons_iff, ih, List.exists_mem_cons_iff]
      exact or_left_comm

theorem hasKey_mapDel {α : Type} {m : List (Nat × α)} {a k : Nat} (h : a ≠ k) : hasKey (mapDel m a) k ↔ hasKey m k := by
  refine exists_congr fun e => ?_
  simp only [mapDel, List.mem_filter, bne_iff_ne, and_assoc]
  exact and_congr_right fun _ => ⟨And.right, fun he => ⟨fun ha => h (ha.symm.trans he), he⟩⟩

/-- The keys of noted entries: theirs, and those there were. -/
theorem hasKey_putEntries {m : List (Nat × Nat)} {key : Nat → Nat} {es : List Nat} {k : Nat} :
    hasKey (putEntries m key 0 es) k ↔ (∃ i < es.length, key (i % 256) = k) ∨ hasKey m k := by
  induction es using List.reverseRecOn with
  | nil => simp [putEntries]
  | append_singleton es x ih =>
    have hstep : putEntries m key 0 (es ++ [x]) =
        mapIns (mapDel (putEntries m key 0 es) (key (es.length % 256))) (key (es.length % 256)) x := by
      simp [putEntries, List.zipIdx_append]
    have hlen : (∃ i < (es ++ [x]).length, key (i % 256) = k) ↔ key (es.length % 256) = k ∨ ∃ i < es.length, key (i % 256) = k := by
      simp only [List.length_append, List.length_singleton, Nat.lt_succ_iff_lt_or_eq, or_and_right, exists_or, exists_eq_left]
      exact or_comm
    rw [hstep, hasKey_mapIns, hlen, or_assoc]
    by_cases h : key (es.length % 256) = k
    · simp [h]
    · rw [hasKey_mapDel h, ih]

theorem levelHere_iff {c : ColOp} {level n : Nat} :
    levelHere c level n = true ↔ ∀ r < n, ∀ i < 256, hasKey c.entries (normKey level r i) := by
  simp [levelHere, hasKey]

/-- The own entries of a norm reduction's rank 0 noted. -/
def ColOp.withNorm (c : ColOp) (es : List Nat) : ColOp := { c with entries := putEntries [] (normKey 0 0) 0 es }

/-- They complete the level of a member that is alone, and no other's. -/
theorem levelHere_withNorm {c : ColOp} {es : List Nat} (hes : es.length = 256) {n : Nat} (hn : 0 < n) :
    levelHere (c.withNorm es) 0 n = true ↔ n = 1 := by
  have hkeys : ∀ k, hasKey (c.withNorm es).entries k ↔ k < 256 := by
    intro k
    rw [ColOp.withNorm, hasKey_putEntries, hes]
    simp only [hasKey, normKey, List.not_mem_nil, false_and, exists_false, or_false]
    exact ⟨fun ⟨i, _, h⟩ => by omega, fun h => ⟨k, h, by omega⟩⟩
  simp only [levelHere_iff, hkeys, normKey]
  refine ⟨fun h => ?_, fun h r hr i hi => by omega⟩
  by_contra hne
  have := h 1 (by omega) 0 (by decide)
  omega

/-- No totals have come. -/
theorem totals_missing {c : ColOp} (h : c.totals = []) : ¬ ((List.range 256).all fun i => c.totals.any fun e => e.1 = i) = true := by
  rw [h]
  decide

theorem normAdvance_waits {s : State} {c : ColOp} (ht : c.totals = []) (h : levelHere c 0 (s.members' c).length = false) :
    s.normAdvance c = s.putCol c := by
  unfold State.normAdvance
  extract_lets g up tops
  rw [if_neg (totals_missing ht), if_neg (by simp [g, h])]

theorem normAdvance_alone {s : State} {c : ColOp} (ht : c.totals = []) (hr : c.rank = 0) (hu : c.upper = 0xFF)
    (h : levelHere c 0 (s.members' c).length = true) : ∃ tot, s.normAdvance c = s.passTotals c tot := by
  unfold State.normAdvance
  extract_lets g up tops
  rw [if_neg (totals_missing ht), if_pos ⟨hr, h⟩]
  exact ⟨_, if_pos hu⟩

end Sys2Proof.Machine
end

section
/-! PROOF. The start of a collective (08 R253-R255, Table 8-4). -/

namespace Sys2Proof.Machine

open Sys2Proof Sys2Proof.Safety

/-! Its end, and its wait (08 R256-R258). -/

/-- What a collective that completes with status 0 leaves. -/
structure colEnds (s u : State) (c : ColOp) : Prop where
  done : doneSent s u c 0
  closed : u.colTag c.q c.tag = none
  counted : u.odGet c.q 0x6001 1 = (s.odGet c.q 0x6001 1 + 1) % 2 ^ 64

theorem colEnds.congr {s u : State} {c d : ColOp} (h : colEnds s u d) (hq : d.q = c.q) (htag : d.tag = c.tag) (hstep : d.step = c.step)
    (hspar : d.evspar = c.evspar) (hep : d.evep = c.evep) : colEnds s u c :=
  ⟨by simpa only [doneSent, hq, htag, hstep, hspar, hep] using h.done, by simpa only [hq, htag] using h.closed,
    by simpa only [hq] using h.counted⟩

/-- What a collective that waits for the other members leaves. -/
def colWaits (s u : State) (c : ColOp) : Prop := ∃ d, u.colTag c.q c.tag = some d ∧ d.op = c.op ∧ d.step = c.step ∧ u.spars = s.spars

/-- The staging region left with free bytes changes dome and the stream of free values alone. -/
theorem freeStage_frame {s : State} (hp : s.poison = []) (c : ColOp) (n : Nat) :
    ∃ f m, s.freeStage c n = { s with fresh := f, dome := m } ∧ (c.op = 5 → m = s.dome) := by
  unfold State.freeStage
  split
  · next h =>
    dsimp only
    rw [State.engineWrite_clean (show (s.draw (8 * (n * 8320))).2.poison = [] from hp)]
    exact ⟨_, _, rfl, by omega⟩
  · exact ⟨s.fresh, s.dome, rfl, fun _ => rfl⟩

/-- An event changes the spars alone. -/
theorem event_frame (s : State) (q spar ep : Nat) (bytes : Bytes) : ∃ sp, s.event q spar ep bytes = { s with spars := sp } := by
  unfold State.event
  split
  · exact ⟨_, rfl⟩
  · exact ⟨s.spars, rfl⟩

/-- The parts of the state that tell where an event goes and what it is counted in are as they were. -/
structure sameForDone (s t : State) (q : Nat) : Prop where
  poison : t.poison = []
  spars : t.spars = s.spars
  sparPart : ∀ i, t.sparPart i = s.sparPart i
  count : t.odGet q 0x6001 1 = s.odGet q 0x6001 1

theorem keepsCols.sameForDone {s t : State} (h : keepsCols s t) (hp : s.poison = []) (q : Nat) : sameForDone s t q :=
  ⟨h.poison hp, h.spars, h.sparPart, h.odGet q (by decide) (by decide) (by decide)⟩

theorem sameForDone_putCol {s t : State} {q : Nat} (d : ColOp) (h : sameForDone s t q) : sameForDone s (t.putCol d) q :=
  ⟨h.poison, h.spars, h.sparPart, h.count⟩

theorem colComplete_ends {s t : State} {c : ColOp} (h : sameForDone s t c.q) :
    colEnds s (t.colComplete c) c ∧ (c.op = 5 → (t.colComplete c).dome = t.dome) := by
  obtain ⟨v, hv⟩ : ∃ v, v = (t.dropCol c).odAdd c.q 0x6001 1 1 := ⟨_, rfl⟩
  have hclosed : v.colTag c.q c.tag = none := by
    rw [hv, State.colTag, List.find?_eq_none]
    change ∀ x ∈ ((t.dropCol c).part c.q).cols, _
    rw [State.dropCol, State.part_modPart_self]
    exact fun x hx => by simpa using (List.mem_filter.1 hx).2
  have hcount : v.odGet c.q 0x6001 1 = (s.odGet c.q 0x6001 1 + 1) % 2 ^ 64 := by
    rw [hv, State.odGet_odAdd_self]
    exact congrArg (fun n => (n + 1) % 2 ^ 64) h.count
  have hspar : ∀ i, v.sparPart i = s.sparPart i := fun i => by
    rw [hv, ← h.sparPart]
    exact sparPart_of_low (fun key hk d => mapGet_mapSet_ne _ _ _ _ (by unfold odKey; omega)) i
  have hspars : v.spars = s.spars := by rw [hv]; exact h.spars
  have hdome : v.dome = t.dome := by rw [hv]; rfl
  obtain ⟨f, m, hfree, hm⟩ := freeStage_frame (s := v) (by rw [hv]; exact h.poison) c (t.members' c).length
  have hu : t.colComplete c = ({ v with fresh := f, dome := m } : State).colDone c 0 := by rw [← hfree, hv]; rfl
  obtain ⟨sp, hsp⟩ := event_frame ({ v with fresh := f, dome := m } : State) c.q c.evspar c.evep
    (leBytes 1 0x81 ++ leBytes 1 0 ++ leBytes 2 0 ++ leBytes 4 c.tag ++ leBytes 8 c.step)
  have hframe : t.colComplete c = { v with fresh := f, dome := m, spars := sp } := hu.trans hsp
  refine ⟨⟨?_, by rw [hframe]; exact hclosed, by rw [hframe]; exact hcount⟩, fun h5 => ?_⟩
  · exact eventSent_of_event (t := { v with fresh := f, dome := m }) hspars (hspar _) (hu ▸ (keepsCounts.refl _).togoesOn)
  · rw [hframe, ← hdome, ← hm h5]

/-- A collective that is among the open ones, replaced: it is then the one of its TAG. -/
theorem colTag_putCol {t : State} {d : ColOp} (h : ∃ c ∈ (t.part d.q).cols, c.tag = d.tag) : (t.putCol d).colTag d.q d.tag = some d := by
  have hfun : ((fun c : ColOp => decide (c.tag = d.tag)) ∘ fun c => if c.tag = d.tag then d else c) = fun c => decide (c.tag = d.tag) := by
    funext c
    by_cases hc : c.tag = d.tag <;> simp [hc]
  obtain ⟨c, hc, htag⟩ := h
  obtain ⟨x, hx⟩ := Option.isSome_iff_exists.1 ((List.find?_isSome (p := fun c : ColOp => decide (c.tag = d.tag))).2 ⟨c, hc, decide_eq_true htag⟩)
  have hxtag : x.tag = d.tag := by simpa using List.find?_some hx
  rw [State.colTag, State.putCol, State.part_modPart_self, List.find?_map, hfun, hx, Option.map_some, if_pos hxtag]

/-! Opening (08 R256-R258). -/

/-- The collective among the open ones of its partition, the frames held for its TAG taken out. -/
def State.joinCol (s : State) (c : ColOp) : State := s.setPart c.q { s.part c.q with
  cols := (s.part c.q).cols ++ [c], colHeld := (s.part c.q).colHeld.filter fun m => fieldAt m.payload 4 4 != c.tag }

theorem mem_cols_joinCol (s : State) (c : ColOp) : c ∈ ((s.joinCol c).part c.q).cols := by
  rw [State.joinCol, State.part_setPart_self]
  exact List.mem_append_right _ (List.mem_singleton_self c)

/-- Where the engine's work after the collective joined keeps what it keeps, the collective replaced waits. -/
theorem colWaits_putCol {s t : State} {c d : ColOp} (h : keepsCols (s.joinCol c) t) (hq : d.q = c.q) (htag : d.tag = c.tag) (hop : d.op = c.op)
    (hstep : d.step = c.step) : colWaits s (t.putCol d) c := by
  refine ⟨d, ?_, hop, hstep, h.spars⟩
  rw [← hq, ← htag]
  exact colTag_putCol ⟨c, by rw [h.cols, hq]; exact mem_cols_joinCol s c, htag.symm⟩

theorem sameForDone_joinCol {s t : State} {c : ColOp} (hp : s.poison = []) (h : keepsCols (s.joinCol c) t) : sameForDone s t c.q := by
  obtain ⟨hpoison, hspars, hpart, hcount⟩ := h.sameForDone (s := s.joinCol c) hp c.q
  exact ⟨hpoison, hspars, hpart, hcount⟩

section
variable {s : State} {c : ColOp} (hheld : ∀ m ∈ (s.part c.q).colHeld, fieldAt m.payload 4 4 ≠ c.tag)
include hheld

/-- With no frame held for its TAG, a collective that moves blocks sends its own contribution. -/
theorem colOpen_transfer (hop : c.op ≠ 6) : s.colOpen c =
    ((s.joinCol c).colSend c (s.members' c)).1.colSettle ((s.joinCol c).colSend c (s.members' c)).2 := by
  unfold State.colOpen
  extract_lets g p mine s1 s2
  have hmine : mine = [] := List.filter_eq_nil_iff.2 fun m hm => by simpa using hheld m hm
  rw [hmine]
  exact if_neg hop

/-- With no frame held for its TAG, a norm reduction sends its entries to rank 0, which notes its own. -/
theorem colOpen_norm (hop : c.op = 6) : ∃ es : List Nat, es.length = 256 ∧ s.colOpen c = if c.rank = 0
    then (s.joinCol c).normAdvance (c.withNorm es)
    else ((s.joinCol c).sendEntries c ((s.members' c).headD 0) 3 c.rank 0 es).putCol c := by
  refine ⟨(List.range 256).map fun i => (s.joinCol c).normEntry c.q i, by simp, ?_⟩
  unfold State.colOpen
  extract_lets g p mine s1 s2
  have hmine : mine = [] := List.filter_eq_nil_iff.2 fun m hm => by simpa using hheld m hm
  rw [hmine]
  exact if_pos hop

end

/-- The totals are passed on and noted, and the reduction completes. -/
theorem passTotals_completes {t : State} (hp : t.poison = []) (c : ColOp) (tot : List Nat) :
    ∃ v, keepsCols t v ∧ t.passTotals c tot = v.colComplete c := by
  unfold State.passTotals
  extract_lets g s1
  have hsend : keepsCols t s1 := by
    unfold s1
    split
    · exact keepsCols_foldl (fun v lid hv => keepsCols_sendEntries hv ..) _ hp
    · exact .refl t
  unfold State.normTotals
  extract_lets marked n cf upd
  exact ⟨s1.modPart c.q upd, hsend.trans (keepsCols_modPart s1 c.q fun _ => rfl), rfl⟩

/-- A command's collective before anything of it has moved. -/
structure freshCol (c : ColOp) : Prop where
  layer : c.layer < 256
  blocks : c.blocks < 2 ^ 32
  got : c.got = []
  wrote : c.wrote = []
  totals : c.totals = []

/-! A collective that moves blocks. -/

theorem colSettle_written {t : State} {d : ColOp} (h : d.wrote.length = (outBlocks d (t.members' d).length).length) :
    t.colSettle d = (t.putCol d).colComplete d := if_pos h

theorem colSettle_unwritten {t : State} {d : ColOp} (h : d.wrote.length ≠ (outBlocks d (t.members' d).length).length) :
    t.colSettle d = t.putCol d := if_neg h

section
variable {s : State} {c : ColOp} (hp : s.poison = []) (hheld : ∀ m ∈ (s.part c.q).colHeld, fieldAt m.payload 4 4 ≠ c.tag) (hop : c.op ≠ 6)
  (hkeep : keepsCols (s.joinCol c) ((s.joinCol c).colSend c (s.members' c)).1) {w : List Nat} {m : List (Nat × Bytes)}
  (hsnd : ((s.joinCol c).colSend c (s.members' c)).2 = { c with wrote := w, got := m })

include hkeep in
theorem members_colSend : ((s.joinCol c).colSend c (s.members' c)).1.members' { c with wrote := w, got := m } = s.members' c :=
  hkeep.members { c with wrote := w, got := m }

include hp hheld hop hkeep hsnd in
/-- It completes where its own contribution wrote every output block. -/
theorem colOpen_transfer_ends (hw : w.length = (outBlocks c (s.members' c).length).length) : colEnds s (s.colOpen c) c ∧
    (c.op = 5 → (s.colOpen c).dome = ((s.joinCol c).colSend c (s.members' c)).1.dome) := by
  have hlen : w.length = (outBlocks { c with wrote := w, got := m }
      (((s.joinCol c).colSend c (s.members' c)).1.members' { c with wrote := w, got := m }).length).length := by
    rw [members_colSend hkeep]
    exact hw
  rw [colOpen_transfer hheld hop, hsnd, colSettle_written hlen]
  obtain ⟨hend, hdome⟩ := colComplete_ends (sameForDone_putCol { c with wrote := w, got := m } (sameForDone_joinCol hp hkeep))
  exact ⟨hend.congr rfl rfl rfl rfl rfl, hdome⟩

include hheld hop hkeep hsnd in
/-- It waits where a block is still to be written. -/
theorem colOpen_transfer_waits (hw : w.length ≠ (outBlocks c (s.members' c).length).length) : colWaits s (s.colOpen c) c := by
  have hlen : w.length ≠ (outBlocks { c with wrote := w, got := m }
      (((s.joinCol c).colSend c (s.members' c)).1.members' { c with wrote := w, got := m }).length).length := by
    rw [members_colSend hkeep]
    exact hw
  rw [colOpen_transfer hheld hop, hsnd, colSettle_unwritten hlen]
  exact colWaits_putCol hkeep rfl rfl rfl rfl

end

section
variable {s : State} {c : ColOp} (hc : freshCol c) (hp : s.poison = []) (hheld : ∀ m ∈ (s.part c.q).colHeld, fieldAt m.payload 4 4 ≠ c.tag)
include hc hp hheld

/-- LOCAL_PASS: one member, which writes every block. -/
theorem colOpen_localPass (hop : c.op = 5) : colEnds s (s.colOpen c) c ∧
    (s.colOpen c).dome = writeAll s.dome ((List.range c.blocks).flatMap fun b => outWrites c b 0 (s.colInput c b).1) := by
  obtain ⟨u, hu, hdome, hsend⟩ := colSend_localPass (s := s.joinCol c) hp hop hc.layer hc.wrote (s.members' c)
  have hlen : ((List.range c.blocks).foldl setIns c.wrote).length = (outBlocks c (s.members' c).length).length := by
    rw [length_foldl_setIns List.nodup_range (by simp [hc.wrote]), hc.wrote, outBlocks, if_neg (by omega)]
    simp
  obtain ⟨hend, hsame⟩ := colOpen_transfer_ends hp hheld (by omega) (by rw [hsend]; exact hu) (m := c.got) (by rw [hsend]; rfl) hlen
  refine ⟨hend, (hsame hop).trans ?_⟩
  rw [hsend]
  exact hdome

/-- A collective that moves blocks completes at once with one member. -/
theorem colOpen_transfer_alone (hop : 1 ≤ c.op ∧ c.op ≤ 4) (hg : (s.members' c).length = 1) (hr : c.rank = 0) : colEnds s (s.colOpen c) c := by
  have hrange : ∀ bs : List Nat, bs.Nodup → bs.length = c.blocks →
      (bs.foldl setIns c.wrote).length = (outBlocks c (s.members' c).length).length := by
    intro bs hn hlen
    rw [length_foldl_setIns hn (by simp [hc.wrote]), hc.wrote, outBlocks, hg, hr, shard_alone, hlen]
    simp
  by_cases h13 : c.op = 1 ∨ c.op = 3
  · obtain ⟨hk, m, hm⟩ := colSend_reduction_alone (s := s.joinCol c) hp h13 hc.layer hc.blocks hr hc.wrote hg
    exact (colOpen_transfer_ends hp hheld (by omega) hk hm (hc.wrote ▸ hrange _ List.nodup_range List.length_range)).1
  · by_cases h2 : c.op = 2
    · obtain ⟨hk, hs⟩ := colSend_allGather (s := s.joinCol c) hp h2 hc.wrote (s.members' c)
      exact (colOpen_transfer_ends hp hheld (by omega) hk hs (hrange _ (nodup_shard ..) (by rw [hg, hr, shard_alone, List.length_range]))).1
    · obtain ⟨hk, hs⟩ := colSend_allToAll (s := s.joinCol c) hp (by omega) hc.wrote (s.members' c)
      exact (colOpen_transfer_ends hp hheld (by omega) hk hs (hrange _ (nodup_map_add ..) (by simp [hg]))).1

/-- A collective that moves blocks waits where another member is to send some. -/
theorem colOpen_transfer_waits_others (hop : 1 ≤ c.op ∧ c.op ≤ 4) (hg : 2 ≤ (s.members' c).length) (hr : c.rank < (s.members' c).length)
    (hb : c.blocks ≠ 0) (h1 : c.op = 1 → shard c.blocks (s.members' c).length c.rank ≠ [])
    (h2 : c.op = 2 → (shard c.blocks (s.members' c).length c.rank).length < c.blocks) : colWaits s (s.colOpen c) c := by
  have hout : c.op ≠ 1 → (outBlocks c (s.members' c).length).length = c.blocks := fun h => by simp [outBlocks, h]
  have hfew : ∀ bs : List Nat, c.op ≠ 1 → bs.Nodup → bs.length < c.blocks →
      (bs.foldl setIns c.wrote).length ≠ (outBlocks c (s.members' c).length).length := by
    intro bs hop1 hn hlt
    rw [length_foldl_setIns hn (by simp [hc.wrote]), hc.wrote, hout hop1, List.length_nil]
    omega
  by_cases h13 : c.op = 1 ∨ c.op = 3
  · obtain ⟨hk, m, hm⟩ := colSend_reduction_waits (s := s.joinCol c) hp h13 hc.layer hc.blocks hc.got hr hg
    refine colOpen_transfer_waits hheld (by omega) hk hm (w := c.wrote) ?_
    rw [hc.wrote]
    by_cases hop1 : c.op = 1
    · rw [outBlocks, if_pos hop1]
      exact (List.length_pos_of_ne_nil (h1 hop1)).ne
    · rw [hout hop1]
      exact Ne.symm hb
  · by_cases hop2 : c.op = 2
    · obtain ⟨hk, hs⟩ := colSend_allGather (s := s.joinCol c) hp hop2 hc.wrote (s.members' c)
      exact colOpen_transfer_waits hheld (by omega) hk hs (hfew _ (by omega) (nodup_shard ..) (h2 hop2))
    · obtain ⟨hk, hs⟩ := colSend_allToAll (s := s.joinCol c) hp (by omega) hc.wrote (s.members' c)
      refine colOpen_transfer_waits hheld (by omega) hk hs (hfew _ (by omega) (nodup_map_add ..) ?_)
      rw [List.length_map, List.length_range]
      exact Nat.div_lt_self (Nat.pos_of_ne_zero hb) hg

/-! The norm reduction (08 R259, R269). -/

theorem colOpen_norm_alone (hop : c.op = 6) (hg : (s.members' c).length = 1) (hr : c.rank = 0) (hu : c.upper = 0xFF) :
    colEnds s (s.colOpen c) c := by
  obtain ⟨es, hes, hopen⟩ := colOpen_norm hheld hop
  have hlen : ((s.joinCol c).members' (c.withNorm es)).length = 1 := hg
  obtain ⟨tot, htot⟩ := normAdvance_alone (s := s.joinCol c) (c := c.withNorm es) hc.totals hr hu
    ((levelHere_withNorm hes (by omega)).2 hlen)
  obtain ⟨v, hv, hpass⟩ := passTotals_completes (t := s.joinCol c) hp (c.withNorm es) tot
  rw [hopen, if_pos hr, htot, hpass]
  exact (colComplete_ends (c := c.withNorm es) (sameForDone_joinCol (c := c) hp hv)).1.congr rfl rfl rfl rfl rfl

theorem colOpen_norm_waits (hop : c.op = 6) (hg : 2 ≤ (s.members' c).length) : colWaits s (s.colOpen c) c := by
  obtain ⟨es, hes, hopen⟩ := colOpen_norm hheld hop
  rw [hopen]
  split
  · have hlevel : levelHere (c.withNorm es) 0 (s.members' c).length = false :=
      Bool.eq_false_iff.2 fun h => by have := (levelHere_withNorm hes (by omega)).1 h; omega
    rw [normAdvance_waits (s := s.joinCol c) (c := c.withNorm es) hc.totals hlevel]
    exact colWaits_putCol (.refl _) rfl rfl rfl rfl
  · exact colWaits_putCol (keepsCols_sendEntries (s := s.joinCol c) hp ..) rfl rfl rfl rfl

end

end Sys2Proof.Machine
end

section
/-! PROOF. Collective commands and the local pass (08 R253-R255, Table 8-3, Table 8-4). -/

namespace Sys2Proof.Machine

open Sys2Proof Sys2Proof.Safety

/-! A command's fields. -/

theorem leNat_lt (b : Bytes) : leNat b < 256 ^ b.length := by
  induction b with
  | nil => decide
  | cons x b ih =>
    have hx := x.isLt
    rw [leNat, List.length_cons, pow_succ]
    omega

theorem fieldAt_lt (b : Bytes) (o n : Nat) : fieldAt b o n < 256 ^ n :=
  (leNat_lt _).trans_le (Nat.pow_le_pow_right (by decide) (List.length_take_le ..))

theorem freshCol_colOf (q : Nat) (r : Bytes) (k : Nat) : freshCol { colOf q r with rank := k } :=
  ⟨fieldAt_lt r 5 1, fieldAt_lt r 12 4, rfl, rfl, rfl⟩

/-- What a command that meets its conditions states: this device is a member, and a tensor has blocks (08 R254, Table 8-4). -/
theorem colStatus_none {s : State} {c : ColOp} (h : s.colStatus c = none) : s.ownLid ∈ s.members' c ∧ (c.op ≠ 6 → c.blocks ≠ 0) := by
  unfold State.colStatus at h
  extract_lets g n up bad at h
  by_cases hbad : bad = true
  · simp [hbad] at h
  · by_cases hg : g.contains s.ownLid = true
    · refine ⟨List.contains_iff_mem.1 hg, fun h6 h0 => hbad ?_⟩
      simp [bad, h6, h0]
    · rw [if_neg hbad] at h
      split at h
      · cases h
      · cases h

/-! What the rows of Table 8-5 do with the command at the head of the queue. -/

theorem exec_colRows : ∀ row ∈ colRows, ∀ q s, exec (row.1 q) s = colRow q row.2 s := by
  intro row h q s
  simp only [colRows, List.mem_cons, List.not_mem_nil, or_false] at h
  rcases h with rfl | rfl | rfl | rfl | rfl | rfl <;> rfl

theorem colRows_op : ∀ row ∈ colRows, 1 ≤ row.2 ∧ row.2 ≤ 6 := by
  intro row h
  simp only [colRows, List.mem_cons, List.not_mem_nil, or_false] at h
  rcases h with rfl | rfl | rfl | rfl | rfl | rfl <;> decide

theorem colRow_badFields {s : State} {q op : Nat} {r : Bytes} (hup : spireUp s 4) (hr : s.colHeadCmd q = some r)
    (hcode : fieldAt r 0 1 < 0x10) (hbad : colFieldsOk r = false) : colRow q op s = .next ((s.colPop q).colDone (colOf q r) 1) := by
  rw [colRow, spireEvent_up _ hup.1 hup.2]
  simp only [hr]
  rw [if_neg (by omega), if_pos (by simp [hbad])]

section
variable {s : State} {q op : Nat} {r : Bytes} {c : ColOp} (h : colCommand s q r op)
  (hc : c = { colOf q r with rank := rankIn (s.members' (colOf q r)) s.ownLid })
include h

theorem code_of_colFieldsOk : fieldAt r 0 1 = 1 := by
  obtain ⟨-, -, hok, -⟩ := h
  simp only [colFieldsOk, Bool.and_eq_true, decide_eq_true_eq] at hok
  exact hok.1.1.1

include hc

theorem colRow_refused {st : Nat} (hst : s.colStatus c = some st) : colRow q op s = .next ((s.colPop q).colDone c st) := by
  have hcode := code_of_colFieldsOk h
  obtain ⟨hup, hr, hok, hop⟩ := h
  rw [colRow, spireEvent_up _ hup.1 hup.2]
  simp only [hr, ← hc, hst]
  rw [if_neg (by omega), if_neg (by simp [hok]), if_neg (by omega)]

/-- The command is taken and its collective opens: what it opens in is the state with the asks, the waits and the queue moved on. -/
theorem colRow_opens (hst : s.colStatus c = none)
    (hport : cleanPort s (engineUnit 1) (colReads c (s.members' c).length ++ colWrites c (s.members' c).length)) :
    ∃ as ws, colRow q op s = .next ((({ s with asks := as, biWaits := ws } : State).colPop q).colOpen c) := by
  have hcode := code_of_colFieldsOk h
  obtain ⟨hup, hr, hok, hop⟩ := h
  obtain ⟨hp, hd, ht, hcut, hgrant⟩ := hport
  obtain ⟨as, ws, htake⟩ := s.takeAsk_frame (engineUnit 1) (colReads c (s.members' c).length ++ colWrites c (s.members' c).length)
  have hg : s.members' (colOf q r) = s.members' c := by rw [hc]; rfl
  refine ⟨as, ws, ?_⟩
  rw [colRow, spireEvent_up _ hup.1 hup.2]
  simp only [hr, ← hc, hst]
  rw [if_neg (by omega), if_neg (by simp [hok]), if_neg (by omega), hg, State.engineRun_open hd ht hp hcut hgrant, htake]

end

/-- A collective opened has this device alone for its member, and completes (Table 8-4). -/
theorem colOpen_alone {s : State} {c : ColOp} (hc : freshCol c) (hp : s.poison = [])
    (hheld : ∀ m ∈ (s.part c.q).colHeld, fieldAt m.payload 4 4 ≠ c.tag) (hop : 1 ≤ c.op ∧ c.op ≤ 6) (hg : (s.members' c).length = 1)
    (hr : c.rank = 0) (hu : c.upper = 0xFF) : colEnds s (s.colOpen c) c := by
  by_cases h5 : c.op = 5
  · exact (colOpen_localPass hc hp hheld h5).1
  · by_cases h6 : c.op = 6
    · exact colOpen_norm_alone hc hp hheld h6 hg hr hu
    · exact colOpen_transfer_alone hc hp hheld (by omega) hg hr

/-- A local pass has one member. -/
theorem members_localPass {s : State} {c : ColOp} (h : c.op = 5) : s.members' c = [s.ownLid] := if_pos h

theorem rankIn_alone (lid : Nat) : rankIn [lid] lid = 0 := by simp [rankIn]

/-! The tensor of a local pass (08 R255). -/

/-- The writes of the first `n` blocks of an S16 tensor of `b` blocks leave their mantissas and exponents. -/
theorem memByte_passed (m : List Host.Cell) (src dst : Nat) {b n k : Nat} (hn : n ≤ b) (hk : k < 64 * n ∨ 64 * b ≤ k ∧ k < 64 * b + n) :
    memByte (writeAll m ((List.range n).flatMap fun i =>
      [(dst + 64 * i, memRead m (src + 64 * i) 64), (dst + 64 * b + i, memRead m (src + 64 * b + i) 1)])) (dst + k) = memByte m (src + k) := by
  induction n with
  | zero => omega
  | succ n ih =>
    rw [List.range_succ, List.flatMap_append, writeAll, List.foldl_append]
    simp only [List.flatMap_cons, List.flatMap_nil, List.append_nil, List.foldl_cons, List.foldl_nil]
    have hlen : ∀ a l, (memRead m a l).length = l := fun a l => by simp [memRead]
    by_cases hexp : k = 64 * b + n
    · subst hexp
      rw [show dst + (64 * b + n) = dst + 64 * b + n + 0 by omega, memByte_write_in _ _ _ (by rw [hlen]; decide)]
      simp [memRead, Nat.add_assoc]
    · rw [memByte_write_out _ _ _ (by rw [hlen]; omega)]
      by_cases hman : 64 * n ≤ k ∧ k < 64 * n + 64
      · obtain ⟨j, rfl⟩ := Nat.exists_eq_add_of_le hman.1
        rw [← Nat.add_assoc, memByte_write_in _ _ _ (by rw [hlen]; omega)]
        simp [memRead, Nat.add_assoc]
      · rw [memByte_write_out _ _ _ (by rw [hlen]; omega)]
        exact ih (by omega) (by omega)

/-- An S16 block passed to an S16 output: its mantissas to their place, its exponent to its own. -/
theorem outWrites_s16 {c : ColOp} (hi : c.ifmt = 0) (ho : c.ofmt = 0) (s : State) (b : Nat) : outWrites c b 0 (s.colInput c b).1 =
    [(c.dst + 64 * b, memRead s.dome (c.src + 64 * b) 64), (c.dst + 64 * c.blocks + b, memRead s.dome (c.src + 64 * c.blocks + b) 1)] := by
  simp [outWrites, State.colInput, hi, ho, State.domeRead, memRead]

section
variable {s : State} {q op : Nat} {r : Bytes} {c : ColOp} (h : colCommand s q r op) (hop : 1 ≤ op ∧ op ≤ 6)
  (hc : c = { colOf q r with rank := rankIn (s.members' (colOf q r)) s.ownLid }) (hst : s.colStatus c = none)
  (hport : cleanPort s (engineUnit 1) (colReads c (s.members' c).length ++ colWrites c (s.members' c).length))
  (hheld : ∀ m ∈ (s.part q).colHeld, fieldAt m.payload 4 4 ≠ c.tag)
include h hop hc hst hport hheld

theorem colRow_alone (halone : s.members' c = [s.ownLid]) (hu : c.upper = 0xFF) :
    ∃ u, colRow q op s = .next u ∧ doneSent s u c 0 ∧ u.colTag q c.tag = none ∧ u.odGet q 0x6001 1 = (s.odGet q 0x6001 1 + 1) % 2 ^ 64 := by
  obtain ⟨as, ws, hexec⟩ := colRow_opens h hc hst hport
  have hq : c.q = q := by rw [hc]; rfl
  have hrank : c.rank = rankIn (s.members' c) s.ownLid := by rw [hc]; rfl
  have hcop : c.op = op := by rw [hc]; exact h.2.2.2
  subst hq
  obtain ⟨hdone, hclosed, hcount⟩ := colOpen_alone (s := ({ s with asks := as, biWaits := ws } : State).colPop c.q) (c := c)
    (by rw [hc]; exact freshCol_colOf ..) hport.1 hheld (hcop ▸ hop) (congrArg List.length halone)
    (by rw [hrank, halone, rankIn_alone]) hu
  exact ⟨_, hexec, hdone, hclosed, hcount⟩

theorem colRow_waits (hmany : 2 ≤ (s.members' c).length) (h1 : c.op = 1 → shard c.blocks (s.members' c).length c.rank ≠ [])
    (h2 : c.op = 2 → (shard c.blocks (s.members' c).length c.rank).length < c.blocks) :
    ∃ u d, colRow q op s = .next u ∧ u.colTag q c.tag = some d ∧ d.op = c.op ∧ d.step = c.step ∧ u.spars = s.spars := by
  obtain ⟨as, ws, hexec⟩ := colRow_opens h hc hst hport
  obtain ⟨t, ht⟩ : ∃ t, t = ({ s with asks := as, biWaits := ws } : State).colPop q := ⟨_, rfl⟩
  obtain ⟨hmember, hblocks⟩ := colStatus_none hst
  have hq : c.q = q := by rw [hc]; rfl
  have hcop : c.op = op := by rw [hc]; exact h.2.2.2
  have hfresh : freshCol c := by rw [hc]; exact freshCol_colOf ..
  have hrank : c.rank < (s.members' c).length := by
    rw [show c.rank = rankIn (s.members' c) s.ownLid by rw [hc]; rfl]
    exact List.findIdx_lt_length_of_exists ⟨s.ownLid, hmember, by simp⟩
  have h5 : c.op ≠ 5 := fun h5 => by
    rw [members_localPass h5, List.length_singleton] at hmany
    omega
  have hp : t.poison = [] := by rw [ht]; exact hport.1
  have hmem : t.members' c = s.members' c := by rw [ht]; rfl
  have hheldt : ∀ m ∈ (t.part c.q).colHeld, fieldAt m.payload 4 4 ≠ c.tag := by rw [ht, hq]; exact hheld
  have hspars : t.spars = s.spars := by rw [ht]; rfl
  have hwaits : colWaits t (t.colOpen c) c := by
    rw [← hmem] at hmany hrank h1 h2
    by_cases h6 : c.op = 6
    · exact colOpen_norm_waits hfresh hp hheldt h6 hmany
    · exact colOpen_transfer_waits_others hfresh hp hheldt (by omega) hmany hrank (hblocks h6) h1 h2
  obtain ⟨d, htag, hdop, hdstep, hsame⟩ := hwaits
  exact ⟨_, d, ht ▸ hexec, hq ▸ htag, hdop, hdstep, hsame.trans hspars⟩

omit hop in
theorem colRow_localPass (h5 : op = 5) (hi : c.ifmt = 0) (ho : c.ofmt = 0) :
    ∃ u, colRow q op s = .next u ∧ doneSent s u c 0 ∧ ∀ k < 65 * c.blocks, memByte u.dome (c.dst + k) = memByte s.dome (c.src + k) := by
  obtain ⟨as, ws, hexec⟩ := colRow_opens h hc hst hport
  have hq : c.q = q := by rw [hc]; rfl
  have hcop : c.op = op := by rw [hc]; exact h.2.2.2
  subst hq
  obtain ⟨⟨hdone, -, -⟩, hdome⟩ := colOpen_localPass (s := ({ s with asks := as, biWaits := ws } : State).colPop c.q) (c := c)
    (by rw [hc]; exact freshCol_colOf ..) hport.1 hheld (hcop.trans h5)
  refine ⟨_, hexec, hdone, fun k hk => ?_⟩
  simp only [hdome, outWrites_s16 hi ho]
  exact memByte_passed s.dome c.src c.dst (Nat.le_refl _) (by omega)

end

/-- Settles O40: a command is refused, or its collective opens: alone it completes, and with others it waits; a local pass writes each
block's mantissas and exponent where the output has them. -/
theorem collectiveCommands : Obligations.CollectiveCommands := by
  unfold Obligations.CollectiveCommands
  refine ⟨fun row hrow s q r c => ?_, fun s q r c h hc hst hport hheld hi ho => ?_⟩
  · rw [exec_colRows row hrow]
    exact ⟨colRow_badFields, fun h hc => ⟨fun st hst => colRow_refused h hc hst, fun hst hport hheld =>
      ⟨colRow_alone h (colRows_op row hrow) hc hst hport hheld, colRow_waits h (colRows_op row hrow) hc hst hport hheld⟩⟩⟩
  · have hmem : s.members' (colOf q r) = [s.ownLid] := members_localPass h.2.2.2
    have hc' : c = { colOf q r with rank := rankIn (s.members' (colOf q r)) s.ownLid } := by rw [hc, hmem, rankIn_alone]
    have hlen : (s.members' c).length = 1 := by rw [hc]; exact congrArg List.length hmem
    exact colRow_localPass h hc' hst (hlen.symm ▸ hport) hheld rfl hi ho

end Sys2Proof.Machine
end

section
/-! PROOF. How an update ends (09 R277, R282, Table 9-2): what an outcome sends, counts and leaves. -/

namespace Sys2Proof.Machine

open Sys2Proof Sys2Proof.Safety

/-! The outcome. -/

/-- The counter of an outcome among Boom's (Table 9-7). -/
def outcomeSub (status : Nat) : Nat := if status = 0 then 1 else if status = 6 then 3 else 2

/-- What an outcome leaves: memory, the partitions' contexts and the faults raised stay, and of the objects from OD 0x1801 on its
counter alone changes. -/
structure outcomeGiven (s u : State) (q status : Nat) : Prop where
  dome : u.dome = s.dome
  parts : u.parts = s.parts
  faults : u.faultQ = s.faultQ
  counted : u.odGet q 0x6404 (outcomeSub status) = (s.odGet q 0x6404 (outcomeSub status) + 1) % 2 ^ 64
  od : ∀ key, 0x180100 ≤ key → key ≠ odKey q 0x6404 (outcomeSub status) → ∀ d, mapGet d u.od key = mapGet d s.od key

theorem updOutcome_split (s : State) (q : Nat) (ev : Option (Nat × Nat)) (t status group : Nat) : ∃ sp n,
    s.updOutcome q ev t status group = (({ s with spars := sp } : State).deliver n).odAdd q 0x6404 (outcomeSub status) 1 := by
  cases ev with
  | none => exact ⟨s.spars, _, rfl⟩
  | some e =>
    obtain ⟨sp, hsp⟩ := event_frame s q e.1 e.2 (leBytes 1 0x91 ++ leBytes 1 status ++ leBytes 2 group ++ leBytes 4 0 ++ leBytes 8 t)
    exact ⟨sp, _, by rw [← hsp]; rfl⟩

theorem updOutcome_given (s : State) (q : Nat) (ev : Option (Nat × Nat)) (t status group : Nat) :
    outcomeGiven s (s.updOutcome q ev t status group) q status := by
  obtain ⟨sp, n, h⟩ := updOutcome_split s q ev t status group
  have hn := sameBeyondNotices_deliver ({ s with spars := sp } : State) n
  have hod : ∀ key, 0x180100 ≤ key → ∀ d, mapGet d (({ s with spars := sp } : State).deliver n).od key = mapGet d s.od key :=
    fun key hk d => mapGet_od_deliver _ n hk d
  rw [h]
  refine ⟨hn.dome, hn.parts, (congrArg State.faultQ hn :), ?_, fun key hk hne d => ?_⟩
  · rw [State.odGet_odAdd_self]
    exact congrArg (fun n => (n + 1) % 2 ^ 64) (hod _ (by unfold odKey; omega) _)
  · exact (mapGet_mapSet_ne _ _ _ _ (Ne.symm hne)).trans (hod key hk d)

theorem goesOn_of_sameBeyondNotices {s u : State} (h : sameBeyondNotices s u) : goesOn s u :=
  goesOn_of_same (congrArg State.poison h :) (congrArg State.halCmd h :) h.spars (congrArg State.faultQ h :)

/-- COMMIT goes out, also past what follows the outcome. -/
theorem updOutcome_sent {s u : State} {q t status group : Nat} {e : Nat × Nat}
    (h : goesOn (s.updOutcome q (some e) t status group) u) : eventSent s u q e.1 e.2
      (leBytes 1 0x91 ++ leBytes 1 status ++ leBytes 2 group ++ leBytes 4 0 ++ leBytes 8 t) := by
  refine eventSent_of_event rfl rfl (goesOn.trans ?_ h)
  exact (goesOn_of_sameBeyondNotices (sameBeyondNotices_deliver ..)).trans (goesOn_of_same rfl rfl rfl rfl)

/-! The end. -/

/-- Which partition holds a spar stands in the partitions' objects, OD 0x1010 to 0x1013. -/
theorem sparPart_odSet (s : State) (q : Nat) {i : Nat} (sub v : Nat) (hi : 0x1014 ≤ i) (j : Nat) :
    (s.odSet q i sub v).sparPart j = s.sparPart j := by
  have hget : ∀ p < 4, ∀ k < 256, (s.odSet q i sub v).odGet 0 (0x1010 + p) k = s.odGet 0 (0x1010 + p) k := fun p hp k hk =>
    s.odGet_odSet_other v (by unfold odKey; omega)
  refine congrArg (Option.getD · 4) (List.find?_congr fun p hp => ?_)
  have hp4 : p < 4 := List.mem_range.1 hp
  simp only [State.present, State.towerMask, hget p hp4 1 (by decide), hget p hp4 2 (by decide)]

theorem dropAsks_foldl_frame (us : List Nat) (q : Nat) (s : State) :
    ∃ as ws, us.foldl (fun t d => t.dropAsks (walkerUnit d) q) s = { s with asks := as, biWaits := ws } := by
  induction us generalizing s with
  | nil => exact ⟨s.asks, s.biWaits, rfl⟩
  | cons d us ih =>
    obtain ⟨as, ws, h⟩ := ih (s.dropAsks (walkerUnit d) q)
    exact ⟨as, ws, h⟩

/-- What an update `w` that ends with `status` leaves (Table 9-2). -/
structure updEnds (s u : State) (q : Nat) (w : Upd) (status group : Nat) : Prop where
  part : u.part q = { s.part q with upd := none }
  sent : commitSent s u q w status group
  dome : u.dome = s.dome
  faults : u.faultQ = s.faultQ
  idle : u.odGet q 0x6400 8 = 0
  step : u.odGet q 0x6400 3 = s.odGet q 0x6400 3
  counted : u.odGet q 0x6404 (outcomeSub status) = (s.odGet q 0x6404 (outcomeSub status) + 1) % 2 ^ 64

/-- A completion notice, where a command asked for one, leaves what the rest reads. -/
theorem sameBeyondNotices_completeIf (s : State) (b : Bool) (q i sub status tok val : Nat) :
    sameBeyondNotices s (if b then s.complete q i sub status tok val [] else s) ∧
      ∀ key, 0x180100 ≤ key → ∀ d, mapGet d (if b then s.complete q i sub status tok val [] else s).od key = mapGet d s.od key := by
  cases b with
  | true => exact ⟨sameBeyondNotices_complete .., fun key hk d => mapGet_od_deliver s _ hk d⟩
  | false => exact ⟨rfl, fun _ _ _ => rfl⟩

theorem updFinish_ends (s : State) (q : Nat) (w : Upd) (status group : Nat) :
    updEnds s (s.updFinish q w status group) q w status group := by
  obtain ⟨as, ws, hdrop⟩ := dropAsks_foldl_frame (List.range 16) q (s.dropAsks (engineUnit 2) q)
  obtain ⟨t, ht⟩ : ∃ t, t =
      (({ s with asks := as, biWaits := ws } : State).modPart q fun p => { p with upd := none }).odSet q 0x6400 8 0 := ⟨_, rfl⟩
  obtain ⟨v, hv⟩ : ∃ v, v = t.updOutcome q w.ev w.t status group := ⟨_, rfl⟩
  obtain ⟨hz, hod⟩ := sameBeyondNotices_completeIf v w.cmd q 0x6401 0 status w.token w.agroup
  have hfin : s.updFinish q w status group = if w.cmd then v.complete q 0x6401 0 status w.token w.agroup [] else v := by
    rw [hv, ht]
    unfold State.updFinish
    rw [hdrop]
    rfl
  rw [← hfin] at hz hod
  obtain ⟨hdome, hparts, hfaults, hcount, hkeep⟩ := hv ▸ updOutcome_given t q w.ev w.t status group
  have hsub : 1 ≤ outcomeSub status ∧ outcomeSub status ≤ 3 := by unfold outcomeSub; split <;> [decide; (split <;> decide)]
  have hobj : ∀ k, 0x6400 ≤ k → k ≠ 0x6404 → ∀ i < 256, (s.updFinish q w status group).odGet q k i = t.odGet q k i :=
    fun k hk hne i hi => (hod _ (by unfold odKey; omega) _).trans (hkeep _ (by unfold odKey; omega) (by unfold odKey; omega) _)
  refine ⟨?_, fun e he => ?_, ?_, ?_, ?_, ?_, ?_⟩
  · rw [State.part, hz.parts, hparts]
    change t.part q = _
    rw [ht]
    exact (State.part_modPart_self ({ s with asks := as, biWaits := ws } : State) q fun p => { p with upd := none } :)
  · have hgo : goesOn (t.updOutcome q (some e) w.t status group) (s.updFinish q w status group) := by
      rw [← he, ← hv]
      exact goesOn_of_sameBeyondNotices hz
    exact eventSent_congr (by rw [ht]; rfl) (ht ▸ sparPart_odSet _ q 8 0 (by decide) e.1) (updOutcome_sent hgo)
  · rw [hz.dome, hdome, ht]
    rfl
  · rw [(congrArg State.faultQ hz :), hfaults, ht]
    rfl
  · rw [hobj _ (by decide) (by decide) _ (by decide), ht, State.odGet_odSet_self]
  · rw [hobj _ (by decide) (by decide) _ (by decide), ht]
    exact State.odGet_odSet_other _ _ (odKey_ne_of_sub (by decide))
  · refine ((hod _ (by unfold odKey; omega) _).trans hcount).trans ?_
    rw [ht]
    exact congrArg (fun n => (n + 1) % 2 ^ 64) (State.odGet_odSet_other _ _ (by unfold odKey; omega))

end Sys2Proof.Machine
end

section
/-! PROOF. Opening and abandoning an update, and Boom's counters (09 R277, R282, R296). -/

namespace Sys2Proof.Machine

open Sys2Proof Sys2Proof.Safety

/-- An update as it opens (09 R277). -/
def State.newUpd (s : State) (q : Nat) (w : Upd) : Upd :=
  { w with t := s.odGet q 0x6400 3, clip := s.clipAtOpen q, shadow := s.odGet 0 (shadowIdx q) 0xA = 1, st := 1 }

/-- It awaits its scan. -/
theorem openUpdate_opens (s : State) (q : Nat) (w : Upd) :
    ((s.openUpdate q w).part q).upd = some (s.newUpd q w) ∧ (s.openUpdate q w).odGet q 0x6400 8 = 1 :=
  ⟨congrArg Part.upd (State.part_modPart_self s q fun p => { p with upd := some (s.newUpd q w) }), State.odGet_odSet_self ..⟩

section
variable {s : State} {q : Nat} {r : Bytes} (hup : spireUp s 5) (hr : s.colHeadCmd q = some r) (hcode : fieldAt r 0 1 = 0x10)
include hup hr hcode

theorem exec_update_idle (hu : (s.part q).upd = none) : exec (.update q) s = .next ((s.colPop q).openUpdate q
    { agroup := fieldAt r 1 1, ev := some (fieldAt r 16 2 % 1024, fieldAt r 18 1), gcount := fieldAt r 2 2, glist := fieldAt r 8 8 }) := by
  change execUpdate q s = _
  rw [execUpdate, spireEvent_up _ hup.1 hup.2]
  simp [hr, hcode, hu]

theorem exec_update_open (hu : (s.part q).upd ≠ none) : exec (.update q) s = .next ((s.colPop q).updOutcome q
    (some (fieldAt r 16 2 % 1024, fieldAt r 18 1)) (s.odGet q 0x6400 3) 2 0) := by
  change execUpdate q s = _
  rw [execUpdate, spireEvent_up _ hup.1 hup.2]
  simp [hr, hcode, Option.isSome_iff_ne_none.2 hu]

end

theorem cmdStartUpdate_idle {s : State} {q : Nat} (hu : (s.part q).upd = none) (val tok : Nat) :
    cmdStartUpdate q val tok s = (stDone, s.openUpdate q { agroup := val % 256, token := tok, cmd := true }) := by simp [cmdStartUpdate, hu]

theorem cmdStartUpdate_open {s : State} {q : Nat} (hu : (s.part q).upd ≠ none) (val tok : Nat) :
    cmdStartUpdate q val tok s = (stBusy, s) := by simp [cmdStartUpdate, Option.isSome_iff_ne_none.2 hu]

/-- A command that changes nothing. -/
theorem runCmd_busy {q : Nat} {s : State} {r : CmdRes} (hr : r = (stBusy, s)) : runCmd q s r = .next s := by simp [runCmd, hr]

/-- An update abandoned ends with status 5, and the command's notice changes nothing of that. -/
theorem abandon_ends (s : State) (q : Nat) (w : Upd) (tok val : Nat) {u : State}
    (hu : u = (s.updFinish q w 5 0).complete q 0x6402 0 0 tok val []) :
    (u.part q).upd = none ∧ commitSent s u q w 5 0 ∧ u.dome = s.dome := by
  have hend := updFinish_ends s q w 5 0
  have hn : sameBeyondNotices (s.updFinish q w 5 0) u := hu ▸ sameBeyondNotices_complete ..
  refine ⟨?_, fun e he hin => ?_, hn.dome.trans hend.dome⟩
  · rw [State.part, hn.parts]
    exact congrArg Part.upd hend.part
  · have hspar : u.spar e.1 = (s.updFinish q w 5 0).spar e.1 := by rw [State.spar, hn.spars, State.spar]
    rw [hspar]
    exact hend.sent e he hin

theorem clearSubs_records (s : State) (q i n : Nat) : s.clearSubs q i 1 n = s.clearObjs q (recordObjs i n [0]) :=
  foldl_clearSubs s q i n [0]

/-- Settles O43: an update opens in the one way, from a command record or from the dictionary; a second one is refused or busy; an
abandoned one ends as every update does, and the clear is one of the records of Table 9-7. -/
theorem updateOpening : Obligations.UpdateOpening := by
  unfold Obligations.UpdateOpening
  refine ⟨⟨fun s q r hup hr hcode hu => ?_, fun s q r hup hr hcode hu => ?_, fun s q val tok hs hp hu => ?_,
    fun s q val tok hu => ?_⟩,
    fun s q val tok w hs hp hu hst => ?_, fun s q val tok w hu hst => ?_, fun s q val tok hs hp => ?_⟩
  · obtain ⟨hopen, hidle⟩ := openUpdate_opens (s.colPop q) q
      { agroup := fieldAt r 1 1, ev := some (fieldAt r 16 2 % 1024, fieldAt r 18 1), gcount := fieldAt r 2 2, glist := fieldAt r 8 8 }
    exact ⟨_, _, exec_update_idle hup hr hcode hu, hopen, rfl, rfl, rfl, rfl, rfl, hidle, mapGet_mapSet_self ..⟩
  · have hgiven := updOutcome_given (s.colPop q) q (some (fieldAt r 16 2 % 1024, fieldAt r 18 1)) (s.odGet q 0x6400 3) 2 0
    refine ⟨_, exec_update_open hup hr hcode hu, ?_, ?_, hgiven.counted⟩
    · rw [State.part, hgiven.parts]
      rfl
    · exact updOutcome_sent (s := s.colPop q) (e := (fieldAt r 16 2 % 1024, fieldAt r 18 1)) (keepsCounts.refl _).togoesOn
  · obtain ⟨hopen, hidle⟩ := openUpdate_opens s q { agroup := val % 256, token := tok, cmd := true }
    exact ⟨_, _, runCmd_next hs hp (cmdStartUpdate_idle hu val tok), hopen, rfl, rfl, rfl, rfl, hidle⟩
  · exact runCmd_busy (cmdStartUpdate_open hu val tok)
  · exact ⟨_, runCmd_next hs hp (st := stDone) (by simp only [cmdAbandonUpdate, hu, if_neg hst]), abandon_ends s q w tok val rfl⟩
  · exact runCmd_busy (by simp only [cmdAbandonUpdate, hu, if_pos hst])
  · obtain ⟨h0, -⟩ := clearObjs_records (congrArg State.od (clearSubs_records s q 0x6404 9)) (by decide) (by decide)
      q 0x6403 0 0 tok val []
    exact ⟨_, runCmd_next hs hp rfl, fun k h1 h9 => (h0 0 (by simp) k h1 h9).2⟩

end Sys2Proof.Machine
end

section
/-! PROOF. What Boom's work on an update leaves (09 R278-R291): where its events go, and what an update that ends without effect
leaves unchanged (R282). -/

namespace Sys2Proof.Machine

open Sys2Proof Sys2Proof.Safety

/-! Accesses of several units. -/

theorem takeAsk_foldl_frame (l : List (Nat × List (Nat × Nat))) (s : State) :
    ∃ as ws, l.foldl (fun t a => t.takeAsk a.1 a.2) s = { s with asks := as, biWaits := ws } := by
  induction l generalizing s with
  | nil => exact ⟨s.asks, s.biWaits, rfl⟩
  | cons a l ih =>
    obtain ⟨as, ws, h⟩ := s.takeAsk_frame a.1 a.2
    obtain ⟨as', ws', h'⟩ := ih (s.takeAsk a.1 a.2)
    exact ⟨as', ws', by rw [List.foldl_cons, h', h]⟩

/-- The accesses of several units, all open, are served as one event (10 R300, R316, R317). -/
theorem portGates_open {s : State} {l : List (Nat × List (Nat × Nat))} (h : portsOpen s l) :
    ∃ as ws, ∀ q no k, s.portGates l q no k = k { s with asks := as, biWaits := ws } := by
  have hall : ∀ a ∈ l.filter fun a => !(portNeed a.2).isEmpty, portOpen s a.1 a.2 := fun a ha => h a (List.mem_of_mem_filter ha)
  have hheld : ((l.filter fun a => !(portNeed a.2).isEmpty).any fun a => a.2.any fun r => 0 < r.2 && s.domeHeld (domeOf r.1)) = false :=
    List.any_eq_false.2 fun a ha => by simp [(hall a ha).1]
  have hcut : ((l.filter fun a => !(portNeed a.2).isEmpty).any fun a => s.unitCut a.1 a.2) = false :=
    List.any_eq_false.2 fun a ha => by simp [(hall a ha).2.2.1]
  have hgrant : ((l.filter fun a => !(portNeed a.2).isEmpty).all fun a =>
      decide (uniq (a.2.flatMap fun r => s.hostLines r.1 r.2) = []) && s.granted a.1 a.2) = true :=
    List.all_eq_true.2 fun a ha => by
      obtain ⟨-, ht, -, hg⟩ := hall a ha
      have hnone : (a.2.flatMap fun r => s.hostLines r.1 r.2) = [] := List.flatMap_eq_nil_iff.2 fun r _ => by simp [State.hostLines, ht]
      simp [hnone, hg, uniq]
  obtain ⟨as, ws, htake⟩ := takeAsk_foldl_frame (l.filter fun a => !(portNeed a.2).isEmpty) s
  refine ⟨as, ws, fun q no k => ?_⟩
  rw [State.portGates]
  simp only [hheld, hcut, hgrant, Bool.false_eq_true, if_false, if_true, htake]

/-- And where no line is poisoned, what they read is read. -/
theorem portGates_read {s : State} {l : List (Nat × List (Nat × Nat))} (h : portsOpen s l) (hp : s.poison = []) :
    ∃ as ws, ∀ q reads no bad k, s.portGates l q no (fun v => v.engineRead q reads bad k) = k { s with asks := as, biWaits := ws } := by
  obtain ⟨as, ws, hopen⟩ := portGates_open h
  exact ⟨as, ws, fun q reads no bad k => (hopen q no _).trans
    (engineRead_clean (s := { s with asks := as, biWaits := ws }) hp q reads bad k)⟩

/-! Where an event goes. -/

/-- No line becomes poisoned, the spars stay, and each stays in its partition. -/
structure keepsSending (s u : State) : Prop where
  poison : s.poison = [] → u.poison = []
  spars : u.spars = s.spars
  sparPart : ∀ i, u.sparPart i = s.sparPart i

theorem keepsSending.trans {s t u : State} (h : keepsSending s t) (h' : keepsSending t u) : keepsSending s u :=
  ⟨fun hp => h'.poison (h.poison hp), h'.spars.trans h.spars, fun i => (h'.sparPart i).trans (h.sparPart i)⟩

theorem keepsSending_of_same {s u : State} (hp : u.poison = s.poison) (hs : u.spars = s.spars) (ho : u.od = s.od) : keepsSending s u :=
  ⟨fun h => hp.trans h, hs, sparPart_of_od ho⟩

theorem keepsSending.refl (s : State) : keepsSending s s := keepsSending_of_same rfl rfl rfl

theorem keepsCols.sending {s u : State} (h : keepsCols s u) : keepsSending s u := ⟨h.poison, h.spars, h.sparPart⟩

theorem keepsSending_odSet (s : State) (q : Nat) {i : Nat} (sub v : Nat) (hi : 0x1014 ≤ i) : keepsSending s (s.odSet q i sub v) :=
  ⟨id, rfl, sparPart_odSet s q sub v hi⟩

/-- COMMIT sent on the way from a state that sends as `s` does. -/
theorem commitSent_congr {s t u : State} {q : Nat} {w : Upd} {status group : Nat} (h : keepsSending s t)
    (hs : commitSent t u q w status group) : commitSent s u q w status group :=
  fun e he => eventSent_congr h.spars (h.sparPart e.1) (hs e he)

theorem updFinish_closes {s t : State} (h : keepsSending s t) (q : Nat) (w : Upd) (status group : Nat) :
    ((t.updFinish q w status group).part q).upd = none ∧ commitSent s (t.updFinish q w status group) q w status group :=
  have hend := updFinish_ends t q w status group
  ⟨congrArg Part.upd hend.part, commitSent_congr h hend.sent⟩

/-! What an update that ends without effect leaves unchanged (R282). -/

/-- Dome memory, the step number and the working sums of partition `q` stay as well, and no fault raised is lost. -/
structure keepsGroups (s u : State) (q : Nat) : Prop extends keepsSending s u where
  dome : u.dome = s.dome
  step : u.odGet q 0x6400 3 = s.odGet q 0x6400 3
  sums : (u.part q).gradSum = (s.part q).gradSum ∧ (u.part q).wSum = (s.part q).wSum ∧ (u.part q).uSum = (s.part q).uSum
  faults : s.faultQ <+: u.faultQ

theorem keepsGroups.trans {s t u : State} {q : Nat} (h : keepsGroups s t q) (h' : keepsGroups t u q) : keepsGroups s u q :=
  ⟨h.tokeepsSending.trans h'.tokeepsSending, h'.dome.trans h.dome, h'.step.trans h.step,
    ⟨h'.sums.1.trans h.sums.1, h'.sums.2.1.trans h.sums.2.1, h'.sums.2.2.trans h.sums.2.2⟩, h.faults.trans h'.faults⟩

theorem keepsGroups_of_same {s u : State} (q : Nat) (hk : keepsSending s u) (hd : u.dome = s.dome) (hq : u.parts = s.parts)
    (ho : u.odGet q 0x6400 3 = s.odGet q 0x6400 3) (hf : s.faultQ <+: u.faultQ) : keepsGroups s u q :=
  ⟨hk, hd, ho, by simp only [State.part, hq, and_self], hf⟩

theorem keepsGroups.refl (s : State) (q : Nat) : keepsGroups s s q := keepsGroups_of_same q (.refl s) rfl rfl rfl List.prefix_rfl

theorem keepsGroups_foldl {α : Type} {f : State → α → State} {q : Nat} (hf : ∀ t a, keepsGroups t (f t a) q) (l : List α)
    (s : State) : keepsGroups s (l.foldl f s) q := by
  induction l generalizing s with
  | nil => exact .refl s q
  | cons a l ih => exact (hf s a).trans (ih _)

theorem keepsGroups_setPart {s : State} {q : Nat} {x : Part} (hx : x.gradSum = (s.part q).gradSum ∧ x.wSum = (s.part q).wSum ∧
    x.uSum = (s.part q).uSum) : keepsGroups s (s.setPart q x) q :=
  ⟨keepsSending_of_same rfl rfl rfl, rfl, rfl, by rwa [State.part_setPart_self], List.prefix_rfl⟩

theorem keepsGroups_modPart (s : State) (q : Nat) {f : Part → Part} (hf : ∀ p, (f p).gradSum = p.gradSum ∧ (f p).wSum = p.wSum ∧
    (f p).uSum = p.uSum) : keepsGroups s (s.modPart q f) q := keepsGroups_setPart (hf _)

theorem keepsGroups_raiseOpen (s : State) (q code source part isl : Nat) (vals : List Nat) :
    keepsGroups s (s.raiseOpen code source part isl vals) q :=
  keepsGroups_of_same q (keepsSending_of_same rfl rfl rfl) rfl rfl rfl (List.prefix_append ..)

theorem keepsGroups_raiseError (s : State) (code source q isl : Nat) (vals : List Nat) :
    keepsGroups s (s.raiseError code source q isl vals) q :=
  (keepsGroups_modPart s q (f := fun p => { p with errSince := true }) fun _ => ⟨rfl, rfl, rfl⟩).trans (keepsGroups_raiseOpen ..)

theorem keepsGroups_normNonfinite (s : State) (q slot k : Nat) : keepsGroups s (s.normNonfinite q slot k) q := by
  unfold State.normNonfinite
  extract_lets p b t
  have ht : keepsGroups s t q := keepsGroups_setPart ⟨rfl, rfl, rfl⟩
  clear_value t
  split
  · exact ht
  · refine keepsGroups.trans ?_ (keepsGroups_raiseError ..)
    exact ht.trans (keepsGroups_modPart t q fun _ => ⟨rfl, rfl, rfl⟩)

/-- Lines found poisoned are counted by their domes and reported (10 R309). -/
theorem keepsGroups_reportUe (s : State) (q : Nat) (ls : List Nat) : keepsGroups s ((s.countUe ls).unitUe q ls) q := by
  refine keepsGroups.trans (t := s.countUe ls) (keepsGroups_foldl (fun t l => ?_) ls s) ?_
  · exact keepsGroups_of_same q (keepsSending_odSet _ _ _ _ (by omega)) rfl rfl
      (State.odGet_odAdd_other _ _ (by unfold odKey; omega)) List.prefix_rfl
  · cases ls with
    | nil => exact .refl _ q
    | cons l ls => exact keepsGroups_of_same q (keepsSending_of_same rfl rfl rfl) rfl rfl rfl (List.prefix_append ..)

/-- What an update leaves that ends before it wrote a group. -/
theorem updFinish_undone {s t : State} {q : Nat} (h : keepsGroups s t q) (w : Upd) (status group : Nat) :
    ((t.updFinish q w status group).part q).upd = none ∧ commitSent s (t.updFinish q w status group) q w status group ∧
      updateUndone s (t.updFinish q w status group) q := by
  obtain ⟨hclosed, hsent⟩ := updFinish_closes h.tokeepsSending q w status group
  have hend := updFinish_ends t q w status group
  refine ⟨hclosed, hsent, hend.dome.trans h.dome, hend.step.trans h.step, ?_⟩
  rw [hend.part]
  exact h.sums

theorem updFinish_faults {s t : State} {q : Nat} (h : keepsGroups s t q) (w : Upd) (status group : Nat) :
    s.faultQ <+: (t.updFinish q w status group).faultQ := by
  rw [(updFinish_ends t q w status group).faults]
  exact h.faults

end Sys2Proof.Machine
end

section
/-! PROOF. The scan of an update (09 R278, R279, R282, Table 9-3). -/

namespace Sys2Proof.Machine

open Sys2Proof Sys2Proof.Safety

/-! The open update changed. -/

@[simp] theorem upd_modUpd (s : State) (q : Nat) (f : Upd → Upd) : ((s.modUpd q f).part q).upd = (s.part q).upd.map f :=
  congrArg Part.upd (State.part_modPart_self s q fun p => { p with upd := p.upd.map f })

@[simp] theorem upd_updState (s : State) (q st : Nat) :
    ((s.updState q st).part q).upd = (s.part q).upd.map fun u => { u with st := st } := upd_modUpd s q _

theorem keepsGroups_updState (s : State) (q st : Nat) : keepsGroups s (s.updState q st) q := by
  refine keepsGroups.trans (t := s.modUpd q fun u => { u with st := st }) (keepsGroups_modPart s q fun _ => ⟨rfl, rfl, rfl⟩) ?_
  exact keepsGroups_of_same q (keepsSending_odSet _ q 8 st (by decide)) rfl rfl
    (State.odGet_odSet_other _ st (odKey_ne_of_sub (by decide))) List.prefix_rfl

/-- An update goes on to be applied: its groups wait for the walkers (Sequence 9-1). -/
theorem updApply_starts {s : State} {q : Nat} {w : Upd} (h : (s.part q).upd = some w) (shadow : Bool) :
    ∃ v, ((s.updApply q shadow).part q).upd = some v ∧ v.st = 3 ∧ v.groups = w.groups ∧ v.next = w.groups ∧ v.shadow = shadow ∧
      (s.updApply q shadow).dome = s.dome := by
  refine ⟨{ w with shadow := shadow, next := w.groups, st := 3,
                   pruneNext := w.groups.filter fun n => (s.grp q n).prune && (s.grp q n).work != 0 }, ?_, rfl, rfl, rfl, rfl, rfl⟩
  simp [State.updApply, h]

section
variable {s : State} {q : Nat} {w : Upd} (hw : w.agroup = 0xFF)
include hw

theorem updScanned_ready (hr : w.ready = true) :
    ∃ v, ((s.updScanned q w).part q).upd = some v ∧ v.st = 3 ∧ v.groups = w.groups ∧ v.next = w.groups ∧
      (s.updScanned q w).dome = s.dome := by
  have hupd : ((((s.modPart q fun p => { p with upd := some w }).updState q 2).part q).upd) = some { w with st := 2 } := by
    rw [upd_updState, State.part_modPart_self]
    rfl
  obtain ⟨v, hv, hst, hgroups, hnext, -, hdome⟩ := updApply_starts hupd w.shadow
  have happly : s.updScanned q w = ((s.modPart q fun p => { p with upd := some w }).updState q 2).updApply q w.shadow := by
    simp [State.updScanned, State.updDecide, hw, hr]
  rw [happly]
  exact ⟨v, hv, hst, hgroups, hnext, hdome⟩

theorem updScanned_notReady (hr : w.ready = false) :
    ∃ t, keepsGroups s t q ∧ s.updScanned q w = t.updFinish q { w with st := 2 } 3 0 := by
  refine ⟨(s.modPart q fun p => { p with upd := some w }).updState q 2, ?_, by simp [State.updScanned, State.updDecide, hw, hr]⟩
  refine keepsGroups.trans ?_ (keepsGroups_updState ..)
  exact keepsGroups_modPart s q fun _ => ⟨rfl, rfl, rfl⟩

end

/-! What the scan finds. -/

/-- Poisoned lines met. -/
def State.scanPoison (s : State) (q : Nat) (w : Upd) (gs : List Nat) : List Nat :=
  uniq (((s.scanAccess q w gs).flatMap (·.2)).flatMap fun r => s.poisonLines r.1 r.2)

/-- Groups with a non-finite gradient. -/
def State.scanNonfinite (s : State) (q : Nat) (gs : List Nat) : List Nat :=
  gs.filter fun n => !s.meetsPoison (s.checkReads q n) && !s.meetsPoison (s.gradReads (s.grp q n)) && s.gradBad (s.grp q n)

/-- This member is ready (09 R280). -/
def State.scanReady (s : State) (q : Nat) (w : Upd) (c : W32) (gs : List Nat) : Bool :=
  decide (s.scanNonfinite q gs = []) && decide (s.scanPoison q w gs = []) && finiteW c && !(s.part q).errSince

/-- GLIST, where there is one, holds no poisoned line. -/
def glistClean (s : State) (w : Upd) : Prop := w.gcount ≠ 0 → s.meetsPoison [(w.glist, 2 * w.gcount)] = false

theorem glistClean.decide {s : State} {w : Upd} (h : glistClean s w) :
    (decide (w.gcount ≠ 0) && s.meetsPoison [(w.glist, 2 * w.gcount)]) = false := by
  by_cases h0 : w.gcount = 0
  · simp [h0]
  · rw [h h0, Bool.and_false]

section
variable {s : State} {q : Nat} {w : Upd} {c : W32} {gs : List Nat} (hg : glistClean s w)
include hg

theorem updScan_invalid {g : Nat} (hf : s.firstBad q w.t gs = some g) : s.updScan q w c gs = s.updFinish q w 1 g := by
  unfold State.updScan
  simp only [hg.decide, Bool.false_eq_true, if_false, hf]

/-- The scan of valid groups: what it counts and raises leaves the groups, and its outcome is that of its finding. -/
theorem updScan_valid (hf : s.firstBad q w.t gs = none) : ∃ t n, keepsGroups s t q ∧
    (s.scanPoison q w gs ≠ [] → faultRaised t 0x0301) ∧
    s.updScan q w c gs = t.updScanned q { w with clip := some c, groups := gs, word := n, ready := s.scanReady q w c gs } := by
  obtain ⟨t1, ht1⟩ : ∃ t1, t1 = if s.scanPoison q w gs = [] then s
      else (s.countUe (s.scanPoison q w gs)).unitUe q (s.scanPoison q w gs) := ⟨_, rfl⟩
  obtain ⟨t2, ht2⟩ : ∃ t2, t2 = (s.scanNonfinite q gs).foldl (fun t n => t.normNonfinite q (s.grp q n).layer 0) t1 := ⟨_, rfl⟩
  have h1 : keepsGroups s t1 q := by
    rw [ht1]
    split
    · exact .refl s q
    · exact keepsGroups_reportUe ..
  have h2 : keepsGroups t1 t2 q := ht2 ▸ keepsGroups_foldl (fun t n => keepsGroups_normNonfinite ..) _ t1
  have h3 : keepsGroups t2 (t2.scanWord q w gs).2 q := by
    unfold State.scanWord
    split
    · exact keepsGroups_of_same q (keepsSending_of_same rfl rfl rfl) rfl rfl rfl List.prefix_rfl
    · exact .refl t2 q
  refine ⟨(t2.scanWord q w gs).2, (t2.scanWord q w gs).1, (h1.trans h2).trans h3, fun hp => ?_, ?_⟩
  · obtain ⟨l, ls, hl⟩ := List.exists_cons_of_ne_nil hp
    have hraised : faultRaised t1 0x0301 := by
      rw [ht1, if_neg hp, hl]
      exact ⟨_, List.mem_append_right _ (List.mem_singleton_self _), rfl⟩
    obtain ⟨n, hn, hcode⟩ := hraised
    exact ⟨n, (h2.trans h3).faults.subset hn, hcode⟩
  · rw [ht2, ht1]
    unfold State.updScan
    simp only [hg.decide, Bool.false_eq_true, if_false, hf]
    rfl

end

/-! Where nothing is poisoned, and where a line is. -/

theorem meetsPoison_clean {s : State} (h : s.poison = []) (rs : List (Nat × Nat)) : s.meetsPoison rs = false := by
  simp [State.meetsPoison, State.poisonLines, h]

theorem scanPoison_clean {s : State} (h : s.poison = []) (q : Nat) (w : Upd) (gs : List Nat) : s.scanPoison q w gs = [] := by
  have hnone : (((s.scanAccess q w gs).flatMap (·.2)).flatMap fun r => s.poisonLines r.1 r.2) = [] :=
    List.flatMap_eq_nil_iff.2 fun r _ => by simp [State.poisonLines, h]
  rw [State.scanPoison, hnone]
  rfl

theorem scanReady_clean {s : State} (h : s.poison = []) (q : Nat) (w : Upd) (c : W32) (gs : List Nat) :
    s.scanReady q w c gs = true ↔ (∀ n ∈ gs, s.gradBad (s.grp q n) = false) ∧ finiteW c = true ∧ (s.part q).errSince = false := by
  simp [State.scanReady, State.scanNonfinite, scanPoison_clean h, meetsPoison_clean h, and_assoc]

theorem mem_uniq {l : List Nat} {x : Nat} : x ∈ uniq l ↔ x ∈ l := by simp [uniq, mem_foldl_setIns]

theorem scanPoison_met {s : State} {q : Nat} {w : Upd} {gs : List Nat} (h : ∃ a ∈ s.scanAccess q w gs, s.meetsPoison a.2 = true) :
    s.scanPoison q w gs ≠ [] := by
  obtain ⟨a, ha, hm⟩ := h
  obtain ⟨r, hr, hl⟩ := List.any_eq_true.1 hm
  obtain ⟨l, hl⟩ : ∃ l, l ∈ s.poisonLines r.1 r.2 := List.exists_mem_of_ne_nil _ (by simpa using hl)
  exact List.ne_nil_of_mem (mem_uniq.2 (List.mem_flatMap.2 ⟨r, List.mem_flatMap.2 ⟨a, ha, hr⟩, hl⟩))

end Sys2Proof.Machine
end

section
/-! PROOF. The votes of an update, and how a scan and the last vote decide it (09 R278-R282). -/

namespace Sys2Proof.Machine

open Sys2Proof Sys2Proof.Safety

/-! The scan's command. -/

section
variable {s : State} {q : Nat} {w : Upd} {c : W32} (hup : spireUp s 5) (hu : (s.part q).upd = some w) (hst : w.st = 1)
  (hc : (w.clip.orElse fun _ => (s.part q).clip) = some c)
include hup hu hst hc

theorem exec_scan_commandBad (hb : s.updCmdBad q w = true) : exec (.updateScanComplete q) s = .next (s.updFinish q w 1 0xFFFF) := by
  change execUpdateScanComplete q s = _
  rw [execUpdateScanComplete, spireEvent_up _ hup.1 hup.2]
  simp only [hu, hc, hb, if_true]
  rw [if_neg (not_not_intro hst)]

theorem exec_scan {gs : List Nat} (hb : s.updCmdBad q w = false) (hl : s.listedGroups q w = some gs)
    (ho : portsOpen s (s.scanAccess q w gs)) :
    ∃ as ws, exec (.updateScanComplete q) s = .next (({ s with asks := as, biWaits := ws } : State).updScan q w c gs) := by
  obtain ⟨as, ws, hopen⟩ := portGates_open ho
  refine ⟨as, ws, ?_⟩
  change execUpdateScanComplete q s = _
  rw [execUpdateScanComplete, spireEvent_up _ hup.1 hup.2]
  simp only [hu, hc, hb, hl, hopen]
  rw [if_neg (not_not_intro hst), if_neg Bool.false_ne_true]

end

/-! Votes (R280, R281). -/

/-- The vote a frame carries (Table 9-9). -/
def voteIn (k : Packet) : Vote :=
  { q := k.qdst, agroup := fieldAt k.payload 3 1, rank := fieldAt k.payload 4 2, ready := fieldAt k.payload 1 1 = 1,
    shadow := fieldAt k.payload 2 1 = 1, t := fieldAt k.payload 8 8, word := fieldAt k.payload 16 8, slid := k.slid }

/-- The state with a vote held. -/
def State.holdVote (s : State) (k : Packet) (r : List Packet) : State :=
  ({ s with delivery := r } : State).setPart k.qdst { s.part k.qdst with votes := (s.part k.qdst).votes ++ [voteIn k] }

/-- The oldest delivered packet, of the kind asked for, is taken. -/
theorem takeKind_head {s : State} {k : Packet} {r : List Packet} (hd : delivered s k r) (hk : k.kind ≠ 0x22)
    (f : Packet → State → State) : s.takeKind k.kind f = f k { s with delivery := r } := by
  rw [State.takeKind, State.takeDelivered_head hd (by simp [State.tierAnswer, hk])]

section
variable {s : State} {k : Packet} {r : List Packet} (hup : spireUp s 5) (hd : delivered s k r) (hk : k.kind = 0x1A)
  (hp : s.present k.qdst = true)
include hup hd hk hp

theorem exec_vote_refused (hr : (s.colGroup k.qdst (fieldAt k.payload 3 1)).getD (fieldAt k.payload 4 2) 0 ≠ k.slid) :
    exec .voteFrame s = .next (({ s with delivery := r } : State).odAdd k.qdst 0x6404 2 1) := by
  change execVoteFrame s = _
  rw [execVoteFrame, spireEvent_up _ hup.1 hup.2, ← hk, takeKind_head hd (by omega)]
  obtain ⟨t, ht⟩ : ∃ t, t = ({ s with delivery := r } : State) := ⟨_, rfl⟩
  have hpt : t.present k.qdst = true := ht ▸ hp
  have hrt : (t.colGroup k.qdst (fieldAt k.payload 3 1)).getD (fieldAt k.payload 4 2) 0 ≠ k.slid := ht ▸ hr
  rw [← ht]
  dsimp only
  rw [if_neg (not_not_intro hpt), if_pos (.inr (.inr hrt))]

variable (ha : fieldAt k.payload 3 1 ≤ 15)
  (hn : fieldAt k.payload 4 2 < (s.colGroup k.qdst (fieldAt k.payload 3 1)).length)
  (hr : (s.colGroup k.qdst (fieldAt k.payload 3 1)).getD (fieldAt k.payload 4 2) 0 = k.slid)
include ha hn hr

/-- A vote of its sender's rank: held, unless its update is neither open nor among sixteen that wait. -/
theorem exec_vote : exec .voteFrame s = .next (
    if ¬ ((s.part k.qdst).upd.any fun u => u.agroup = fieldAt k.payload 3 1) ∧
        ¬ (heldVotes s k.qdst).contains (fieldAt k.payload 3 1, fieldAt k.payload 8 8) ∧ 16 ≤ (heldVotes s k.qdst).length then
      ({ s with delivery := r } : State).odAdd k.qdst 0x6001 3 1
    else match (s.part k.qdst).upd with
      | some u => if u.st = 2 ∧ u.agroup = fieldAt k.payload 3 1 then (s.holdVote k r).updDecide k.qdst u else s.holdVote k r
      | none => s.holdVote k r) := by
  change execVoteFrame s = _
  rw [execVoteFrame, spireEvent_up _ hup.1 hup.2, ← hk, takeKind_head hd (by omega), State.holdVote]
  obtain ⟨t, ht⟩ : ∃ t, t = ({ s with delivery := r } : State) := ⟨_, rfl⟩
  have hpt : t.present k.qdst = true := ht ▸ hp
  have hkeep : ¬ (15 < fieldAt k.payload 3 1 ∨ (t.colGroup k.qdst (fieldAt k.payload 3 1)).length ≤ fieldAt k.payload 4 2 ∨
      (t.colGroup k.qdst (fieldAt k.payload 3 1)).getD (fieldAt k.payload 4 2) 0 ≠ k.slid) := by
    have hg : t.colGroup k.qdst (fieldAt k.payload 3 1) = s.colGroup k.qdst (fieldAt k.payload 3 1) := ht ▸ rfl
    rw [hg, hr]
    omega
  have hpart : s.part k.qdst = t.part k.qdst := ht ▸ rfl
  have hvotes : heldVotes s k.qdst = ((t.part k.qdst).votes.map fun w => (w.agroup, w.t)).eraseDups := by rw [heldVotes, hpart]
  rw [← ht, hvotes, hpart]
  dsimp only
  rw [if_neg (not_not_intro hpt), if_neg hkeep]
  rfl

end

/-! The decision of a group of two (R280). -/

/-- The outcome once the vote `v` of the one other member is held. -/
structure decidesBy (s u : State) (q : Nat) (w : Upd) (v : Vote) : Prop where
  differs : v.t ≠ w.t ∨ v.word ≠ w.word →
    (u.part q).upd = none ∧ commitSent s u q w 4 0 ∧ updateUndone s u q ∧ faultCarries u 0x0201 (skewVals w v)
  notReady : ¬ (v.t ≠ w.t ∨ v.word ≠ w.word) → w.ready = false ∨ v.ready = false →
    (u.part q).upd = none ∧ commitSent s u q w 3 0 ∧ updateUndone s u q
  applied : ¬ (v.t ≠ w.t ∨ v.word ≠ w.word) → ¬ (w.ready = false ∨ v.ready = false) →
    ∃ x, (u.part q).upd = some x ∧ x.st = 3 ∧ x.next = w.groups ∧ x.shadow = (w.shadow || v.shadow)

theorem decidesBy.congr {s t u : State} {q : Nat} {w : Upd} {v : Vote} (h : decidesBy t u q w v) (hk : keepsGroups s t q) :
    decidesBy s u q w v := by
  have hundone : updateUndone t u q → updateUndone s u q := fun ⟨hd, hs, h1, h2, h3⟩ =>
    ⟨hd.trans hk.dome, hs.trans hk.step, h1.trans hk.sums.1, h2.trans hk.sums.2.1, h3.trans hk.sums.2.2⟩
  refine ⟨fun hskew => ?_, fun hskew hready => ?_, h.applied⟩
  · obtain ⟨hclosed, hsent, hu, hf⟩ := h.differs hskew
    exact ⟨hclosed, commitSent_congr hk.tokeepsSending hsent, hundone hu, hf⟩
  · obtain ⟨hclosed, hsent, hu⟩ := h.notReady hskew hready
    exact ⟨hclosed, commitSent_congr hk.tokeepsSending hsent, hundone hu⟩

theorem otherRanks_pair {x y lid n slid : Nat} (hxy : x ≠ y) (hown : lid = x ∨ lid = y) (hslid : slid ≠ lid) (hn : n < 2)
    (hr : [x, y].getD n 0 = slid) : (List.range 2).filter (· ≠ rankIn [x, y] lid) = [n] := by
  have hcase : n = 0 ∨ n = 1 := by omega
  rcases hcase with rfl | rfl <;> rcases hown with rfl | rfl <;> simp_all [rankIn, List.findIdx_cons, List.range_succ]

theorem raiseError_carries (s : State) (code source q isl : Nat) (vals : List Nat) :
    faultCarries (s.raiseError code source q isl vals) code vals :=
  ⟨_, List.mem_append_right _ (List.mem_singleton_self _), rfl, rfl⟩

/-- The state with a vote no longer held. -/
def State.takeVote (s : State) (q : Nat) (v : Vote) : State :=
  s.modPart q fun p => { p with votes := p.votes.filter fun x => !([v] : List Vote).contains x }

section
variable {s : State} {q : Nat} {w : Upd} {v : Vote} (ha : w.agroup ≠ 0xFF)
  (hv : ((List.range (s.agreeGroup q w).length).filter (· ≠ rankIn (s.agreeGroup q w) s.ownLid)).map (s.voteOf q w) = [some v])
include ha hv

theorem updDecide_differs (h : v.t ≠ w.t ∨ v.word ≠ w.word) :
    s.updDecide q w = ((s.takeVote q v).raiseError 0x0201 (spireUnit 5) q (islSpire 4) (skewVals w v)).updFinish q w 4 0 := by
  have hfind : ([v].find? fun x => x.t != w.t || x.word != w.word) = some v :=
    List.find?_cons_of_pos (by rcases h with h | h <;> simp [h])
  rw [State.updDecide, if_neg ha]
  dsimp only
  rw [hv]
  simp only [List.any_cons, List.any_nil, Option.isNone_some, Bool.or_false, Bool.false_eq_true, if_false, List.filterMap_cons,
    List.filterMap_nil, id_eq, hfind, State.takeVote]

theorem updDecide_agrees (h : ¬ (v.t ≠ w.t ∨ v.word ≠ w.word)) : s.updDecide q w =
    if w.ready && v.ready then (s.takeVote q v).updApply q (w.shadow || v.shadow) else (s.takeVote q v).updFinish q w 3 0 := by
  have hfind : ([v].find? fun x => x.t != w.t || x.word != w.word) = none := List.find?_cons_of_neg (by simpa using h)
  rw [State.updDecide, if_neg ha]
  dsimp only
  rw [hv]
  simp only [List.any_cons, List.any_nil, Option.isNone_some, Bool.or_false, Bool.false_eq_true, if_false, List.filterMap_cons,
    List.filterMap_nil, id_eq, hfind, List.all_cons, List.all_nil, Bool.and_true, State.takeVote]

end

/-- With no other vote held, the one vote decides. -/
theorem updDecide_one {s : State} {q : Nat} {w : Upd} {v : Vote} {n : Nat} (hu : (s.part q).upd = some w) (ha : w.agroup ≠ 0xFF)
    (hvotes : (s.part q).votes = [v]) (hva : v.agroup = w.agroup) (hvr : v.rank = n)
    (hranks : (List.range (s.agreeGroup q w).length).filter (· ≠ rankIn (s.agreeGroup q w) s.ownLid) = [n]) :
    decidesBy s (s.updDecide q w) q w v := by
  have hof : s.voteOf q w n = some v := by
    by_cases ht : v.t = w.t <;> simp [State.voteOf, hvotes, hva, hvr, ht]
  have hv : ((List.range (s.agreeGroup q w).length).filter (· ≠ rankIn (s.agreeGroup q w) s.ownLid)).map (s.voteOf q w) = [some v] := by
    rw [hranks, List.map_singleton, hof]
  have hkeep : keepsGroups s (s.takeVote q v) q := keepsGroups_modPart s q fun _ => ⟨rfl, rfl, rfl⟩
  refine ⟨fun hskew => ?_, fun hskew hready => ?_, fun hskew hready => ?_⟩
  · rw [updDecide_differs ha hv hskew]
    obtain ⟨hclosed, hsent, hundone⟩ := updFinish_undone (hkeep.trans (keepsGroups_raiseError _ 0x0201 (spireUnit 5) q (islSpire 4)
      (skewVals w v))) w 4 0
    obtain ⟨n, hn, hcarries⟩ := raiseError_carries (s.takeVote q v) 0x0201 (spireUnit 5) q (islSpire 4) (skewVals w v)
    exact ⟨hclosed, hsent, hundone, n, by rwa [(updFinish_ends ..).faults], hcarries⟩
  · rw [updDecide_agrees ha hv hskew, if_neg (by rcases hready with h | h <;> simp [h])]
    exact updFinish_undone hkeep w 3 0
  · have hupd : ((s.takeVote q v).part q).upd = some w := by
      rw [State.takeVote, State.part_modPart_self]
      exact hu
    rw [updDecide_agrees ha hv hskew, if_pos (by simpa using hready)]
    obtain ⟨x, hx, hst, -, hnext, hshadow, -⟩ := updApply_starts hupd (w.shadow || v.shadow)
    exact ⟨x, hx, hst, hnext, hshadow⟩

/-! The statements. -/

section
variable {s : State} {q : Nat} {w : Upd} {c : W32} {gs : List Nat} (hup : spireUp s 5) (hu : (s.part q).upd = some w) (hst : w.st = 1)
  (hc : (w.clip.orElse fun _ => (s.part q).clip) = some c) (hb : s.updCmdBad q w = false) (hl : s.listedGroups q w = some gs)
  (ho : portsOpen s (s.scanAccess q w gs)) (hg : glistClean s w)
include hup hu hst hc hb hl ho hg

theorem scan_invalidGroup {g : Nat} (hf : s.firstBad q w.t gs = some g) : ∃ u, exec (.updateScanComplete q) s = .next u ∧
    (u.part q).upd = none ∧ commitSent s u q w 1 g ∧ updateUndone s u q := by
  obtain ⟨as, ws, hexec⟩ := exec_scan hup hu hst hc hb hl ho
  obtain ⟨t, ht⟩ : ∃ t, t = ({ s with asks := as, biWaits := ws } : State) := ⟨_, rfl⟩
  have hkeep : keepsGroups s t q := ht ▸ keepsGroups_of_same q (keepsSending_of_same rfl rfl rfl) rfl rfl rfl List.prefix_rfl
  have hgt : glistClean t w := ht ▸ hg
  have hft : t.firstBad q w.t gs = some g := ht ▸ hf
  rw [← ht, updScan_invalid hgt hft] at hexec
  exact ⟨_, hexec, updFinish_undone hkeep w 1 g⟩

variable (hf : s.firstBad q w.t gs = none) (ha : w.agroup = 0xFF)
include hf ha

theorem scan_valid : ∃ t x, keepsGroups s t q ∧ (s.scanPoison q w gs ≠ [] → faultRaised t 0x0301) ∧
    exec (.updateScanComplete q) s = .next (t.updScanned q x) ∧ x.agroup = 0xFF ∧ x.ready = s.scanReady q w c gs ∧ x.groups = gs ∧
    x.ev = w.ev ∧ x.t = w.t := by
  obtain ⟨as, ws, hexec⟩ := exec_scan hup hu hst hc hb hl ho
  obtain ⟨t, ht⟩ : ∃ t, t = ({ s with asks := as, biWaits := ws } : State) := ⟨_, rfl⟩
  have hkeep : keepsGroups s t q := ht ▸ keepsGroups_of_same q (keepsSending_of_same rfl rfl rfl) rfl rfl rfl List.prefix_rfl
  have hgt : glistClean t w := ht ▸ hg
  have hft : t.firstBad q w.t gs = none := ht ▸ hf
  have hready : t.scanReady q w c gs = s.scanReady q w c gs := ht ▸ rfl
  have hpoison : t.scanPoison q w gs = s.scanPoison q w gs := ht ▸ rfl
  obtain ⟨v, n, hv, hraised, hscan⟩ := updScan_valid (c := c) hgt hft
  rw [← ht, hscan] at hexec
  exact ⟨v, _, hkeep.trans hv, hpoison ▸ hraised, hexec, ha, hready, rfl, rfl, rfl⟩

theorem scan_ready (hr : s.scanReady q w c gs = true) : ∃ u v, exec (.updateScanComplete q) s = .next u ∧ (u.part q).upd = some v ∧
    v.st = 3 ∧ v.groups = gs ∧ v.next = gs ∧ u.dome = s.dome := by
  obtain ⟨t, x, ht, -, hexec, hxa, hxr, rfl, -, -⟩ := scan_valid hup hu hst hc hb hl ho hg hf ha
  obtain ⟨v, hv, hvst, hgroups, hnext, hdome⟩ := updScanned_ready (s := t) (q := q) hxa (hxr.trans hr)
  exact ⟨_, v, hexec, hv, hvst, hgroups, hnext, hdome.trans ht.dome⟩

theorem scan_notReady (hr : s.scanReady q w c gs = false) : ∃ u, exec (.updateScanComplete q) s = .next u ∧ (u.part q).upd = none ∧
    commitSent s u q w 3 0 ∧ updateUndone s u q ∧ (s.scanPoison q w gs ≠ [] → faultRaised u 0x0301) := by
  obtain ⟨t, x, ht, hraised, hexec, hxa, hxr, -, hev, hstep⟩ := scan_valid hup hu hst hc hb hl ho hg hf ha
  obtain ⟨v, hv, hend⟩ := updScanned_notReady (s := t) (q := q) hxa (hxr.trans hr)
  rw [hend] at hexec
  obtain ⟨hclosed, hsent, hundone⟩ := updFinish_undone (ht.trans hv) { x with st := 2 } 3 0
  refine ⟨_, hexec, hclosed, ?_, hundone, fun hp => ?_⟩
  · simpa only [commitSent, hev, hstep] using hsent
  · obtain ⟨n, hn, hcode⟩ := hraised hp
    exact ⟨n, (updFinish_faults hv _ 3 0).subset hn, hcode⟩

end

theorem vote_waits {s : State} {k : Packet} {r : List Packet} {g : List Nat} {n : Nat} (hup : spireUp s 5) (hd : delivered s k r)
    (hk : k.kind = 0x1A) (hp : s.present k.qdst = true) (ha : fieldAt k.payload 3 1 ≤ 15)
    (hg : g = s.colGroup k.qdst (fieldAt k.payload 3 1)) (hn : n = fieldAt k.payload 4 2) (hlt : n < g.length)
    (hr : g.getD n 0 = k.slid) (hu : (s.part k.qdst).upd = none) :
    if (fieldAt k.payload 3 1, fieldAt k.payload 8 8) ∈ heldVotes s k.qdst ∨ (heldVotes s k.qdst).length < 16 then
      ∃ u v, exec .voteFrame s = .next u ∧ (u.part k.qdst).votes = (s.part k.qdst).votes ++ [v] ∧ v.rank = n ∧
        v.t = fieldAt k.payload 8 8 ∧ v.word = fieldAt k.payload 16 8
    else exec .voteFrame s = .next (({ s with delivery := r } : State).odAdd k.qdst 0x6001 3 1) := by
  subst hg hn
  have hexec := exec_vote hup hd hk hp ha hlt hr
  simp only [hu, Option.any_none, Bool.false_eq_true, not_false_eq_true, true_and] at hexec
  by_cases hroom : (fieldAt k.payload 3 1, fieldAt k.payload 8 8) ∈ heldVotes s k.qdst ∨ (heldVotes s k.qdst).length < 16
  · rw [if_pos hroom]
    rw [if_neg (by rw [List.contains_iff_mem]; rintro ⟨h, h'⟩; exact hroom.elim h (by omega))] at hexec
    exact ⟨_, voteIn k, hexec, congrArg Part.votes (State.part_setPart_self ..), rfl, rfl, rfl⟩
  · rw [if_neg hroom]
    rw [not_or] at hroom
    rwa [if_pos ⟨by rw [List.contains_iff_mem]; exact hroom.1, by omega⟩] at hexec

theorem lastVote_decides {s : State} {k : Packet} {r : List Packet} {w : Upd} {x y n : Nat} (hup : spireUp s 5) (hd : delivered s k r)
    (hk : k.kind = 0x1A) (hp : s.present k.qdst = true) (hu : (s.part k.qdst).upd = some w) (hst : w.st = 2)
    (ha : w.agroup = fieldAt k.payload 3 1) (ha15 : w.agroup ≤ 15) (hvotes : (s.part k.qdst).votes = [])
    (hg : s.colGroup k.qdst w.agroup = [x, y]) (hxy : x ≠ y) (hown : s.ownLid = x ∨ s.ownLid = y) (hslid : k.slid ≠ s.ownLid)
    (hn : n = fieldAt k.payload 4 2) (hlt : n < 2) (hr : [x, y].getD n 0 = k.slid) :
    ∃ u, exec .voteFrame s = .next u ∧ decidesBy s u k.qdst w (voteIn k) := by
  have hexec := exec_vote hup hd hk hp (ha ▸ ha15) (by rw [← ha, hg, ← hn]; exact hlt) (by rw [← ha, hg, ← hn]; exact hr)
  simp only [hu, Option.any_some, ha, decide_true, not_true_eq_false, false_and, if_false, hst, and_self, if_true] at hexec
  obtain ⟨t, ht⟩ : ∃ t, t = s.holdVote k r := ⟨_, rfl⟩
  have hpart : t.part k.qdst = { s.part k.qdst with votes := (s.part k.qdst).votes ++ [voteIn k] } := ht ▸ State.part_setPart_self ..
  have hgroup : t.agreeGroup k.qdst w = [x, y] := ht ▸ hg
  have hlid : t.ownLid = s.ownLid := ht ▸ rfl
  have hkeep : keepsGroups s t k.qdst := by
    rw [ht, State.holdVote]
    refine keepsGroups.trans (t := { s with delivery := r }) ?_ (keepsGroups_setPart ⟨rfl, rfl, rfl⟩)
    exact keepsGroups_of_same _ (keepsSending_of_same rfl rfl rfl) rfl rfl rfl List.prefix_rfl
  refine ⟨_, hexec, ?_⟩
  rw [← ht]
  refine (updDecide_one (by rw [hpart]; exact hu) (by omega) (by rw [hpart, hvotes]; rfl) ha.symm hn.symm ?_).congr hkeep
  rw [hgroup, hlid]
  exact otherRanks_pair hxy hown hslid hlt hr

/-- Settles O44: the scan ends the update, or what it found decides at once where no group votes; a vote is refused, held, or the last one,
which decides. -/
theorem updateOutcomes : Obligations.UpdateOutcomes := by
  unfold Obligations.UpdateOutcomes
  refine ⟨fun s q w hup hu hst c hc => ⟨fun hb => ?_, fun gs hb hl ho hg => ⟨fun g hf => ?_,
    fun hf ha hp => ⟨fun hfin hcf herr => ?_, fun hbad => ?_⟩, fun hf ha hp => ?_⟩⟩, fun s k r hup hd hk hp hr => ?_,
    fun s k r g n hup hd hk hp ha hg hn hlt hr hu => ?_,
    fun s k r w x y n hup hd hk hp hu hst ha ha15 hvotes hg hxy hown hslid hn hlt hr => ?_⟩
  · obtain ⟨hclosed, hsent, hundone⟩ := updFinish_undone (.refl s q) w 1 0xFFFF
    exact ⟨_, exec_scan_commandBad hup hu hst hc hb, hclosed, hsent, hundone.1⟩
  · exact scan_invalidGroup hup hu hst hc hb hl ho hg hf
  · exact scan_ready hup hu hst hc hb hl ho hg hf ha ((scanReady_clean hp q w c gs).2 ⟨hfin, hcf, herr⟩)
  · have hr : s.scanReady q w c gs = false := by
      rw [Bool.eq_false_iff, ne_eq, scanReady_clean hp]
      rintro ⟨hfin, hcf, herr⟩
      rcases hbad with ⟨n, hn, hgn⟩ | h | h
      · simp [hfin n hn] at hgn
      · simp [hcf] at h
      · simp [herr] at h
    obtain ⟨u, hexec, hclosed, hsent, hundone, -⟩ := scan_notReady hup hu hst hc hb hl ho hg hf ha hr
    exact ⟨u, hexec, hclosed, hsent, hundone⟩
  · have hmet := scanPoison_met hp
    have hr : s.scanReady q w c gs = false := by simp [State.scanReady, hmet]
    obtain ⟨u, hexec, hclosed, hsent, hundone, hraised⟩ := scan_notReady hup hu hst hc hb hl ho hg hf ha hr
    exact ⟨u, hexec, hclosed, hsent, hundone, hraised hmet⟩
  · exact exec_vote_refused hup hd hk hp hr
  · exact vote_waits hup hd hk hp ha hg hn hlt hr hu
  · obtain ⟨u, hexec, hdec⟩ := lastVote_decides hup hd hk hp hu hst ha ha15 hvotes hg hxy hown hslid hn hlt hr
    refine ⟨u, hexec, ?_⟩
    split
    · next hskew => exact hdec.differs hskew
    · next hskew =>
      split
      · next hready => exact hdec.notReady hskew (by simpa [voteIn] using hready)
      · next hready => exact hdec.applied hskew (by simpa [voteIn] using hready)

end Sys2Proof.Machine
end

section
/-! PROOF. What the walkers' work on a group leaves (09 R283-R291): blocks written and counted, norms, pruning requests, and an update
that fails. -/

namespace Sys2Proof.Machine

open Sys2Proof Sys2Proof.Safety

/-! Blocks written and counted (R62, R286). -/

@[simp] theorem parts_countRange (s : State) (q slot : Nat) (c : Conv) : (s.countRange q slot c).parts = s.parts := by
  refine List.foldlRecOn (motive := fun t : State => t.parts = s.parts) _ _ rfl fun t ht e _ => ?_
  split
  · exact ht
  · exact (State.odAdd_parts ..).trans ht

theorem layer_lt (g : Grp) : g.layer < 256 := fieldAt_lt g.raw 5 1

theorem countRanges_keep (q : Nat) {slot : Nat} (hl : slot < 256) (bs : List BlockNew) (s : State) :
    keepsCols s (bs.foldl (fun t x => t.countRange q slot x.cnt) s) ∧
      (bs.foldl (fun t x => t.countRange q slot x.cnt) s).parts = s.parts ∧
      (bs.foldl (fun t x => t.countRange q slot x.cnt) s).dome = s.dome := by
  induction bs generalizing s with
  | nil => exact ⟨.refl s, rfl, rfl⟩
  | cons x bs ih =>
    obtain ⟨hk, hparts, hdome⟩ := ih (s.countRange q slot x.cnt)
    exact ⟨(keepsCols_countRange s q hl x.cnt).trans hk, hparts.trans (parts_countRange ..), hdome.trans (dome_countRange ..)⟩

/-- With no line poisoned, blocks written change dome by their writes, and beside it the range counters alone. -/
theorem putBlocks_clean {s : State} (h : s.poison = []) (q : Nat) (g : Grp) (bs : List BlockNew) :
    keepsCols s (s.putBlocks q g bs) ∧ (s.putBlocks q g bs).parts = s.parts ∧
      (s.putBlocks q g bs).dome = writeAll s.dome (bs.flatMap (blockWrites g)) := by
  obtain ⟨hk, hparts, hdome⟩ := countRanges_keep q (layer_lt g) bs (s.engineWrite q (bs.flatMap (blockWrites g)))
  refine ⟨(keepsCols_engineWrite h q _).trans hk, hparts.trans ?_, hdome.trans ?_⟩ <;> rw [State.engineWrite_clean h]

/-! Norms (R287). -/

theorem keepsCols_addNorms (s : State) (q slot a b : Nat) (badW badU : Bool) : keepsCols s (s.addNorms q slot a b badW badU) := by
  unfold State.addNorms
  extract_lets t v
  have ht : keepsCols s t := keepsCols_modPart s q fun _ => rfl
  have hv : keepsCols t v := by
    simp only [v]
    split
    · exact keepsCols_normNonfinite ..
    · exact .refl t
  split
  · exact (ht.trans hv).trans (keepsCols_normNonfinite ..)
  · exact ht.trans hv

/-- Of finite values, only the working sums grow. -/
theorem addNorms_finite (s : State) (q slot a b : Nat) : ((s.addNorms q slot a b false false).part q).upd = (s.part q).upd ∧
    (s.addNorms q slot a b false false).dome = s.dome ∧ (s.addNorms q slot a b false false).od = s.od := by
  refine ⟨?_, rfl, rfl⟩
  unfold State.addNorms
  extract_lets t v
  have ht : (t.part q).upd = (s.part q).upd := by
    unfold t
    rw [State.part_modPart_self]
  exact ht

/-! Pruning requests posted (R289). -/

/-- How far an update has come: groups not yet begun, mixes outstanding, groups written. -/
def Upd.progress (w : Upd) : List Nat × List Nat × List Nat := (w.next, w.mixOut, w.done)

/-- Dome memory, the dictionary's scalars and the update's progress stay. -/
structure keepsProgress (s u : State) (q : Nat) : Prop where
  dome : u.dome = s.dome
  od : u.od = s.od
  progress : (u.part q).upd.map Upd.progress = (s.part q).upd.map Upd.progress

theorem keepsProgress.trans {s t u : State} {q : Nat} (h : keepsProgress s t q) (h' : keepsProgress t u q) : keepsProgress s u q :=
  ⟨h'.dome.trans h.dome, h'.od.trans h.od, h'.progress.trans h.progress⟩

theorem keepsProgress_modUpd (s : State) (q : Nat) {f : Upd → Upd} (hf : ∀ w, (f w).progress = w.progress) :
    keepsProgress s (s.modUpd q f) q :=
  ⟨rfl, rfl, by rw [upd_modUpd, Option.map_map]; exact congrArg (Option.map · _) (funext hf)⟩

theorem keepsProgress_postPrune (s : State) (q t a slot : Nat) : keepsProgress s (s.postPrune q t a slot) q := by
  unfold State.postPrune
  dsimp only
  split
  · exact keepsProgress_modUpd s q (f := fun u => { u with pruneWait := u.pruneWait ++ [(t, a, slot)] }) fun _ => rfl
  · exact keepsProgress.trans (t := { s with
        prune := mapSet {} s.prune t { q := q, addr := a, slot := slot, boom := true }, pruneBusy := setIns s.pruneBusy t })
      ⟨rfl, rfl, rfl⟩ (keepsProgress_modUpd _ q (f := fun u => { u with pruneOut := u.pruneOut ++ [t] }) fun _ => rfl)

theorem keepsProgress_postPrunes (n : Nat) (s : State) (q : Nat) : keepsProgress s (State.postPrunes n s q) q := by
  induction n generalizing s with
  | zero => exact ⟨rfl, rfl, rfl⟩
  | succ n ih =>
    unfold State.postPrunes
    split
    · exact ⟨rfl, rfl, rfl⟩
    · refine keepsProgress.trans ?_ (ih _)
      refine keepsProgress.trans ?_ (keepsProgress_postPrune ..)
      exact keepsProgress_modUpd s q fun _ => rfl

/-! A group written (R288, R289, R437). -/

/-- The update's group `num` is written: it has `next` and `mix` before it still, and dome memory and the objects stay. -/
structure groupDone (s u : State) (q num : Nat) (w : Upd) : Prop where
  dome : u.dome = s.dome
  od : u.od = s.od
  upd : ∃ v, (u.part q).upd = some v ∧ v.next = w.next ∧ v.mixOut = w.mixOut ∧ v.done = w.done ++ [num]

theorem groupWritten_done {s : State} {q num : Nat} {w x : Upd} (hu : (s.part q).upd = some x) (hwork : (s.grp q num).work = 0)
    (hshadow : w.shadow = false) (rows : List Nat) : groupDone s (s.groupWritten q w num rows) q num x := by
  have hposts : s.groupWritten q w num rows =
      State.postPrunes w.groups.length (s.modUpd q fun v => { v with done := v.done ++ [num] }) q := by
    simp [State.groupWritten, hwork, hshadow]
  have hkeep := keepsProgress_postPrunes w.groups.length (s.modUpd q fun v => { v with done := v.done ++ [num] }) q
  rw [hposts]
  refine ⟨hkeep.dome, hkeep.od, ?_⟩
  have hprog := hkeep.progress
  rw [upd_modUpd, hu, Option.map_some, Option.map_some, Option.map_eq_some_iff] at hprog
  obtain ⟨v, hv, he⟩ := hprog
  simp only [Upd.progress, Prod.mk.injEq] at he
  exact ⟨v, hv, he.1, he.2.1, he.2.2⟩

/-- A group's record reads as before where its address and its bytes are as before. -/
theorem grp_congr {s u : State} {q num : Nat} (h4 : u.odGet q 0x6400 4 = s.odGet q 0x6400 4) (h5 : u.odGet q 0x6400 5 = s.odGet q 0x6400 5)
    (hd : memRead u.dome (s.groupAddr q num) 128 = (s.grp q num).raw) : u.grp q num = s.grp q num := by
  have ha : u.groupAddr q num = s.groupAddr q num := by rw [State.groupAddr, h4, h5, State.groupAddr]
  rw [State.grp, ha, State.domeRead, hd]

/-! An update that fails (R283). -/

theorem updFail_closes {s t : State} (h : keepsSending s t) (hp : t.poison = []) (q : Nat) (w : Upd) (num : Nat) (g : Grp)
    (bs : List BlockNew) :
    ((t.updFail q w num g bs).part q).upd = none ∧ commitSent s (t.updFail q w num g bs) q w 6 num := by
  unfold State.updFail
  dsimp only
  refine updFinish_closes ?_ q w 6 num
  obtain ⟨hput, -, -⟩ := putBlocks_clean (s := (t.draw bs.length).2) hp q g
    ((bs.zipIdx.filter fun x => (t.draw bs.length).1.getLsbD x.2).map (·.1))
  have hdraw : keepsSending t (t.draw bs.length).2 := keepsSending_of_same rfl rfl rfl
  refine ((h.trans hdraw).trans hput.sending).trans ?_
  exact keepsSending_of_same rfl rfl rfl

/-- The generation of a shadowed update begins, or is lost at once (R437, R441). -/
theorem keepsSending_shadowStart (s : State) (q : Nat) (w : Upd) : keepsSending s (s.shadowStart q w) := by
  have hod : ∀ (t : State) sub v, keepsSending t (t.odSet 0 (shadowIdx q) sub v) := fun t sub v =>
    keepsSending_odSet t 0 sub v (by unfold shadowIdx; omega)
  have hadd : ∀ (t : State) sub n, keepsSending t (t.odAdd 0 (shadowIdx q) sub n) := fun t sub _ => hod t sub _
  have hmod : ∀ f, keepsSending s (s.modPart q f) := fun f => keepsSending_of_same rfl rfl rfl
  unfold State.shadowStart
  split
  · unfold State.beginShadow
    split
    · have hlost := ((hmod fun p => { p with shSend := none }).trans (hod _ 5 0)).trans (hadd _ 8 1)
      exact hlost.trans (keepsSending_of_same rfl rfl rfl)
    · exact (hmod _).trans (hod _ 5 1)
  · exact .refl s

end Sys2Proof.Machine
end

section
/-! PROOF. Applying a group (09 R278, R283, R285, R286). -/

namespace Sys2Proof.Machine

open Sys2Proof Sys2Proof.Safety

/-- Every row of a dense group is updated. -/
theorem rowPlans_dense {g : Grp} (h : g.sparse = false) (s : State) (q t : Nat) :
    s.rowPlans q t g = (List.range g.rows).map fun r => ⟨r, [], true⟩ := by simp [State.rowPlans, h]

theorem hits_dense {g : Grp} (h : g.sparse = false) (s : State) (q t : Nat) :
    ((s.rowPlans q t g).filter (·.hit)).length * g.rowLen = g.elems := by
  have hall : (s.rowPlans q t g).filter (·.hit) = s.rowPlans q t g := List.filter_eq_self.2 fun p hp => by
    rw [rowPlans_dense h] at hp
    obtain ⟨r, -, rfl⟩ := List.mem_map.1 hp
    rfl
  rw [hall, rowPlans_dense h, List.length_map, List.length_range, Grp.elems]

theorem shadowStart_plain {w : Upd} (h : w.shadow = false) (s : State) (q : Nat) : s.shadowStart q w = s := by
  simp [State.shadowStart, h]

/-- The blocks that step `t` of update `w` makes of group `num`. -/
def State.stepBlocks (s : State) (q : Nat) (w : Upd) (num : Nat) : List BlockNew :=
  s.groupBlocks (s.ruleOf q w.t (w.clip.getD f32One) (s.grp q num)) (s.rowPlans q w.t (s.grp q num))

section
variable {s : State} {q num : Nat} {w : Upd} {rest : List Nat}

theorem applyGroup_bad (hp : s.poison = []) (hbad : ∃ x ∈ s.stepBlocks q w num, x.bad = true) :
    ((s.applyGroup q w num rest).part q).upd = none ∧ commitSent s (s.applyGroup q w num rest) q w 6 num := by
  have hne : (s.stepBlocks q w num).filter (·.bad) ≠ [] := by simpa [List.filter_eq_nil_iff] using hbad
  obtain ⟨v, hv⟩ : ∃ v, v = ((s.shadowStart q w).modUpd q fun v => { v with next := rest }).addNorms q (s.grp q num).layer 0 0
      (((s.stepBlocks q w num).filter (·.bad)).any (·.badW)) (((s.stepBlocks q w num).filter (·.bad)).any (·.badU)) := ⟨_, rfl⟩
  have hfail : s.applyGroup q w num rest = v.updFail q w num (s.grp q num) (s.stepBlocks q w num) := by
    rw [hv]
    exact if_pos hne
  have hkeep : keepsSending s v := by
    have hnext : keepsSending (s.shadowStart q w) ((s.shadowStart q w).modUpd q fun v => { v with next := rest }) :=
      keepsSending_of_same rfl rfl rfl
    rw [hv]
    exact ((keepsSending_shadowStart s q w).trans hnext).trans (keepsCols_addNorms ..).sending
  rw [hfail]
  exact updFail_closes hkeep (hkeep.poison hp) q w num _ _

/-- The group's blocks written, counted and summed, its pruning and its working copy still to come. -/
def State.putGroup (s : State) (q : Nat) (w : Upd) (num : Nat) (rest : List Nat) : State :=
  let bs := s.stepBlocks q w num
  ((((s.modUpd q fun v => { v with next := rest }).putBlocks q (s.grp q num) bs).odAdd q 0x6404 4 (s.grp q num).elems).addNorms q
    (s.grp q num).layer (bs.map (·.sqW)).sum (bs.map (·.sqU)).sum false false)

theorem applyGroup_writes (hgood : ∀ x ∈ s.stepBlocks q w num, x.bad = false) (hshadow : w.shadow = false)
    (hrule : (s.grp q num).rule ≠ 3) (hsparse : (s.grp q num).sparse = false) :
    s.applyGroup q w num rest = (s.putGroup q w num rest).groupWritten q w num ((s.rowPlans q w.t (s.grp q num)).map (·.row)) := by
  have hnone : (s.stepBlocks q w num).filter (·.bad) = [] := List.filter_eq_nil_iff.2 fun x hx => by simp [hgood x hx]
  rw [State.putGroup, ← hits_dense hsparse s q w.t]
  unfold State.applyGroup
  simp only [shadowStart_plain hshadow, hsparse, if_neg hrule]
  exact if_neg (not_not_intro hnone)

theorem putGroup_keeps (hp : s.poison = []) (hu : (s.part q).upd = some w) :
    ((s.putGroup q w num rest).part q).upd = some { w with next := rest } ∧
    (s.putGroup q w num rest).dome = writeAll s.dome ((s.stepBlocks q w num).flatMap (blockWrites (s.grp q num))) ∧
    (∀ k < 256, (s.putGroup q w num rest).odGet q 0x6400 k = s.odGet q 0x6400 k) ∧
    (s.putGroup q w num rest).odGet q 0x6404 4 = (s.odGet q 0x6404 4 + (s.grp q num).elems) % 2 ^ 64 := by
  obtain ⟨t, ht⟩ : ∃ t, t = (s.modUpd q fun v => { v with next := rest }).putBlocks q (s.grp q num) (s.stepBlocks q w num) :=
    ⟨_, rfl⟩
  obtain ⟨hput, hparts, hdome⟩ := putBlocks_clean (s := s.modUpd q fun v => { v with next := rest }) hp q (s.grp q num)
    (s.stepBlocks q w num)
  obtain ⟨hupdN, hdomeN, hodN⟩ := addNorms_finite (t.odAdd q 0x6404 4 (s.grp q num).elems) q (s.grp q num).layer
    ((s.stepBlocks q w num).map (·.sqW)).sum ((s.stepBlocks q w num).map (·.sqU)).sum
  rw [← ht] at hput hparts hdome
  have hobj : ∀ i k, i = 0x6400 ∨ i = 0x6404 → k < 256 → t.odGet q i k = s.odGet q i k := fun i k hi hk =>
    hput.odGet q hk (by omega) (by omega)
  rw [State.putGroup, ← ht]
  refine ⟨hupdN.trans ?_, hdomeN.trans hdome, fun k hk => ?_, ?_⟩
  · rw [part_of_parts (State.odAdd_parts t q 0x6404 4 _), part_of_parts hparts, upd_modUpd, hu]
    rfl
  · rw [State.odGet, hodN]
    exact (State.odGet_odAdd_other t _ (by unfold odKey; omega)).trans (hobj _ k (.inl rfl) hk)
  · rw [State.odGet, hodN]
    refine (State.odGet_odAdd_self t q 0x6404 4 _).trans ?_
    rw [hobj _ 4 (.inr rfl) (by decide)]

theorem applyGroup_good (hp : s.poison = []) (hu : (s.part q).upd = some w) (hgood : ∀ x ∈ s.stepBlocks q w num, x.bad = false)
    (hshadow : w.shadow = false) (hwork : (s.grp q num).work = 0) (hrule : (s.grp q num).rule ≠ 3)
    (hsparse : (s.grp q num).sparse = false)
    (hrec : memRead (writeAll s.dome ((s.stepBlocks q w num).flatMap (blockWrites (s.grp q num)))) (s.groupAddr q num) 128 =
      (s.grp q num).raw) :
    ∃ v, ((s.applyGroup q w num rest).part q).upd = some v ∧ v.next = rest ∧ v.done = w.done ++ [num] ∧
      (s.applyGroup q w num rest).dome = writeAll s.dome ((s.stepBlocks q w num).flatMap (blockWrites (s.grp q num))) ∧
      (s.applyGroup q w num rest).odGet q 0x6404 4 = (s.odGet q 0x6404 4 + (s.grp q num).elems) % 2 ^ 64 := by
  obtain ⟨hupd, hdome, hget, hcount⟩ := putGroup_keeps (num := num) (rest := rest) hp hu
  have hgrp : (s.putGroup q w num rest).grp q num = s.grp q num :=
    grp_congr (hget 4 (by decide)) (hget 5 (by decide)) (by rw [hdome, hrec])
  obtain ⟨hd, ho, v, hv, hnext, -, hdone⟩ := groupWritten_done hupd (by rw [hgrp, hwork]) hshadow
    ((s.rowPlans q w.t (s.grp q num)).map (·.row))
  rw [applyGroup_writes hgood hshadow hrule hsparse]
  refine ⟨v, hv, hnext, hdone, hd.trans hdome, ?_⟩
  rw [State.odGet, ho]
  exact hcount

end

/-- The walker takes the next group in list order. -/
theorem exec_walker {s : State} {q num : Nat} {w : Upd} {rest : List Nat} (hup : spireUp s 5) (hu : (s.part q).upd = some w)
    (hn : w.next = num :: rest) (hst : w.st = 3) (hsh : s.shadowHolds q w.t = false) (hp : s.poison = [])
    (ho : portsOpen s (s.walkAccess q w num)) :
    ∃ as ws, exec (.walkerGroupComplete q) s = .next (({ s with asks := as, biWaits := ws } : State).applyGroup q w num rest) := by
  obtain ⟨as, ws, hopen⟩ := portGates_read ho hp
  refine ⟨as, ws, ?_⟩
  change execWalkerGroupComplete q s = _
  rw [execWalkerGroupComplete, spireEvent_up _ hup.1 hup.2]
  simp only [hu, hn]
  rw [if_neg (by simp [hst, hsh]), hopen]

theorem walkerGroup_applies {s : State} {q num : Nat} {w : Upd} {rest : List Nat} {g : Grp} {blocks : List BlockNew} (hup : spireUp s 5)
    (hu : (s.part q).upd = some w) (hn : w.next = num :: rest) (hst : w.st = 3) (hsh : s.shadowHolds q w.t = false) (hp : s.poison = [])
    (ho : portsOpen s (s.walkAccess q w num)) (hg : g = s.grp q num) (hb : blocks = s.stepBlocks q w num) :
    ((∀ x ∈ blocks, x.bad = false) → w.shadow = false → g.work = 0 → g.rule ≠ 3 → g.sparse = false →
      memRead (writeAll s.dome (blocks.flatMap (blockWrites g))) (s.groupAddr q num) 128 = g.raw →
      ∃ u v, exec (.walkerGroupComplete q) s = .next u ∧ (u.part q).upd = some v ∧ v.next = rest ∧ v.done = w.done ++ [num] ∧
        u.dome = writeAll s.dome (blocks.flatMap (blockWrites g)) ∧ u.odGet q 0x6404 4 = (s.odGet q 0x6404 4 + g.elems) % 2 ^ 64) ∧
    ((∃ x ∈ blocks, x.bad = true) →
      ∃ u, exec (.walkerGroupComplete q) s = .next u ∧ (u.part q).upd = none ∧ commitSent s u q w 6 num) := by
  obtain ⟨as, ws, hexec⟩ := exec_walker hup hu hn hst hsh hp ho
  obtain ⟨t, ht⟩ : ∃ t, t = ({ s with asks := as, biWaits := ws } : State) := ⟨_, rfl⟩
  have htake : keepsSending s t := ht ▸ keepsSending_of_same rfl rfl rfl
  have hgt : g = t.grp q num := hg.trans (ht ▸ rfl)
  have hbt : blocks = t.stepBlocks q w num := hb.trans (ht ▸ rfl)
  rw [← ht] at hexec
  refine ⟨fun hgood hshadow hwork hrule hsparse hrec => ?_, fun hbad => ?_⟩
  · have hrec' : memRead (writeAll t.dome (blocks.flatMap (blockWrites g))) (t.groupAddr q num) 128 = g.raw := by
      rw [ht]
      exact hrec
    subst hgt hbt
    obtain ⟨v, hv, hnext, hdone, hdome, hcount⟩ := applyGroup_good (rest := rest) (htake.poison hp) (ht ▸ hu) hgood hshadow
      hwork hrule hsparse hrec'
    exact ⟨_, v, hexec, hv, hnext, hdone, hdome.trans (by rw [ht]), hcount.trans (by rw [ht]; rfl)⟩
  · obtain ⟨hclosed, hsent⟩ := applyGroup_bad (rest := rest) (htake.poison hp) (hbt ▸ hbad)
    exact ⟨_, hexec, hclosed, commitSent_congr htake hsent⟩

end Sys2Proof.Machine
end

section
/-! PROOF. Matrix mixing (09 R283, R290). -/

namespace Sys2Proof.Machine

open Sys2Proof Sys2Proof.Safety

/-! Blocks put side by side. -/

theorem range_mul_flatMap {α : Type} (f : Nat → α) (m n : Nat) :
    ((List.range n).flatMap fun b => (List.range m).map fun i => f (m * b + i)) = (List.range (m * n)).map f := by
  induction n with
  | zero => simp
  | succ n ih =>
    rw [List.range_succ, List.flatMap_append, ih, Nat.mul_succ, List.range_add, List.map_append, List.map_map]
    simp [Function.comp_def]

/-- Writes of one length, each behind the other, are one write of their bytes. -/
theorem writeAll_adjacent (m : List Host.Cell) (a k : Nat) {f : Nat → Bytes} (hf : ∀ b, (f b).length = k) (n : Nat) :
    writeAll m ((List.range n).map fun b => (a + k * b, f b)) = memWrite m a ((List.range n).flatMap f) := by
  induction n with
  | zero => rfl
  | succ n ih =>
    have hlen : ((List.range n).flatMap f).length = k * n := by simp [List.length_flatMap, hf, Nat.mul_comm]
    rw [List.range_succ, List.map_append, List.flatMap_append, memWrite_append, hlen, ← ih, writeAll, writeAll, List.foldl_append]
    simp

/-! The new weights. -/

/-- The old weight of element `k` of a mixing group, and its new one from O (R290). -/
def State.mixPair (s : State) (r : Rule) (k : Nat) : W32 × W32 :=
  let w : W32 := BitVec.ofNat 32 (s.domeNat (r.g.master + 4 * k) 4)
  (w, r.weight w (f32Mul (r.g.f32 120) (BitVec.ofNat 32 (s.domeNat (r.g.mixOut + 4 * k) 4))))

theorem mixBlock_eq (s : State) (r : Rule) (b : Nat) :
    s.mixBlock r b = (((List.range 32).map fun i => (s.mixPair r (32 * b + i)).1),
      ((List.range 32).map fun i => (s.mixPair r (32 * b + i)).2)) := by
  simp [State.mixBlock, State.mixPair]

theorem length_wordBytes (ws : List W32) : (ws.flatMap fun w => leBytes 4 w.toNat).length = 4 * ws.length := by
  simp [List.length_flatMap, length_leBytes, List.map_const', Nat.mul_comm]

/-- The new weights of the first `n` elements, as they lie in MASTER. -/
def State.mixedBytes (s : State) (r : Rule) (n : Nat) : Bytes :=
  ((List.range n).map fun k => (s.mixPair r k).2).flatMap fun w => leBytes 4 w.toNat

theorem length_mixedBytes (s : State) (r : Rule) (n : Nat) : (s.mixedBytes r n).length = 4 * n := by
  rw [State.mixedBytes, length_wordBytes, List.length_map, List.length_range]

/-- A weight or a difference of the first `n` elements is not finite. -/
def State.mixNonfinite (s : State) (r : Rule) (n : Nat) : Prop :=
  ∃ k < n, finiteW (s.mixPair r k).2 = false ∨ finiteW (f32Sub (s.mixPair r k).2 (s.mixPair r k).1) = false

theorem normPart_mix (s : State) (r : Rule) (n : Nat) :
    (normPart ((List.range n).map fun k => (s.mixPair r k).1) ((List.range n).map fun k => (s.mixPair r k).2)).1 = true ∨
      (normPart ((List.range n).map fun k => (s.mixPair r k).1) ((List.range n).map fun k => (s.mixPair r k).2)).2.1 = true ↔
    s.mixNonfinite r n := by
  simp only [normPart, List.zip_map', List.map_map, List.any_map, List.any_eq_true, List.mem_range, Function.comp_apply,
    Bool.not_eq_true', State.mixNonfinite]
  constructor
  · rintro (⟨k, hk, h⟩ | ⟨k, hk, h⟩)
    · exact ⟨k, hk, .inl h⟩
    · exact ⟨k, hk, .inr h⟩
  · rintro ⟨k, hk, h | h⟩
    · exact .inl ⟨k, hk, h⟩
    · exact .inr ⟨k, hk, h⟩

theorem mixWrites_eq (s : State) (r : Rule) (m : List Host.Cell) (n : Nat) :
    writeAll m ((List.range n).map fun b => mixWrite r.g b (s.mixBlock r b).2) = memWrite m r.g.master (s.mixedBytes r (32 * n)) := by
  have hlen : ∀ b, ((s.mixBlock r b).2.flatMap fun w => leBytes 4 w.toNat).length = 128 := fun b => by
    rw [length_wordBytes, mixBlock_eq, List.length_map, List.length_range]
  refine (writeAll_adjacent m r.g.master 128 hlen n).trans (congrArg (memWrite m r.g.master) ?_)
  rw [State.mixedBytes, ← range_mul_flatMap, List.flatMap_assoc]
  simp only [mixBlock_eq]

/-- A weight written reads back. -/
theorem memNat_mixed (s : State) (r : Rule) (m : List Host.Cell) (a : Nat) {k n : Nat} (hk : k < n) :
    memNat (memWrite m a (s.mixedBytes r n)) (a + 4 * k) 4 = (s.mixPair r k).2.toNat := by
  have hpart : ((s.mixedBytes r n).drop (4 * k)).take 4 = leBytes 4 (s.mixPair r k).2.toNat := by
    rw [State.mixedBytes, drop_take_flatMap (fun _ => length_leBytes 4 _) _ (by simpa using hk)]
    simp
  have hlt := (s.mixPair r k).2.isLt
  rw [memNat, memRead_write_part _ _ _ (by rw [length_mixedBytes]; omega), hpart, leNat_leBytes]
  exact Nat.mod_eq_of_lt (by omega)

theorem memRead_write_out (m : List Host.Cell) {a x n : Nat} {b : Bytes} (h : x + n ≤ a ∨ a + b.length ≤ x) :
    memRead (memWrite m a b) x n = memRead m x n :=
  List.map_congr_left fun i hi => memByte_write_out m a b (by have := List.mem_range.1 hi; omega)

theorem mixBlocks_weights (s : State) (r : Rule) (n : Nat) :
    ((List.range n).map (s.mixBlock r)).flatMap (·.1) = (List.range (32 * n)).map (fun k => (s.mixPair r k).1) ∧
      ((List.range n).map (s.mixBlock r)).flatMap (·.2) = (List.range (32 * n)).map (fun k => (s.mixPair r k).2) := by
  rw [← range_mul_flatMap, ← range_mul_flatMap]
  simp only [List.flatMap_map, mixBlock_eq, and_self]

/-! The group written (R290), or not (R283). -/

theorem elems_blocks {g : Grp} (h : g.rowLen % 32 = 0) : g.elems = 32 * g.blocks := by
  have h32 : 32 ∣ g.elems := (Nat.dvd_of_mod_eq_zero h).mul_left g.rows
  rw [Grp.blocks, Nat.mul_div_cancel' h32]

theorem mixFail_closes {s t : State} (h : keepsSending s t) (hp : t.poison = []) (q : Nat) (w : Upd) (num : Nat) (r : Rule)
    (bs : List Nat) : ((t.mixFail q w num r bs).part q).upd = none ∧ commitSent s (t.mixFail q w num r bs) q w 6 num := by
  have hwrite := keepsCols_engineWrite (s := (t.draw bs.length).2) hp q ((bs.zipIdx.filter fun x => (t.draw bs.length).1.getLsbD x.2).map
    fun x => mixWrite r.g x.1 (t.mixBlock r x.1).2)
  have hdraw : keepsSending t (t.draw bs.length).2 := keepsSending_of_same rfl rfl rfl
  exact updFail_closes ((h.trans hdraw).trans hwrite.sending) (hwrite.poison hp) q w num r.g []

section
variable {s : State} {q num : Nat} {w : Upd} {g : Grp} {rl : Rule} (hg : g = s.grp q num) (hrl : rl = s.ruleOf q w.t (w.clip.getD f32One) g)
  (hlen : g.rowLen % 32 = 0)
include hg hrl hlen

theorem mixGroup_fails (hbad : s.mixNonfinite rl g.elems) : ∃ x y, s.mixGroup q w num =
    ((s.modUpd q fun v => { v with mixOut := v.mixOut.erase num }).addNorms q g.layer 0 0 x y).mixFail q w num rl
      (List.range g.blocks) := by
  rw [elems_blocks hlen, ← normPart_mix, ← Bool.or_eq_true] at hbad
  obtain ⟨hold, hnew⟩ := mixBlocks_weights s rl g.blocks
  subst hrl hg
  unfold State.mixGroup
  dsimp only
  rw [hold, hnew]
  exact ⟨_, _, if_pos hbad⟩

theorem mixGroup_writes (hgood : ¬ s.mixNonfinite rl g.elems) : ∃ a b, s.mixGroup q w num =
    (((s.modUpd q fun v => { v with mixOut := v.mixOut.erase num }).engineWrite q
      ((List.range g.blocks).map fun i => mixWrite g i (s.mixBlock rl i).2)).addNorms q g.layer a b false false).groupWritten q w num
        (List.range g.rows) := by
  rw [elems_blocks hlen, ← normPart_mix, ← Bool.or_eq_true] at hgood
  obtain ⟨hold, hnew⟩ := mixBlocks_weights s rl g.blocks
  subst hrl hg
  unfold State.mixGroup
  dsimp only
  rw [hold, hnew]
  exact ⟨_, _, if_neg hgood⟩

variable (hp : s.poison = [])
include hp

theorem mixGroup_bad (hbad : s.mixNonfinite rl g.elems) :
    ((s.mixGroup q w num).part q).upd = none ∧ commitSent s (s.mixGroup q w num) q w 6 num := by
  obtain ⟨x, y, hfail⟩ := mixGroup_fails hg hrl hlen hbad
  obtain ⟨t, ht⟩ : ∃ t, t = s.modUpd q fun v => { v with mixOut := v.mixOut.erase num } := ⟨_, rfl⟩
  have hmod : keepsSending s t := ht ▸ keepsSending_of_same rfl rfl rfl
  have hkeep := hmod.trans (keepsCols_addNorms t q g.layer 0 0 x y).sending
  rw [hfail, ← ht]
  exact mixFail_closes hkeep (hkeep.poison hp) q w num rl _

theorem mixGroup_good (hu : (s.part q).upd = some w) (hwork : g.work = 0) (hshadow : w.shadow = false)
    (hout : g.master + 4 * g.elems ≤ s.groupAddr q num ∨ s.groupAddr q num + 128 ≤ g.master) (hgood : ¬ s.mixNonfinite rl g.elems) :
    ∃ v, ((s.mixGroup q w num).part q).upd = some v ∧ v.mixOut = w.mixOut.erase num ∧ v.done = w.done ++ [num] ∧
      (s.mixGroup q w num).dome = memWrite s.dome g.master (s.mixedBytes rl g.elems) := by
  obtain ⟨a, b, hwrite⟩ := mixGroup_writes hg hrl hlen hgood
  obtain ⟨t, ht⟩ : ∃ t, t = (s.modUpd q fun v => { v with mixOut := v.mixOut.erase num }).engineWrite q
    ((List.range g.blocks).map fun i => mixWrite g i (s.mixBlock rl i).2) := ⟨_, rfl⟩
  have hclean := ht.trans (State.engineWrite_clean (s := s.modUpd q fun v => { v with mixOut := v.mixOut.erase num }) hp q _)
  have hrule : rl.g = g := by rw [hrl]; rfl
  have htdome : t.dome = memWrite s.dome g.master (s.mixedBytes rl g.elems) := by
    rw [hclean, elems_blocks hlen]
    exact hrule ▸ mixWrites_eq s rl s.dome g.blocks
  have htupd : (t.part q).upd = some { w with mixOut := w.mixOut.erase num } := by
    rw [hclean]
    exact (upd_modUpd s q _).trans (by rw [hu]; rfl)
  obtain ⟨hupd, hdome, hod⟩ := addNorms_finite t q g.layer a b
  obtain ⟨v, hv⟩ : ∃ v, v = t.addNorms q g.layer a b false false := ⟨_, rfl⟩
  rw [← hv] at hupd hdome hod
  have hget : ∀ k, v.odGet q 0x6400 k = s.odGet q 0x6400 k := fun k => by
    rw [State.odGet, hod, hclean]
    rfl
  have hgrp : v.grp q num = s.grp q num := by
    refine grp_congr (hget 4) (hget 5) ?_
    rw [hdome, htdome, memRead_write_out _ (by rw [length_mixedBytes]; omega)]
    rfl
  obtain ⟨hd, -, x, hx, -, hmix, hdone⟩ := groupWritten_done (hupd.trans htupd) (by rw [hgrp, ← hg, hwork]) hshadow
    (List.range g.rows)
  rw [hwrite, ← ht, ← hv]
  exact ⟨x, hx, hmix, hdone, hd.trans (hdome.trans htdome)⟩

end

/-! The command (R290). -/

section
variable {s : State} {q : Nat} {r : Bytes} (hup : spireUp s 5) (hr : s.colHeadCmd q = some r) (hcode : fieldAt r 0 1 = 0x11)
include hup hr hcode

theorem exec_mixdone_unknown (h : ∀ w, (s.part q).upd = some w → fieldAt r 2 2 ∉ w.mixOut) :
    exec (.mixdone q) s = .next ((s.colPop q).odAdd q 0x6404 9 1) := by
  have hnone : ((s.part q).upd.filter fun u => u.mixOut.contains (fieldAt r 2 2)) = none := by
    rw [Option.filter_eq_none_iff]
    exact fun w hw => by simpa using h w hw
  change execMixdone q s = _
  rw [execMixdone, spireEvent_up _ hup.1 hup.2]
  simp only [hr, hnone]
  rw [if_neg (not_not_intro hcode)]

theorem exec_mixdone {w : Upd} {g : Grp} (hu : (s.part q).upd = some w) (hm : fieldAt r 2 2 ∈ w.mixOut) (hshadow : w.shadow = false)
    (hg : g = s.grp q (fieldAt r 2 2)) (hwork : g.work = 0)
    (hport : cleanPort s (walkerUnit (domeOf g.master)) [(g.mixOut, 4 * g.elems), (g.master, 4 * g.elems)]) :
    ∃ as ws, exec (.mixdone q) s = .next ((({ s with asks := as, biWaits := ws } : State).colPop q).mixGroup q w (fieldAt r 2 2)) := by
  have hsome : ((s.part q).upd.filter fun u => u.mixOut.contains (fieldAt r 2 2)) = some w := by
    rw [hu, Option.filter_some, if_pos (by simpa using hm)]
  have hopens : portsOpen s [(walkerUnit (domeOf g.master), [(g.mixOut, 4 * g.elems), (g.master, 4 * g.elems)])] := fun a ha => by
    rw [List.mem_singleton.1 ha]
    exact hport.2
  obtain ⟨as, ws, hopen⟩ := portGates_read hopens hport.1
  refine ⟨as, ws, ?_⟩
  change execMixdone q s = _
  rw [execMixdone, spireEvent_up _ hup.1 hup.2]
  simp only [hr, hsome, ← hg, hwork, hshadow, ne_eq, not_true_eq_false, false_and, if_false, List.append_nil, Bool.false_eq_true, hopen]
  rw [if_neg (not_not_intro hcode)]

end

/-- Every weight, old, mixed and new, is named by its element. -/
theorem mixdone_applies {s : State} {q num : Nat} {r : Bytes} {w : Upd} {g : Grp} {rl : Rule} {W U : Nat → W32} (hup : spireUp s 5)
    (hr : s.colHeadCmd q = some r) (hcode : fieldAt r 0 1 = 0x11) (hnum : num = fieldAt r 2 2) (hu : (s.part q).upd = some w)
    (hm : num ∈ w.mixOut) (hshadow : w.shadow = false) (hg : g = s.grp q num) (hwork : g.work = 0) (hlen : g.rowLen % 32 = 0)
    (hport : cleanPort s (walkerUnit (domeOf g.master)) [(g.mixOut, 4 * g.elems), (g.master, 4 * g.elems)])
    (hout : g.master + 4 * g.elems ≤ s.groupAddr q num ∨ s.groupAddr q num + 128 ≤ g.master)
    (hrl : rl = s.ruleOf q w.t (w.clip.getD f32One) g) (hW : ∀ k, W k = BitVec.ofNat 32 (s.domeNat (g.master + 4 * k) 4))
    (hU : ∀ k, U k = f32Mul (g.f32 120) (BitVec.ofNat 32 (s.domeNat (g.mixOut + 4 * k) 4))) :
    ((∀ k < g.elems, finiteW (rl.weight (W k) (U k)) = true ∧ finiteW (f32Sub (rl.weight (W k) (U k)) (W k)) = true) →
      ∃ u v, exec (.mixdone q) s = .next u ∧ (u.part q).upd = some v ∧ v.mixOut = w.mixOut.erase num ∧ v.done = w.done ++ [num] ∧
        ∀ k < g.elems, memNat u.dome (g.master + 4 * k) 4 = (rl.weight (W k) (U k)).toNat) ∧
    ((∃ k < g.elems, finiteW (rl.weight (W k) (U k)) = false ∨ finiteW (f32Sub (rl.weight (W k) (U k)) (W k)) = false) →
      ∃ u, exec (.mixdone q) s = .next u ∧ (u.part q).upd = none ∧ commitSent s u q w 6 num) := by
  subst hnum
  obtain ⟨as, ws, hexec⟩ := exec_mixdone hup hr hcode hu hm hshadow hg hwork hport
  obtain ⟨t, ht⟩ : ∃ t, t = ({ s with asks := as, biWaits := ws } : State).colPop q := ⟨_, rfl⟩
  have htake : keepsSending s t := ht ▸ keepsSending_of_same rfl rfl rfl
  have hp : t.poison = [] := htake.poison hport.1
  have hgt : g = t.grp q (fieldAt r 2 2) := hg.trans (ht ▸ rfl)
  have hrlt : rl = t.ruleOf q w.t (w.clip.getD f32One) g := hrl.trans (ht ▸ rfl)
  have hpair : ∀ k, t.mixPair rl k = (W k, rl.weight (W k) (U k)) := fun k => by
    rw [hW, hU, hrl, ht]
    rfl
  have hnonfinite : t.mixNonfinite rl g.elems ↔
      ∃ k < g.elems, finiteW (rl.weight (W k) (U k)) = false ∨ finiteW (f32Sub (rl.weight (W k) (U k)) (W k)) = false := by
    simp only [State.mixNonfinite, hpair]
  rw [← ht] at hexec
  refine ⟨fun hfin => ?_, fun hbad => ?_⟩
  · have hgood : ¬ t.mixNonfinite rl g.elems := by
      rw [hnonfinite]
      rintro ⟨k, hk, h⟩
      simp [hfin k hk] at h
    obtain ⟨v, hv, hmix, hdone, hdome⟩ := mixGroup_good hgt hrlt hlen hp (ht ▸ hu) hwork hshadow (ht ▸ hout) hgood
    refine ⟨_, v, hexec, hv, hmix, hdone, fun k hk => ?_⟩
    rw [hdome, memNat_mixed _ _ _ _ hk, hpair]
  · obtain ⟨hclosed, hsent⟩ := mixGroup_bad hgt hrlt hlen hp (hnonfinite.2 hbad)
    exact ⟨_, hexec, hclosed, commitSent_congr htake hsent⟩

end Sys2Proof.Machine
end

section
/-! PROOF. The commit of an update (08 R248, R265, 09 R276, R278). -/

namespace Sys2Proof.Machine

open Sys2Proof Sys2Proof.Safety

/-- Where events go stays, and so does the count of updates committed (Table 9-7). -/
structure keepsCommits (s u : State) (q : Nat) : Prop extends keepsSending s u where
  commits : u.odGet q 0x6404 1 = s.odGet q 0x6404 1

theorem keepsCommits.trans {s t u : State} {q : Nat} (h : keepsCommits s t q) (h' : keepsCommits t u q) : keepsCommits s u q :=
  ⟨h.tokeepsSending.trans h'.tokeepsSending, h'.commits.trans h.commits⟩

theorem keepsCommits_of_same {s u : State} (q : Nat) (hp : u.poison = s.poison) (hs : u.spars = s.spars) (ho : u.od = s.od) :
    keepsCommits s u q := ⟨keepsSending_of_same hp hs ho, by rw [State.odGet, ho, State.odGet]⟩

theorem keepsCommits_modPart (s : State) (q : Nat) (f : Part → Part) : keepsCommits s (s.modPart q f) q :=
  keepsCommits_of_same q rfl rfl rfl

theorem keepsCommits_odSet (s : State) (q : Nat) {i sub : Nat} (v : Nat) (hi : 0x1014 ≤ i) (hne : i ≠ 0x6404) (hsub : sub < 256) :
    keepsCommits s (s.odSet q i sub v) q :=
  ⟨keepsSending_odSet s q sub v hi, s.odGet_odSet_other v (by unfold odKey; omega)⟩

theorem keepsCommits_engineWrite {s : State} (h : s.poison = []) (q : Nat) (ws : List (Nat × Bytes)) :
    keepsCommits s (s.engineWrite q ws) q := by
  rw [State.engineWrite_clean h]
  exact keepsCommits_of_same q rfl rfl rfl

/-- The records of 256 layer slots advance one after another. -/
theorem keepsCommits_slots {f : State → Nat → State} {q : Nat} 
    (hf : ∀ slot < 256, ∀ t : State, t.poison = [] → keepsCommits t (f t slot) q)
    {s : State} (h : s.poison = []) : keepsCommits s ((List.range 256).foldl f s) q :=
  List.foldlRecOn (motive := fun t => keepsCommits s t q) _ _ (keepsCommits_of_same q rfl rfl rfl) fun t ht slot hslot =>
    ht.trans (hf slot (List.mem_range.1 hslot) t (ht.poison h))

/-! The gradient format records (08 R248). -/

theorem keepsCommits_fallback {s : State} (h : s.poison = []) (q t : Nat) {slot : Nat} (hs : slot < 256) (count : Nat) :
    keepsCommits s (s.fallback q t slot count) q := by
  have hset : ∀ (v : State) {sub : Nat} (x : Nat), sub < 256 → keepsCommits v (v.odSet q (0x6100 + slot) sub x) q := fun v sub x hsub =>
    keepsCommits_odSet v q x (by omega) (by omega) hsub
  unfold State.fallback
  extract_lets i thr hold st steps s0 to' s1 a
  have h0 : keepsCommits s s0 q := (hset s count (by decide)).trans (hset _ steps (by decide))
  have h1 : keepsCommits s s1 q := by
    simp only [s1]
    clear_value to'
    split
    · exact (h0.trans ((hset s0 _ (by decide)).trans (hset _ 0 (by decide)))).trans (keepsCommits_of_same q rfl rfl rfl)
    · exact h0
  split
  · exact h1
  · exact h1.trans (keepsCommits_engineWrite (h1.poison h) q _)

theorem keepsCommits_fallbackAll {s : State} (h : s.poison = []) (q t : Nat) : keepsCommits s (s.fallbackAll q t) q := by
  unfold State.fallbackAll
  extract_lets p s1
  have hslots : keepsCommits s s1 q := keepsCommits_slots (fun slot hs u hu => by
    dsimp only
    split
    · exact keepsCommits_fallback hu q t hs _
    split
    · exact keepsCommits_fallback hu q t hs _
    · exact keepsCommits_of_same q rfl rfl rfl) h
  exact hslots.trans (keepsCommits_modPart ..)

/-! The norm records (08 R265). -/

theorem keepsCommits_normRecord (s : State) (q : Nat) (p : Part) {slot : Nat} (hs : slot < 256) :
    keepsCommits s (s.normRecord q p slot) q := by
  have hset : ∀ (v : State) {sub : Nat} (x : Nat), sub < 256 → keepsCommits v (v.odSet q (0x6200 + slot) sub x) q := fun v sub x hsub =>
    keepsCommits_odSet v q x (by omega) (by omega) hsub
  unfold State.normRecord
  dsimp only
  refine keepsCommits.trans ?_ (hset _ _ (by decide))
  refine keepsCommits.trans ?_ (hset _ _ (by decide))
  refine keepsCommits.trans ?_ (hset _ _ (by decide))
  refine keepsCommits.trans ?_ (hset _ _ (by decide))
  refine keepsCommits.trans ?_ (hset _ _ (by decide))
  refine keepsCommits.trans ?_ (hset _ _ (by decide))
  exact (hset _ _ (by decide)).trans (hset _ _ (by decide))

theorem keepsCommits_normAll {s : State} (h : s.poison = []) (q : Nat) : keepsCommits s (s.normAll q) q := by
  unfold State.normAll
  extract_lets p
  have hslots : keepsCommits s ((List.range 256).foldl (fun u slot => u.normRecord q p slot) s) q :=
    keepsCommits_slots (fun slot hs u _ => keepsCommits_normRecord u q p hs) h
  exact hslots.trans (keepsCommits_modPart ..)

/-! The commit. -/

/-- The records a commit advances: powers and step counts, gradient formats, norms, and the clip factor used. -/
def State.commitRecords (s : State) (q : Nat) (w : Upd) : State :=
  let v := (((s.engineWrite q (w.groups.flatMap fun n => powWrites (s.groupAddr q n) (s.grp q n))).fallbackAll q w.t).normAll q)
  (if s.odGet q 0x6300 1 = 2 then v.odSet q 0x6300 5 ((s.part q).gnorm.getD 0).toNat else v).odSet q 0x6300 6 (w.clip.getD f32One).toNat

theorem keepsCommits_commitRecords {s : State} (h : s.poison = []) (q : Nat) (w : Upd) : keepsCommits s (s.commitRecords q w) q := by
  unfold State.commitRecords
  extract_lets v
  have hv : keepsCommits s v q := by
    have hwrite := keepsCommits_engineWrite h q (w.groups.flatMap fun n => powWrites (s.groupAddr q n) (s.grp q n))
    have hformat := hwrite.trans (keepsCommits_fallbackAll (hwrite.poison h) q w.t)
    exact hformat.trans (keepsCommits_normAll (hformat.poison h) q)
  refine keepsCommits.trans ?_ (keepsCommits_odSet _ q _ (by decide) (by decide) (by decide))
  split
  · exact hv.trans (keepsCommits_odSet _ q _ (by decide) (by decide) (by decide))
  · exact hv

/-- The state an update's end finds at its commit. -/
def State.stepAdvanced (s : State) (q : Nat) (w : Upd) : State :=
  ((s.commitRecords q w).odSet q 0x6400 3 ((w.t + 1) % 2 ^ 64)).modPart q fun p =>
    { p with clip := none, gnorm := none, normDone := false, errSince := false }

section
variable {s : State} {q : Nat} {w : Upd} (hup : spireUp s 5) (hu : (s.part q).upd = some w) (hr : w.ready' = true)
  (hsh : s.shadowHolds q w.t = false) (hport : cleanPort s (engineUnit 2) (s.commitReads q w ++ s.formatWords q))
  (hshadow : w.shadow = false)
include hup hu hr hsh hport hshadow

theorem exec_commit :
    ∃ as ws, exec (.updateCommit q) s = .next ((({ s with asks := as, biWaits := ws } : State).stepAdvanced q w).updFinish q w 0 0) := by
  have hopens : portsOpen s [(engineUnit 2, s.commitReads q w ++ s.formatWords q)] := fun a ha => by
    rw [List.mem_singleton.1 ha]
    exact hport.2
  obtain ⟨as, ws, hopen⟩ := portGates_read hopens hport.1
  refine ⟨as, ws, ?_⟩
  change execUpdateCommit q s = _
  rw [execUpdateCommit, spireEvent_up _ hup.1 hup.2]
  simp only [hu, hshadow, Bool.false_eq_true, and_false, if_false, hopen]
  rw [if_neg (by simp [hr, hsh])]
  rfl

theorem commit_ends : ∃ u, exec (.updateCommit q) s = .next u ∧ (u.part q).upd = none ∧
    u.odGet q 0x6400 3 = (w.t + 1) % 2 ^ 64 ∧ u.odGet q 0x6400 8 = 0 ∧
    commitSent s u q w 0 0 ∧ u.odGet q 0x6404 1 = (s.odGet q 0x6404 1 + 1) % 2 ^ 64 := by
  obtain ⟨as, ws, hexec⟩ := exec_commit hup hu hr hsh hport hshadow
  obtain ⟨t, ht⟩ : ∃ t, t = ({ s with asks := as, biWaits := ws } : State) := ⟨_, rfl⟩
  have htake : keepsCommits s t q := ht ▸ keepsCommits_of_same q rfl rfl rfl
  have hkeep : keepsCommits s (t.stepAdvanced q w) q :=
    ((htake.trans (keepsCommits_commitRecords (htake.poison hport.1) q w)).trans
      (keepsCommits_odSet _ q _ (by decide) (by decide) (by decide))).trans (keepsCommits_modPart ..)
  have hend := updFinish_ends (t.stepAdvanced q w) q w 0 0
  rw [← ht] at hexec
  refine ⟨_, hexec, congrArg Part.upd hend.part, hend.step.trans (State.odGet_odSet_self _ q 0x6400 3 _),
    hend.idle, commitSent_congr hkeep.tokeepsSending hend.sent, ?_⟩
  exact hend.counted.trans (congrArg (fun n => (n + 1) % 2 ^ 64) hkeep.commits)

end

/-- Settles O45: the walker's group and the mixing group are written whole, or the update fails; at the commit its records advance and the
update ends. -/
theorem updateApplied : Obligations.UpdateApplied := by
  unfold Obligations.UpdateApplied
  refine ⟨fun s q num w rest g blocks hup hu hn hst hsh hp ho hg hb => ?_, ⟨fun s q r => exec_mixdone_unknown,
    fun s q num r w g rl W U => mixdone_applies⟩, fun s q w => commit_ends⟩
  exact walkerGroup_applies hup hu hn hst hsh hp ho hg (by rw [hb, hg]; rfl)

end Sys2Proof.Machine
end

section
/-! PROOF. The lines of a dome: error correction, poison and the patrol scrub (10 R306-R309). -/

namespace Sys2Proof.Machine

open Sys2Proof Sys2Proof.Safety

theorem liveEvent_up {s : State} (f : State → State) (h : s.live = true) : liveEvent s f = .next (f s) := by simp [liveEvent, h]

/-- A device-wide command of a served dictionary takes effect. -/
theorem runDevCmd_next {s t : State} {r : CmdRes} {st : Nat} (hs : s.served = true) (hr : r = (st, t)) : runDevCmd s r = .next t := by
  simp [runDevCmd, hs, hr]

/-- A device-wide command that leaves the state leaves it whether the dictionary is served or not. -/
theorem runDevCmd_same {s : State} {r : CmdRes} {st : Nat} (hr : r = (st, s)) : runDevCmd s r = .next s := by simp [runDevCmd, hr]

/-- An entry that a filter takes out reads as an unlisted one. -/
theorem mapGet_filter_out {α : Type} (d : α) (m : List (Nat × α)) {p : Nat × α → Bool} {a : Nat} (h : ∀ e, e.1 = a → p e = false) :
    mapGet d (m.filter p) a = d := by
  induction m with
  | nil => rfl
  | cons e m ih =>
    by_cases hp : p e = true
    · have hk : e.1 ≠ a := fun hk => by simp [h e hk] at hp
      rw [List.filter_cons_of_pos hp]
      simp [mapGet, hk, ih]
    · rw [List.filter_cons_of_neg hp, ih]

/-! A read that finds the line clean, or past correction (R306, R309). -/

theorem exec_domeLineRead {s : State} {line : Nat} (hl : s.live = true) (ha : addrExists (64 * line) = true) (err : LineErr) (reader : Nat) :
    exec (.domeLineRead line err reader) s = .next (if reader = 6 then s.manageLine line err else (s.readLine line err).2) :=
  (liveEvent_up _ hl).trans (by simp [ha])

section
variable {s : State} {line : Nat} (hp : mapGet false s.poison line = false)
include hp

theorem readLine_clean : s.readLine line .clean = (false, s) := by simp [State.readLine, hp, checkLine]

theorem readLine_bad {err : LineErr} (he : ∀ er, checkLine er err = .bad) : s.readLine line err = (true, s.setPoison line true) := by
  simp [State.readLine, hp, he]

theorem readLine_oneDie {k : Nat} (her : s.odGet 0 (0x3020 + domeOf (64 * line)) 3 = 0xFF ∨ s.odGet 0 (0x3020 + domeOf (64 * line)) 3 = k) :
    s.readLine line (.oneDie k) = (false, s.correct (domeOf (64 * line)) k) := by
  simp [State.readLine, hp, checkLine, her]

end

/-- An error no single die confines is past correction, whatever die is erased (Table 10-3). -/
theorem checkLine_unconfined {err : LineErr} (h : err = .other ∨ ∃ a b, err = .twoDies a b) (er : Nat) : checkLine er err = .bad := by
  obtain rfl | ⟨a, b, rfl⟩ := h <;> rfl

theorem manageLine_good {s t : State} {line : Nat} {err : LineErr} (h : s.readLine line err = (false, t)) : s.manageLine line err = t := by
  simp [State.manageLine, h]

/-- Whoever reads it, a good line's read leaves what its check leaves. -/
theorem exec_domeLineRead_good {s t : State} {line : Nat} {err : LineErr} (hl : s.live = true) (ha : addrExists (64 * line) = true)
    (h : s.readLine line err = (false, t)) (reader : Nat) : exec (.domeLineRead line err reader) s = .next t := by
  rw [exec_domeLineRead hl ha, manageLine_good h, h, ite_self]

/-- The record of DOME_UE of a line: its bytes 8-15 hold the line's address (R309). -/
theorem fieldAt_ueAddress {a : Nat} (h : a < 2 ^ 64) : fieldAt (padTo 40 (padTo 8 [] ++ leBytes 8 a)) 8 8 = a := by
  have hdrop : ((padTo 40 (padTo 8 [] ++ leBytes 8 a)).drop 8).take 8 = leBytes 8 a := by
    simp [padTo, sliceBytes, length_leBytes]
  rw [fieldAt, hdrop, leNat_leBytes, Nat.mod_eq_of_lt (by omega)]

theorem addr_lt_of_exists {a : Nat} (h : addrExists a = true) : a < 2 ^ 41 := by
  simp only [addrExists, Bool.and_eq_true, decide_eq_true_eq] at h
  omega

/-- A unit's DOME_UE of one line (R309). -/
theorem unitUe_one (s : State) (part line : Nat) : s.unitUe part [line] =
    raised s (faultRecord s 0x0301 (unitId 4 (domeOf (64 * line))) part (islDome (domeOf (64 * line)))
      (padTo 8 [] ++ leBytes 8 (64 * line))) := rfl

/-- A management read of a bad line counts it and raises DOME_UE with its address (R309). -/
theorem manageLine_bad {s : State} {line : Nat} {err : LineErr} (hp : mapGet false s.poison line = false)
    (ha : addrExists (64 * line) = true) (he : ∀ er, checkLine er err = .bad) : ∃ n,
    s.manageLine line err = raised ((s.setPoison line true).odAdd 0 (0x3020 + domeOf (64 * line)) 2 1) n ∧
    n.code = 0x0301 ∧ n.source = unitId 4 (domeOf (64 * line)) ∧ fieldAt n.payload 8 8 = 64 * line := by
  have hcount : (s.setPoison line true).countUe [line] = (s.setPoison line true).odAdd 0 (0x3020 + domeOf (64 * line)) 2 1 := by
    simp only [State.countUe, List.foldl_cons, List.foldl_nil, Nat.mul_comm]
  have haddr : fieldAt (padTo 40 (padTo 8 [] ++ leBytes 8 (64 * line))) 8 8 = 64 * line :=
    fieldAt_ueAddress (by have := addr_lt_of_exists ha; omega)
  rw [State.manageLine, readLine_bad hp he, if_pos rfl, hcount, unitUe_one]
  exact ⟨_, rfl, rfl, rfl, haddr⟩

/-! A corrected read (R307, R308). -/

/-- A corrected read counted, for its dome and for its die. -/
def State.correctionCounted (s : State) (d k : Nat) : State :=
  let i := 0x3020 + d
  let b := s.blobGet 0 i 9
  let t := (s.odAdd 0 i 1 1).blobSet 0 i 9 (patchBytes b (8 * k) (leBytes 8 (fieldAt b (8 * k) 8 + 1)))
  { t with eccCnt := mapSet 0 s.eccCnt (16 * d + k) (mapGet 0 s.eccCnt (16 * d + k) + 1) }

/-- The first corrected read of its die in the scrub period raises DOME_CE too. -/
def State.correctionNoted (s : State) (d k : Nat) : State :=
  let t := s.correctionCounted d k
  if mapGet false s.ceSeen (16 * d + k) then t
  else { t with ceSeen := mapSet false s.ceSeen (16 * d + k) true }.raiseOpen 0x0302 (unitId 4 d) (s.domePart d) (islDome d) [d, k]

section
variable (s : State) (d k : Nat)

theorem correctionNoted_dome : (s.correctionNoted d k).dome = s.dome := by unfold State.correctionNoted; split <;> rfl

theorem correctionNoted_poison : (s.correctionNoted d k).poison = s.poison := by unfold State.correctionNoted; split <;> rfl

theorem correctionNoted_od : (s.correctionNoted d k).od = (s.odAdd 0 (0x3020 + d) 1 1).od := by
  unfold State.correctionNoted; split <;> rfl

theorem correctionNoted_eccCnt :
    (s.correctionNoted d k).eccCnt = mapSet 0 s.eccCnt (16 * d + k) (mapGet 0 s.eccCnt (16 * d + k) + 1) := by
  unfold State.correctionNoted; split <;> rfl

variable {s d k}

theorem correctionNoted_again (h : mapGet false s.ceSeen (16 * d + k) = true) : (s.correctionNoted d k).faultQ = s.faultQ := by
  simp only [State.correctionNoted, h, if_true]
  rfl

theorem correctionNoted_first (h : mapGet false s.ceSeen (16 * d + k) = false) : ∃ r,
    (s.correctionNoted d k).faultQ = s.faultQ ++ [r] ∧ r.code = 0x0302 ∧ r.source = unitId 4 d ∧ r.vals = [d, k] := by
  simp only [State.correctionNoted, h, Bool.false_eq_true, if_false]
  exact ⟨_, rfl, rfl, rfl, rfl⟩

theorem correctionNoted_odGet {sub : Nat} (h : 1 ≠ sub) :
    (s.correctionNoted d k).odGet 0 (0x3020 + d) sub = s.odGet 0 (0x3020 + d) sub := by
  rw [State.odGet, correctionNoted_od]
  exact s.odGet_odAdd_other 1 (odKey_ne_of_sub h)

theorem correctionNoted_corrections :
    (s.correctionNoted d k).odGet 0 (0x3020 + d) 1 = (s.odGet 0 (0x3020 + d) 1 + 1) % 2 ^ 64 := by
  rw [State.odGet, correctionNoted_od]
  exact s.odGet_odAdd_self 0 (0x3020 + d) 1 1

/-- At the threshold the die is erased, unless one is. -/
theorem correct_eq (s : State) (d k : Nat) : s.correct d k =
    if s.odGet 0 (0x3020 + d) 4 ≤ mapGet 0 s.eccCnt (16 * d + k) + 1 ∧ s.odGet 0 (0x3020 + d) 3 = 0xFF
    then (s.correctionNoted d k).odSet 0 (0x3020 + d) 3 k else s.correctionNoted d k := by
  have h : s.correct d k = if (s.correctionNoted d k).odGet 0 (0x3020 + d) 4 ≤ mapGet 0 s.eccCnt (16 * d + k) + 1 ∧
      (s.correctionNoted d k).odGet 0 (0x3020 + d) 3 = 0xFF
    then (s.correctionNoted d k).odSet 0 (0x3020 + d) 3 k else s.correctionNoted d k := rfl
  rw [h, correctionNoted_odGet (by decide), correctionNoted_odGet (by decide)]

/-- A correction keeps what an object set keeps of its noting. -/
theorem correct_keeps {β : Type} (f : State → β) (hf : ∀ (t : State) q i sub v, f (t.odSet q i sub v) = f t) :
    f (s.correct d k) = f (s.correctionNoted d k) := by
  rw [correct_eq]
  split
  · exact hf ..
  · rfl

theorem correct_corrections : (s.correct d k).odGet 0 (0x3020 + d) 1 = (s.odGet 0 (0x3020 + d) 1 + 1) % 2 ^ 64 := by
  rw [correct_eq, ← correctionNoted_corrections (k := k)]
  split
  · exact State.odGet_odSet_other _ _ (odKey_ne_of_sub (by decide))
  · rfl

theorem correct_erased : (s.correct d k).odGet 0 (0x3020 + d) 3 =
    if s.odGet 0 (0x3020 + d) 4 ≤ mapGet 0 s.eccCnt (16 * d + k) + 1 ∧ s.odGet 0 (0x3020 + d) 3 = 0xFF
    then k else s.odGet 0 (0x3020 + d) 3 := by
  rw [correct_eq]
  split
  · exact State.odGet_odSet_self ..
  · exact correctionNoted_odGet (by decide)

end

/-! The patrol scrub (R307). -/

/-- An open patrol read of a clean line: the pass goes on (R307, R317). -/
theorem exec_patrolScrubRead_clean {s : State} {d l : Nat} (hl : s.live = true) (he : l = d * 2 ^ 31 + mapGet 0 s.scrubAt d)
    (hp : mapGet false s.poison l = false) (ho : portOpen s manageUnit [(64 * l, 64)]) :
    exec (.patrolScrubRead d .clean) s = .next ((s.takeAsk manageUnit [(64 * l, 64)]).scrubOn d) := by
  have hp' : mapGet false (s.takeAsk manageUnit [(64 * l, 64)]).poison l = false := by rw [takeAsk_poison, hp]
  obtain ⟨hd, ht, hc, hg⟩ := ho
  have hgate := State.portGate_open hd ht hc hg 4 (fun s => s.scrubOn d) (fun s => (s.manageLine l .clean).scrubOn d)
  rw [manageLine_good (readLine_clean hp')] at hgate
  subst he
  change execPatrolScrubRead d .clean s = _
  rw [execPatrolScrubRead, liveEvent_up _ hl]
  exact congrArg Host.Outcome.next hgate

theorem exec_scrubPeriodEnd {s : State} (hl : s.live = true) (d : Nat) : exec (.scrubPeriodEnd d) s = .next (s.newScrubPeriod d) := by
  change execScrubPeriodEnd d s = _
  rw [execScrubPeriodEnd, liveEvent_up _ hl]

/-- The counts of the dome's dies start again. -/
theorem newScrubPeriod_restarts (s : State) {d k : Nat} (h : k / 16 = d) :
    mapGet 0 (s.newScrubPeriod d).eccCnt k = 0 ∧ mapGet false (s.newScrubPeriod d).ceSeen k = false :=
  ⟨mapGet_filter_out _ _ fun e he => by simp [he, h], mapGet_filter_out _ _ fun e he => by simp [he, h]⟩

/-- No other dome's do. -/
theorem newScrubPeriod_keeps (s : State) {d k : Nat} (h : k / 16 ≠ d) :
    mapGet 0 (s.newScrubPeriod d).eccCnt k = mapGet 0 s.eccCnt k ∧
    mapGet false (s.newScrubPeriod d).ceSeen k = mapGet false s.ceSeen k :=
  ⟨mapGet_filter _ _ fun e he => by simp [he, h], mapGet_filter _ _ fun e he => by simp [he, h]⟩

theorem writeScrubPeriod_starts (s : State) (d : Nat) {val : Nat} (h1 : 3600 ≤ val) (h2 : val < 2 ^ 32) : writeScrubPeriod d val s =
    (stDone, { (s.odSet 0 (0x3020 + d) 5 val).newScrubPeriod d with scrubAt := mapSet 0 s.scrubAt d 0 }) :=
  if_neg (by omega)

theorem writeScrubPeriod_short (s : State) (d : Nat) {val : Nat} (h : val < 3600) : writeScrubPeriod d val s = (stRefused, s) :=
  if_pos (.inl h)

/-- Settles O20: a read by what the line's check finds, a correction by what it notes and erases, and the scrub's pass and period. -/
theorem domeLines_hold : Obligations.DomeLines := by
  unfold Obligations.DomeLines
  refine ⟨fun s line hl ha hp => ⟨fun reader => ?_, fun err reader herr hr => ?_, fun err herr => ?_⟩, fun s line k reader hl ha hp => ?_,
    fun s d hl => ?_, fun s d hl => ?_, fun s d val hs h1 h2 => ?_, fun s d val h => ?_⟩
  · exact exec_domeLineRead_good hl ha (readLine_clean hp) reader
  · rw [exec_domeLineRead hl ha, if_neg hr, readLine_bad hp (checkLine_unconfined herr)]
  · obtain ⟨n, hn, hcode, hsource, haddr⟩ := manageLine_bad hp ha (checkLine_unconfined herr)
    exact ⟨n, by rw [exec_domeLineRead hl ha, if_pos rfl, hn], hcode, hsource, haddr⟩
  · intro d er key n her
    have hfaults : (s.correct d k).faultQ = (s.correctionNoted d k).faultQ := correct_keeps State.faultQ fun _ _ _ _ _ => rfl
    refine ⟨s.correct d k, exec_domeLineRead_good hl ha (readLine_oneDie hp her) reader,
      (correct_keeps State.dome fun _ _ _ _ _ => rfl).trans (correctionNoted_dome s d k),
      (correct_keeps State.poison fun _ _ _ _ _ => rfl).trans (correctionNoted_poison s d k), correct_corrections, ?_,
      fun hc => hfaults.trans (correctionNoted_again hc), fun hc => hfaults ▸ correctionNoted_first hc, correct_erased⟩
    rw [correct_keeps State.eccCnt fun _ _ _ _ _ => rfl, correctionNoted_eccCnt, mapGet_mapSet_self]
  · intro l v hp ho
    have hscrub : v.scrubAt = s.scrubAt := State.takeAsk_keeps State.scrubAt (fun _ _ _ => rfl) s _ _
    rw [exec_patrolScrubRead_clean hl rfl hp ho, State.scrubOn]
    simp only [hscrub, l, v]
  · exact ⟨_, exec_scrubPeriodEnd hl d, rfl, fun k => newScrubPeriod_restarts s, fun k => newScrubPeriod_keeps s⟩
  · exact ⟨_, runDevCmd_next hs (writeScrubPeriod_starts s d h1 h2), State.odGet_odSet_self .., mapGet_mapSet_self 0 s.scrubAt d 0,
      fun k hk => (newScrubPeriod_restarts _ hk).1⟩
  · exact runDevCmd_same (writeScrubPeriod_short s d h)

end Sys2Proof.Machine
end

section
/-! PROOF. The order of an arbiter's grants (10 R317). -/

namespace Sys2Proof.Machine

open Sys2Proof Sys2Proof.Safety

theorem rankOf_lt (s : State) (e r : Nat) : s.rankOf e r < 4 := by
  rw [State.rankOf, bitsOf_eq]
  exact Nat.mod_lt _ (by decide)

/-- Those of rank `k` that ask and are not cut off. -/
def State.askersOf (s : State) (e : Nat) (asks : List Nat) (k : Nat) : List Nat :=
  asks.filter fun r => s.rankOf e r = k && !s.cutOff e r

theorem pickGrant_eq (s : State) (e : Nat) (asks : List Nat) : pickGrant s e asks =
    (List.range 4).findSome? fun k => if s.askersOf e asks k = [] then none else some (grantRank s e k (s.askersOf e asks k)) := rfl

section
variable {s : State} {e : Nat} {asks : List Nat}

theorem mem_askersOf {k r : Nat} : r ∈ s.askersOf e asks k ↔ r ∈ asks ∧ s.rankOf e r = k ∧ s.cutOff e r = false := by
  simp [State.askersOf]

/-- Nobody is granted where everybody who asks is cut off, and there alone. -/
theorem pickGrant_none_iff : pickGrant s e asks = none ↔ ∀ r ∈ asks, s.cutOff e r = true := by
  have hrank : pickGrant s e asks = none ↔ ∀ k < 4, s.askersOf e asks k = [] := by
    simp [pickGrant_eq, List.findSome?_eq_none_iff]
  rw [hrank]
  refine ⟨fun h r hr => ?_, fun h k _ => List.eq_nil_iff_forall_not_mem.2 fun r hr => ?_⟩
  · by_contra hc
    have hmem : r ∈ s.askersOf e asks (s.rankOf e r) := mem_askersOf.2 ⟨hr, rfl, by simpa using hc⟩
    simp [h _ (rankOf_lt s e r)] at hmem
  · obtain ⟨hask, -, hc⟩ := mem_askersOf.1 hr
    simp [h r hask] at hc

/-- A grant is that of one rank, no lower one of which anybody asks. -/
theorem pickGrant_some {x : Nat × Edge} (h : pickGrant s e asks = some x) : ∃ k, s.askersOf e asks k ≠ [] ∧
    grantRank s e k (s.askersOf e asks k) = x ∧ ∀ j < k, s.askersOf e asks j = [] := by
  rw [pickGrant_eq, List.findSome?_eq_some_iff] at h
  obtain ⟨l, k, l', hl, hk, hlow⟩ := h
  have hne : s.askersOf e asks k ≠ [] := fun h => by simp [h] at hk
  rw [if_neg hne] at hk
  refine ⟨k, hne, Option.some.inj hk, fun j hj => ?_⟩
  have hsorted : (l ++ k :: l').Pairwise (· < ·) := hl ▸ List.pairwise_lt_range
  have hk4 : k < 4 := List.mem_range.1 (by rw [hl]; simp)
  have hjl : j ∈ l := by
    have hmem : j ∈ l ++ k :: l' := hl ▸ List.mem_range.2 (hj.trans hk4)
    obtain ⟨-, hafter, -⟩ := List.pairwise_append.1 hsorted
    rcases List.mem_append.1 hmem with hm | hm
    · exact hm
    · rcases List.mem_cons.1 hm with rfl | hm
      · omega
      · have := (List.pairwise_cons.1 hafter).1 j hm
        omega
  simpa using hlow j hjl

end

/-- Of some who ask, all below 16, the next after `t` is one. -/
theorem nextAsker_mem {t : Nat} {ask : List Nat} (hne : ask ≠ []) (hlt : ∀ r ∈ ask, r < 16) : nextAsker t ask ∈ ask := by
  obtain ⟨r, hr⟩ := List.exists_mem_of_ne_nil ask hne
  have hr16 := hlt r hr
  have hround : r ∈ (List.range 16).map fun k => (t + 1 + k) % 16 :=
    List.mem_map.2 ⟨(r + 15 - t % 16) % 16, List.mem_range.2 (Nat.mod_lt _ (by decide)), by omega⟩
  obtain ⟨x, hx⟩ := Option.isSome_iff_exists.1 (List.find?_isSome.2 ⟨r, hround, List.contains_iff_mem.2 hr⟩)
  have hx' := List.find?_some hx
  rw [nextAsker, hx]
  exact List.contains_iff_mem.1 hx'

section
variable {s : State} {e k : Nat} {ask : List Nat}

theorem grantRank_mem (hne : ask ≠ []) (hlt : ∀ r ∈ ask, r < 16) : (grantRank s e k ask).1 ∈ ask := by
  dsimp only [grantRank]
  split
  · next h => exact List.contains_iff_mem.1 (Bool.and_eq_true_iff.1 h).1
  · exact nextAsker_mem hne hlt

theorem grantRank_turn : mapGet 0 (grantRank s e k ask).2.turn k = (grantRank s e k ask).1 := mapGet_mapSet_self ..

/-- The holder of the rank's turn keeps it while its weight is not used up. -/
theorem grantRank_holder (ht : mapGet 0 (s.edge e).turn k ∈ ask)
    (hn : mapGet 0 (s.edge e).run k < s.weightOf e (mapGet 0 (s.edge e).turn k)) :
    (grantRank s e k ask).1 = mapGet 0 (s.edge e).turn k ∧
    mapGet 0 (grantRank s e k ask).2.run k = mapGet 0 (s.edge e).run k + 1 := by
  simp [grantRank, ht, hn]

end

section
variable {s : State} {e r : Nat} {asks : List Nat} {g : Edge} (hlt : ∀ r ∈ asks, r < 16) (h : pickGrant s e asks = some (r, g))
include hlt h

/-- The rank granted is that of the requester granted. -/
theorem pickGrant_rank : r ∈ s.askersOf e asks (s.rankOf e r) ∧ grantRank s e (s.rankOf e r) (s.askersOf e asks (s.rankOf e r)) = (r, g) ∧
    ∀ j < s.rankOf e r, s.askersOf e asks j = [] := by
  obtain ⟨k, hne, hgrant, hlow⟩ := pickGrant_some h
  have hmem := grantRank_mem (s := s) (e := e) (k := k) hne fun x hx => hlt x (mem_askersOf.1 hx).1
  rw [hgrant] at hmem
  obtain rfl : s.rankOf e r = k := (mem_askersOf.1 hmem).2.1
  exact ⟨hmem, hgrant, hlow⟩

theorem pickGrant_lowest {r' : Nat} (hr : r' ∈ asks) (hc : s.cutOff e r' = false) : s.rankOf e r ≤ s.rankOf e r' := by
  obtain ⟨-, -, hlow⟩ := pickGrant_rank hlt h
  by_contra hn
  have hmem : r' ∈ s.askersOf e asks (s.rankOf e r') := mem_askersOf.2 ⟨hr, rfl, hc⟩
  simp [hlow _ (not_le.1 hn)] at hmem

theorem pickGrant_turn : mapGet 0 g.turn (s.rankOf e r) = r := by
  obtain ⟨-, hgrant, -⟩ := pickGrant_rank hlt h
  have ht := grantRank_turn (s := s) (e := e) (k := s.rankOf e r) (ask := s.askersOf e asks (s.rankOf e r))
  rwa [hgrant] at ht

theorem pickGrant_holder {t : Nat} (ht : t = mapGet 0 (s.edge e).turn (s.rankOf e r)) (hask : t ∈ asks) (hc : s.cutOff e t = false)
    (hrank : s.rankOf e t = s.rankOf e r) (hn : mapGet 0 (s.edge e).run (s.rankOf e r) < s.weightOf e t) :
    r = t ∧ mapGet 0 g.run (s.rankOf e r) = mapGet 0 (s.edge e).run (s.rankOf e r) + 1 := by
  obtain ⟨-, hgrant, -⟩ := pickGrant_rank hlt h
  have hmem : t ∈ s.askersOf e asks (s.rankOf e r) := mem_askersOf.2 ⟨hask, hrank, hc⟩
  subst ht
  have hhold := grantRank_holder hmem hn
  rwa [hgrant] at hhold

end

end Sys2Proof.Machine
end

section
/-! PROOF. Writes of an arbiter's objects: turn tables, settings, cut-offs, and the window (10 R315, R320, R321). -/

namespace Sys2Proof.Machine

open Sys2Proof Sys2Proof.Safety

/-- A number with one bit set, by the bits above it, the bit, and those below. -/
theorem setBit_eq (w i : Nat) (v : Bool) : setBit w i v = 2 ^ i * (2 * (w / 2 ^ i / 2) + v.toNat) + w % 2 ^ i := by
  have hw := Nat.div_add_mod w (2 ^ i)
  have hq : 2 ^ i * (w / 2 ^ i) = 2 ^ i * (2 * (w / 2 ^ i / 2)) + w / 2 ^ i % 2 * 2 ^ i := by
    rw [Nat.mul_comm (w / 2 ^ i % 2), ← Nat.mul_add, Nat.div_add_mod]
  have hv : setBit w i v = w - w / 2 ^ i % 2 * 2 ^ i + v.toNat * 2 ^ i := by
    rw [setBit, setBits, bitsOf_eq]
    cases v <;> rfl
  rw [hv, Nat.mul_add, Nat.mul_comm v.toNat]
  omega

/-- A bit set to `v` reads `v`; the others read as before. -/
theorem testBit_setBit (w i j : Nat) (v : Bool) : (setBit w i v).testBit j = if j = i then v else w.testBit j := by
  rw [setBit_eq, Nat.testBit_two_pow_mul_add _ (Nat.mod_lt _ (Nat.two_pow_pos i))]
  rcases lt_trichotomy j i with h | rfl | h
  · rw [if_pos h, if_neg (by omega), Nat.testBit_mod_two_pow, decide_eq_true h, Bool.true_and]
  · cases v <;> simp
  · obtain ⟨k, rfl⟩ := Nat.exists_eq_add_of_lt h
    have hhalf : (2 * (w / 2 ^ i / 2) + v.toNat) / 2 = w / 2 ^ i / 2 := by have := Bool.toNat_lt v; omega
    rw [if_neg (by omega), if_neg (by omega), show i + k + 1 - i = k + 1 by omega, Nat.testBit_succ, hhalf, ← Nat.testBit_succ,
      Nat.testBit_div_two_pow, show k + 1 + i = i + k + 1 by omega]

/-! Turn tables (R321). -/

/-- A home table is stored whole; its two ports keep the table in use. -/
theorem writeTurnTable_home (s : State) (t : Nat) {data : Bytes} (h : turnTableOk data = true) : ∃ u,
    writeTurnTable t false data s = (stDone, u) ∧ u.blobGet 0 (0x3010 + t) 0 = data ∧
    ∀ d, d = 2 * t ∨ d = 2 * t + 1 → u.homeOf d = (s.homeOf d).keep (s.blobGet 0 (0x3010 + t) 0) := by
  refine ⟨_, if_pos h, State.blobGet_blobSet_self .., fun d hd => ?_⟩
  change mapGet _ (mapSet _ (mapSet _ s.homePtr (2 * t) _) (2 * t + 1) _) d = _
  rcases hd with rfl | rfl
  · rw [mapGet_mapSet_ne _ _ _ _ (by omega), mapGet_mapSet_self]
    rfl
  · rw [mapGet_mapSet_self]
    rfl

theorem writeTurnTable_remote (s : State) (t : Nat) {data : Bytes} (h : turnTableOk data = true) : ∃ u,
    writeTurnTable t true data s = (stDone, u) ∧ u.blobGet 0 (0x3018 + t) 0 = data := by
  refine ⟨_, if_pos h, ?_⟩
  rw [show 0x3018 + t = 0x3010 + t + 8 by omega]
  exact State.blobGet_blobSet_self ..

/-! Ranks, weights and limits (R321). -/

theorem settingFits_sub {e sub val : Nat} (h : settingFits e sub val = true) (hs : sub < 16) : sub = 1 ∨ sub = 2 := by
  by_contra hn
  simp [settingFits, show sub ≠ 1 by omega, show sub ≠ 2 by omega, show ¬(16 ≤ sub ∧ sub ≤ 31) by omega] at h

theorem writeSetting_fits (s : State) {e sub val : Nat} (h : settingFits e sub val = true) (hs : sub < 16) :
    writeSetting e sub val s = (stDone, (s.keepInUse e sub).odSet 0 (0x3200 + e) sub val) := by
  rw [writeSetting, if_pos h, if_neg (by omega)]

theorem writeSetting_refused (s : State) {e sub val : Nat} (h : settingFits e sub val = false) :
    writeSetting e sub val s = (stRefused, s) := by simp [writeSetting, h]

/-- While a lock is open the setting in use stays. -/
theorem setting_written (s : State) (e sub val : Nat) : ((s.keepInUse e sub).odSet 0 (0x3200 + e) sub val).setting e sub =
    if (s.edge e).lock.isSome ∨ (s.edge e).inUse.any (fun x => x.1 = sub) then s.setting e sub else val := by
  have hedge : ∀ t : State, (t.odSet 0 (0x3200 + e) sub val).edge e = t.edge e := fun t => rfl
  have hnone : (s.edge e).inUse.any (fun x => x.1 = sub) = false → (s.edge e).inUse.find? (fun x => x.1 = sub) = none := fun h => by
    simpa using h
  have hsome : (s.edge e).inUse.any (fun x => x.1 = sub) = true → ∃ x, (s.edge e).inUse.find? (fun x => x.1 = sub) = some x := fun h =>
    Option.isSome_iff_exists.1 (by simpa using h)
  cases hany : (s.edge e).inUse.any (fun x => x.1 = sub) with
  | true =>
    obtain ⟨x, hx⟩ := hsome hany
    simp [State.setting, hedge, State.keepInUse, hany, hx]
  | false =>
    cases hlock : (s.edge e).lock with
    | none => simp [State.setting, hedge, State.keepInUse, hlock, hnone hany]
    | some o => simp [State.setting, hedge, State.keepInUse, hlock, hany, hnone hany, List.find?_append]

/-! The re-enable command (R320). -/

theorem odGet_completeUnit (s : State) (p obj sub status tok val : Nat) (more : Bytes) {q i k : Nat} (hi : 0x1801 ≤ i) :
    (s.completeUnit p obj sub status tok val more).odGet q i k = s.odGet q i k :=
  mapGet_od_deliver s _ (by unfold odKey; omega) _

theorem cmdReEnable_clears (s : State) {e val : Nat} (tok : Nat) (h : edgeHas e val = true) : ∃ u, cmdReEnable e val tok s = (stDone, u) ∧
    ∀ r, u.cutOff e r = if r = val then false else s.cutOff e r := by
  refine ⟨_, if_pos h, fun r => ?_⟩
  rw [State.cutOff, odGet_completeUnit _ _ _ _ _ _ _ _ (by omega), State.odGet_odSet_self, testBit_setBit]
  rfl

/-! The window (R315). -/

theorem writeSegment_stores {s : State} {i val : Nat} (hc : s.cxl.hdmCommitted = false)
    (h : segmentsOk (s.towerMask 0) (s.segments.set i (segmentOf (val / 2 ^ 13 * 2 ^ 13 % 2 ^ 32))) = true) :
    writeSegment i val s = (stDone, s.odSet 0 0x3100 (i + 1) (val / 2 ^ 13 * 2 ^ 13 % 2 ^ 32)) := by
  simp only [writeSegment, hc, h, Bool.false_eq_true, if_false, if_true]

theorem writeSegment_busy {s : State} {i val : Nat} (hc : s.cxl.hdmCommitted = true) : writeSegment i val s = (stBusy, s) := if_pos hc

end Sys2Proof.Machine
end

section
/-! PROOF. An arbiter's faults: a request that starves, and a lock held too long (10 R318, R320). -/

namespace Sys2Proof.Machine

open Sys2Proof Sys2Proof.Safety

/-! STARVE (R318). -/

theorem exec_starve_first {s : State} {e r wait : Nat} (hl : s.live = true) (he : edgeHas e r = true) (hn : s.setting e 1 < wait)
    (hw : wait = s.waitOf e r) (hr : r ∉ (s.edge e).starved) : exec (.starve e r wait) s =
      .next (((s.setEdge e { s.edge e with starved := setIns (s.edge e).starved r }).odAdd 0 (0x3200 + e) 5 1).raiseOpen 0x0311 (unitId 7 e)
        (s.edgePart e) (edgeIsland e) [e, r, s.rankOf e r, wait]) := by
  change execStarve e r wait s = _
  rw [execStarve, liveEvent_up _ hl]
  exact congrArg Host.Outcome.next (if_pos ⟨he, hn, hw, by simpa using hr⟩)

theorem exec_starve_again {s : State} {e r : Nat} (wait : Nat) (hr : r ∈ (s.edge e).starved) : exec (.starve e r wait) s = .next s := by
  change execStarve e r wait s = _
  simp [execStarve, liveEvent, hr]

/-! Transfers that make what progress they can. -/

theorem pumpXfers_settled {s : State} {i : Nat} (h : ∀ v ∈ (s.spar i).xfers, v.settled = true) (n : Nat) : pumpXfers i n s = s := by
  have hn : (s.spar i).turnXfer = none := by simpa [Spar.turnXfer] using h
  cases n <;> simp [pumpXfers, hn]

/-- Where no transfer has anything left to move, nothing moves. -/
theorem foldl_pump_settled {s : State} (h : ∀ j, ∀ v ∈ (s.spar j).xfers, v.settled = true) (js : List Nat) : js.foldl State.pump s = s := by
  induction js with
  | nil => rfl
  | cons j js ih => rw [List.foldl_cons, pump_settled (h j), ih]

/-- One spar's transfers moved as far as they go, the others having none: the rest of the spars move nothing. -/
theorem foldl_pump_one {s u : State} {i : Nat} {js : List Nat} (hi : i ∈ js) (hidle : ∀ j, j ≠ i → (s.spar j).xfers = [])
    (hp : s.pump i = u) (hu : ∀ j, ∀ v ∈ (u.spar j).xfers, v.settled = true) : js.foldl State.pump s = u := by
  induction js with
  | nil => cases hi
  | cons j js ih =>
    by_cases hj : j = i
    · rw [List.foldl_cons, hj, hp, foldl_pump_settled hu]
    · rw [List.foldl_cons, pump_settled (by simp [hidle j hj]), ih ((List.mem_cons.1 hi).resolve_left (Ne.symm hj))]

/-- A transfer between scratch and dome moves nothing but at its ports: it completes when all is moved, or without effect (R320). -/
theorem xferStep_dome {t : Xfer} (hk : t.kind = .dld ∨ t.kind = .dst) (i k : Nat) (s : State) : xferStep i k t s =
    if t.len - t.moved = 0 then s.modSpar i fun y => { y with xfers := y.xfers.set k { t with done := true } }
    else if s.sparCutOff i t.da then s.modSpar i fun y => { y with xfers := y.xfers.set k { t with done := true, refused := true } }
    else s := by
  obtain ⟨kind⟩ := t
  obtain rfl | rfl := hk <;> rfl

/-- The spar with its only transfer complete without effect. -/
def Spar.refuseXfer (x : Spar) (t : Xfer) : Spar := { x with xfers := [{ t with done := true, refused := true }] }

section
variable {s : State} {i : Nat} {t : Xfer} (hx : (s.spar i).xfers = [t]) (hk : t.kind = .dld ∨ t.kind = .dst) (hd : t.done = false)
include hx hk hd

theorem turnXfer_single : (s.spar i).turnXfer = some 0 := by
  rcases hk with hk | hk <;> simp [Spar.turnXfer, hx, Xfer.settled, hk, hd]

/-- The only transfer makes what progress it can: it stays where it is, or settles, and then nothing else moves. -/
theorem pumpXfers_single {u : State} (hstep : xferStep i 0 t s = u) (hu : u = s ∨ ∀ v ∈ (u.spar i).xfers, v.settled = true) (n : Nat) :
    pumpXfers i (n + 1) s = u := by
  have hns : t.settled = false := by rcases hk with hk | hk <;> simp [Xfer.settled, hk, hd]
  simp only [pumpXfers, turnXfer_single hx hk hd, hx, List.getElem?_cons_zero, hstep]
  rcases hu with rfl | hu
  · simp [hx, hns]
  · rw [pumpXfers_settled hu, ite_self]

/-- A transfer whose spar is cut off at its dome completes without effect (R320). -/
theorem pump_cutOff (hm : t.moved < t.len) (hc : s.sparCutOff i t.da = true) : s.pump i = s.modSpar i fun x => x.refuseXfer t := by
  refine pumpXfers_single hx hk hd ?_ (.inr (by simp [Spar.refuseXfer, Xfer.settled])) 32
  rw [xferStep_dome hk, if_neg (by omega), if_pos hc]
  refine modSpar_congr ?_
  rw [hx]
  rfl

end

/-! GRANT_OVERHOLD (R320). -/

/-- The lock ended and its owner cut off at the edge, with the fault raised. -/
def State.ownerCut (s : State) (e r : Nat) : State :=
  let t := ((s.setEdge e { s.edge e with lock := none, held := 0 }).odSet 0 (0x3200 + e) 4 (setBit (s.odGet 0 (0x3200 + e) 4) r true)).odAdd
    0 (0x3200 + e) 6 1
  t.raiseOpen 0x0312 (unitId 7 e) (t.edgePart e) (edgeIsland e) [e, r]

section
variable (s : State) (e r : Nat)

theorem ownerCut_spar (j : Nat) : (s.ownerCut e r).spar j = s.spar j := by simp [State.ownerCut, State.spar]

theorem ownerCut_dome : (s.ownerCut e r).dome = s.dome := by simp [State.ownerCut]

theorem ownerCut_edges : (s.ownerCut e r).edges = (s.setEdge e { s.edge e with lock := none, held := 0 }).edges := rfl

theorem ownerCut_od : (s.ownerCut e r).od =
    ((s.odSet 0 (0x3200 + e) 4 (setBit (s.odGet 0 (0x3200 + e) 4) r true)).odAdd 0 (0x3200 + e) 6 1).od := rfl

theorem ownerCut_lock : ((s.ownerCut e r).edge e).lock = none := by
  rw [State.edge, ownerCut_edges, State.setEdge_edges, mapGet_mapSet_self]

theorem ownerCut_cutOff : (s.ownerCut e r).cutOff e r = true := by
  have hcell : (s.ownerCut e r).odGet 0 (0x3200 + e) 4 = setBit (s.odGet 0 (0x3200 + e) 4) r true := by
    rw [State.odGet, ownerCut_od, ← State.odGet, State.odGet_odAdd_other _ 1 (odKey_ne_of_sub (by decide)), State.odGet_odSet_self]
  rw [State.cutOff, hcell, testBit_setBit, if_pos rfl]

theorem ownerCut_raised : ∃ n, (s.ownerCut e r).faultQ = s.faultQ ++ [n] ∧ n.code = 0x0312 ∧ n.vals = [e, r] :=
  ⟨_, rfl, rfl, rfl⟩

end

section
variable {s : State} {e r : Nat} (hlock : (s.edge e).lock = some r)
include hlock

/-- An owner that is no tower has no transfers of spars. -/
theorem cutOffOwner_unit (h0 : 0 < r) (h8 : r < 8) : s.cutOffOwner e = s.ownerCut e r := by
  simp only [State.cutOffOwner, hlock]
  exact if_neg (by omega)

/-- The transfers of a tower's spars complete. -/
theorem cutOffOwner_tower {i : Nat} (hr : r = sparRequester i e) : s.cutOffOwner e =
    ((List.range 128).map fun k => 128 * sparTower i + k).foldl State.pump (s.ownerCut e r) := by
  have htower : (r = 0 ∨ 8 ≤ r) ∧ (if r = 0 then e / 2 else r - 8) = sparTower i := by
    rw [hr, sparRequester]
    split
    · next h => exact ⟨.inl rfl, h.symm⟩
    · exact ⟨.inr (Nat.le_add_right ..), by simp⟩
  simp only [State.cutOffOwner, hlock, htower.2, List.foldl_map]
  exact if_pos htower.1

end

theorem exec_grantOverhold_beyond {s : State} {e : Nat} (hl : s.live = true) (hh : s.setting e 2 < (s.edge e).held) :
    exec (.grantOverhold e) s = .next (s.cutOffOwner e) := by
  change execGrantOverhold e s = _
  rw [execGrantOverhold, liveEvent_up _ hl, if_pos hh]

theorem exec_grantOverhold_within {s : State} {e : Nat} (h : (s.edge e).held ≤ s.setting e 2) : exec (.grantOverhold e) s = .next s := by
  change execGrantOverhold e s = _
  simp [execGrantOverhold, liveEvent, Nat.not_lt.2 h]

/-- The only transfer of the owner, a spar's, completes without effect. -/
theorem cutOffOwner_refuses {s : State} {e r i : Nat} {t : Xfer} (hlock : (s.edge e).lock = some r) (hr : r = sparRequester i e)
    (hidle : ∀ j, j ≠ i → (s.spar j).xfers = []) (hx : (s.spar i).xfers = [t]) (hk : t.kind = .dld ∨ t.kind = .dst) (hd : t.done = false)
    (hm : t.moved < t.len) (he : domeOf t.da = e) :
    s.cutOffOwner e = (s.ownerCut e r).modSpar i fun x => x.refuseXfer t := by
  have hcut : (s.ownerCut e r).sparCutOff i t.da = true := by
    rw [State.sparCutOff, he, ← hr]
    exact ownerCut_cutOff s e r
  have hmine : i ∈ (List.range 128).map fun k => 128 * sparTower i + k :=
    List.mem_map.2 ⟨i % 128, List.mem_range.2 (Nat.mod_lt _ (by decide)), Nat.div_add_mod i 128⟩
  rw [cutOffOwner_tower hlock hr]
  refine foldl_pump_one hmine (fun j hj => by rw [ownerCut_spar, hidle j hj])
    (pump_cutOff (by rw [ownerCut_spar, hx]) hk hd hm hcut) fun j v hv => ?_
  by_cases hj : j = i
  · subst hj
    rw [State.spar_modSpar_self] at hv
    rw [List.mem_singleton.1 hv]
    rfl
  · rw [State.spar_modSpar_other _ _ (Ne.symm hj), ownerCut_spar, hidle j hj] at hv
    cases hv

/-- Settles O21: a grant is that of the lowest rank's turn, each object's write by its own rule, and each fault by what it raises and
cuts off. -/
theorem grantOrder : Obligations.GrantOrder := by
  unfold Obligations.GrantOrder
  refine ⟨fun s e asks hlt => ⟨pickGrant_none_iff, fun r g h => ?_⟩,
    ⟨fun s t data hs hok ht => ?_, fun s t data hs hok => ?_, fun s e sub val hs hf hsub => ?_,
      fun s e sub val hf => runDevCmd_same (writeSetting_refused s hf), fun s e val tok hs he hv => ?_,
      fun s i val hs hc hok => runDevCmd_next hs (writeSegment_stores hc hok), fun s i val hc => runDevCmd_same (writeSegment_busy hc)⟩,
    fun s e r wait hl he hn hw hr => ?_, fun s e r wait => exec_starve_again wait, fun s e r hl hlock hh h0 h8 => ?_,
    fun s e r i t hl hlock hh he hi hr hidle hx hk hd hm hda => ?_, fun s e => exec_grantOverhold_within⟩
  · obtain ⟨hmem, -, -⟩ := pickGrant_rank hlt h
    obtain ⟨hask, -, hc⟩ := mem_askersOf.1 hmem
    exact ⟨hask, hc, fun r' => pickGrant_lowest hlt h, pickGrant_turn hlt h, pickGrant_holder hlt h rfl⟩
  · obtain ⟨u, hw, hstored, hkept⟩ := writeTurnTable_home s t hok
    exact ⟨u, runDevCmd_next hs hw, hstored, fun d hd => by rw [hkept d hd]; exact ⟨rfl, rfl⟩⟩
  · obtain ⟨u, hw, hstored⟩ := writeTurnTable_remote s t hok
    exact ⟨u, runDevCmd_next hs hw, hstored⟩
  · exact ⟨_, runDevCmd_next hs (writeSetting_fits s hf hsub), State.odGet_odSet_self .., setting_written s e sub val⟩
  · obtain ⟨u, hcmd, hcut⟩ := cmdReEnable_clears s tok he
    exact ⟨u, runDevCmd_next hs hcmd, (hcut val).trans (if_pos rfl), fun r hr => (hcut r).trans (if_neg hr)⟩
  · exact ⟨_, _, exec_starve_first hl he hn hw hr, rfl, rfl, rfl, rfl,
      (congrArg Edge.starved (State.edge_setEdge_self ..)).symm ▸ mem_setIns.2 (.inl rfl), State.odGet_odAdd_self ..⟩
  · obtain ⟨n, hraised, hcode, hvals⟩ := ownerCut_raised s e r
    refine ⟨s.ownerCut e r, n, ?_, ownerCut_lock s e r, ownerCut_cutOff s e r, hraised, hcode, hvals⟩
    rw [exec_grantOverhold_beyond hl hh, cutOffOwner_unit hlock h0 h8]
  · obtain ⟨n, hraised, hcode, hvals⟩ := ownerCut_raised s e r
    refine ⟨(s.ownerCut e r).modSpar i fun x => x.refuseXfer t, n, ?_, ownerCut_lock s e r, ownerCut_cutOff s e r, hraised, hcode, hvals,
      by rw [State.spar_modSpar_self, Spar.refuseXfer], by rw [State.modSpar_dome, ownerCut_dome]⟩
    rw [exec_grantOverhold_beyond hl hh, cutOffOwner_refuses hlock hr hidle hx hk hd hm hda]

end Sys2Proof.Machine
end

section
/-! PROOF. Atomic elements, and accesses that wait for their slots (10 R300, R311, R317, R320, Table 10-5). -/

namespace Sys2Proof.Machine

open Sys2Proof Sys2Proof.Safety

/-! Atomics (R311). -/

theorem length_atomicLine (code : Nat) (m bs : Bytes) : (atomicLine code m bs).length = 64 / atomicBytes code * atomicBytes code := by
  simp [atomicLine, length_leBytes]

/-- An element of the line after an atomic. -/
theorem fieldAt_atomicLine {code w j : Nat} (hw : atomicBytes code = w) (hj : j < 64 / w) (m bs : Bytes) :
    fieldAt (atomicLine code m bs) (w * j) w = atomicOp code (fieldAt m (w * j) w) (fieldAt bs (w * j) w) % 256 ^ w := by
  subst hw
  have hpiece := drop_take_flatMap (f := fun j => leBytes (atomicBytes code)
      (atomicOp code (fieldAt m (atomicBytes code * j) (atomicBytes code)) (fieldAt bs (atomicBytes code * j) (atomicBytes code))))
    (fun _ => length_leBytes _ _) (List.range (64 / atomicBytes code)) (k := j) (by simpa using hj)
  rw [List.getElem_range] at hpiece
  rw [fieldAt, atomicLine, hpiece, leNat_leBytes]

/-- An element an operation keeps within its size. -/
theorem fieldAt_atomicLine_of_lt {code w j : Nat} (hw : atomicBytes code = w) (hj : j < 64 / w) {m bs : Bytes}
    (hlt : ∀ a < 256 ^ w, ∀ b < 256 ^ w, atomicOp code a b < 256 ^ w) :
    fieldAt (atomicLine code m bs) (w * j) w = atomicOp code (fieldAt m (w * j) w) (fieldAt bs (w * j) w) := by
  rw [fieldAt_atomicLine hw hj, Nat.mod_eq_of_lt (hlt _ (fieldAt_lt ..) _ (fieldAt_lt ..))]

/-! An access that moves as one event (R300, R317). -/

theorem hostLines_untracked {s : State} (h : s.cxl.tracker = []) (a n : Nat) : s.hostLines a n = [] := by simp [State.hostLines, h]

/-- An access asked for the first time joins the asks and does nothing else. -/
theorem portGate_asked {s : State} {unit : Nat} {rs : List (Nat × Nat)} (hn : portNeed rs ≠ []) (hd : ∀ d, s.domeHeld d = false)
    (ht : s.cxl.tracker = []) (hc : s.unitCut unit rs = false) (ha : s.askFor unit rs = none) (q : Nat) (no k : State → State) :
    s.portGate unit q rs no k = { s with asks := s.asks ++ [{ unit := unit, q := q, rs := rs, left := portNeed rs }] } := by
  have hg : s.granted unit rs = false := by simp [State.granted, hn, ha]
  have hl : (rs.flatMap fun r => s.hostLines r.1 r.2) = [] := List.flatMap_eq_nil_iff.2 fun r _ => hostLines_untracked ht ..
  simp [State.portGate, hn, hd, hc, hl, uniq, hg, State.fileAsk, ha]

end Sys2Proof.Machine
end

section
/-! PROOF. A granted slot of a dome port (10 R300, R301, R316, R317). -/

namespace Sys2Proof.Machine

open Sys2Proof Sys2Proof.Safety

theorem exec_edgeArbitrate_dome {s : State} {d : Nat} (hb : s.boot = .ready) (hd : d < 16) (hn : s.edgeBlocked d = false)
    (asks : BitVec 16) (mark : Bool) : exec (.edgeArbitrate d asks mark) s = .next (s.domeSlot d asks mark) := by
  change execEdgeArbitrate d asks mark s = _
  simp [execEdgeArbitrate, hb, hn, hd]

/-- With no line tracked nobody waits for a back-invalidation. -/
theorem portBi_untracked {s : State} (h : s.cxl.tracker = []) (d : Nat) : s.portBi d = s := by
  refine List.foldl_fixed' (fun r => ?_) _
  split
  · rw [State.slotHeld, hostLines_untracked h]
    rfl
  · rfl

theorem headAcc_idle {s : State} (h : s.domeQ = []) (d r : Nat) : s.headAcc d r = none := by simp [State.headAcc, h, mapGet]

theorem accBi_idle {s : State} (h : s.domeQ = []) (d : Nat) : s.accBi d = s := by
  simp only [State.accBi, headAcc_idle h]

/-- What a slot without a lock begins with: its edge's settings taken, and the pointers' tables. -/
theorem takeWrites_unlocked {s : State} {d : Nat} (h : (s.edge d).lock = none) (asks : BitVec 16) : ∃ hs rs,
    s.takeWrites d asks = { s with edges := mapSet {} s.edges d { s.edge d with inUse := [] }, homePtr := hs, remPtr := rs } := by
  simp only [State.takeWrites, h, Option.isSome_none, Bool.false_eq_true, if_false]
  exact ⟨_, _, rfl⟩

theorem grantRank_lock (s : State) (e k : Nat) (ask : List Nat) : (grantRank s e k ask).2.lock = (s.edge e).lock := rfl

theorem pickGrant_lock {s : State} {e r : Nat} {asks : List Nat} {g : Edge} (h : pickGrant s e asks = some (r, g)) :
    g.lock = (s.edge e).lock := by
  obtain ⟨k, -, hgrant, -⟩ := pickGrant_some h
  have hlock := grantRank_lock s e k (s.askersOf e asks k)
  rwa [hgrant] at hlock

/-- A slot granted, no lock being open: what the grant serves, its slots counted, and the lock it leaves open. -/
theorem domeSlot_granted {s : State} {d r : Nat} {asks : BitVec 16} {g : Edge} {x : State × Nat × Bool} {mark : Bool}
    (ht : s.cxl.tracker = []) (hq : s.domeQ = []) (hlock : (s.edge d).lock = none) (hg : portGrant s d asks = some (r, g))
    (hx : ((s.takeWrites d asks).setEdge d g).serveDome d r mark = x) : ∃ es hs rs,
    s.domeSlot d asks mark = { x.1.odAdd 0 (0x3200 + d) 7 x.2.1 with edges := es, homePtr := hs, remPtr := rs } ∧
    (mapGet {} es d).lock = if x.2.2 then some r else none := by
  obtain ⟨hs, rs, hw⟩ := takeWrites_unlocked hlock asks
  have hbegin : ((s.takeWrites d asks).portBi d).accBi d = s.takeWrites d asks := by
    rw [portBi_untracked (by rw [hw]; exact ht), accBi_idle (by rw [hw]; exact hq)]
  have hfree : ((s.takeWrites d asks).edge d).lock = none := by
    rw [hw, State.edge, mapGet_mapSet_self]
    exact hlock
  dsimp only [portGrant] at hg
  simp only [State.domeSlot, hbegin, hfree, hg, hx]
  exact ⟨_, _, _, rfl, congrArg Edge.lock (mapGet_mapSet_self ..)⟩

end Sys2Proof.Machine
end

section
/-! PROOF. What a granted slot serves: an ask, or a spar's transfer (10 R300, R301, R317). -/

namespace Sys2Proof.Machine

open Sys2Proof Sys2Proof.Safety

/-! An ask (R317). -/

theorem reqAsk_setEdge (s : State) (e : Nat) (g : Edge) (d r : Nat) : (s.setEdge e g).reqAsk d r = s.reqAsk d r := rfl

theorem serveDome_ask {s : State} {d r : Nat} {a : PortAsk} (hr : r ∈ [1, 2, 3, 6]) (h : s.reqAsk d r = some a) (mark : Bool) :
    s.serveDome d r mark = (s.serveAsk d a, 1, mark) := by
  have hother : ¬(r = 0 ∨ 8 ≤ r) ∧ ¬(r = 4 ∨ r = 5) := by
    simp only [List.mem_cons, List.not_mem_nil, or_false] at hr
    omega
  rw [State.serveDome, if_neg hother.1, if_neg hother.2, h]

theorem turnUsed_frame (s : State) (u q : Nat) : ∃ ts, s.turnUsed u q = { s with turns := ts } := by
  unfold State.turnUsed
  split
  · exact ⟨s.turns, rfl⟩
  · exact ⟨_, rfl⟩

/-- A slot granted to an ask is one less to be granted to it, and moves nothing. -/
theorem serveAsk_frame (s : State) (d : Nat) (a : PortAsk) : ∃ ts, s.serveAsk d a =
    { s with asks := s.asks.map fun b => if b = a then { a with left := takeSlot d a.left } else b, turns := ts } :=
  turnUsed_frame _ _ _

/-! A spar's turn (R301, R319). -/

/-- An entry that does not pass is not there for the filter. -/
theorem filter_mapIns_out {α : Type} (m : List (Nat × α)) (a : Nat) (v : α) {p : Nat × α → Bool} (h : p (a, v) = false) :
    (mapIns m a v).filter p = m.filter p := by
  induction m with
  | nil => simp [mapIns, h]
  | cons e m ih =>
    obtain ⟨k, w⟩ := e
    by_cases hk : a < k
    · simp [mapIns, hk, h]
    · simp only [mapIns, hk, if_false, List.filter_cons, ih]

theorem filter_mapSet_out {α : Type} [DecidableEq α] (d : α) (m : List (Nat × α)) (a : Nat) (v : α) {p : Nat × α → Bool}
    (h : p (a, v) = false) : (mapSet d m a v).filter p = (mapDel m a).filter p := by
  unfold mapSet
  split
  · rfl
  · exact filter_mapIns_out _ a v h

/-- An edge without a lock has no remote owner. -/
theorem remoteOwner_of_unlocked {s : State} {es : List (Nat × Edge)} {e : Nat} {x : Edge} (hs : s.edges = mapSet {} es e x)
    (hx : x.lock = none) (t : Nat) : s.remoteOwner t =
      (((mapDel es e).filter fun e => decide (e.1 < 16) && e.2.lock = some (8 + t)).map fun e => e.2.lockSpar).head? := by
  rw [State.remoteOwner, hs, filter_mapSet_out _ _ _ _ (by simp [hx])]

/-- The arbiter's own record of a grant, without a lock, changes nobody's turn. -/
theorem turnSpar_setEdge {s : State} {es : List (Nat × Edge)} {d : Nat} {x g : Edge} (hs : s.edges = mapSet {} es d x)
    (hx : x.lock = none) (hg : g.lock = none) (r : Nat) : (s.setEdge d g).turnSpar d r = s.turnSpar d r := by
  have hlock : (s.edge d).lock = none := by rw [State.edge, hs, mapGet_mapSet_self, hx]
  have hes : (s.setEdge d g).edges = mapSet {} es d g := by rw [State.setEdge_edges, hs, mapSet_mapSet]
  have howner : (s.setEdge d g).remoteOwner (r - 8) = s.remoteOwner (r - 8) := by
    rw [remoteOwner_of_unlocked hs hx, remoteOwner_of_unlocked hes hg]
  by_cases hr : r = 0
  · simp only [State.turnSpar, hr, State.edge_setEdge_self, hlock, hg]
    rfl
  · simp only [State.turnSpar, hr, if_false, howner]
    rfl

theorem serveDome_xfer {s : State} {d r i : Nat} {t : Xfer} (hr : r = 0 ∨ 8 ≤ r) (hi : s.turnSpar d r = some i)
    (hw : s.waitingAt i d = some t) (hlock : (s.edge d).lock = none) (hl : t.lock = false) (hc : t.code = 0) (mark : Bool) :
    s.serveDome d r mark = (xferSlot i (s.endWait i t), 1, false) := by
  simp [State.serveDome, hr, hi, hw, hlock, hl, hc]

/-- A transfer waits for a dome only between scratch and dome, with bytes left to move there, and in its turn (R95). -/
theorem waitingAt_some {s : State} {i d : Nat} {t : Xfer} (h : s.waitingAt i d = some t) (hx : (s.spar i).xfers = [t]) :
    (t.kind = .dld ∨ t.kind = .dst) ∧ t.moved < t.len ∧ t.done = false := by
  have hturn : t.settled = false := by
    by_contra hn
    simp [State.waitingAt, Spar.turnXfer, hx, List.findIdx?_cons, hn] at h
  have hdone : t.done = false := by
    simp only [Xfer.settled, Bool.or_eq_false_iff] at hturn
    exact hturn.1
  simp only [State.waitingAt] at h
  split at h
  · cases h
  split at h
  · split at h
    · next hcond =>
      obtain rfl := Option.some.inj h
      exact ⟨hcond.1, hcond.2.1, hdone⟩
    · cases h
  · cases h

/-! The slot's bytes (R300). -/

/-- What the lines of a transfer's slot leave: the dictionary, every line unpoisoned, the spar's transfers; and dome memory and the
spar's scratch as given. -/
structure slotMoved (i : Nat) (s u : State) (dome scratch : List Host.Cell) : Prop where
  od : u.od = s.od
  poison : u.poison = []
  xfers : (u.spar i).xfers = (s.spar i).xfers
  dome : u.dome = dome
  scratch : (u.spar i).scratch = scratch

theorem xferLine_load {t : Xfer} (hk : t.kind = .dld) {s : State} (hp : s.poison = []) (i j : Nat) :
    xferLine i (s, t) j = (s.modSpar i fun y => y.scrPut (t.sa + j) (s.domeRead (t.da + j) 64), t) := by
  simp [xferLine, hk, hp, mapGet]

theorem xferLine_store {t : Xfer} (hk : t.kind = .dst) (hc : t.code = 0) (s : State) (i j : Nat) :
    xferLine i (s, t) j = ((s.domePut (t.da + j) ((s.spar i).scr (t.sa + j) 64)).setPoison (lineOf (t.da + j)) false, t) := by
  simp [xferLine, hk, hc]

/-- The first `m` lines of a transfer's slot. -/
def xferLines (i : Nat) (s : State) (t : Xfer) (m : Nat) : State × Xfer :=
  (List.range m).foldl (fun a j => xferLine i a (t.moved + 64 * j)) (s, t)

theorem xferLines_succ (i : Nat) (s : State) (t : Xfer) (m : Nat) :
    xferLines i s t (m + 1) = xferLine i (xferLines i s t m) (t.moved + 64 * m) := by
  simp [xferLines, List.range_succ]

theorem memWrite_memRead_add (m r : List Host.Cell) (a b x y : Nat) :
    memWrite m a (memRead r b (x + y)) = memWrite (memWrite m a (memRead r b x)) (a + x) (memRead r (b + x) y) := by
  rw [memRead_add, memWrite_append]
  simp [memRead]

section
variable {s : State} {t : Xfer} (hp : s.poison = []) (i : Nat)
include hp

/-- The lines of a load: dome bytes in scratch. -/
theorem xferLines_load (hk : t.kind = .dld) (m : Nat) : ∃ u, xferLines i s t m = (u, t) ∧ slotMoved i s u s.dome
    (memWrite (s.spar i).scratch (t.sa + t.moved) (memRead s.dome (t.da + t.moved) (64 * m))) := by
  induction m with
  | zero => exact ⟨s, rfl, rfl, hp, rfl, rfl, rfl⟩
  | succ m ih =>
    obtain ⟨u, hu, hmoved⟩ := ih
    have hline := xferLine_load hk hmoved.poison i (t.moved + 64 * m)
    rw [← hu, ← xferLines_succ] at hline
    refine ⟨_, hline, hmoved.od, hmoved.poison, ?_, hmoved.dome, ?_⟩
    · rw [State.spar_modSpar_self]
      exact hmoved.xfers
    · rw [State.spar_modSpar_self, Nat.mul_succ, memWrite_memRead_add, ← hmoved.scratch, ← hmoved.dome, Nat.add_assoc, Nat.add_assoc]
      rfl

/-- The lines of a plain store: scratch bytes in dome. -/
theorem xferLines_store (hk : t.kind = .dst) (hc : t.code = 0) (m : Nat) : ∃ u, xferLines i s t m = (u, t) ∧ slotMoved i s u
    (memWrite s.dome (t.da + t.moved) (memRead (s.spar i).scratch (t.sa + t.moved) (64 * m))) (s.spar i).scratch := by
  induction m with
  | zero => exact ⟨s, rfl, rfl, hp, rfl, rfl, rfl⟩
  | succ m ih =>
    obtain ⟨u, hu, hmoved⟩ := ih
    have hline := xferLine_store hk hc u i (t.moved + 64 * m)
    rw [← hu, ← xferLines_succ] at hline
    refine ⟨_, hline, hmoved.od, ?_, hmoved.xfers, ?_, hmoved.scratch⟩
    · simp [hmoved.poison, mapSet]
    · rw [Nat.mul_succ, memWrite_memRead_add, ← hmoved.dome, ← hmoved.scratch, Nat.add_assoc, Nat.add_assoc]
      rfl

end

end Sys2Proof.Machine
end

section
/-! PROOF. The statement of transfers, asks and atomics at a dome port (10 R300, R311, R317). -/

namespace Sys2Proof.Machine

open Sys2Proof Sys2Proof.Safety

/-! A slot of the only transfer of a spar. -/

/-- A transfer after its slot. -/
def Xfer.afterSlot (t : Xfer) : Xfer := { t with moved := t.moved + t.slotBytes, done := t.moved + t.slotBytes = t.len }

theorem sparCutOff_of_od {s u : State} (h : u.od = s.od) (i a : Nat) : u.sparCutOff i a = s.sparCutOff i a := by
  simp only [State.sparCutOff, State.cutOff, State.odGet, h]

section
variable {s : State} {i : Nat} {t : Xfer} (hk : t.kind = .dld ∨ t.kind = .dst) (hm : t.moved < t.len)
  (hcut : s.sparCutOff i t.da = false)
include hk hm hcut

/-- After its slot a transfer is complete, or waits for its next. -/
theorem pump_afterSlot (hx : (s.spar i).xfers = [t.afterSlot]) : s.pump i = s := by
  cases hd : t.afterSlot.done with
  | true => exact pump_settled (by simp [hx, Xfer.settled, hd])
  | false =>
    have hleft : t.afterSlot.len - t.afterSlot.moved ≠ 0 := by
      have hne : t.moved + t.slotBytes ≠ t.len := of_decide_eq_false hd
      have hle : t.slotBytes ≤ t.len - t.moved := Nat.min_le_left ..
      change t.len - (t.moved + t.slotBytes) ≠ 0
      omega
    have hstep : xferStep i 0 t.afterSlot s = s := by
      rw [xferStep_dome (t := t.afterSlot) hk, if_neg hleft, show s.sparCutOff i t.afterSlot.da = false from hcut, if_neg Bool.false_ne_true]
    exact pumpXfers_single hx hk hd hstep (.inl rfl) 32

theorem xferSlot_single {u : State} {dome scratch : List Host.Cell} (hx : (s.spar i).xfers = [t]) (hd : t.done = false) (hc : t.code = 0)
    (hu : xferLines i s t (t.slotBytes / 64) = (u, t)) (hmoved : slotMoved i s u dome scratch) :
    xferSlot i s = u.modSpar i fun y => { y with xfers := [t.afterSlot] } := by
  have hslot : xferSlot i s = (u.modSpar i fun y => { y with xfers := y.xfers.set 0 t.afterSlot }).pump i := by
    rw [xferLines] at hu
    simp only [xferSlot, turnXfer_single hx hk hd, hx, Option.bind_some, List.getElem?_cons_zero, Option.map_some, hu,
      if_neg (not_not.2 hc)]
    rfl
  have hset : (u.modSpar i fun y => { y with xfers := y.xfers.set 0 t.afterSlot }) = u.modSpar i fun y => { y with xfers := [t.afterSlot] } :=
    modSpar_congr (by rw [hmoved.xfers, hx]; rfl)
  rw [hslot]
  exact (congrArg (State.pump · i) hset).trans
    (pump_afterSlot hk hm ((sparCutOff_of_od hmoved.od i t.da).trans hcut) (by rw [State.spar_modSpar_self]))

end

/-- The bytes written, and no other, are those read. -/
theorem memByte_copied (m r : List Host.Cell) (a b n : Nat) :
    (∀ k < n, memByte (memWrite m a (memRead r b n)) (a + k) = memByte r (b + k)) ∧
    ∀ x, x < a ∨ a + n ≤ x → memByte (memWrite m a (memRead r b n)) x = memByte m x := by
  have hlen : (memRead r b n).length = n := by simp [memRead]
  refine ⟨fun k hk => ?_, fun x hx => memByte_write_out _ _ _ (by rwa [hlen])⟩
  rw [memByte_write_in _ _ _ (by rwa [hlen])]
  simp [memRead]

/-- A slot of whole lines. -/
theorem slotBytes_lines {t : Xfer} (ha : t.da % 64 = 0) (hl : t.len % 64 = 0) (hm : t.moved % 64 = 0) :
    64 * (t.slotBytes / 64) = t.slotBytes := by
  unfold Xfer.slotBytes
  omega

/-- A slot granted to a spar's plain transfer: that of the transfer, in a state with the same memories and dictionary. -/
theorem exec_edgeArbitrate_xfer {s : State} {d i r : Nat} {asks : BitVec 16} {g : Edge} {t : Xfer} (mark : Bool) (hb : s.boot = .ready)
    (hd : d < 16) (hn : s.edgeBlocked d = false) (ht : s.cxl.tracker = []) (hq : s.domeQ = []) (hlock : (s.edge d).lock = none)
    (hg : portGrant s d asks = some (r, g)) (hr : r = 0 ∨ 8 ≤ r) (hi : (s.takeWrites d asks).turnSpar d r = some i)
    (hw : s.waitingAt i d = some t) (hl : t.lock = false) (hc : t.code = 0) : ∃ u v,
    exec (.edgeArbitrate d asks mark) s = .next u ∧ u.dome = (xferSlot i v).dome ∧ u.spars = (xferSlot i v).spars ∧
    v.dome = s.dome ∧ v.spars = s.spars ∧ v.poison = s.poison ∧ v.od = s.od := by
  obtain ⟨hs, rs, hbegin⟩ := takeWrites_unlocked hlock asks
  have hfree : g.lock = none := by
    rw [pickGrant_lock hg, hbegin, State.edge, mapGet_mapSet_self]
    exact hlock
  have hserve : ((s.takeWrites d asks).setEdge d g).serveDome d r mark =
      (xferSlot i (((s.takeWrites d asks).setEdge d g).endWait i t), 1, false) := by
    refine serveDome_xfer hr ?_ ?_ ?_ hl hc mark
    · rw [turnSpar_setEdge (es := s.edges) (x := { s.edge d with inUse := [] }) (by rw [hbegin]) hlock hfree, hi]
    · rw [hbegin]
      exact hw
    · rw [State.edge_setEdge_self, hfree]
  obtain ⟨es, hs', rs', hslot, -⟩ := domeSlot_granted ht hq hlock hg hserve
  refine ⟨_, ((s.takeWrites d asks).setEdge d g).endWait i t, exec_edgeArbitrate_dome hb hd hn asks mark, ?_, ?_, ?_⟩
  · rw [hslot, State.odAdd_dome]
  · rw [hslot, State.odAdd_spars]
  · rw [hbegin]
    exact ⟨rfl, rfl, rfl, rfl⟩

/-- A slot granted to a unit's ask (R317, log 76). -/
theorem exec_edgeArbitrate_ask {s : State} {d r : Nat} {asks : BitVec 16} {g : Edge} {a : PortAsk} (mark : Bool) (hb : s.boot = .ready)
    (hd : d < 16) (hn : s.edgeBlocked d = false) (ht : s.cxl.tracker = []) (hq : s.domeQ = []) (hlock : (s.edge d).lock = none)
    (hg : portGrant s d asks = some (r, g)) (hr : r ∈ [1, 2, 3, 6]) (ha : (s.takeWrites d asks).reqAsk d r = some a) :
    ∃ u, exec (.edgeArbitrate d asks mark) s = .next u ∧
      u.asks = s.asks.map (fun b => if b = a then { a with left := takeSlot d a.left } else b) ∧
      u.odGet 0 (0x3200 + d) 7 = (s.odGet 0 (0x3200 + d) 7 + 1) % 2 ^ 64 ∧ u.dome = s.dome ∧ u.spars = s.spars ∧
      (u.edge d).lock = if mark then some r else none := by
  obtain ⟨hs, rs, hbegin⟩ := takeWrites_unlocked hlock asks
  obtain ⟨ts, hserved⟩ := serveAsk_frame ((s.takeWrites d asks).setEdge d g) d a
  have hserve := serveDome_ask (s := (s.takeWrites d asks).setEdge d g) hr ha mark
  obtain ⟨es, hs', rs', hslot, hafter⟩ := domeSlot_granted ht hq hlock hg hserve
  rw [hserved, hbegin] at hslot
  refine ⟨_, exec_edgeArbitrate_dome hb hd hn asks mark, ?_, ?_, ?_, ?_, ?_⟩ <;> rw [hslot]
  · rfl
  · exact s.odGet_odAdd_self 0 (0x3200 + d) 7 1
  · rfl
  · rfl
  · exact hafter

/-- Settles O22: a slot of a transfer by the lines it moves, one of an ask by what it leaves to be granted, an access that waits by its
gate, and an atomic element by element. -/
theorem domeTransfers : Obligations.DomeTransfers := by
  unfold Obligations.DomeTransfers
  refine ⟨fun s d i r asks mark g t hb hd hn ht hq hp hlock hg hr hi hw hx hl hc hcut ha hlen hmod => ?_,
    ⟨fun s unit q rs no k hneed hheld ht => ⟨fun hc => State.portGate_cut hheld hneed hc q no k,
        fun hc hask => portGate_asked hneed hheld ht hc hask q no k⟩,
      fun s d r asks mark g a hb hd hn ht hq hlock => exec_edgeArbitrate_ask mark hb hd hn ht hq hlock⟩,
    fun m bs _ _ => ⟨length_atomicLine 1 m bs, fun j hj => ?_⟩, fun m bs _ _ j hj => ?_, fun m bs _ _ j hj => ?_, fun m bs _ _ j hj => ?_⟩
  · obtain ⟨hk, hm, hdone⟩ := waitingAt_some hw hx
    obtain ⟨u, v, hexec, hdome, hspars, hvdome, hvspars, hvpoison, hvod⟩ := exec_edgeArbitrate_xfer mark hb hd hn ht hq hlock hg hr hi hw hl hc
    have hvspar : v.spar i = s.spar i := spar_of_spars hvspars i
    have huspar : u.spar i = (xferSlot i v).spar i := spar_of_spars hspars i
    have hlines := slotBytes_lines ha hlen hmod
    have hslot : ∀ {w : State} {dome scratch}, xferLines i v t (t.slotBytes / 64) = (w, t) → slotMoved i v w dome scratch →
        u.dome = dome ∧ (u.spar i).scratch = scratch := fun hlines hmoved => by
      rw [hdome, huspar, xferSlot_single hk hm (by rw [sparCutOff_of_od hvod, hcut]) (by rw [hvspar, hx]) hdone hc hlines hmoved,
        State.modSpar_dome, State.spar_modSpar_self]
      exact ⟨hmoved.dome, hmoved.scratch⟩
    refine ⟨u, hexec, fun hk => ?_, fun hk => ?_⟩
    · obtain ⟨w, hw, hmoved⟩ := xferLines_load (hvpoison.trans hp) i hk (t.slotBytes / 64)
      obtain ⟨h1, h2⟩ := hslot hw hmoved
      rw [h1, h2, hlines, hvdome, hvspar]
      exact ⟨rfl, memByte_copied ..⟩
    · obtain ⟨w, hw, hmoved⟩ := xferLines_store (hvpoison.trans hp) i hk hc (t.slotBytes / 64)
      obtain ⟨h1, h2⟩ := hslot hw hmoved
      rw [h1, h2, hlines, hvdome, hvspar]
      exact ⟨rfl, memByte_copied ..⟩
  · exact fieldAt_atomicLine_of_lt rfl hj fun a _ b _ => Nat.mod_lt _ (by decide)
  · exact fieldAt_atomicLine_of_lt rfl hj fun a _ b _ => Nat.mod_lt _ (by decide)
  · exact fieldAt_atomicLine_of_lt rfl hj fun a ha b _ => (Nat.min_le_left a b).trans_lt ha
  · exact fieldAt_atomicLine_of_lt rfl hj fun a ha b hb => Nat.xor_lt_two_pow (n := 64) ha hb

end Sys2Proof.Machine
end

section
/-! PROOF. What training, failure and routing again leave of a port (11 R324, R329, R337, R338). -/

namespace Sys2Proof.Machine

open Sys2Proof Sys2Proof.Safety

theorem fabricEvent_ready {s : State} (f : State → State) (h : s.boot = .ready) : fabricEvent s f = .next (f s) := by
  simp [fabricEvent, h]

/-! A port's state, OD 0x4010 + p :01, among the other objects. -/

theorem odKey_ne_of_subs {q i j a b : Nat} (ha : a < 256) (hb : b < 256) (h : a ≠ b) : odKey q i a ≠ odKey q j b :=
  fun he => h (odKey_inj ha hb he).2

theorem portState_of_od {s u : State} (h : u.od = s.od) (p : Nat) : u.portState p = s.portState p := by
  rw [State.portState, State.portState, State.odGet, State.odGet, h]

theorem port_of_ports {s u : State} (h : u.ports = s.ports) (p : Nat) : u.port p = s.port p := by rw [State.port, State.port, h]

@[simp] theorem portState_setPort (s : State) (p r : Nat) (x : Port) : (s.setPort p x).portState r = s.portState r := portState_of_od rfl r

@[simp] theorem portState_modPort (s : State) (p r : Nat) (f : Port → Port) : (s.modPort p f).portState r = s.portState r :=
  portState_of_od rfl r

@[simp] theorem portState_raisePort (s : State) (code p r : Nat) (vals : List Nat) : (s.raisePort code p vals).portState r = s.portState r :=
  portState_of_od rfl r

@[simp] theorem portState_emit (s : State) (kind addr flag r : Nat) (data : Bytes) : (s.emit kind addr data flag).portState r = s.portState r :=
  portState_of_od rfl r

@[simp] theorem portState_setPortState_self (s : State) (p v : Nat) : (s.setPortState p v).portState p = v := s.odGet_odSet_self 0 _ 1 v

theorem portState_setPortState_other (s : State) {p r : Nat} (v : Nat) (h : p ≠ r) : (s.setPortState p v).portState r = s.portState r :=
  s.odGet_odSet_other v fun he => h (by have := (odKey_inj (by decide) (by decide) he).1; omega)

theorem odGet_setPortState_other (s : State) (p v : Nat) {sub : Nat} (h : 1 ≠ sub) :
    (s.setPortState p v).odGet 0 (0x4010 + p) sub = s.odGet 0 (0x4010 + p) sub := s.odGet_odSet_other v (odKey_ne_of_sub h)

/-- The counters of a port's record, and the router's, leave the ports' states. -/
theorem portState_odAdd (s : State) (i n p : Nat) {sub : Nat} (hlt : sub < 256) (h : sub ≠ 1) :
    (s.odAdd 0 i sub n).portState p = s.portState p := s.odGet_odAdd_other n (odKey_ne_of_subs hlt (by decide) h)

@[simp] theorem setPortState_faultQ (s : State) (p v : Nat) : (s.setPortState p v).faultQ = s.faultQ := rfl

@[simp] theorem setPortState_out (s : State) (p v : Nat) : (s.setPortState p v).out = s.out := rfl

@[simp] theorem setPortState_laserDark (s : State) (p v : Nat) : (s.setPortState p v).laserDark = s.laserDark := rfl

@[simp] theorem port_setPortState (s : State) (p v r : Nat) : (s.setPortState p v).port r = s.port r := port_of_ports rfl r

@[simp] theorem port_odAdd (s : State) (q i sub n r : Nat) : (s.odAdd q i sub n).port r = s.port r := port_of_ports rfl r

@[simp] theorem port_raisePort (s : State) (code p r : Nat) (vals : List Nat) : (s.raisePort code p vals).port r = s.port r :=
  port_of_ports rfl r

@[simp] theorem port_emit (s : State) (kind addr flag r : Nat) (data : Bytes) : (s.emit kind addr data flag).port r = s.port r :=
  port_of_ports rfl r

theorem port_modPort_other (s : State) {p r : Nat} (f : Port → Port) (h : p ≠ r) : (s.modPort p f).port r = s.port r :=
  s.port_setPort_other _ h

theorem portUp_iff {s : State} {p : Nat} : s.portUp p = true ↔ s.portState p = 2 := by simp [State.portUp]

/-! Packets routed again (R337). -/

/-- The states agree but in egress queues and in the router's count of packets without a route: all that routing packets again
writes. -/
structure rerouted (s u : State) : Prop where
  rest : { u with ports := s.ports, od := s.od } = s
  port : ∀ r, { u.port r with egress := (s.port r).egress } = s.port r
  od : ∀ key, key ≠ odKey 0 0x4102 3 → ∀ d, mapGet d u.od key = mapGet d s.od key

theorem rerouted.refl (s : State) : rerouted s s := ⟨rfl, fun _ => rfl, fun _ _ _ => rfl⟩

theorem rerouted.trans {s t u : State} (h : rerouted s t) (h' : rerouted t u) : rerouted s u := by
  refine ⟨?_, fun r => ?_, fun key hk d => (h'.od key hk d).trans (h.od key hk d)⟩
  · rw [← h.rest, ← h'.rest]
  · rw [← h.port r, ← h'.port r]

theorem rerouted.portState {s u : State} (h : rerouted s u) (p : Nat) : u.portState p = s.portState p :=
  h.od _ (odKey_ne_of_subs (by decide) (by decide) (by decide)) _

theorem rerouted.faultQ {s u : State} (h : rerouted s u) : u.faultQ = s.faultQ := (congrArg State.faultQ h.rest :)

theorem rerouted.out {s u : State} (h : rerouted s u) : u.out = s.out := (congrArg State.out h.rest :)

theorem rerouted.laserDark {s u : State} (h : rerouted s u) : u.laserDark = s.laserDark := (congrArg State.laserDark h.rest :)

theorem rerouted_egress (s : State) (p : Nat) (f : Port → List (Nat × List Packet)) :
    rerouted s (s.modPort p fun t => { t with egress := f t }) := by
  refine ⟨rfl, fun r => ?_, fun _ _ _ => rfl⟩
  by_cases h : p = r
  · subst h
    rw [State.port_modPort_self]
  · rw [port_modPort_other s _ h]

theorem rerouted_routerCount (s : State) : rerouted s (s.routerCount 3) :=
  ⟨rfl, fun _ => rfl, fun _ hk _ => mapGet_mapSet_ne _ _ _ _ (Ne.symm hk)⟩

theorem rerouted_reroute (n : Nat) (s : State) (p v : Nat) : rerouted s (State.reroute n s p v) := by
  induction n generalizing s with
  | zero => exact .refl s
  | succ n ih =>
    rw [State.reroute]
    split
    · exact .refl s
    next k r _ =>
      have hpop := rerouted_egress s p fun t => mapSet [] t.egress v r
      dsimp only
      split
      · exact (hpop.trans (rerouted_routerCount _)).trans (ih _)
      split
      · exact (hpop.trans (rerouted_egress _ _ _)).trans (ih _)
      · exact .refl s

theorem rerouted_reroutePort (s : State) (p : Nat) : rerouted s (s.reroutePort p) :=
  List.foldlRecOn (motive := rerouted s) _ _ (.refl s) fun _ h _ _ => h.trans (rerouted_reroute ..)

/-! A link's packets dropped (R337). -/

theorem dropLink_rerouted (s : State) (p : Nat) : rerouted
    ((s.setPort p { s.port p with replay := [] }).odAdd 0 (0x4010 + p) 0xD (s.port p).replay.length) (s.dropLink p) := rerouted_reroutePort _ p

@[simp] theorem dropLink_faultQ (s : State) (p : Nat) : (s.dropLink p).faultQ = s.faultQ := (dropLink_rerouted s p).faultQ

@[simp] theorem dropLink_out (s : State) (p : Nat) : (s.dropLink p).out = s.out := (dropLink_rerouted s p).out

@[simp] theorem dropLink_laserDark (s : State) (p : Nat) : (s.dropLink p).laserDark = s.laserDark := (dropLink_rerouted s p).laserDark

@[simp] theorem portState_dropLink (s : State) (p r : Nat) : (s.dropLink p).portState r = s.portState r :=
  ((dropLink_rerouted s p).portState r).trans (portState_odAdd _ _ _ _ (by decide) (by decide))

/-- The port of a link whose packets are dropped has an empty replay buffer; but for its egress queues it is as it was. -/
theorem port_dropLink (s : State) (p : Nat) :
    { (s.dropLink p).port p with egress := (s.port p).egress } = { s.port p with replay := [] } := by
  simpa using (dropLink_rerouted s p).port p

/-! Training begins (R329, R338). -/

@[simp] theorem portState_sendTrain (s : State) (p r : Nat) : (s.sendTrain p).portState r = s.portState r := portState_of_od rfl r

@[simp] theorem port_sendTrain (s : State) (p r : Nat) : (s.sendTrain p).port r = s.port r := port_of_ports rfl r

@[simp] theorem sendTrain_faultQ (s : State) (p : Nat) : (s.sendTrain p).faultQ = s.faultQ := rfl

@[simp] theorem sendTrain_laserDark (s : State) (p : Nat) : (s.sendTrain p).laserDark = s.laserDark := rfl

theorem sendTrain_sent (s : State) (p : Nat) : ∃ m, (s.sendTrain p).out = s.out ++ [m, m] ∧ m.kind = 12 ∧ m.addr = p :=
  ⟨_, List.append_assoc .., rfl, rfl⟩

/-- Port `p` has begun to train: it is in state 1 and has sent its TRAIN, and it has raised nothing. -/
structure begunTraining (s u : State) (p : Nat) : Prop where
  state : u.portState p = 1
  replay : (u.port p).replay = (s.port p).replay
  faultQ : u.faultQ = s.faultQ
  sent : ∃ m, u.out = s.out ++ [m, m] ∧ m.kind = 12 ∧ m.addr = p

/-- A lit port that is not fenced trains when this is not its fifth training within 1 s (R338). -/
theorem startTraining_begun {s : State} {p old : Nat} (hf : (s.port p).fenced = false) (hd : s.dark p = false)
    (hn : (s.port p).trains - old + 1 < 5) : begunTraining s (s.startTraining p old) p := by
  unfold State.startTraining
  extract_lets t n s0 s1
  rw [if_neg (by simp [t, hf]), if_neg (by simp [hd]), if_neg hn.not_ge]
  have hs1 : (s1.port p).replay = (s.port p).replay := by simp [s1, s0, t]
  have hf1 : s1.faultQ = s.faultQ := by simp [s1, s0]
  have ho1 : s1.out = s.out := by simp [s1, s0]
  clear_value s1
  refine ⟨by simp, by simpa using hs1, by simpa using hf1, ?_⟩
  rw [← ho1]
  exact sendTrain_sent (s1.setPortState p 1) p

/-- A port's training leaves the other ports. -/
theorem startTraining_other (s : State) {p r : Nat} (old : Nat) (h : p ≠ r) :
    (s.startTraining p old).portState r = s.portState r ∧ (s.startTraining p old).port r = s.port r := by
  unfold State.startTraining
  extract_lets t n s0 s1
  have h0 : s0.portState r = s.portState r ∧ s0.port r = s.port r := by simp [s0, State.port_setPort_other _ _ h]
  have h1 : s1.portState r = s.portState r ∧ s1.port r = s.port r := by simpa [s1, portState_odAdd, port_modPort_other _ _ h] using h0
  clear_value s1 s0
  split_ifs
  · simpa [portState_setPortState_other _ _ h] using h0
  · simpa [portState_setPortState_other _ _ h] using h0
  · simpa [portState_setPortState_other _ _ h] using h1
  · simpa [portState_setPortState_other _ _ h] using h1

theorem startTraining_laserDark (s : State) (p old : Nat) : (s.startTraining p old).laserDark = s.laserDark := by
  unfold State.startTraining
  extract_lets t n s0 s1
  have h0 : s0.laserDark = s.laserDark := rfl
  have h1 : s1.laserDark = s.laserDark := rfl
  clear_value s1 s0
  split_ifs <;> assumption

end Sys2Proof.Machine
end

section
/-! PROOF. Links that fail, and light lost and returned (11 R324, R337, R338). -/

namespace Sys2Proof.Machine

open Sys2Proof Sys2Proof.Safety

/-! Links that fail (R337). -/

/-- A failed link has raised LINK_DOWN with its cause, its replay buffer is empty and it trains again. -/
structure failedLink (s u : State) (p cause : Nat) : Prop where
  state : u.portState p = 1
  replay : (u.port p).replay = []
  raised : ∃ n, u.faultQ = s.faultQ ++ [n] ∧ n.code = 0x0402 ∧ n.source = unitId 5 p ∧ n.vals.head? = some cause
  sent : ∃ m, u.out = s.out ++ [m, m] ∧ m.kind = 12 ∧ m.addr = p

/-- A link that fails drops its packets and raises LINK_DOWN, and the port then begins its training (R337). -/
theorem linkFail_eq (s : State) (p old cause : Nat) : ∃ (v : State) (x : Nat),
    s.linkFail p old cause = (v.raisePort 0x0402 p [cause, x]).startTraining p old ∧
    { v.port p with egress := (s.port p).egress } = { s.port p with replay := [] } ∧
    v.faultQ = s.faultQ ∧ v.out = s.out ∧ v.dark p = s.dark p :=
  ⟨(s.setPortState p (if cause = 2 then 4 else 1)).dropLink p, _, rfl, by simpa using port_dropLink (s.setPortState p _) p,
    by simp, by simp, by simp [State.dark]⟩

/-- A lit link that is not fenced fails and trains again when this is not its fifth training within 1 s (R337, R338). -/
theorem linkFail_failed {s : State} {p old : Nat} (cause : Nat) (hf : (s.port p).fenced = false) (hd : s.dark p = false)
    (hn : (s.port p).trains - old + 1 < 5) : failedLink s (s.linkFail p old cause) p cause := by
  obtain ⟨v, x, heq, hport, hfaults, hout, hdark⟩ := linkFail_eq s p old cause
  have hfenced : (v.port p).fenced = (s.port p).fenced := (congrArg Port.fenced hport :)
  have htrains : (v.port p).trains = (s.port p).trains := (congrArg Port.trains hport :)
  have hreplay : (v.port p).replay = [] := (congrArg Port.replay hport :)
  obtain ⟨hstate, hkeeps, hraised, m, hsent, hkind, haddr⟩ := startTraining_begun (s := v.raisePort 0x0402 p [cause, x]) (old := old)
    (by rw [port_raisePort, hfenced, hf]) (hdark.trans hd) (by rwa [port_raisePort, htrains])
  rw [heq]
  refine ⟨hstate, by rw [hkeeps, port_raisePort, hreplay], ⟨_, by rw [hraised, ← hfaults]; rfl, rfl, rfl, rfl⟩, m, ?_, hkind, haddr⟩
  rw [hsent, State.raisePort_out, hout]

theorem portState_foldl_setPortState (s : State) (ps : List Nat) (v p : Nat) :
    (ps.foldl (fun u p => u.setPortState p v) s).portState p = if p ∈ ps then v else s.portState p := by
  induction ps generalizing s with
  | nil => rfl
  | cons r ps ih =>
    rw [List.foldl_cons, ih]
    by_cases hr : r = p
    · subst hr
      simp
    · simp [portState_setPortState_other _ _ hr, Ne.symm hr]

/-- Where links fail, each is left in state 1, or in state 4 where its light is lost (R324). -/
theorem portState_linksFail {s : State} {ps : List Nat} {p : Nat} (cause : Nat) (h : p ∈ ps) :
    (s.linksFail ps cause).portState p = if cause = 2 then 4 else 1 := by
  rw [State.linksFail]
  refine List.foldlRecOn (motive := fun u : State => u.portState p = _) _ _ ?_ fun u hu r _ => ?_
  · rw [portState_foldl_setPortState, if_pos h]
  · simpa using hu

theorem linksFail_laserDark (s : State) (ps : List Nat) (cause : Nat) : (s.linksFail ps cause).laserDark = s.laserDark := by
  rw [State.linksFail]
  refine List.foldlRecOn (motive := fun u : State => u.laserDark = _) _ _ ?_ fun u hu r _ => by simpa using hu
  exact List.foldlRecOn (motive := fun u : State => u.laserDark = _) _ _ rfl fun u hu r _ => hu

/-! Light (R324). -/

theorem mem_inputPorts {k p : Nat} (h : p / 3 = k) : p ∈ [3 * k, 3 * k + 1, 3 * k + 2] := by
  simp only [List.mem_cons, List.not_mem_nil, or_false]
  omega

/-- Light lost at input `k` takes its port down (R324). -/
theorem execLaserLoss_down {s : State} {k p : Nat} (hb : s.boot = .ready) (hk : p / 3 = k) (hup : s.portUp p = true) :
    ∃ u, execLaserLoss k s = .next u ∧ u.portState p = 4 ∧ k ∈ u.laserDark := by
  have hst := portUp_iff.1 hup
  refine ⟨_, fabricEvent_ready _ hb, portState_linksFail 2 (List.mem_filter.2 ⟨mem_inputPorts hk, by simp [hst]⟩), ?_⟩
  rw [linksFail_laserDark]
  exact mem_setIns.2 (.inl rfl)

/-- A port trains if it is in state 4, as when its light returns (R324). -/
def State.relight (s : State) (old r : Nat) : State := if s.portState r = 4 then s.startTraining r old else s

theorem relight_laserDark (s : State) (old r : Nat) : (s.relight old r).laserDark = s.laserDark := by
  unfold State.relight
  split
  · exact startTraining_laserDark s r old
  · rfl

theorem relight_other (s : State) {p r : Nat} (old : Nat) (h : r ≠ p) : (s.relight old r).portState p = s.portState p ∧
    (s.relight old r).port p = s.port p := by
  unfold State.relight
  split
  · exact startTraining_other s old h
  · exact ⟨rfl, rfl⟩

/-- Of ports whose light returns, one in state 4 that is lit, is not fenced, and does not train a fifth time, trains. -/
theorem portState_foldl_relight {s : State} {p old : Nat} {l : List Nat} (hl : p ∈ l) (hst : s.portState p = 4)
    (hf : (s.port p).fenced = false) (hd : s.dark p = false) (hn : (s.port p).trains - old + 1 < 5) :
    (l.foldl (fun u r => u.relight old r) s).portState p = 1 := by
  obtain ⟨a, b, rfl, ha⟩ := List.eq_append_cons_of_mem hl
  rw [List.foldl_append, List.foldl_cons]
  have hbefore : let u := a.foldl (fun u r => u.relight old r) s
      u.portState p = 4 ∧ u.port p = s.port p ∧ u.laserDark = s.laserDark :=
    List.foldlRecOn (motive := fun u : State => u.portState p = 4 ∧ u.port p = s.port p ∧ u.laserDark = s.laserDark) _ _
      ⟨hst, rfl, rfl⟩ fun u hu r hr => by
        obtain ⟨h1, h2⟩ := relight_other u old fun he : r = p => ha (he ▸ hr)
        rwa [h1, h2, relight_laserDark]
  generalize a.foldl (fun u r => u.relight old r) s = t at hbefore
  obtain ⟨h4, hport, hlight⟩ := hbefore
  refine List.foldlRecOn (motive := fun u : State => u.portState p = 1) _ _ ?_ fun u hu r _ => ?_
  · rw [State.relight, if_pos h4]
    exact (startTraining_begun (by rwa [hport]) (by rwa [State.dark, hlight]) (by rwa [hport])).state
  · by_cases hr : r = p
    · rwa [State.relight, if_neg (by simp [hr, hu])]
    · rwa [(relight_other u old hr).1]

/-- Light that returns at input `k` trains its port (R324). -/
theorem execLaserRestore_trains {s : State} {k p old : Nat} (hb : s.boot = .ready) (hk : p / 3 = k) (hst : s.portState p = 4)
    (hf : (s.port p).fenced = false) (hn : (s.port p).trains - old + 1 < 5) :
    ∃ u, execLaserRestore k old s = .next u ∧ u.portState p = 1 ∧ k ∉ u.laserDark := by
  have hdel : k ∉ setDel s.laserDark k := by simp [setDel]
  have hd : ({ s with laserDark := setDel s.laserDark k } : State).dark p = false := by simpa [State.dark, hk] using hdel
  refine ⟨_, fabricEvent_ready _ hb, portState_foldl_relight (mem_inputPorts hk) hst hf hd hn, ?_⟩
  refine List.foldlRecOn (motive := fun u : State => k ∉ u.laserDark) _ _ hdel fun u hu r _ => ?_
  exact (relight_laserDark u old r).symm ▸ hu

end Sys2Proof.Machine
end

section
/-! PROOF. The end of training, the readiness of the fabric, a port's commands, and the statement of the link's states (11 R329,
R338, R345, R355, 16 R478). -/

namespace Sys2Proof.Machine

open Sys2Proof Sys2Proof.Safety

/-! The readiness bits (Table 12-4), below every counter of lost records (13 R410). -/

/-- Of the dictionary a notice for one destination writes at most that destination's counter of lost records. -/
theorem deliverTo_od (s : State) (n : Notice) (k : Nat) : (s.deliverTo n k).od = s.od ∨ (s.deliverTo n k).od = (s.countLost k).od := by
  have hlost : ∀ d, ((s.setDest k d).countLost k).od = (s.countLost k).od := fun d => by
    unfold State.countLost
    split_ifs <;> rfl
  dsimp only [State.deliverTo]
  split
  · exact .inl rfl
  split
  · refine .inr ?_
    split
    · rw [msix_od]
      exact hlost _
    · exact hlost _
  · refine .inl ?_
    split <;> rfl

theorem mapGet_od_countLost_low (s : State) (k : Nat) {key : Nat} (h : key < 0x101000) (d : Nat) :
    mapGet d (s.countLost k).od key = mapGet d s.od key := by
  unfold State.countLost State.odAdd
  split_ifs <;> exact mapGet_mapSet_ne _ _ _ _ (by simp only [odKey]; omega)

theorem mapGet_od_deliver_low (s : State) (n : Notice) {key : Nat} (h : key < 0x101000) (d : Nat) :
    mapGet d (s.deliver n).od key = mapGet d s.od key := by
  refine List.foldlRecOn (motive := fun u : State => mapGet d u.od key = mapGet d s.od key) _ _ rfl fun u hu k _ => ?_
  rcases deliverTo_od u n k with he | he
  · rw [he, hu]
  · rw [he, mapGet_od_countLost_low u k h, hu]

/-- A readiness bit set reads as set. -/
theorem testBit_setReady (s : State) (k : Nat) (v : Bool) : ((s.setReady k v).odGet 0 0x0011 0).testBit k = v := by
  unfold State.setReady
  extract_lets w
  split
  · assumption
  · rw [State.odGet, State.notify, mapGet_od_deliver_low _ _ (by decide)]
    exact (congrArg (Nat.testBit · k) (State.odGet_odSet_self ..)).trans ((testBit_setBit ..).trans (if_pos rfl))

theorem setReady_ports (s : State) (k : Nat) (v : Bool) : (s.setReady k v).ports = s.ports := by
  unfold State.setReady
  extract_lets w
  split
  · rfl
  · exact (congrArg State.ports (sameBeyondNotices_deliver (s.odSet 0 0x0011 0 (setBit w k v)) _) :)

/-- A port's record stays where a readiness bit is set. -/
theorem odGet_setReady (s : State) (k : Nat) (v : Bool) (p sub : Nat) :
    (s.setReady k v).odGet 0 (0x4010 + p) sub = s.odGet 0 (0x4010 + p) sub := by
  unfold State.setReady
  extract_lets w
  split
  · rfl
  · rw [State.odGet, State.notify, mapGet_od_deliver _ _ (by unfold odKey; omega)]
    exact s.odGet_odSet_other _ (by unfold odKey; omega)

/-- Where a readiness bit is set on a condition, a port and its record stay. -/
theorem ite_setReady_port (s : State) (c : Prop) [Decidable c] (k p : Nat) (v : Bool) :
    (if c then s.setReady k v else s).port p = s.port p ∧
      ∀ sub, (if c then s.setReady k v else s).odGet 0 (0x4010 + p) sub = s.odGet 0 (0x4010 + p) sub := by
  split
  · exact ⟨port_of_ports (setReady_ports ..) p, odGet_setReady s k v p⟩
  · exact ⟨rfl, fun _ => rfl⟩

/-! The end of training (R329, R345). -/

/-- Training has ended: SEQ restarts at 0, no credit is consumed and no ACK is due, and the record holds the peer's identity and
the state it gives. -/
theorem trained_ended (s : State) (p : Nat) (m : TrainMsg) :
    ((s.trained p m).port p).txSeq = 0 ∧ ((s.trained p m).port p).rxSeq = 0 ∧ ((s.trained p m).port p).consumed = [] ∧
      ((s.trained p m).port p).ackDue = [] ∧ (s.trained p m).odGet 0 (0x4010 + p) 3 = m.lid ∧
      (s.trained p m).odGet 0 (0x4010 + p) 4 = m.port ∧
      (s.trained p m).portState p = (if m.lid = s.ownLid then 5
        else if (s.odGet 0 (0x4010 + p) 5).testBit 31 = true ∧
          (s.odGet 0 (0x4010 + p) 5 / 256 % 65536 ≠ m.lid ∨ s.odGet 0 (0x4010 + p) 5 % 256 ≠ m.port) then 6 else 2) := by
  unfold State.trained
  extract_lets i t want st s1 s2
  have hlow : bitsOf want 8 16 = want / 256 % 65536 ∧ bitsOf want 0 8 = want % 256 := by simp [bitsOf, Nat.shiftRight_eq_div_pow]
  have hst : st = (if m.lid = s.ownLid then 5 else if want.testBit 31 = true ∧
      (want / 256 % 65536 ≠ m.lid ∨ want % 256 ≠ m.port) then 6 else 2) := by
    simp only [st, hlow, bitAt]
  obtain ⟨hport, hrecord⟩ := ite_setReady_port s2 (s2.fabricReady = true) 3 p true
  have hs2 : s2.port p = s1.port p := port_of_ports rfl p
  rw [hport, hs2, State.portState, hrecord, hrecord, hrecord, ← hst]
  refine ⟨by simp [s1], by simp [s1], by simp [s1], by simp [s1], ?_, ?_, portState_setPortState_self ..⟩
  · rw [odGet_setPortState_other _ _ _ (by decide), State.odGet_odSet_other _ _ (odKey_ne_of_sub (by decide)), State.odGet_odSet_self]
  · rw [odGet_setPortState_other _ _ _ (by decide), State.odGet_odSet_self]

/-- TRAIN at a port in training: the first message is kept, the second identical one ends training (R329). -/
theorem execTrain_training {s : State} {p : Nat} {m : TrainMsg} (old : Nat) (hb : s.boot = .ready) (hst : s.portState p = 1)
    (hv : m.ver = 1) (ht : unitId 5 p ∉ s.testing) : execTrain p m old s =
      .next (if (s.port p).lastTrain = some m then s.trained p m else s.modPort p fun t => { t with lastTrain := some m }) := by
  rw [execTrain, fabricEvent_ready _ hb]
  simp [hst, hv, ht]

theorem execPeerTrainingLost_fails {s : State} {p : Nat} (old : Nat) (hb : s.boot = .ready) (hup : s.portUp p = true) :
    execPeerTrainingLost p old s = .next (s.linkFail p old 3) := by
  rw [execPeerTrainingLost, fabricEvent_ready _ hb, if_pos hup]

theorem execFabricReadyTimeout_next {s : State} (hb : s.boot = .ready) : execFabricReadyTimeout s = .next (s.setReady 3 true) :=
  fabricEvent_ready _ hb

/-! The port's commands (R338, R355). -/

@[simp] theorem portState_completeUnit (s : State) (part i sub status tok val : Nat) (more : Bytes) (p : Nat) :
    (s.completeUnit part i sub status tok val more).portState p = s.portState p := odGet_completeUnit _ _ _ _ _ _ _ _ (by omega)

theorem cmdPortEnable_heldDown {s : State} {p : Nat} (tok old : Nat) (hst : s.portState p = 3) (hf : (s.port p).fenced = false) :
    cmdPortEnable p 1 tok old s = (stDone, ((s.modPort p fun t => { t with trains := 0 }).startTraining p old).completeUnit
      (s.portPart p) (0x4010 + p) 2 0 tok 1 []) := by
  simp [cmdPortEnable, hf, hst, State.portUp]

/-- Enabled, a port that is held down trains: the count that led to the hold-down has ended (R338, log 73). -/
theorem execPortEnable_heldDown {s : State} {p : Nat} (tok old : Nat) (hs : s.served = true) (hst : s.portState p = 3)
    (hf : (s.port p).fenced = false) (hd : s.dark p = false) :
    ∃ u, execPortEnable p 1 tok old s = .next u ∧ u.portState p = 1 := by
  refine ⟨_, runDevCmd_next hs (cmdPortEnable_heldDown tok old hst hf), (portState_completeUnit ..).trans ?_⟩
  exact (startTraining_begun (s := s.modPort p fun t => { t with trains := 0 }) (by simpa using hf) hd (by simp)).state

theorem cmdPortDisable_disables {s : State} {p : Nat} (tok : Nat) (hf : (s.port p).fenced = false) :
    cmdPortDisable p 0 tok s = (stDone, ((if s.portUp p then (s.setPortState p 0).dropLink p else s.setPortState p 0).modPort p
      fun t => { t with lastTrain := none, auditing := false }).completeUnit (s.portPart p) (0x4010 + p) 2 0 tok 0 []) := by
  simp [cmdPortDisable, hf]

/-- Disabled, a port goes to state 0 (R355). -/
theorem execPortDisable_disabled {s : State} {p : Nat} (tok : Nat) (hs : s.served = true) (hf : (s.port p).fenced = false) :
    ∃ u, execPortDisable p 0 tok s = .next u ∧ u.portState p = 0 := by
  refine ⟨_, runDevCmd_next hs (cmdPortDisable_disables tok hf), ?_⟩
  rw [portState_completeUnit, portState_modPort]
  split <;> simp

/-- Settles O23: a training that ends by what it sets, one that begins anew by the failure of its link or the light's return. -/
theorem linkStates : Obligations.LinkStates := by
  unfold Obligations.LinkStates
  refine ⟨⟨fun s p old m hb hst hv ht hne => (execTrain_training old hb hst hv ht).trans (by rw [if_neg hne]),
    fun s p old m hb hst hv ht heq => ⟨_, (execTrain_training old hb hst hv ht).trans (by rw [if_pos heq]), trained_ended s p m⟩,
    fun s p old hb hup hf hd hn => ?_, fun s k p hb hk hup => execLaserLoss_down hb hk hup,
    fun s k p old hb hk hst hf hn => execLaserRestore_trains hb hk hst hf hn⟩,
    fun s p tok old hs hst hf hd => execPortEnable_heldDown tok old hs hst hf hd,
    fun s p tok hs hf => execPortDisable_disabled tok hs hf, fun s hb => ⟨_, execFabricReadyTimeout_next hb, testBit_setReady s 3 true⟩⟩
  obtain ⟨hstate, hreplay, ⟨n, hraised, hcode, hsource, hcause⟩, m, hsent, hkind, haddr⟩ := linkFail_failed 3 hf hd hn
  exact ⟨_, n, m, execPeerTrainingLost_fails old hb hup, hstate, hreplay, hraised, hcode, hsource, hcause, hsent, hkind, haddr⟩

end Sys2Proof.Machine
end

section
/-! PROOF. Packets that arrive at a port (11 R326, R327, R331, R334, R335). -/

namespace Sys2Proof.Machine

open Sys2Proof Sys2Proof.Safety

@[simp] theorem odGet_setPort (s : State) (p q i k : Nat) (x : Port) : (s.setPort p x).odGet q i k = s.odGet q i k := rfl

/-! Codewords counted (Table 11-10 :0A, :0B). -/

/-- The codewords that arrived at port `p`, counted. -/
def State.countWords (s : State) (p : Nat) (ws : List (Nat × Bytes)) : State :=
  (s.odAdd 0 (0x4010 + p) 0xA (wordsCorrected ws)).odAdd 0 (0x4010 + p) 0xB (wordsBad ws)

@[simp] theorem port_countWords (s : State) (p : Nat) (ws : List (Nat × Bytes)) (r : Nat) : (s.countWords p ws).port r = s.port r :=
  port_of_ports rfl r

@[simp] theorem countWords_out (s : State) (p : Nat) (ws : List (Nat × Bytes)) : (s.countWords p ws).out = s.out := rfl

theorem odGet_countWords_corrected (s : State) (p : Nat) (ws : List (Nat × Bytes)) :
    (s.countWords p ws).odGet 0 (0x4010 + p) 0xA = (s.odGet 0 (0x4010 + p) 0xA + wordsCorrected ws) % 2 ^ 64 := by
  rw [State.countWords, State.odGet_odAdd_other _ _ (odKey_ne_of_sub (by decide)), State.odGet_odAdd_self]

theorem odGet_countWords_other (s : State) (p : Nat) (ws : List (Nat × Bytes)) {sub : Nat} (ha : 0xA ≠ sub) (hb : 0xB ≠ sub) :
    (s.countWords p ws).odGet 0 (0x4010 + p) sub = s.odGet 0 (0x4010 + p) sub := by
  rw [State.countWords, State.odGet_odAdd_other _ _ (odKey_ne_of_sub hb), State.odGet_odAdd_other _ _ (odKey_ne_of_sub ha)]

/-! The three ways of a packet: accepted, passed over, refused. -/

/-- The port after it has accepted packet `k`, the one expected, on the packet's lane (R334). -/
def Port.accepted (t : Port) (k : Packet) : Port :=
  { t with rxSeq := (t.rxSeq + 1) % 65536, nakFor := none, ackDue := t.ackDue ++ [t.rxSeq], statusDue := true,
           ingress := mapSet [] t.ingress k.vl (mapGet [] t.ingress k.vl ++ [{ seq := t.rxSeq, pkt := k }]) }

theorem arrivalGood_flits {ws : List (Nat × Bytes)} (h : arrivalGood ws = true) : flitsOf 1 ws ≠ [] := fun he => by
  simp [arrivalGood, he] at h

theorem arrive_accepts {s : State} {p : Nat} {ws : List (Nat × Bytes)} (hup : s.portUp p = true) (hg : arrivalGood ws = true)
    (hseq : arrivalSeq ws = (s.port p).rxSeq) (hl : laneOf (arrivalPacket ws).kind = some (arrivalPacket ws).vl) :
    s.arrive p ws = ((s.countWords p ws).odAdd 0 (0x4010 + p) 8 1).setPort p ((s.port p).accepted (arrivalPacket ws)) := by
  rw [State.arrive, if_pos hup]
  extract_lets i s1 k
  rw [if_neg (arrivalGood_flits hg), if_neg (not_not.2 hg), if_pos (by simpa [s1] using hseq), State.acceptPacket]
  simp only [k, hl, if_true, s1, port_odAdd]
  rfl

theorem arrive_passesOver {s : State} {p : Nat} {ws : List (Nat × Bytes)} (hup : s.portUp p = true) (hg : arrivalGood ws = true)
    (hseq : arrivalSeq ws ≠ (s.port p).rxSeq) : s.arrive p ws = (s.countWords p ws).passOver p (arrivalSeq ws) (arrivalPacket ws) := by
  rw [State.arrive, if_pos hup]
  extract_lets i s1 k
  rw [if_neg (arrivalGood_flits hg), if_neg (not_not.2 hg), if_neg (by simpa [s1] using hseq)]
  rfl

theorem arrive_refuses {s : State} {p : Nat} {ws : List (Nat × Bytes)} (hup : s.portUp p = true) (hf : flitsOf 1 ws ≠ [])
    (hg : arrivalGood ws = false) :
    s.arrive p ws = (s.countWords p ws).refusePacket p (arrivalSeq ws) (arrivalPacket ws) (flitsOf 1 ws).length := by
  rw [State.arrive, if_pos hup]
  extract_lets i s1 k
  rw [if_neg hf, if_pos (by simp [hg])]
  rfl

/-- A STATUS clears what was due of one, and goes out. -/
theorem port_sendStatus (s : State) (p : Nat) (nak : Bool) :
    (s.sendStatus p nak).port p = { s.port p with ackDue := [], statusDue := false } := s.port_setPort_self p _

theorem sendStatus_sent (s : State) (p : Nat) (nak : Bool) : ∃ m, (s.sendStatus p nak).out = s.out ++ [m] ∧ m.kind = 12 ∧ m.addr = p :=
  ⟨_, rfl, rfl, rfl⟩

/-- The packet expected, when it is not good, is asked for again (R335). -/
theorem refusePacket_expected {s : State} {p seq : Nat} (k : Packet) (n : Nat) (hseq : seq = (s.port p).rxSeq) :
    s.refusePacket p seq k n =
      ((s.setPort p ((s.port p).giveBack k.vl n)).modPort p fun t => { t with nakFor := some t.rxSeq }).sendStatus p true :=
  if_pos (.inl hseq)

section

variable {s : State} {p : Nat} {errs : List Nat} {data : List Bytes} {ctl crc : List W32} {par : List Bytes} {ws : List (Nat × Bytes)}

theorem execPacketArrival_next (hws : ws = lineWords errs data ctl crc par) (hb : s.boot = .ready) :
    execPacketArrival p errs data ctl crc par s = .next (s.arrive p ws) := by rw [hws, execPacketArrival, fabricEvent_ready _ hb]

/-- The packet expected joins its lane's ingress buffer (R331, R334). -/
theorem execPacketArrival_accepts (hws : ws = lineWords errs data ctl crc par) (hb : s.boot = .ready) (hup : s.portUp p = true)
    (hg : arrivalGood ws = true) (hseq : arrivalSeq ws = (s.port p).rxSeq)
    (hl : laneOf (arrivalPacket ws).kind = some (arrivalPacket ws).vl) :
    ∃ u, execPacketArrival p errs data ctl crc par s = .next u ∧ u.port p = (s.port p).accepted (arrivalPacket ws) ∧
      u.odGet 0 (0x4010 + p) 8 = (s.odGet 0 (0x4010 + p) 8 + 1) % 2 ^ 64 ∧
      u.odGet 0 (0x4010 + p) 0xA = (s.odGet 0 (0x4010 + p) 0xA + wordsCorrected ws) % 2 ^ 64 := by
  refine ⟨_, execPacketArrival_next hws hb, ?_⟩
  rw [arrive_accepts hup hg hseq hl, odGet_setPort, odGet_setPort, State.odGet_odAdd_self, State.port_setPort_self,
    State.odGet_odAdd_other _ _ (odKey_ne_of_sub (by decide)), odGet_countWords_corrected,
    odGet_countWords_other _ _ _ (by decide) (by decide)]
  exact ⟨rfl, rfl, rfl⟩

/-- Another good packet is discarded, and its credits return (R335). -/
theorem execPacketArrival_passesOver (hws : ws = lineWords errs data ctl crc par) (hb : s.boot = .ready) (hup : s.portUp p = true)
    (hg : arrivalGood ws = true) (hseq : arrivalSeq ws ≠ (s.port p).rxSeq) :
    let behind := ((s.port p).rxSeq + 65536 - arrivalSeq ws % 65536) % 65536
    ∃ u, execPacketArrival p errs data ctl crc par s = .next u ∧
      u.port p = { (s.port p).giveBack (arrivalPacket ws).vl (packetFlits (arrivalPacket ws)) with
        statusDue := (s.port p).statusDue || (decide (1 ≤ behind) && decide (behind ≤ 32768)) } := by
  refine ⟨_, execPacketArrival_next hws hb, ?_⟩
  rw [arrive_passesOver hup hg hseq, State.passOver, State.port_modPort_self, port_countWords]

/-- The packet expected is asked for again when it is not good (R327, R335). -/
theorem execPacketArrival_refuses (hws : ws = lineWords errs data ctl crc par) (hb : s.boot = .ready) (hup : s.portUp p = true)
    (hf : flitsOf 1 ws ≠ []) (hg : arrivalGood ws = false) (hseq : arrivalSeq ws = (s.port p).rxSeq) :
    ∃ u m, execPacketArrival p errs data ctl crc par s = .next u ∧ (u.port p).ingress = (s.port p).ingress ∧
      (u.port p).rxSeq = (s.port p).rxSeq ∧ (u.port p).nakFor = some (s.port p).rxSeq ∧
      u.out = s.out ++ [m] ∧ m.kind = 12 ∧ m.addr = p := by
  have hnext := execPacketArrival_next (p := p) hws hb
  rw [arrive_refuses hup hf hg, refusePacket_expected _ _ (by rwa [port_countWords])] at hnext
  obtain ⟨m, hsent, hkind, haddr⟩ := sendStatus_sent _ p true
  refine ⟨_, m, hnext, ?_, ?_, ?_, hsent, hkind, haddr⟩ <;>
    simp only [port_sendStatus, State.port_modPort_self, State.port_setPort_self, port_countWords, Port.giveBack]

end

end Sys2Proof.Machine
end

section
/-! PROOF. Acknowledgement and retry (11 R332-R336). -/

namespace Sys2Proof.Machine

open Sys2Proof Sys2Proof.Safety

/-! Packets sent again (R335). -/

/-- A packet sent again, once: it is due no more, and has had one retry more. -/
def Replay.resent (r : Replay) : Replay := { r with due := false, retries := r.retries + 1 }

/-- A packet of the replay buffer while what is due is sent again: as it was, or, if it was due, sent again. -/
def mayResend (x y : Replay) : Prop := y = x ∨ x.due = true ∧ y = x.resent

theorem mayResend.trans {x y z : Replay} (h : mayResend x y) (h' : mayResend y z) : mayResend x z := by
  obtain rfl | ⟨hd, rfl⟩ := h
  · exact h'
  · obtain rfl | ⟨hy, -⟩ := h'
    · exact .inr ⟨hd, rfl⟩
    · cases hy

/-- A packet that is not due stays as it is. -/
theorem mayResend.eq_of_not_due {x y : Replay} (h : mayResend x y) (hd : x.due = false) : y = x :=
  h.resolve_right fun hx => by simp [hd] at hx

theorem portState_transmit (s : State) (p seq r : Nat) (k : Packet) : (s.transmit p seq k).portState r = s.portState r := portState_of_od rfl r

theorem replay_transmit (s : State) (p seq : Nat) (k : Packet) : ((s.transmit p seq k).port p).replay = (s.port p).replay := by
  simp [State.transmit]

/-- The first packet due, sent again: the port's replay buffer and state after it. -/
def State.sendAgain (s : State) (p : Nat) (r : Replay) : State :=
  ((s.setPort p { s.port p with replay := (s.port p).replay.map fun x => if x = r then r.resent else x }).odAdd 0 (0x4010 + p) 9 1).transmit
    p r.seq r.pkt

theorem portState_sendAgain (s : State) (p : Nat) (r : Replay) : (s.sendAgain p r).portState p = s.portState p := by
  rw [State.sendAgain, portState_transmit, portState_odAdd _ _ _ _ (by decide) (by decide), portState_setPort]

theorem replay_sendAgain (s : State) (p : Nat) (r : Replay) :
    ((s.sendAgain p r).port p).replay = (s.port p).replay.map fun x => if x = r then r.resent else x := by
  rw [State.sendAgain, replay_transmit, port_odAdd, State.port_setPort_self]

theorem mayResend_ite {r : Replay} (hd : r.due = true) (x : Replay) : mayResend x (if x = r then r.resent else x) := by
  split
  · next hx => exact .inr ⟨hx ▸ hd, by rw [hx]⟩
  · exact .inl rfl

/-- Nothing due, or no credits for the first packet due: nothing is sent; otherwise that packet is, and then those behind it. -/
theorem pumpResend_succ (n : Nat) (s : State) (p : Nat) : State.pumpResend (n + 1) s p =
    match (s.port p).replay.find? (·.due) with
    | none => s
    | some r => if packetFlits r.pkt ≤ available (s.port p) r.pkt.vl then State.pumpResend n (s.sendAgain p r) p else s := rfl

/-- Each packet of the buffer is sent again once at most, and the port's state stays. -/
theorem pumpResend_resends (n : Nat) (s : State) (p : Nat) : (State.pumpResend n s p).portState p = s.portState p ∧
    List.Forall₂ mayResend (s.port p).replay ((State.pumpResend n s p).port p).replay := by
  have hsame : List.Forall₂ mayResend (s.port p).replay (s.port p).replay := List.forall₂_same.2 fun _ _ => .inl rfl
  induction n generalizing s with
  | zero => exact ⟨rfl, hsame⟩
  | succ n ih =>
    rw [pumpResend_succ]
    split
    · exact ⟨rfl, hsame⟩
    next r hr =>
      split
      · obtain ⟨hstate, hreplay⟩ := ih (s.sendAgain p r) (List.forall₂_same.2 fun _ _ => .inl rfl)
        rw [replay_sendAgain, List.forall₂_map_left_iff] at hreplay
        exact ⟨hstate.trans (portState_sendAgain s p r),
          hreplay.imp fun x y h => (mayResend_ite (by simpa using List.find?_some hr) x).trans h⟩
      · exact ⟨rfl, hsame⟩

/-- The oldest packet, where it is due and the port holds its credits, is sent again. -/
theorem pumpResend_head {n : Nat} {s : State} {p : Nat} {r : Replay} {rs : List Replay} (h : (s.port p).replay = r :: rs)
    (hd : r.due = true) (hc : packetFlits r.pkt ≤ available (s.port p) r.pkt.vl) :
    ((State.pumpResend (n + 1) s p).port p).replay.head? = some r.resent := by
  have hfind : (s.port p).replay.find? (·.due) = some r := by rw [h, List.find?_cons_of_pos hd]
  have hafter := (pumpResend_resends n (s.sendAgain p r) p).2
  rw [replay_sendAgain, h, List.map_cons, if_pos rfl] at hafter
  rw [pumpResend_succ, hfind]
  dsimp only
  rw [if_pos hc]
  obtain ⟨y, ys, hy, -, he⟩ := List.forall₂_cons_left_iff.1 hafter
  rw [he, List.head?_cons, hy.eq_of_not_due rfl]

/-! The oldest packet's failed retry (R336). -/

/-- Every packet due (R335). -/
def Port.allDue (t : Port) : Port := { t with replay := t.replay.map fun x => { x with due := true } }

/-- Below its third failed retry, the oldest packet is to be sent again, and all behind it (R336). -/
theorem resendFrom_oldest {s : State} {p : Nat} {r : Replay} {rs : List Replay} (old : Nat) (h : (s.port p).replay = r :: rs)
    (hr : r.retries < 3) : s.resendFrom p 0 old = (s.setPort p (s.port p).allDue).resend p := by
  have hall : ∀ l : List Replay, (l.zipIdx.map fun x => if 0 ≤ x.2 then { x.1 with due := true } else x.1) =
      l.map fun x => { x with due := true } := fun l => by
    simp only [Nat.zero_le, if_true]
    exact (List.map_map (f := Prod.fst) (g := fun x : Replay => { x with due := true })).symm.trans (congrArg _ (List.zipIdx_map_fst 0 l))
  rw [State.resendFrom, h]
  dsimp only [List.getElem?_cons_zero]
  rw [if_neg (by omega), ← h, hall]
  rfl

theorem resendFrom_exhausted {s : State} {p : Nat} {r : Replay} {rs : List Replay} (old : Nat) (h : (s.port p).replay = r :: rs)
    (hr : r.retries = 3) : s.resendFrom p 0 old = s.linkFail p old 1 := by
  rw [State.resendFrom, h]
  dsimp only [List.getElem?_cons_zero]
  rw [if_pos hr.ge]

/-- No ACK in time: the buffer keeps its packets, each with at most one retry more, and the oldest is sent again if the port holds its
credits. -/
theorem resendFrom_resends {s : State} {p : Nat} {r : Replay} {rs : List Replay} (old : Nat) (h : (s.port p).replay = r :: rs)
    (hr : r.retries < 3) : (s.resendFrom p 0 old).portState p = s.portState p ∧
      List.Forall₂ (fun x y => mayResend { x with due := true } y) (s.port p).replay ((s.resendFrom p 0 old).port p).replay ∧
      (packetFlits r.pkt ≤ available (s.port p) r.pkt.vl → ((s.resendFrom p 0 old).port p).replay.head? = some r.resent) := by
  rw [resendFrom_oldest old h hr, State.resend, State.port_setPort_self]
  have hdue : ((s.setPort p (s.port p).allDue).port p).replay = (s.port p).replay.map fun x => { x with due := true } := by
    rw [State.port_setPort_self, Port.allDue]
  obtain ⟨hstate, hreplay⟩ := pumpResend_resends (s.port p).allDue.replay.length (s.setPort p (s.port p).allDue) p
  rw [hdue, List.forall₂_map_left_iff] at hreplay
  refine ⟨hstate.trans (portState_setPort ..), hreplay, fun hc => ?_⟩
  have hlen : (s.port p).allDue.replay.length = rs.length + 1 := by simp [Port.allDue, h]
  rw [hlen]
  exact pumpResend_head (r := { r with due := true }) (by rw [hdue, h]; rfl) rfl (by rwa [State.port_setPort_self])

theorem execAckTimeout_next {s : State} {p : Nat} (old : Nat) (hb : s.boot = .ready) (hup : s.portUp p = true) :
    execAckTimeout p old s = .next (s.resendFrom p 0 old) := by rw [execAckTimeout, fabricEvent_ready _ hb, if_pos hup]

/-- The packets of a buffer that is sent again are the same, each with at most one retry more. -/
theorem resent_packets {l l' : List Replay} (h : List.Forall₂ (fun x y => mayResend { x with due := true } y) l l') :
    l'.map (fun x => (x.seq, x.pkt)) = l.map (fun x => (x.seq, x.pkt)) ∧
      ∀ k x y : Nat, (l[k]?).map (·.retries) = some x → (l'[k]?).map (·.retries) = some y → y = x ∨ y = x + 1 := by
  induction h with
  | nil => exact ⟨rfl, fun k x y hx => by cases hx⟩
  | @cons a b l l' hab _ ih =>
    have hkeeps : (b.seq, b.pkt) = (a.seq, a.pkt) ∧ (b.retries = a.retries ∨ b.retries = a.retries + 1) := by
      obtain rfl | ⟨-, rfl⟩ := hab
      · exact ⟨rfl, .inl rfl⟩
      · exact ⟨rfl, .inr rfl⟩
    obtain ⟨hpkts, hretries⟩ := ih
    refine ⟨by rw [List.map_cons, List.map_cons, hkeeps.1, hpkts], fun k x y hx hy => ?_⟩
    cases k with
    | zero =>
      obtain rfl : a.retries = x := by simpa using hx
      obtain rfl : b.retries = y := by simpa using hy
      exact hkeeps.2
    | succ k => exact hretries k x y (by simpa using hx) (by simpa using hy)

/-! ACKs (R333, R334). -/

/-- An ACK frees the packets it covers and credits return; with nothing due, nothing is sent again. -/
theorem execLinkStatus_ack {s : State} {p : Nat} (ack old : Nat) (ret : List Nat) (hb : s.boot = .ready) (hup : s.portUp p = true)
    (hd : ∀ r ∈ (s.port p).replay, r.due = false) : execLinkStatus p none ack ret old s = .next (s.modPort p fun t => { t with
      replay := t.replay.dropWhile fun r => seqAtOrBefore r.seq ack
      retSeen := ret.zipIdx.foldl (fun a x => mapSet 0 a x.2 (x.1 % 2 ^ 32)) t.retSeen }) := by
  rw [execLinkStatus, fabricEvent_ready _ hb, if_pos hup]
  extract_lets s1
  have hnone : (s1.port p).replay.find? (·.due) = none := List.find?_eq_none.2 fun r hr => by
    have hmem : r ∈ (s.port p).replay := List.dropWhile_subset _ (by simpa [s1] using hr)
    simp [hd r hmem]
  have hsame : s1.resend p = s1 := by
    rw [State.resend]
    cases (s1.port p).replay.length with
    | zero => rfl
    | succ n => rw [pumpResend_succ, hnone]
  exact congrArg _ hsame

/-- An ACK past its deadline raises FABRIC_DEADLINE, once for its packet (R334). -/
theorem execFabricDeadline_raises {s : State} {p seq delay : Nat} (hb : s.boot = .ready) (hm : seq ∈ (s.port p).ackDue) (hd : 1562 < delay) :
    ∃ u n, execFabricDeadline p seq delay s = .next u ∧ (u.port p).ackDue = (s.port p).ackDue.erase seq ∧
      u.faultQ = s.faultQ ++ [n] ∧ n.code = 0x0403 ∧ n.vals = [seq, delay] := by
  have hif : (s.port p).ackDue.contains seq = true ∧ ackDeadline < delay := ⟨List.contains_iff_mem.2 hm, hd⟩
  refine ⟨_, _, by rw [execFabricDeadline, fabricEvent_ready _ hb, if_pos hif], ?_, rfl, rfl, rfl⟩
  rw [port_raisePort, port_odAdd, State.port_modPort_self]

end Sys2Proof.Machine
end

section
/-! PROOF. Credit audits, and the statement of the link protocol (11 R354). -/

namespace Sys2Proof.Machine

open Sys2Proof Sys2Proof.Safety

/-- The audit of an idle port: its AUDIT goes out, and it holds its packets until the answer comes (R354). -/
theorem execAuditTimer_audits {s : State} {p : Nat} (hb : s.boot = .ready) (hup : s.portUp p = true) (hr : (s.port p).replay = [])
    (ha : (s.port p).auditing = false) : ∃ u m, execAuditTimer p s = .next u ∧ (u.port p).auditing = true ∧ u.out = s.out ++ [m] ∧
      m.kind = 12 ∧ m.addr = p ∧ ∀ v, u.canSend p v = false := by
  have hif : s.portUp p = true ∧ (s.port p).replay = [] ∧ ¬ (s.port p).auditing = true := ⟨hup, hr, by simp [ha]⟩
  have hheld : ∀ u : State, (u.port p).auditing = true → ∀ v, u.canSend p v = false := fun u hu v => by
    unfold State.canSend
    extract_lets t
    split
    · rfl
    · simp [t, hu]
  have hset : (((s.setPort p { s.port p with auditing := true }).odAdd 0 (0x4010 + p) 0xF 1).sendControl p [0x02]).port p =
      { s.port p with auditing := true } := s.port_setPort_self p _
  have haud := congrArg Port.auditing hset
  exact ⟨_, _, by rw [execAuditTimer, fabricEvent_ready _ hb, if_pos hif], haud, rfl, rfl, rfl, hheld _ haud⟩

theorem execAudit_answers {s : State} {p : Nat} (hb : s.boot = .ready) (hup : s.portUp p = true) :
    execAudit p s = .next (s.sendControl p (padTo 8 [0x03] ++ laneWords (occupied (s.port p)) ++
      laneWords fun v => mapGet 0 (s.port p).returned v)) := by rw [execAudit, fabricEvent_ready _ hb, if_pos hup]

/-- The values of CREDIT_LEAK on lane `v` (Table 11-6, R354). -/
def leakValues (t : Port) (occ ret : List Nat) (v : Nat) : List Nat :=
  [v, mapGet 0 t.pools v, available t v, (ret.getD v 0 + 2 ^ 32 - mapGet 0 t.retSeen v) % 2 ^ 32, occ.getD v 0]

/-- Lanes that fail the check are counted and raised, one after another. -/
def State.raiseLeaks (s : State) (p : Nat) (vals : Nat → List Nat) (vs : List Nat) : State :=
  vs.foldl (fun u v => (u.odAdd 0 (0x4010 + p) 0x10 1).raisePort 0x0401 p (vals v)) s

theorem raiseLeaks_frame (s : State) (p : Nat) (vals : Nat → List Nat) (vs : List Nat) :
    (s.raiseLeaks p vals vs).port p = s.port p ∧ (s.raiseLeaks p vals vs).dark p = s.dark p :=
  List.foldlRecOn (motive := fun u : State => u.port p = s.port p ∧ u.dark p = s.dark p) _ _ ⟨rfl, rfl⟩ fun _ hu _ _ => hu

theorem raiseLeaks_faults (s : State) (p : Nat) (vals : Nat → List Nat) (vs : List Nat) :
    (∀ n ∈ s.faultQ, n ∈ (s.raiseLeaks p vals vs).faultQ) ∧
      ∀ v ∈ vs, ∃ n ∈ (s.raiseLeaks p vals vs).faultQ, n.code = 0x0401 ∧ n.source = unitId 5 p ∧ n.vals = vals v := by
  induction vs generalizing s with
  | nil => exact ⟨fun _ => id, fun _ h => by cases h⟩
  | cons w vs ih =>
    obtain ⟨hold, hnew⟩ := ih ((s.odAdd 0 (0x4010 + p) 0x10 1).raisePort 0x0401 p (vals w))
    refine ⟨fun n hn => hold n (List.mem_append_left _ hn), fun v hv => ?_⟩
    rcases List.mem_cons.1 hv with rfl | hv
    · exact ⟨_, hold _ (List.mem_append_right _ (List.mem_singleton_self _)), rfl, rfl, rfl⟩
    · exact hnew v hv

/-- The lanes that the peer's answer does not balance (R354). -/
def badLanes (t : Port) (occ ret : List Nat) : List Nat := (List.range 4).filter fun v => !creditsOk t occ ret v

theorem execAuditAnswer_checks {s : State} {p : Nat} (old : Nat) (occ ret : List Nat) (hb : s.boot = .ready) (hup : s.portUp p = true)
    (ha : (s.port p).auditing = true) : execAuditAnswer p occ ret old s =
      let u := (s.setPort p { s.port p with auditing := false }).raiseLeaks p (leakValues (s.port p) occ ret) (badLanes (s.port p) occ ret)
      .next (if badLanes (s.port p) occ ret = [] then u else u.startTraining p old) := by
  have hif : s.portUp p = true ∧ (s.port p).auditing = true := ⟨hup, ha⟩
  rw [execAuditAnswer, fabricEvent_ready _ hb, if_pos hif]
  rfl

/-- An answer that balances every lane ends the audit (R354). -/
theorem execAuditAnswer_balanced {s : State} {p : Nat} (old : Nat) {occ ret : List Nat} (hb : s.boot = .ready) (hup : s.portUp p = true)
    (ha : (s.port p).auditing = true) (hok : ∀ v < 4, creditsOk (s.port p) occ ret v = true) :
    execAuditAnswer p occ ret old s = .next (s.modPort p fun t => { t with auditing := false }) := by
  have hnone : badLanes (s.port p) occ ret = [] := List.filter_eq_nil_iff.2 fun v hv => by simp [hok v (List.mem_range.1 hv)]
  rw [execAuditAnswer_checks old occ ret hb hup ha, hnone]
  rfl

/-- A lane that does not balance raises CREDIT_LEAK, and the port trains again (R354). -/
theorem execAuditAnswer_leak {s : State} {p v : Nat} {old : Nat} {occ ret : List Nat} (hb : s.boot = .ready) (hup : s.portUp p = true)
    (ha : (s.port p).auditing = true) (hv : v < 4) (hbad : creditsOk (s.port p) occ ret v = false) (hf : (s.port p).fenced = false)
    (hd : s.dark p = false) (hn : (s.port p).trains - old + 1 < 5) :
    ∃ u, execAuditAnswer p occ ret old s = .next u ∧ u.portState p = 1 ∧ ∃ n ∈ u.faultQ, n.code = 0x0401 ∧ n.source = unitId 5 p ∧
      n.vals = leakValues (s.port p) occ ret v := by
  have hmem : v ∈ badLanes (s.port p) occ ret := List.mem_filter.2 ⟨List.mem_range.2 hv, by simp [hbad]⟩
  have hnext := execAuditAnswer_checks old occ ret hb hup ha
  dsimp only at hnext
  rw [if_neg (List.ne_nil_of_mem hmem)] at hnext
  have hframe := raiseLeaks_frame (s.setPort p { s.port p with auditing := false }) p (leakValues (s.port p) occ ret)
    (badLanes (s.port p) occ ret)
  have hraised := (raiseLeaks_faults (s.setPort p { s.port p with auditing := false }) p (leakValues (s.port p) occ ret)
    (badLanes (s.port p) occ ret)).2 v hmem
  generalize State.raiseLeaks _ p (leakValues (s.port p) occ ret) (badLanes (s.port p) occ ret) = w at hnext hframe hraised
  rw [State.port_setPort_self] at hframe
  obtain ⟨hport, hdark⟩ := hframe
  have hbegun := startTraining_begun (s := w) (p := p) (old := old) (by rw [hport]; exact hf) (hdark.trans hd) (by rw [hport]; exact hn)
  exact ⟨_, hnext, hbegun.state, hbegun.faultQ ▸ hraised⟩

/-- Settles O24: what arrives by the three ways of a packet, retries by what sending again does to the replay buffer, audits by the
lanes that fail the check. -/
theorem linkProtocol : Obligations.LinkProtocol := by
  unfold Obligations.LinkProtocol
  refine ⟨⟨fun s p errs data ctl crc par ws hws hb hup hg hseq hl => ?_, fun s p errs data ctl crc par ws hws hb hup hg hseq => ?_,
      fun s p errs data ctl crc par ws hws hb hup hf hg hseq => execPacketArrival_refuses hws hb hup hf hg hseq⟩,
    ⟨fun s p ack old ret hb hup hd => execLinkStatus_ack ack old ret hb hup hd, fun s p old r rs hb hup h hr => ?_,
      fun s p old r rs hb hup h hr hf hd hn => ?_, fun s p seq delay hb hm hd => execFabricDeadline_raises hb hm hd⟩,
    fun s p hb hup hr ha => execAuditTimer_audits hb hup hr ha, fun s p hb hup => execAudit_answers hb hup,
    fun s p old occ ret hb hup ha hok => execAuditAnswer_balanced old hb hup ha hok,
    fun s p old v occ ret hb hup ha hv hbad hf hd hn => execAuditAnswer_leak hb hup ha hv hbad hf hd hn⟩
  · obtain ⟨u, hnext, hport, hcount, hcorrected⟩ := execPacketArrival_accepts hws hb hup hg hseq hl
    refine ⟨u, hnext, ?_, by rw [hport]; rfl, by rw [hport]; rfl, hcount, hcorrected⟩
    rw [hport]
    exact mapGet_mapSet_self ..
  · obtain ⟨u, hnext, hport⟩ := execPacketArrival_passesOver hws hb hup hg hseq
    refine ⟨u, hnext, by rw [hport]; rfl, by rw [hport]; rfl, ?_, by simp [hport]⟩
    rw [hport]
    exact mapGet_mapSet_self ..
  · obtain ⟨hstate, hreplay, holdest⟩ := resendFrom_resends old h hr
    obtain ⟨hpackets, hretries⟩ := resent_packets hreplay
    exact ⟨_, execAckTimeout_next old hb hup, hstate.trans (portUp_iff.1 hup), hpackets, hretries, holdest⟩
  · obtain ⟨hstate, -, ⟨n, hraised, hcode, -, hcause⟩, -⟩ := linkFail_failed 1 hf hd hn
    exact ⟨_, n, (execAckTimeout_next old hb hup).trans (by rw [resendFrom_exhausted old h hr]), hstate, hraised, hcode, hcause⟩

end Sys2Proof.Machine
end

section
/-! PROOF. The host link's states and resets (12 R358-R360, 15 R462). -/

namespace Sys2Proof.Machine

open Sys2Proof Sys2Proof.Safety

theorem setLink_cxl (s : State) (v rate width : Nat) : (s.setLink v rate width).cxl = { s.cxl with link := v } := rfl

/-- The objects a change of the link shows (Table 12-11 :01-:03). -/
theorem setLink_shows (s : State) (v rate width : Nat) :
    (s.setLink v rate width).odGet 0 0x1800 1 = v ∧ (s.setLink v rate width).odGet 0 0x1800 3 = width := by
  refine ⟨?_, State.odGet_odSet_self ..⟩
  rw [State.setLink, State.odGet_odSet_other _ _ (by decide), State.odGet_odSet_other _ _ (by decide), State.odGet_odSet_self]

/-- BISnpInv messages put on the link leave the port's registers, and of its objects all but their counter (Table 12-11 :06). -/
theorem foldl_emitBi_frame (s : State) (ls : List Nat) :
    (ls.foldl State.emitBi s).cxl = s.cxl ∧ ∀ sub, sub ≠ 6 → (ls.foldl State.emitBi s).odGet 0 0x1800 sub = s.odGet 0 0x1800 sub :=
  List.foldlRecOn (motive := fun u : State => u.cxl = s.cxl ∧ ∀ sub, sub ≠ 6 → u.odGet 0 0x1800 sub = s.odGet 0 0x1800 sub) _ _
    ⟨rfl, fun _ _ => rfl⟩ fun u ⟨hcxl, hod⟩ _ _ =>
      ⟨hcxl, fun sub h => (u.odGet_odAdd_other 1 (by unfold odKey; omega)).trans (hod sub h)⟩

/-- What waited for the link leaves on it: the link stays as it is, and so do its objects. -/
theorem flushBi_frame (s : State) :
    s.flushBi.cxl.link = s.cxl.link ∧ ∀ sub, sub ≠ 6 → s.flushBi.odGet 0 0x1800 sub = s.odGet 0 0x1800 sub := by
  unfold State.flushBi
  split
  · obtain ⟨hcxl, hod⟩ := foldl_emitBi_frame { s with cxl := { s.cxl with biUnsent := [] } } s.cxl.biUnsent
    exact ⟨by rw [hcxl], hod⟩
  · exact ⟨rfl, fun _ _ => rfl⟩

/-- Training completes in the mode the partner offers, and the link's objects show it (R358). -/
theorem execCxlLinkUp_trained {s : State} {rate width : Nat} (cxl : Bool) (hl : s.cxl.link = 1) (hr : rate = 16 ∨ rate = 32 ∨ rate = 64)
    (hw : width = 4 ∨ width = 8 ∨ width = 16) :
    ∃ u, execCxlLinkUp cxl rate width s = .next u ∧ u.cxl.link = (if cxl then 3 else 2) ∧
      u.odGet 0 0x1800 1 = (if cxl then 3 else 2) ∧ u.odGet 0 0x1800 3 = width := by
  obtain ⟨hlink, hod⟩ := flushBi_frame (s.setLink (if cxl then 3 else 2) rate width)
  obtain ⟨hstate, hwidth⟩ := setLink_shows s (if cxl then 3 else 2) rate width
  exact ⟨_, by rw [execCxlLinkUp, if_pos ⟨hl, hr, hw⟩], hlink, (hod 1 (by decide)).trans hstate, (hod 3 (by decide)).trans hwidth⟩

/-! Resets (R359, R462). -/

/-- What a reset of the host port island leaves: dome memory, the spars, the partitions' contexts and the fabric ports. -/
structure keepsBeyondHost (s u : State) : Prop where
  dome : u.dome = s.dome
  spars : u.spars = s.spars
  parts : u.parts = s.parts
  ports : u.ports = s.ports

theorem keepsBeyondHost.trans {s t u : State} (h : keepsBeyondHost s t) (h' : keepsBeyondHost t u) : keepsBeyondHost s u :=
  ⟨h'.dome.trans h.dome, h'.spars.trans h.spars, h'.parts.trans h.parts, h'.ports.trans h.ports⟩

theorem keepsBeyondHost_setLink (s : State) (v rate width : Nat) : keepsBeyondHost s (s.setLink v rate width) := ⟨rfl, rfl, rfl, rfl⟩

theorem keepsBeyondHost_resetHostPort (s : State) : keepsBeyondHost s s.resetHostPort := by
  have hring : keepsBeyondHost s s.dropRing := ⟨rfl, rfl, rfl, rfl⟩
  have hrequests : ∀ t : State, keepsBeyondHost t t.dropHostRequests := fun _ => ⟨rfl, rfl, rfl, rfl⟩
  have hfetches : ∀ t : State, keepsBeyondHost t t.failFetches := fun _ => ⟨rfl, rfl, rfl, rfl⟩
  have hregisters : ∀ (t : State) (c : Cxl), keepsBeyondHost t { t with cxl := c, biWaits := [] } := fun _ _ => ⟨rfl, rfl, rfl, rfl⟩
  have hide : ∀ t : State, keepsBeyondHost t t.showIde := fun _ => ⟨rfl, rfl, rfl, rfl⟩
  exact ((((hring.trans (hrequests _)).trans (hfetches _)).trans (hregisters _ _)).trans (keepsBeyondHost_setLink _ 0 0 0)).trans (hide _)

/-- The island's registers are at their reset values; PERST_N itself and the sessions of SPDM are not among them (R462). -/
theorem resetHostPort_cxl (s : State) : s.resetHostPort.cxl = { perst := s.cxl.perst, spdmPeers := s.cxl.spdmPeers } := rfl

theorem execPerstNAssert_resets (s : State) : ∃ u, execPerstNAssert s = .next u ∧
    u.cxl = { perst := true, spdmPeers := s.cxl.spdmPeers } ∧ keepsBeyondHost s u := by
  refine ⟨_, rfl, by rw [State.modCxl, resetHostPort_cxl], ?_⟩
  exact (keepsBeyondHost_resetHostPort s).trans ⟨rfl, rfl, rfl, rfl⟩

theorem execHotReset_resets {s : State} (h : s.cxl.link = 2 ∨ s.cxl.link = 3) : ∃ u, execHotReset s = .next u ∧
    u.cxl = { link := 1, perst := s.cxl.perst, spdmPeers := s.cxl.spdmPeers } ∧ keepsBeyondHost s u := by
  refine ⟨_, by rw [execHotReset, if_pos h], by rw [setLink_cxl, resetHostPort_cxl], ?_⟩
  exact (keepsBeyondHost_resetHostPort s).trans (keepsBeyondHost_setLink ..)

theorem execPerstNRelease_trains {s : State} (h : s.cxl.perst = true) :
    execPerstNRelease s = .next (({ s with cxl := { s.cxl with perst := false } } : State).setLink 1 0 0) := by
  rw [execPerstNRelease, if_pos h]

/-- A link lost unbidden (R360). -/
theorem execHostLink_raises {s : State} (h : s.cxl.link = 2 ∨ s.cxl.link = 3) :
    execHostLink s = .next (((s.dropHostRequests.setLink 1 0 0).odAdd 0 0x1800 0xE 1).raiseOpen 0x0503 (spireUnit 0) 0
      (islSpire 1) []) := by
  rw [execHostLink, if_pos h]

/-- A notice destination reads as what it was set to. -/
@[simp] theorem dest_setDest_self (s : State) (k : Nat) (d : Dest) : (s.setDest k d).dest k = d :=
  mapGet_mapSet_self ({} : Dest) s.dests k d

theorem execFunctionLevelReset_resets {s : State} (h : s.cxl.link = 2 ∨ s.cxl.link = 3) :
    execFunctionLevelReset s = .next ((s.modCxl Cxl.hostReset).setDest 0
      { s.dest 0 with queue := [], lossDue := (s.dest 0).lossDue || !(s.dest 0).queue.isEmpty }) := by
  rw [execFunctionLevelReset, if_pos h]

/-- Settles O26: each reset by the registers it sets, the training by the link it ends in, a lost link by the fault it raises. -/
theorem hostLink : Obligations.HostLink := by
  unfold Obligations.HostLink
  refine ⟨⟨fun s => ?_, fun s h => ⟨_, execPerstNRelease_trains h, rfl, rfl⟩, fun s w hl hw => ?_, fun s h => ?_,
      fun s h => ⟨_, _, execHostLink_raises h, rfl, rfl, rfl, rfl, rfl, rfl⟩⟩,
    fun s h => ⟨_, execFunctionLevelReset_resets h, rfl, rfl, rfl, rfl, rfl, rfl, rfl, rfl, rfl, rfl, rfl, rfl, rfl,
      congrArg Dest.queue (dest_setDest_self ..), rfl, rfl, rfl, rfl, rfl⟩⟩
  · obtain ⟨u, hu, hcxl, hkeep⟩ := execPerstNAssert_resets s
    exact ⟨u, hu, by rw [hcxl], by rw [hcxl], by rw [hcxl], by rw [hcxl], by rw [hcxl], by rw [hcxl], hkeep.dome, hkeep.spars,
      hkeep.parts, hkeep.ports⟩
  · obtain ⟨u, hu, hlink, hstate, hwidth⟩ := execCxlLinkUp_trained true hl (.inr (.inr rfl)) hw
    obtain ⟨v, hv, hpcie, -, -⟩ := execCxlLinkUp_trained false hl (.inr (.inl rfl)) hw
    exact ⟨u, v, hu, hlink, hstate, hwidth, hv, hpcie⟩
  · obtain ⟨u, hu, hcxl, hkeep⟩ := execHotReset_resets h
    exact ⟨u, hu, by rw [hcxl], by rw [hcxl], by rw [hcxl], hkeep.dome, hkeep.spars⟩

end Sys2Proof.Machine
end

section
/-! PROOF. Configuration space and BAR0's registers (12 R356, R358, R361, R362, Tables 12-4 to 12-7). -/

namespace Sys2Proof.Machine

open Sys2Proof Sys2Proof.Safety

/-! Little-endian words in parts (01 R11). -/

theorem leBytes_add (m n v : Nat) : leBytes (m + n) v = leBytes m v ++ leBytes n (v / 256 ^ m) := by
  induction m generalizing v with
  | zero => simp [leBytes]
  | succ m ih => rw [Nat.succ_add, leBytes, ih, leBytes, Nat.div_div_eq_div_mul, ← pow_succ', List.cons_append]

/-- Bytes spell no more of a number than fits in them. -/
theorem leBytes_mod (n v : Nat) : leBytes n (v % 256 ^ n) = leBytes n v := by
  induction n generalizing v with
  | zero => rfl
  | succ n ih =>
    have hlow : BitVec.ofNat 8 (v % 256 ^ (n + 1)) = BitVec.ofNat 8 v :=
      BitVec.eq_of_toNat_eq (by simp [Nat.mod_mod_of_dvd, pow_succ'])
    rw [leBytes, leBytes, hlow, pow_succ', Nat.mod_mul_right_div_self, ih]

/-- A field of a little-endian word. -/
theorem fieldAt_leBytes {o k n : Nat} (h : o + k ≤ n) (v : Nat) : fieldAt (leBytes n v) o k = v / 256 ^ o % 256 ^ k := by
  obtain ⟨m, rfl⟩ := Nat.exists_eq_add_of_le h
  have hfield : ((leBytes (o + k + m) v).drop o).take k = leBytes k (v / 256 ^ o) := by
    rw [Nat.add_assoc, leBytes_add, List.drop_left' (length_leBytes o v), leBytes_add, List.take_left' (length_leBytes k _)]
  rw [fieldAt, hfield, leNat_leBytes]

/-- A number written reads back as what its bytes hold of it. -/
theorem memRead_write_leBytes (m : List Host.Cell) (a n v : Nat) : memRead (memWrite m a (leBytes n v)) a n = leBytes n v := by
  simpa only [length_leBytes] using memRead_write m a (leBytes n v)

theorem memNat_write_leBytes (m : List Host.Cell) (a n v : Nat) : memNat (memWrite m a (leBytes n v)) a n = v % 256 ^ n := by
  rw [memNat, memRead_write_leBytes, leNat_leBytes]

/-! Configuration requests (R358, R361). -/

theorem execConfigRequest_retries {s : State} (id : Nat) (w : Bool) (a : Nat) (d : BitVec 32) (hl : s.cxl.link = 3)
    (hf : s.fwReady = false) : execConfigRequest id w a d s = .next (s.emit 4 id [] 2) := by
  simp [execConfigRequest, hl, hf, State.ioAnswer]

theorem execConfigRequest_ready {s : State} (id : Nat) (w : Bool) (a : Nat) (d : BitVec 32) (hl : s.cxl.link = 3)
    (hf : s.fwReady = true) : execConfigRequest id w a d s = .next (if w then (s.configWrite a d).ioAnswer id [] 0
      else s.ioAnswer id (leBytes 4 (s.configWord a).toNat) 0) := by
  simp [execConfigRequest, hl, hf]

/-- The identity and the class (R361). -/
theorem configWord_identity (s : State) : leBytes 4 (s.configWord 0).toNat = [0x1E, 0x2B, 0x51, 0x0A] ∧
    leBytes 4 (s.configWord 8).toNat = [0xA1, 0x00, 0x00, 0x12] := by
  rw [show s.configWord 0 = 0x0A512B1E from rfl, show s.configWord 8 = 0x120000A1 from rfl]
  decide

/-- Of BAR0 a write keeps the bits above 2 MiB (R362). -/
theorem configWrite_bar0 (s : State) (d : BitVec 32) : s.configWrite 0x10 d =
    s.modCxl fun c => { c with cfg := memWrite c.cfg 0x10 (leBytes 4 (d &&& 0xFFE00000).toNat) } := rfl

/-! Memory writes of BAR0: whether they reach a register (R356, R358, R362). -/

theorem barWrite_served {s : State} (off : Nat) (k : State → State) (h : s.barOk = true) : s.barWrite off k = k s := by
  rw [State.barWrite, if_pos h]

theorem barWrite_unsupported {s : State} (off : Nat) (k : State → State) (h : s.barOk = false) (hu : s.barUr = true) :
    s.barWrite off k = s.ioAnswer off [] 1 := by simp [State.barWrite, h, hu]

theorem accessFits_word (o : Nat) : accessFits o 4 = decide (o % 4 = 0) := by simp [accessFits]

theorem execRegisterWrite_word {s : State} {o : Nat} (v : BitVec 64) (hb : s.barOk = true) (ho : o % 4 = 0) :
    execRegisterWrite o 4 v s = .next (s.write32 o (v.extractLsb' 0 32)) := by
  rw [execRegisterWrite, accessFits_word, decide_eq_true ho, if_pos rfl, barWrite_served _ _ hb]
  rfl

theorem execRegisterWrite_unaligned {s : State} {o : Nat} (v : BitVec 64) (hb : s.barOk = true) (ho : o % 4 ≠ 0) :
    execRegisterWrite o 4 v s = .next (s.emit 4 o [] 1) := by
  simp [execRegisterWrite, accessFits_word, ho, hb, State.ioAnswer]

theorem execRegisterWrite_unsupported {s : State} (o : Nat) (v : BitVec 64) (hb : s.barOk = false) (hu : s.barUr = true) :
    execRegisterWrite o 4 v s = .next (s.emit 4 o [] 1) := by
  rw [execRegisterWrite, barWrite_unsupported _ _ hb hu, hb, hu]
  exact congrArg _ (ite_self _)

/-! Registers written (Table 12-4). -/

theorem write32_mbxLen {s : State} (v : BitVec 32) (hm : s.mailboxBusy = false) :
    s.write32 0x30008 v = { s with cxl := { s.cxl with mbxLen := v } } := by
  simp [State.write32, hm, State.modCxl]

theorem write32_request {s : State} {o : Nat} (v : BitVec 32) (hm : s.mailboxBusy = false) (hlo : 0x31000 ≤ o) (hhi : o < 0x32000) :
    s.write32 o v =
      { s with cxl := { s.cxl with mbxReqBuf := memWrite s.cxl.mbxReqBuf (o - 0x31000) (leBytes 4 v.toNat) } } := by
  rw [State.write32, if_neg (by omega), if_neg (by omega), if_neg (by omega), if_neg (by omega), if_pos ⟨hlo, hhi⟩, hm]
  rfl

/-- The ring's base, a half at a time, while the ring is not enabled (R374). -/
theorem write32_ringBase {s : State} (high : Bool) (v : BitVec 32) (hr : s.cxl.ringEnable = false) :
    s.write32 (if high then 0x34004 else 0x34000) v =
      { s with cxl := { s.cxl with ringBase := setHalf s.cxl.ringBase high v } } := by
  cases high <;> simp [State.write32, hr, State.modCxl]

theorem write32_ringBase_enabled {s : State} (high : Bool) (v : BitVec 32) (hr : s.cxl.ringEnable = true) :
    s.write32 (if high then 0x34004 else 0x34000) v = s := by
  cases high <;> simp [State.write32, hr]

theorem setHalf_halves (w v : BitVec 64) : setHalf (setHalf w false (v.extractLsb' 0 32)) true (v.extractLsb' 32 32) = v := by
  have happend : ∀ (x y : BitVec 32) (i : Nat), BitVec.getLsbD (w := 64) (x ++ y) i =
      if i < 32 then y.getLsbD i else x.getLsbD (i - 32) := fun _ _ _ => BitVec.getLsbD_append
  refine BitVec.eq_of_getLsbD_eq fun i hi => ?_
  by_cases h : i < 32
  · simp [setHalf, happend, h]
  · have hhigh : i - 32 < 32 := by omega
    simp [setHalf, happend, h, hhigh, Nat.add_sub_cancel' (Nat.le_of_not_lt h)]

theorem execRegisterWrite_ringBase {s : State} (v : BitVec 64) (hb : s.barOk = true) (hr : s.cxl.ringEnable = false) :
    execRegisterWrite 0x34000 8 v s = .next { s with cxl := { s.cxl with ringBase := v } } := by
  have hlow : s.write32 0x34000 (v.extractLsb' 0 32) = _ := write32_ringBase false _ hr
  have hhigh : ∀ w, ({ s with cxl := { s.cxl with ringBase := w } } : State).write32 0x34004 (v.extractLsb' 32 32) = _ := fun w =>
    write32_ringBase true _ hr
  rw [execRegisterWrite, if_pos (by decide), barWrite_served _ _ hb, State.writeRegister, if_pos rfl, hlow, hhigh, setHalf_halves]

theorem execRegisterWrite_ringBase_enabled {s : State} (v : BitVec 64) (hb : s.barOk = true) (hr : s.cxl.ringEnable = true) :
    execRegisterWrite 0x34000 8 v s = .next s := by
  have hlow : s.write32 0x34000 (v.extractLsb' 0 32) = s := write32_ringBase_enabled false _ hr
  rw [execRegisterWrite, if_pos (by decide), barWrite_served _ _ hb, State.writeRegister, if_pos rfl, hlow]
  exact congrArg _ (write32_ringBase_enabled true _ hr)

/-! Registers read (R12, R362). -/

theorem readRegister_word {s : State} {o : Nat} (hb : s.barOk = true) (ho : o % 4 = 0) : s.readRegister o 4 = some (s.read32 o) := by
  simp [State.readRegister, accessFits_word, hb, ho]

theorem readRegister_none {s : State} {o n : Nat} (h : s.barOk = false ∨ (n ≠ 4 ∧ n ≠ 8) ∨ o % 4 ≠ 0) :
    s.readRegister o n = none := by
  have hfits : s.barOk = false ∨ accessFits o n = false := by
    rcases h with hb | ⟨h4, h8⟩ | ho
    · exact .inl hb
    · simp [accessFits, h4, h8]
    · have ho8 : o % 8 ≠ 0 := by omega
      simp [accessFits, ho, ho8]
  rw [State.readRegister, if_pos (by simpa using hfits)]

theorem read32_request (s : State) {o : Nat} (hlo : 0x31000 ≤ o) (hhi : o < 0x32000) :
    s.read32 o = memRead s.cxl.mbxReqBuf (o - 0x31000) 4 := by
  unfold State.read32
  dsimp only
  rw [if_neg (by omega), if_neg (by omega), if_pos ⟨hlo, hhi⟩]

/-- Above the last register of Table 12-4 all reads zero (R362). -/
theorem read32_unlisted (s : State) {o : Nat} (h : 0x35000 ≤ o) : s.read32 o = [0, 0, 0, 0] := by
  unfold State.read32
  dsimp only
  rw [if_neg (by omega), if_neg (by omega), if_neg (by omega), if_neg (by omega)]
  split
  case h_15 => rfl
  all_goals omega

/-- MBX_CTRL as read: SEQ above IRQ, and zero beside them (Table 12-5, R12). -/
theorem fieldAt_mbxCtrl (c : Cxl) : fieldAt (leBytes 4 c.mbxCtrl) 0 1 % 2 = 0 ∧ fieldAt (leBytes 4 c.mbxCtrl) 0 2 / 4 = 0 ∧
    fieldAt (leBytes 4 c.mbxCtrl) 2 2 = c.mbxSeqCtl.toNat := by
  have hseq := c.mbxSeqCtl.isLt
  have hirq : (if c.mbxIrq then 2 else 0) = 0 ∨ (if c.mbxIrq then 2 else 0) = 2 := by cases c.mbxIrq <;> simp
  rw [fieldAt_leBytes (by decide), fieldAt_leBytes (by decide), fieldAt_leBytes (by decide), Cxl.mbxCtrl]
  omega

/-- MBX_STATUS as read: STATE, IGNORED and SEQ (Table 12-6). -/
theorem fieldAt_mbxStatus {c : Cxl} (h : c.mbxState < 8) : fieldAt (leBytes 4 c.mbxStatus) 0 1 = c.mbxState ∧
    fieldAt (leBytes 4 c.mbxStatus) 1 1 = c.mbxIgnored % 256 ∧ fieldAt (leBytes 4 c.mbxStatus) 2 2 = c.mbxSeq.toNat := by
  have hseq := c.mbxSeq.isLt
  rw [fieldAt_leBytes (by decide), fieldAt_leBytes (by decide), fieldAt_leBytes (by decide), Cxl.mbxStatus]
  omega

theorem readRegister_ringBase {s : State} (hb : s.barOk = true) : s.readRegister 0x34000 8 = some (leBytes 8 s.cxl.ringBase.toNat) := by
  have hhalves : s.read32 0x34000 ++ s.read32 0x34004 = leBytes 8 s.cxl.ringBase.toNat := by
    rw [leBytes_add 4 4, ← leBytes_mod 4 s.cxl.ringBase.toNat]
    rfl
  simp [State.readRegister, hb, accessFits, hhalves]

/-- Settles O27: configuration requests before and after the firmware is ready, then each register by what a write sets and a read
returns. -/
theorem hostRegisters : Obligations.HostRegisters := by
  unfold Obligations.HostRegisters
  have hword : ∀ v : BitVec 64, (v.extractLsb' 0 32).toNat = v.toNat % 2 ^ 32 := fun v => by simp
  refine ⟨⟨fun s id w a d hl hf => execConfigRequest_retries id w a d hl hf,
      fun s id d hl hf => ?_,
      fun s id d hl hf => ⟨_, execConfigRequest_ready id true 0x10 d hl hf, ?_⟩⟩,
    ⟨fun s v hb hm => ?_, fun s o v hb hm hlo hhi ho => ?_, fun s v hb hr => execRegisterWrite_ringBase v hb hr,
      fun s v hb hr => execRegisterWrite_ringBase_enabled v hb hr, fun s o v hb ho => execRegisterWrite_unaligned v hb ho,
      fun s o v hb hu => execRegisterWrite_unsupported o v hb hu⟩,
    fun s v hb hm => ?_, fun s o v hb hm hlo hhi ho => ?_,
    fun s v hb hr => ⟨_, execRegisterWrite_ringBase v hb hr, readRegister_ringBase hb⟩,
    fun s hb => ⟨_, readRegister_word hb rfl, fieldAt_mbxCtrl s.cxl⟩,
    fun s hb hst => ⟨_, readRegister_word hb rfl, fieldAt_mbxStatus hst⟩,
    fun s hb => readRegister_word hb rfl,
    fun s o hb hlo ho => by rw [readRegister_word hb ho, read32_unlisted s hlo],
    fun s o n h => readRegister_none h⟩
  · obtain ⟨hid, hclass⟩ := configWord_identity s
    have hread := fun a => execConfigRequest_ready id false a d hl hf
    simp only [Bool.false_eq_true, if_false] at hread
    exact ⟨(hread 0).trans (by rw [hid]; rfl), (hread 8).trans (by rw [hclass]; rfl)⟩
  · rw [if_pos rfl, configWrite_bar0]
    exact (memNat_write_leBytes ..).trans (Nat.mod_eq_of_lt (BitVec.isLt _))
  · exact (execRegisterWrite_word v hb rfl).trans (by rw [write32_mbxLen _ hm])
  · have hset := write32_request (v.extractLsb' 0 32) hm hlo hhi
    refine ⟨_, (execRegisterWrite_word v hb ho).trans (by rw [hset]), ?_, fun a ha => ?_⟩
    · rw [memNat_write_leBytes, hword]
      omega
    · exact memByte_write_out _ _ _ (by rwa [length_leBytes])
  · refine ⟨_, (execRegisterWrite_word v hb rfl).trans (by rw [write32_mbxLen _ hm]), ?_⟩
    exact Eq.trans (readRegister_word hb rfl) (congrArg (fun n => some (leBytes 4 n)) (hword v))
  · refine ⟨_, (execRegisterWrite_word v hb ho).trans (by rw [write32_request _ hm hlo hhi]), ?_⟩
    refine Eq.trans (readRegister_word hb ho) ?_
    rw [read32_request _ hlo hhi, memRead_write_leBytes, hword]

end Sys2Proof.Machine
end

section
/-! PROOF. A host write to a line that a dome's last address begins (12 R363-R365): it need not wait at that dome. -/

namespace Sys2Proof.Machine

open Sys2Proof Sys2Proof.Safety

/-- A host write inside the committed decoder joins the queue of the dome that holds its own first byte (R363-R365). -/
theorem execCxlMemWrite_queued {s : State} {hpa a : Nat} (id : Nat) (d : Bytes) (p : Bool) (hm : s.memOk = true) (hb : s.boot = .ready)
    (ha : s.hpaTo (hpa / 64 * 64) = some a) (hd : domeOf a ∉ s.domeOff) : execCxlMemWrite id hpa d p s =
      .next (s.queueHost { what := .write, req := 4, addr := a + hpa % 64, id := id, data := d.take (64 - hpa % 64), poison := p }) := by
  simp [execCxlMemWrite, hm, hb, ha, hd]

/-- The queues of the other domes stay. -/
theorem queueHost_other (s : State) {x : DomeAcc} {d : Nat} (h : domeOf x.addr ≠ d) :
    mapGet [] (s.queueHost x).domeQ d = mapGet [] s.domeQ d := mapGet_mapSet_ne _ _ _ _ h

/-- The committed decoder begins at host address 1, and the window's only segment, the 1 GiB from 127 GiB on in dome 0, ends where the
addresses of dome 1 begin: the line at host address 2^30 begins with the last address of dome 0. A segment's fields allow this
(Table 10-7), and R363 asks no alignment of the base; a write of the segment's object refuses a segment past 96 GiB (R315), but the
statement speaks of every state. -/
def straddlingWindow : State := { State.reset with
  boot := .ready
  cxl := { link := 3, hdmCommitted := true, hdmBase := 1, hdmSize := 2 ^ 30 }
  od := [(0x310001, 0x87F02000)] }

theorem straddlingWindow_hpaTo : straddlingWindow.hpaTo ((2 ^ 30 + 1) / 64 * 64) = some (2 ^ 37 - 1) := by decide +kernel

/-- Refutes O28: a write to a line inside the decoder need not wait at the dome that holds the line's first byte. In `straddlingWindow`
the byte at host address 2^30 + 1 lies at device address 2^37, in dome 1, while its line begins in dome 0, whose queue stays
empty. -/
theorem not_hostMemory : ¬ Obligations.HostMemory := by
  unfold Obligations.HostMemory
  rintro ⟨⟨-, -, -, hwrite, -⟩, -⟩
  have hlive : straddlingWindow.memOk = true ∧ straddlingWindow.boot = .ready := by decide +kernel
  have hdome : domeOf (2 ^ 37 - 1) ∉ straddlingWindow.domeOff := by decide +kernel
  obtain ⟨u, x, hnext, hqueue, -⟩ :=
    hwrite straddlingWindow 0 (2 ^ 30 + 1) [1] false _ hlive.1 hlive.2 straddlingWindow_hpaTo hdome
  have hqueued := execCxlMemWrite_queued 0 [1] false hlive.1 hlive.2 straddlingWindow_hpaTo hdome
  obtain rfl := Host.Outcome.next.inj (hqueued.symm.trans hnext)
  rw [queueHost_other _ (by decide)] at hqueue
  exact List.ne_nil_of_length_eq_add_one (List.length_append ..) hqueue.symm

end Sys2Proof.Machine
end

section
/-! PROOF. The command mailbox (12 R370-R372) and the notice ring with MSI-X (12 R374-R377). -/

namespace Sys2Proof.Machine

open Sys2Proof Sys2Proof.Safety

/-! The doorbell (R370, R371). -/

theorem execDoorbell_served {s : State} (seq : BitVec 16) (irq : Bool) (hb : s.barOk = true) :
    execDoorbell seq irq s = .next (s.ringDoorbell seq irq) := congrArg Host.Outcome.next (barWrite_served _ _ hb)

theorem ringDoorbell_copies {s : State} {b : Bytes} (seq : BitVec 16) (irq : Bool) (hm : s.mailboxBusy = false)
    (hc : s.mailboxCopy = some b) : s.ringDoorbell seq irq = { s with cxl := { s.cxl with
      mbxSeqCtl := seq, mbxIrq := irq, mbxSeq := seq, mbxIgnored := 0, mbxState := 1, mbxJob := some b, mbxAns := none,
      mbxLate := false } } := by
  simp [State.ringDoorbell, hm, hc, State.modCxl]

theorem ringDoorbell_busy {s : State} (seq : BitVec 16) (irq : Bool) (hm : s.mailboxBusy = true) : s.ringDoorbell seq irq =
    { s with cxl := { s.cxl with mbxIrq := irq, mbxIgnored := min 255 (s.cxl.mbxIgnored + 1) } } := by
  simp [State.ringDoorbell, hm, State.modCxl]

theorem mailboxCopy_none {s : State} (h : s.cxl.mbxLen.toNat < 1 ∨ 4096 < s.cxl.mbxLen.toNat) : s.mailboxCopy = none :=
  if_neg (by omega)

theorem mailboxHolds_mailboxDone (s : State) (b : Bytes) : mailboxHolds (s.mailboxDone b) b := .inl ⟨rfl, rfl, memRead_write ..⟩

/-- A length out of range is answered at the doorbell (log 39). -/
theorem ringDoorbell_malformed {s : State} (seq : BitVec 16) (irq : Bool) (ha : s.answers? = true) (hm : s.mailboxBusy = false)
    (hl : s.cxl.mbxLen.toNat < 1 ∨ 4096 < s.cxl.mbxLen.toNat) :
    (s.ringDoorbell seq irq).cxl.mbxSeq = seq ∧ mailboxHolds (s.ringDoorbell seq irq) (malformedBytes []) := by
  have hring : s.ringDoorbell seq irq = State.mailboxDone (s.modCxl fun c => { c with
      mbxSeqCtl := seq, mbxIrq := irq, mbxSeq := seq, mbxIgnored := 0, mbxState := 1, mbxJob := some [], mbxAns := none,
      mbxLate := false }) (malformedBytes []) := by
    simp [State.ringDoorbell, hm, mailboxCopy_none hl, ha]
  rw [hring]
  exact ⟨rfl, mailboxHolds_mailboxDone ..⟩

/-! The answer to come, and a late acknowledgement (R370, R372). -/

theorem execMailboxAnswerReady_answers {s : State} {b : Bytes} (ha : s.answers? = true) (hst : s.cxl.mbxState = 2)
    (hb : s.cxl.mbxAns = some b) : execMailboxAnswerReady s =
      .next (if s.cxl.mbxIrq then (s.mailboxDone b).msix 0 else s.mailboxDone b) := by
  simp [execMailboxAnswerReady, State.mailboxReady, ha, hst, hb]

theorem execMailboxAckTimeout_raises {s : State} {delay : Nat} (ha : s.answers? = true) (hst : s.cxl.mbxState = 1)
    (hl : s.cxl.mbxLate = false) (hd : 1000 < delay) : execMailboxAckTimeout delay s =
      .next ((s.modCxl fun c => { c with mbxLate := true }).hostDeadline (spireUnit 1) 4 (islSpire 0) delay) := by
  simp [execMailboxAckTimeout, ha, hst, hl, hd]

theorem execMailboxAckTimeout_once {s : State} (delay : Nat) (hl : s.cxl.mbxLate = true) : execMailboxAckTimeout delay s = .next s := by
  simp [execMailboxAckTimeout, hl]

/-! The ring (R374, R376). -/

theorem execRingEnable_served {s : State} (l : Nat) (m : Bool) (hb : s.barOk = true) :
    execRingEnable l m s = .next (s.enableRing l m) := congrArg Host.Outcome.next (barWrite_served _ _ hb)

theorem execRingDisable_served {s : State} (l : Nat) (m : Bool) (hb : s.barOk = true) :
    execRingDisable l m s = .next (s.disableRing l m) := congrArg Host.Outcome.next (barWrite_served _ _ hb)

theorem execRingConsWrite_served {s : State} (v : BitVec 32) (hb : s.barOk = true) :
    execRingConsWrite v s = .next (s.writeCons v) := congrArg Host.Outcome.next (barWrite_served _ _ hb)

theorem enableRing_starts {s : State} {l : Nat} (m : Bool) (hr : s.cxl.ringEnable = false) (hl : 6 ≤ l ∧ l ≤ 16) :
    s.enableRing l m = (s.modCxl fun c => { c with
      ringEnable := true, ringLog2 := l, ringMirror := m, ringProd := 0, ringCons := 0, ringLossRun := false }).setDest 0
        { s.dest 0 with seq := 0 } := by
  simp [State.enableRing, hr, ringLog, hl]

theorem disableRing_drops {s : State} (l : Nat) (m : Bool) (hr : s.cxl.ringEnable = true) :
    s.disableRing l m = (s.modCxl fun c => { c with ringEnable := false }).dropRing := by rw [State.disableRing, if_pos hr]

/-- The records queued for the ring are gone and counted (R374, R410). -/
theorem dropRing_counts (s : State) : (s.dropRing.dest 0).queue = [] ∧
    s.dropRing.odGet 0 0x1800 0xA = (s.odGet 0 0x1800 0xA + (s.dest 0).queue.length) % 2 ^ 64 :=
  ⟨congrArg Dest.queue (dest_setDest_self ..), State.odGet_odAdd_self ..⟩

theorem writeCons_accepts {s : State} {v : BitVec 32} (h : (v - s.cxl.ringCons).toNat ≤ (s.cxl.ringProd - s.cxl.ringCons).toNat) :
    s.writeCons v = { s with cxl := { s.cxl with ringCons := v } } := if_pos h

theorem writeCons_discards {s : State} {v : BitVec 32} (h : (s.cxl.ringProd - s.cxl.ringCons).toNat < (v - s.cxl.ringCons).toNat) :
    s.writeCons v = s.odAdd 0 0x1800 0xB 1 := if_neg (Nat.not_le_of_lt h)

/-! MSI-X (R377). -/

/-- A vector's own mask bit cleared. -/
def State.clearMask (s : State) (v : Nat) : State :=
  s.modCxl fun c => { c with msixTable := mapSet 1 c.msixTable (16 * v + 12) ((mapGet 1 c.msixTable (16 * v + 12)) &&& 0xFE) }

theorem execMsixUnmask_flushes {s : State} {v : Nat} (hb : s.barOk = true) (hv : v < 64) :
    execMsixUnmask v s = .next (s.clearMask v).msixFlush := by
  rw [execMsixUnmask, barWrite_served _ _ hb, if_pos hv]
  rfl

theorem msixMasked_clearMask_self (s : State) (v : Nat) : (s.clearMask v).msixMasked v = false := by
  have hctl : (16 * v + 12) % 16 = 12 := by omega
  simp [State.msixMasked, State.msixByte, hctl, State.clearMask, State.modCxl]

theorem msixMasked_clearMask_other (s : State) {v w : Nat} (h : w ≠ v) : (s.clearMask v).msixMasked w = s.msixMasked w :=
  congrArg (BitVec.getLsbD · 0) (mapGet_mapSet_ne _ _ _ _ (by omega))

/-- What is kept of a range where one number alone may pass. -/
theorem filter_range_of_unique {p : Nat → Bool} {n v : Nat} (hv : v < n) (h : ∀ w < n, w ≠ v → p w = false) :
    (List.range n).filter p = if p v then [v] else [] := by
  have hone : (List.range n).filter (· == v) = [v] := by
    rw [List.filter_beq, List.count_eq_one_of_mem List.nodup_range (List.mem_range.2 hv), List.replicate_one]
  have hp : (List.range n).filter p = (List.range n).filter fun w => p v && w == v :=
    List.filter_congr fun w hw => by
      by_cases hwv : w = v
      · simp [hwv]
      · simp [hwv, h w (List.mem_range.1 hw) hwv]
  rw [hp]
  cases p v <;> simp [hone]

theorem toHost_queued (s : State) (r : Nat) (m : OutMsg) :
    mapGet [] (s.toHost r m).cxl.hostOut r = mapGet [] s.cxl.hostOut r ++ [m] := mapGet_mapSet_self ..

/-- Vector `v` no longer pending. -/
def State.clearPending (s : State) (v : Nat) : State :=
  { s with cxl := { s.cxl with msixPba := s.cxl.msixPba &&& ~~~(BitVec.ofNat 64 (2 ^ v)) } }

theorem msixPba_clearPending {v : Nat} (s : State) (hv : v < 64) : (s.clearPending v).cxl.msixPba.getLsbD v = false := by
  have hbit : (BitVec.ofNat 64 (2 ^ v)).getLsbD v = true := by simp [-BitVec.ofNat_pow, BitVec.getLsbD_ofNat, hv]
  rw [State.clearPending, BitVec.getLsbD_and, BitVec.getLsbD_not, hbit, Bool.not_true, Bool.and_false, Bool.and_false]

/-- A message that leaves changes no mask. -/
theorem msixMasked_sent (s : State) (v r w : Nat) (m : OutMsg) : ((s.clearPending v).toHost r m).msixMasked w = s.msixMasked w := rfl

/-- Where the other pending vectors are masked, the flush is of the one vector: its message if it is pending and not held. -/
theorem msixFlush_one {s : State} {v : Nat} (hv : v < 64)
    (h : ∀ w < 64, w ≠ v → s.cxl.msixPba.getLsbD w = true → s.msixMasked w = true) :
    s.msixFlush = if s.cxl.msixPba.getLsbD v = true ∧ s.msixHeld v = false then (s.clearPending v).toHost 2 (s.msixMsg v) else s := by
  have hothers : ∀ w < 64, w ≠ v → (s.cxl.msixPba.getLsbD w && !s.msixHeld w) = false := fun w hw hwv => by
    cases hp : s.cxl.msixPba.getLsbD w
    · rfl
    · simp [State.msixHeld, h w hw hwv hp]
  rw [State.msixFlush, filter_range_of_unique hv hothers]
  by_cases hsend : s.cxl.msixPba.getLsbD v = true ∧ s.msixHeld v = false
  · obtain ⟨hp, hheld⟩ := hsend
    have hsent : (s.clearPending v).msix v = (s.clearPending v).toHost 2 (s.msixMsg v) := if_neg (Bool.eq_false_iff.1 hheld)
    simp only [hp, hheld, Bool.not_false, Bool.and_self, if_true, and_self]
    exact hsent
  · have hnone : (s.cxl.msixPba.getLsbD v && !s.msixHeld v) = false := by simpa using hsend
    rw [if_neg hsend, hnone]
    rfl

theorem msixHeld_of_unmasked {s : State} {v : Nat} (h : s.msixMasked v = false) : s.msixHeld v = (!s.cxl.msixOn || s.cxl.msixMask) := by
  rw [State.msixHeld, h, Bool.or_false]

/-- A vector unmasked while no other may send (R377): its pending message leaves where MSI-X is on and not masked, and else stays. -/
theorem execMsixUnmask_one {s : State} {v : Nat} (hb : s.barOk = true) (hv : v < 64)
    (h : ∀ w < 64, w ≠ v → s.cxl.msixPba.getLsbD w = true → s.msixMasked w = true) :
    execMsixUnmask v s = .next (if s.cxl.msixPba.getLsbD v = true ∧ (!s.cxl.msixOn || s.cxl.msixMask) = false then
      ((s.clearMask v).clearPending v).toHost 2 ((s.clearMask v).msixMsg v) else s.clearMask v) := by
  have hothers : ∀ w < 64, w ≠ v → (s.clearMask v).cxl.msixPba.getLsbD w = true → (s.clearMask v).msixMasked w = true :=
    fun w hw hwv hp => (msixMasked_clearMask_other s hwv).trans (h w hw hwv hp)
  rw [execMsixUnmask_flushes hb hv, msixFlush_one hv hothers, msixHeld_of_unmasked (msixMasked_clearMask_self s v)]
  rfl

/-- Settles O29: the doorbell in its three cases, the answer and the missed deadline, the ring's control and its consumer index, and
the flush of the one vector unmasked. -/
theorem mailboxAndRing : Obligations.MailboxAndRing := by
  unfold Obligations.MailboxAndRing
  refine ⟨⟨fun s seq irq b hb hm hc => ?_, fun s seq irq hb hm => ?_,
      fun s seq irq hb ha hm hl => ⟨_, execDoorbell_served seq irq hb, ringDoorbell_malformed seq irq ha hm hl⟩,
      fun s b t ha hst hans ht => ?_,
      fun s delay ha hst hl hd => ⟨_, _, execMailboxAckTimeout_raises ha hst hl hd, rfl, rfl, rfl, rfl, rfl⟩,
      fun s delay hl => execMailboxAckTimeout_once delay hl⟩,
    fun s l m hb hr hlo hhi => ?_, fun s l m hb hr => ?_, fun s v hb h => ?_, fun s v hb h => ?_, fun s v hb hv h => ?_⟩
  · exact (execDoorbell_served seq irq hb).trans (by rw [ringDoorbell_copies seq irq hm hc])
  · exact (execDoorbell_served seq irq hb).trans (by rw [ringDoorbell_busy seq irq hm])
  · subst ht
    exact execMailboxAnswerReady_answers ha hst hans
  · exact ⟨_, (execRingEnable_served l m hb).trans (by rw [enableRing_starts m hr ⟨hlo, hhi⟩]), rfl, rfl, rfl, rfl,
      congrArg Dest.seq (dest_setDest_self ..)⟩
  · have hnext := execRingDisable_served l m hb
    rw [disableRing_drops l m hr] at hnext
    exact ⟨_, hnext, rfl, dropRing_counts _⟩
  · exact (execRingConsWrite_served v hb).trans (by rw [writeCons_accepts h])
  · exact (execRingConsWrite_served v hb).trans (by rw [writeCons_discards h])
  · have hmask := msixMasked_clearMask_self s v
    have hnext := execMsixUnmask_one hb hv h
    by_cases hsend : s.cxl.msixPba.getLsbD v = true ∧ (!s.cxl.msixOn || s.cxl.msixMask) = false
    · rw [if_pos hsend] at hnext
      obtain ⟨hp, hfree⟩ := hsend
      obtain ⟨hon, hfunc⟩ : s.cxl.msixOn = true ∧ s.cxl.msixMask = false := by simpa using hfree
      exact ⟨_, hnext, (msixMasked_sent ..).trans hmask, fun _ => ⟨msixPba_clearPending _ hv, _, toHost_queued .., rfl, rfl⟩,
        fun hnot => by simp [hp, hon, hfunc] at hnot⟩
    · rw [if_neg hsend] at hnext
      exact ⟨_, hnext, hmask, fun ⟨hon, hfunc, hp⟩ => absurd ⟨hp, by rw [hon, hfunc]; rfl⟩ hsend, fun _ => ⟨rfl, rfl⟩⟩

end Sys2Proof.Machine
end

section
/-! PROOF. The bytes of a dictionary request (13 R390, Table 13-5). -/

namespace Sys2Proof.Machine

open Sys2Proof Sys2Proof.Safety

/-- A field behind the little-endian bytes of a number is a field of what follows them. -/
theorem fieldAt_leBytes_skip {n v o : Nat} (y : Bytes) (k : Nat) (h : n ≤ o) :
    fieldAt (leBytes n v ++ y) o k = fieldAt y (o - n) k := by
  rw [fieldAt, fieldAt, List.drop_append, length_leBytes, List.drop_of_length_le (by rw [length_leBytes]; exact h), List.nil_append]

/-- The field that little-endian bytes begin with. -/
theorem fieldAt_leBytes_head {n v : Nat} (y : Bytes) (h : v < 256 ^ n) : fieldAt (leBytes n v ++ y) 0 n = v := by
  rw [fieldAt, List.drop_zero, List.take_left' (length_leBytes n v), leNat_leBytes, Nat.mod_eq_of_lt h]

@[simp] theorem MOp.ofCode_code (op : MOp) : MOp.ofCode op.code = some op := by cases op <;> rfl

theorem MOp.code_lt (op : MOp) : op.code < 256 := by cases op <;> decide

/-- A request is its header's 16 bytes and its data. -/
theorem merecBytes_eq (op : MOp) (m : Merec) : ∃ h : Bytes, h.length = 16 ∧ merecBytes op m = h ++ m.data :=
  ⟨_, by simp [length_leBytes], rfl⟩

/-- The fields of a request's bytes are the request's own (Table 13-5). -/
theorem fieldAt_merecBytes (op : MOp) {m : Merec} (h : merecFits m) :
    fieldAt (merecBytes op m) 0 1 = op.code ∧ fieldAt (merecBytes op m) 1 1 = (if m.last then 1 else 0) ∧
    fieldAt (merecBytes op m) 2 2 = m.token ∧ fieldAt (merecBytes op m) 4 2 = m.index ∧ fieldAt (merecBytes op m) 6 1 = m.sub ∧
    fieldAt (merecBytes op m) 7 1 = m.qsel ∧ fieldAt (merecBytes op m) 8 4 = m.offset ∧ fieldAt (merecBytes op m) 12 4 = m.length := by
  obtain ⟨htoken, hindex, hsub, hqsel, hoffset, hlength⟩ :
    m.token < 65536 ∧ m.index < 65536 ∧ m.sub < 256 ∧ m.qsel < 256 ∧ m.offset < 4294967296 ∧ m.length < 4294967296 := h
  have hlast : (if m.last then 1 else 0) < 256 := by split <;> decide
  simp only [merecBytes, List.append_assoc]
  refine ⟨?_, ?_, ?_, ?_, ?_, ?_, ?_, ?_⟩ <;>
    simp [fieldAt_leBytes_skip, fieldAt_leBytes_head, MOp.code_lt, hlast, htoken, hindex, hsub, hqsel, hoffset, hlength]

/-- Settles O30: every field of the header reads back at its place, the operation by its code, and the data behind the header. -/
theorem merecEncoding : Obligations.MerecEncoding := by
  unfold Obligations.MerecEncoding
  intro op m hfits
  obtain ⟨hop, hflags, htoken, hindex, hsub, hqsel, hoffset, hlength⟩ := fieldAt_merecBytes op hfits
  obtain ⟨hdr, hlen, hbytes⟩ := merecBytes_eq op m
  have hdata : (merecBytes op m).drop 16 = m.data := by rw [hbytes, List.drop_left' hlen]
  have hlong : ¬ ((merecBytes op m).length < 16 ∨ 1 < if m.last then 1 else 0) := by
    rw [hbytes, List.length_append]
    split <;> omega
  simp only [parseMerec, hop, hflags, htoken, hindex, hsub, hqsel, hoffset, hlength, hdata, if_neg hlong, MOp.ofCode_code, Option.map_some]
  cases m with | mk last => cases last <;> rfl

end Sys2Proof.Machine
end

section
/-! PROOF. The contained state (14 R427): of a contained device the commands of the surroundings alone do anything, and what they
change is the host port's. -/

namespace Sys2Proof.Machine

open Sys2Proof Sys2Proof.Safety

/-! What a change leaves of the machine. -/

/-- The boot phase stays, and everything that containment holds unchanged. -/
abbrev keepsMachine (s u : State) : Prop := u.boot = s.boot ∧ sameMachine s u

theorem keepsMachine_refl (s : State) : keepsMachine s s := ⟨rfl, rfl, rfl, rfl, rfl, rfl⟩

theorem keepsMachine_trans {s t u : State} (h : keepsMachine s t) (h' : keepsMachine t u) : keepsMachine s u := by
  obtain ⟨hboot, hdome, hpoison, hspars, hparts, hports⟩ := h
  obtain ⟨hboot', hdome', hpoison', hspars', hparts', hports'⟩ := h'
  exact ⟨hboot'.trans hboot, hdome'.trans hdome, hpoison'.trans hpoison, hspars'.trans hspars, hparts'.trans hparts, hports'.trans hports⟩

theorem keepsMachine_ite {s t u : State} (c : Prop) [Decidable c] (ht : c → keepsMachine s t) (hu : ¬ c → keepsMachine s u) :
    keepsMachine s (if c then t else u) := by
  split
  · next h => exact ht h
  · next h => exact hu h

/-- Changes made one after another. -/
theorem keepsMachine_foldl {α : Type} {f : State → α → State} (hf : ∀ s a, keepsMachine s (f s a)) (l : List α) (s : State) :
    keepsMachine s (l.foldl f s) := by
  induction l generalizing s with
  | nil => exact keepsMachine_refl s
  | cons a l ih => exact keepsMachine_trans (hf s a) (ih _)

theorem keepsMachine_flushBi (s : State) : keepsMachine s s.flushBi := by
  unfold State.flushBi
  refine keepsMachine_ite _ (fun _ => ?_) fun _ => keepsMachine_refl s
  exact keepsMachine_trans (t := { s with cxl := { s.cxl with biUnsent := [] } }) (keepsMachine_refl s)
    (keepsMachine_foldl (f := State.emitBi) (fun s _ => keepsMachine_refl s) _ _)

theorem keepsMachine_msix (s : State) (v : Nat) : keepsMachine s (s.msix v) := by
  unfold State.msix
  exact keepsMachine_ite _ (fun _ => keepsMachine_refl s) fun _ => keepsMachine_refl s

theorem keepsMachine_msixFlush (s : State) : keepsMachine s s.msixFlush :=
  keepsMachine_foldl (fun u v => keepsMachine_msix (u.clearPending v) v) _ s

theorem keepsMachine_configWrite (s : State) (addr : Nat) (data : BitVec 32) : keepsMachine s (s.configWrite addr data) := by
  unfold State.configWrite
  refine keepsMachine_ite _ (fun _ => keepsMachine_refl s) fun _ => keepsMachine_ite _ (fun _ => ?_) fun _ =>
    keepsMachine_ite _ (fun _ => keepsMachine_refl s) fun _ => keepsMachine_refl s
  exact keepsMachine_msixFlush _

theorem keepsMachine_memAnswer (s : State) (id : Nat) (data : Bytes) (poison : Bool) : keepsMachine s (s.memAnswer id data poison) := by
  unfold State.memAnswer
  exact keepsMachine_ite _ (fun _ => keepsMachine_refl s) fun _ => keepsMachine_refl s

theorem keepsMachine_setLink (s : State) (v rate width : Nat) : keepsMachine s (s.setLink v rate width) := keepsMachine_refl s

theorem keepsMachine_dropHostRequests (s : State) : keepsMachine s s.dropHostRequests := keepsMachine_refl s

theorem keepsMachine_failFetches (s : State) : keepsMachine s s.failFetches := keepsMachine_refl s

theorem keepsMachine_dropRing (s : State) : keepsMachine s s.dropRing := keepsMachine_refl s

theorem keepsMachine_resetHostPort (s : State) : keepsMachine s s.resetHostPort := by
  have hdropped := keepsMachine_trans (keepsMachine_dropRing s) (keepsMachine_dropHostRequests _)
  have hfailed := keepsMachine_trans hdropped (keepsMachine_failFetches _)
  exact keepsMachine_trans hfailed (keepsMachine_trans (keepsMachine_refl _) (keepsMachine_setLink _ 0 0 0))

theorem keepsMachine_tapDrive (s : State) (ir : Nat) (f : TapState → TapState) : keepsMachine s (s.tapDrive ir f) := by
  unfold State.tapDrive
  exact keepsMachine_ite _ (fun _ => keepsMachine_refl s) fun _ => keepsMachine_refl s

theorem keepsMachine_cdatRead (s : State) (b : Bytes) : keepsMachine s (s.cdatRead b) := by
  simp only [State.cdatRead]
  split <;> exact keepsMachine_refl s

/-! The commands of the host port (12). -/

theorem execConfigRequest_keeps (id : Nat) (write : Bool) (addr : Nat) (data : BitVec 32) (s : State) :
    ∃ u, execConfigRequest id write addr data s = .next u ∧ keepsMachine s u := by
  refine ⟨_, rfl, keepsMachine_ite _ (fun _ => keepsMachine_refl s) fun _ => keepsMachine_ite _ (fun _ => keepsMachine_refl s) fun _ =>
    keepsMachine_ite _ (fun _ => ?_) fun _ => keepsMachine_refl s⟩
  exact keepsMachine_configWrite s addr data

theorem execCxlLinkUp_keeps (cxl : Bool) (rate width : Nat) (s : State) :
    ∃ u, execCxlLinkUp cxl rate width s = .next u ∧ keepsMachine s u :=
  ⟨_, rfl, keepsMachine_ite _ (fun _ => keepsMachine_flushBi (s.setLink _ rate width)) fun _ => keepsMachine_refl s⟩

theorem execHotReset_keeps (s : State) : ∃ u, execHotReset s = .next u ∧ keepsMachine s u :=
  ⟨_, rfl, keepsMachine_ite _ (fun _ => keepsMachine_trans (keepsMachine_resetHostPort s) (keepsMachine_setLink _ 1 0 0)) fun _ =>
    keepsMachine_refl s⟩

theorem execHostLink_keeps (s : State) : ∃ u, execHostLink s = .next u ∧ keepsMachine s u := by
  refine ⟨_, rfl, keepsMachine_ite _ (fun _ => ?_) fun _ => keepsMachine_refl s⟩
  exact keepsMachine_trans (keepsMachine_trans (keepsMachine_dropHostRequests s) (keepsMachine_setLink _ 1 0 0)) (keepsMachine_refl _)

/-! What a contained device refuses (R427). -/

section
variable {s : State} (hc : s.boot = .contained)
include hc

theorem not_live_of_contained : s.live = false := by simp [State.live, hc]

theorem not_handling_of_contained : s.handling = false := by simp [State.handling, hc]

theorem not_served_of_contained : s.served = false := by simp [State.served, hc]

theorem not_answers_of_contained : s.answers? = false := by simp [State.answers?, not_served_of_contained hc, hc]

theorem not_spdmUp_of_contained : s.spdmUp = false := by simp [State.spdmUp, hc]

theorem not_barOk_of_contained : s.barOk = false := by simp [State.barOk, hc]

theorem issueRow_contained (k : Nat) (op : BitVec 8) (i : Nat) (f : Fields) : issueRow k op i f s = .next s := by
  simp [issueRow, State.canIssue, hc]

theorem liveEvent_contained (f : State → State) : liveEvent s f = .next s := by simp [liveEvent, not_live_of_contained hc]

theorem spireEvent_contained (k : Nat) (f : State → State) : spireEvent k s f = .next s := liveEvent_contained hc _

theorem halRow_contained (t code : Nat) (f : Nat → Bytes → State → State) : halRow t code f s = .next s := spireEvent_contained hc _ _

theorem colRow_contained (q op : Nat) : colRow q op s = .next s := spireEvent_contained hc _ _

theorem colFrameRow_contained (kind : Nat) (want : Nat → Bool) : colFrameRow kind want s = .next s := spireEvent_contained hc _ _

theorem fabricEvent_contained (f : State → State) : fabricEvent s f = .next s := by simp [fabricEvent, hc]

theorem handleEvent_contained (f : State → State) : handleEvent s f = .next s := by simp [handleEvent, not_handling_of_contained hc]

theorem runCmd_contained (q : Nat) (r : CmdRes) : runCmd q s r = .next s := by simp [runCmd, not_served_of_contained hc]

theorem runDevCmd_contained (r : CmdRes) : runDevCmd s r = .next s := by simp [runDevCmd, not_served_of_contained hc]

theorem merecRow_contained (op : MOp) (rq : Requester) (m : Merec) : merecRow op rq m s = .next s := by
  simp [merecRow, not_answers_of_contained hc]

/-- A write of BAR0 completes with Unsupported Request, or not at all. -/
theorem keepsMachine_barWrite (off : Nat) (k : State → State) : keepsMachine s (s.barWrite off k) := by
  rw [State.barWrite, if_neg (by simp [not_barOk_of_contained hc])]
  exact keepsMachine_ite _ (fun _ => keepsMachine_refl s) fun _ => keepsMachine_refl s

/-- A register write of another size completes with Unsupported Request too, or not at all. -/
theorem execRegisterWrite_contained (off size : Nat) (val : BitVec 64) :
    ∃ u, execRegisterWrite off size val s = .next u ∧ keepsMachine s u :=
  ⟨_, rfl, keepsMachine_ite _ (fun _ => keepsMachine_barWrite hc off _) fun _ =>
    keepsMachine_ite _ (fun _ => keepsMachine_refl s) fun _ => keepsMachine_refl s⟩

/-- A read of the window is answered with poison, if at all. -/
theorem execCxlMemRead_contained (id hpa : Nat) (own : Bool) : ∃ u, execCxlMemRead id hpa own s = .next u ∧ keepsMachine s u := by
  refine ⟨_, rfl, keepsMachine_ite _ (fun _ => ?_) fun _ => keepsMachine_refl s⟩
  rw [if_pos hc]
  exact keepsMachine_memAnswer s id _ _

/-- DOE answers discovery and the CDAT alone. -/
theorem execDoeRequest_contained (inst ty : Nat) (data : Bytes) : ∃ u, execDoeRequest inst ty data s = .next u ∧ keepsMachine s u := by
  refine ⟨_, rfl, keepsMachine_ite _ (fun _ => ?_) fun _ => keepsMachine_refl s⟩
  simp only [not_spdmUp_of_contained hc, Bool.false_eq_true, if_false]
  refine keepsMachine_ite _ (fun _ => keepsMachine_refl s) fun _ => keepsMachine_ite _ (fun _ => keepsMachine_refl s) fun _ =>
    keepsMachine_ite _ (fun _ => keepsMachine_refl s) fun _ => keepsMachine_ite _ (fun _ => keepsMachine_refl s) fun _ =>
    keepsMachine_ite _ (fun _ => keepsMachine_cdatRead s data) fun _ => keepsMachine_refl s

end

/-- The commands that switch the device's power, hold it in reset, or trip it. -/
def powersOrResets : Instr → Bool
  | .pwrgdAssert _ => true
  | .pwrgdDeassert => true
  | .rstNAssert => true
  | .rstNRelease .. => true
  | .thermalTrip .. => true
  | _ => false

/-- Every command but those leaves a contained device's machine as it is: the spars, the engines, the fabric, the dictionary and the
fault handling do nothing, and the host port and the test access port change nothing but themselves. -/
theorem exec_contained {s : State} (hc : s.boot = .contained) (c : Instr) (hp : powersOrResets c = false) :
    ∃ u, exec c s = .next u ∧ keepsMachine s u := by
  have hidle {o : Res} (h : o = .next s) : ∃ u, o = .next u ∧ keepsMachine s u := ⟨s, h, keepsMachine_refl s⟩
  have hkept : ∃ u, Host.Outcome.next s = (.next u : Res) ∧ keepsMachine s u := hidle rfl
  cases c <;> simp only [exec]
  case scAdd | scSub | scAnd | scOr | scXor | scShl | scShr | scSar | scMin | scMax | scCmp | scMul | scMulh | scDiv | scRem |
      scLi | br | brNz | brZ | brLink | scCfg | scCyc | scHalt | adAdd | adIncm | adLi | adFroms | adTos | lpBegin | lpBreak |
      lpGet | ldS | stS | ldV | stV | stVt | ldP | stP | ldM | stM | ldT | mld | mmx | mew | mwb | mal | mfr | vaAdd | vaSub |
      vaMul | vaFma | vaMin | vaMax | vaCmp | vaSel | vaAnd | vaOr | vaXor | vaMov | vbSfu | vbCvt | vbWid | vbRed | vbPerm |
      vbBcast | vbAcc | vbPlog | tgGather | tgUnperm | tkScatter | tkScatadd | tkPerm | tkRowfeed | tkDone | txDld | txSend |
      txRecv | txIfill | txChtab | txWait | fcLocal | fcPhase =>
    exact hidle (issueRow_contained hc ..)
  case tkClaim | tkClaimReset | tkClaimQuery | txDst | txDstAtomic | txFqWrite | txFqWriteArrival | txFqRead =>
    exact hidle (ite_eq_right_iff.2 fun _ => issueRow_contained hc ..)
  case haltComplete | sequentialFetchOverrun | arrayInstructionStart | arrayRowLands | stationaryLoadComplete | stagedTileMove
      | malClear | mwbReadStart | tackleOperationStart | indexBlockValidated | conflictQueueServe | workCounterOp |
      counterResultArrival | channelBytesArrive | ifillComplete | transferRetire | barrierRelease | phaseTimeout |
      jobFillComplete | pruningRequestComplete | starve | grantOverhold | domeLineRead | patrolScrubRead | remoteWriteRequest
      | remoteReadRequest | remoteAnswer | sliceDue | sliceStart | sliceDefer | sliceEnd | scrubPeriodEnd =>
    exact hidle (liveEvent_contained hc _)
  case unitSelectionComplete | countingFrame | assignmentComplete | dispatchRowArrival | returnRowArrival | cancelFrame |
      tierFetchLine | update | updateScanComplete | voteFrame | walkerGroupComplete | mixdone | updateCommit | riskScore |
      shadowDataPiece | shadowEndPiece | shadowCommitPiece | shadowCompletionTimeout | restoreRequest | restoreDataPiece |
      restoreEndPiece =>
    exact hidle (spireEvent_contained hc ..)
  case openBatch | returnRows | cancel | actmask | fence =>
    exact hidle (halRow_contained hc ..)
  case reduceScatter | allGather | allReduce | allToAll | localPass | normReduction =>
    exact hidle (colRow_contained hc ..)
  case collectiveDataFrame | collectiveAbortFrame | normContributionFrame | normTotalsFrame =>
    exact hidle (colFrameRow_contained hc ..)
  case packetArrival | fabricDeadline | linkStatus | ackTimeout | train | auditTimer | audit | auditAnswer | laserLoss |
      laserRestore | packetForward | peerTrainingLost | fabricReadyTimeout =>
    exact hidle (fabricEvent_contained hc _)
  case faultRecordArrival | targetedTestStart | testStartTimeout | targetedTestEnd | avsbusPoll | vdoneTimeout |
      regulatorStatusRetry | vralertAssert | vralertRelease | alertReleaseWaitExpiry | alertReminder | slowNAssert |
      slowNRelease | inputUnmask | islandsFrequencyAck | vdoneRead | thermalReading | thermalStepUp | oscillatorTrim |
      supplyDroop | supplyRecovery =>
    exact hidle (handleEvent_contained hc _)
  case stopJob | clearRangeCounters | clearArrayCounters | clearTackleCounters | startPruning | clearPruningCounters |
      cancelBatch | clearRoutingCounters | startUpdate | abandonUpdate | clearBoomCounters | applyPreload | startRestore =>
    exact hidle (runCmd_contained hc ..)
  case scrubPeriodWrite | turnTableWrite | arbiterSettingWrite | reEnable | windowSegmentWrite | portEnable | portDisable |
      routeTableWrite | applyPlan | stateCapWrite =>
    exact hidle (runDevCmd_contained hc _)
  case read | write | readSegment | writeSegment | readRecord | describe =>
    exact hidle (merecRow_contained hc ..)
  case startJob | planZeroFillComplete | sessionTimeout | dictionaryDeadline =>
    simpa [execStartJob, execPlanZeroFillComplete, execSessionTimeout, execDictionaryDeadline, not_served_of_contained hc] using hkept
  case deferredAnswer | mailboxAnswerReady | mailboxAckTimeout =>
    simpa [execDeferredAnswer, execMailboxAnswerReady, execMailboxAckTimeout, not_answers_of_contained hc] using hkept
  case spdmRequest | spdmConnectionIdle =>
    simpa [execSpdmRequest, execSpdmConnectionIdle, not_spdmUp_of_contained hc] using hkept
  case noOperation | edgeArbitrate | cxlMemWrite | hostDeadline | firmwareStart | domeTrainingComplete =>
    simpa [execNoOperation, State.canIssue, execEdgeArbitrate, execCxlMemWrite, execHostDeadline, execFirmwareStart, execDomeTrainingComplete, hc] using hkept
  case doorbell | ringEnable | ringDisable | ringConsWrite | msixUnmask | hdmDecoderCommit =>
    exact ⟨_, rfl, keepsMachine_barWrite hc ..⟩
  case registerWrite => exact execRegisterWrite_contained hc ..
  case cxlMemRead => exact execCxlMemRead_contained hc ..
  case doeRequest => exact execDoeRequest_contained hc ..
  case configRequest => exact execConfigRequest_keeps ..
  case cxlLinkUp => exact execCxlLinkUp_keeps ..
  case perstNAssert => exact ⟨_, rfl, keepsMachine_resetHostPort s⟩
  case hotReset => exact execHotReset_keeps s
  case hostLink => exact execHostLink_keeps s
  case perstNRelease | functionLevelReset | birsp | hostSnoop | ideFail =>
    exact ⟨_, rfl, keepsMachine_ite _ (fun _ => keepsMachine_refl s) fun _ => keepsMachine_refl s⟩
  case tapExtest | tapHighz | tapClamp => exact ⟨_, rfl, keepsMachine_tapDrive ..⟩
  case tapBypass | tapIdcode | tapSamplePreload => exact ⟨_, rfl, keepsMachine_refl s⟩
  case pwrgdAssert | pwrgdDeassert | rstNAssert | rstNRelease | thermalTrip => cases hp

/-! Power, reset and trip (15 R455, R456, R462, R470, 16 R478). -/

theorem deviceReset_boot_ne (s : State) : s.deviceReset.boot ≠ .contained := by
  simp only [State.deviceReset]
  split
  · exact nofun
  · split <;> exact nofun

/-- The boot ROM ends in a slot's firmware or in the recovery state (R478, R479). -/
theorem execRstNRelease_boots {s : State} {st : BitVec 8} {fl pf : Bytes} (hr : s.rstN = true) (hp : s.pwrgd = true) (ht : s.tripN = false) :
    ∃ u, execRstNRelease st fl pf s = .next u ∧ (u.boot = .firmware ∨ u.boot = .recovery) := by
  unfold execRstNRelease
  simp only [hr, hp, ht, not_true_eq_false, Bool.false_eq_true, if_false]
  split
  · exact ⟨_, rfl, .inl rfl⟩
  · split
    · exact ⟨_, rfl, .inl rfl⟩
    · exact ⟨_, rfl, .inr rfl⟩

/-- The commands of power, reset and trip leave a contained device as it is or end the state: a trip, a loss of power and a reset
while they come, and of a device without power or held in reset the pins that let it start. -/
theorem exec_powersOrResets {c : Instr} {s u : State} (hp : powersOrResets c = true) (h : exec c s = .next u) :
    keepsMachine s u ∨ u.boot ≠ .contained ∧
      (s.pwrgd = false ∨ s.rstN = true ∨ c = .rstNAssert ∨ c = .pwrgdDeassert ∨ ∃ k temp, c = .thermalTrip k temp) := by
  cases c
  case pwrgdAssert ok =>
    simp only [exec, execPwrgdAssert] at h
    cases hpg : s.pwrgd <;> cases ok <;> simp only [hpg, Bool.false_eq_true, if_false, if_true] at h <;> cases h
    · exact .inr ⟨nofun, .inl rfl⟩
    · exact .inl (keepsMachine_refl s)
    · exact .inl (keepsMachine_refl s)
  case pwrgdDeassert =>
    cases h
    exact .inr ⟨deviceReset_boot_ne _, by simp⟩
  case rstNAssert =>
    cases h
    exact .inr ⟨deviceReset_boot_ne s, by simp⟩
  case rstNRelease st fl pf =>
    rw [exec] at h
    cases hr : s.rstN
    · rw [execRstNRelease, if_pos (by simp [hr])] at h
      cases h
      exact .inl (keepsMachine_refl s)
    cases hpg : s.pwrgd
    · simp [execRstNRelease, hr, hpg] at h
    cases ht : s.tripN
    · obtain ⟨v, hv, hboot⟩ := execRstNRelease_boots (st := st) (fl := fl) (pf := pf) hr hpg ht
      cases hv.symm.trans h
      exact .inr ⟨by rcases hboot with hb | hb <;> rw [hb] <;> exact nofun, .inr (.inl rfl)⟩
    · simp only [execRstNRelease, hr, hpg, ht, not_true_eq_false, if_false, if_true] at h
      cases h
      exact .inl (keepsMachine_refl s)
  case thermalTrip k temp =>
    simp only [exec, execThermalTrip] at h
    split at h <;> cases h
    · exact .inr ⟨nofun, by simp⟩
    · exact .inl (keepsMachine_refl s)
  all_goals cases hp

/-- Settles O47: a command of power, reset or trip leaves the machine as it is or ends the state, and every other one leaves it as it is. -/
theorem containedState_holds : Obligations.ContainedState := by
  unfold Obligations.ContainedState
  intro c s u hc hexec
  have hends : keepsMachine s u ∨ u.boot ≠ .contained ∧
      (s.pwrgd = false ∨ s.rstN = true ∨ c = .rstNAssert ∨ c = .pwrgdDeassert ∨ ∃ k temp, c = .thermalTrip k temp) := by
    cases hp : powersOrResets c
    · obtain ⟨v, hv, hkeeps⟩ := exec_contained hc c hp
      cases hv.symm.trans hexec
      exact .inl hkeeps
    · exact exec_powersOrResets hp hexec
  rcases hends with ⟨hboot, hsame⟩ | ⟨hboot, hwhy⟩
  · exact ⟨fun _ => hsame, fun _ _ _ _ _ => hboot.trans hc⟩
  · refine ⟨fun h => absurd h hboot, fun hpower hreset hassert hloss htrip => ?_⟩
    rcases hwhy with h | h | h | h | ⟨k, temp, h⟩
    · exact absurd (h.symm.trans hpower) nofun
    · exact absurd (h.symm.trans hreset) nofun
    · exact absurd h hassert
    · exact absurd h hloss
    · exact absurd h (htrip k temp)

end Sys2Proof.Machine
end

section
/-! PROOF. A step, and what an idle one leaves (log 5, 11 R341, 13 R391, R408). -/

namespace Sys2Proof.Machine

open Sys2Proof Sys2Proof.Safety

/-- The states agree in everything but what traffic moves: the dictionary's scalars, the notice destinations, the host port, the
fabric's ports and queues, the fetches, what the management mailbox's edge takes and answers, and free values drawn. -/
def sameBeyondTraffic (s u : State) : Prop :=
  { u with
    od := s.od, dests := s.dests, cxl := s.cxl, ports := s.ports, inject := s.inject, outbox := s.outbox, delivery := s.delivery
    fetches := s.fetches, rdCurr := s.rdCurr, mgmtTurn := s.mgmtTurn, mctpEid := s.mctpEid, answers := s.answers, out := s.out
    fresh := s.fresh } = s

theorem sameBeyondTraffic.refl (s : State) : sameBeyondTraffic s s := rfl

theorem sameBeyondTraffic.trans {s t u : State} (h : sameBeyondTraffic s t) (h' : sameBeyondTraffic t u) : sameBeyondTraffic s u := by
  unfold sameBeyondTraffic at *
  rw [← h, ← h']

theorem sameBeyondTraffic.dome {s u : State} (h : sameBeyondTraffic s u) : u.dome = s.dome := (congrArg State.dome h :)

theorem sameBeyondTraffic.spars {s u : State} (h : sameBeyondTraffic s u) : u.spars = s.spars := (congrArg State.spars h :)

theorem sameBeyondTraffic.cyc {s u : State} (h : sameBeyondTraffic s u) : u.cyc = s.cyc := (congrArg State.cyc h :)

theorem sameBeyondTraffic_foldl {α : Type} {f : State → α → State} (hf : ∀ t a, sameBeyondTraffic t (f t a)) (l : List α) (s : State) :
    sameBeyondTraffic s (l.foldl f s) := by
  induction l generalizing s with
  | nil => exact .refl s
  | cons a l ih => exact (hf s a).trans (ih _)

/-! Packets sent and moved (11 R337, R340, R341). -/

theorem sameBeyondTraffic_injectHead {s t : State} {key : Nat} (h : s.injectHead key = some t) : sameBeyondTraffic s t := by
  unfold State.injectHead at h
  split at h
  · cases h
  dsimp only at h
  split at h
  · split at h <;> cases h
    rfl
  split at h
  · cases h
    rfl
  · split at h <;> cases h
    rfl

theorem sameBeyondTraffic_injectNext {s t : State} {key : Nat} (h : s.injectNext key = some t) : sameBeyondTraffic s t := by
  unfold State.injectNext at h
  split at h
  · cases h
  · split at h <;> cases h
    rfl

theorem sameBeyondTraffic_pumpKey (n : Nat) (s : State) (key : Nat) : sameBeyondTraffic s (State.pumpKey n s key) := by
  induction n generalizing s with
  | zero => exact .refl s
  | succ n ih =>
    rw [State.pumpKey]
    split
    · next t h => exact (sameBeyondTraffic_injectHead h).trans (ih t)
    split
    · next t h => exact (sameBeyondTraffic_injectNext h).trans (ih t)
    · exact .refl s

theorem sameBeyondTraffic_launch (s : State) (src : Nat) (p : Packet) : sameBeyondTraffic s (s.launch src p) :=
  sameBeyondTraffic.trans (t := { s with outbox := mapSet [] s.outbox (4 * src + p.vl) (mapGet [] s.outbox (4 * src + p.vl) ++ [p]) }) rfl
    (sameBeyondTraffic_pumpKey ..)

theorem sameBeyondTraffic_sendPacket (s : State) (src q kind dlid qdst flow : Nat) (payload : Bytes) :
    sameBeyondTraffic s (s.sendPacket src q kind dlid qdst flow payload) := by
  rw [State.sendPacket]
  split
  · exact .refl s
  split
  · exact .refl s
  · exact sameBeyondTraffic_launch ..

theorem sameBeyondTraffic_reroute (n : Nat) (s : State) (p v : Nat) : sameBeyondTraffic s (State.reroute n s p v) := by
  induction n generalizing s with
  | zero => exact .refl s
  | succ n ih =>
    rw [State.reroute]
    split
    · exact .refl s
    dsimp only
    split
    · refine .trans ?_ (ih _)
      rfl
    split
    · refine .trans ?_ (ih _)
      rfl
    · exact .refl s

theorem sameBeyondTraffic_pumpInject (s : State) : sameBeyondTraffic s s.pumpInject :=
  (sameBeyondTraffic_foldl (fun u p => sameBeyondTraffic_foldl (fun u v => sameBeyondTraffic_reroute _ u p v) _ u) _ s).trans
    (sameBeyondTraffic_foldl (fun u key => sameBeyondTraffic_pumpKey _ u key) _ _)

theorem sameBeyondTraffic_sendStatus (s : State) (p : Nat) (nak : Bool) : sameBeyondTraffic s (s.sendStatus p nak) := rfl

/-! Lines asked of the host (12 R367). -/

theorem sameBeyondTraffic_fetchAsk (n : Nat) (s : State) (i : Nat) : sameBeyondTraffic s (fetchAsk n s i) := by
  induction n generalizing s with
  | zero => exact .refl s
  | succ n ih =>
    rw [fetchAsk]
    split
    · exact .refl s
    split
    · refine .trans ?_ (ih _)
      rfl
    · exact .refl s

theorem sameBeyondTraffic_fetchPump (s : State) : sameBeyondTraffic s s.fetchPump :=
  sameBeyondTraffic_foldl (fun u i => sameBeyondTraffic_fetchAsk _ u i) _ s

/-! The management mailbox (12 R370, 13 R391, R392, R399). -/

theorem sameBeyondTraffic_takeTurn (s : State) (rq : Requester) : sameBeyondTraffic s (s.takeTurn rq) := by
  unfold State.takeTurn
  dsimp only
  split
  · split <;> rfl
  · split
    · next h =>
      unfold State.takeDelivered at h
      split at h
      · cases h
      · obtain ⟨m, -, hm⟩ := Option.map_eq_some_iff.1 h
        cases hm
        rfl
    · rfl
  · rfl

theorem sameBeyondTraffic_modCxl (s : State) (f : Cxl → Cxl) : sameBeyondTraffic s (s.modCxl f) := rfl

theorem sameBeyondTraffic_mailboxDone (s : State) (b : Bytes) : sameBeyondTraffic s (s.mailboxDone b) := by
  have htoHost (u : State) (m : OutMsg) : sameBeyondTraffic u (u.toHost 1 m) := rfl
  have hnote (u : State) : sameBeyondTraffic u (u.noteAnswer .cxl b) := rfl
  exact .trans (.trans (sameBeyondTraffic_modCxl s _) (htoHost _ _)) (hnote _)

theorem sameBeyondTraffic_mailboxRan (s : State) (b : Bytes) (later : Bool) : sameBeyondTraffic s (s.mailboxRan b later) := by
  unfold State.mailboxRan
  split
  · exact sameBeyondTraffic_modCxl ..
  · exact sameBeyondTraffic_mailboxDone ..

theorem sameBeyondTraffic_sendAnswer (s : State) (rq : Requester) (qd qs : Nat) (b : Bytes) :
    sameBeyondTraffic s (s.sendAnswer rq qd qs b) := by
  unfold State.sendAnswer
  split
  · exact sameBeyondTraffic_mailboxRan ..
  · exact sameBeyondTraffic.trans (t := s.noteAnswer _ b) rfl (sameBeyondTraffic_sendPacket ..)
  · rfl

theorem sameBeyondTraffic_refuseNext (s : State) : sameBeyondTraffic s s.refuseNext := by
  have hanswered (rq : Requester) (qd qs : Nat) (b : Bytes) : sameBeyondTraffic s ((s.takeTurn rq).sendAnswer rq qd qs b) :=
    (sameBeyondTraffic_takeTurn s rq).trans (sameBeyondTraffic_sendAnswer ..)
  unfold State.refuseNext
  split
  · exact .refl s
  split
  · split
    · split
      · exact .refl s
      split
      · exact sameBeyondTraffic_takeTurn ..
      · exact hanswered ..
    · exact .refl s
  · split
    · split
      · exact .refl s
      · exact hanswered ..
    · exact .refl s
  · exact .refl s

theorem sameBeyondTraffic_ackMailbox (s : State) : sameBeyondTraffic s s.ackMailbox := by
  unfold State.ackMailbox
  split
  · dsimp only
    split <;> rfl
  · rfl

/-! Notices sent (13 R408). -/

theorem sameBeyondTraffic_popDest {s t : State} {k : Nat} {n : Notice} (h : s.popDest k = some (n, t)) : sameBeyondTraffic s t := by
  simp only [State.popDest] at h
  split at h <;> cases h
  rfl

theorem sameBeyondTraffic_sendMctpNotice (s : State) : sameBeyondTraffic s s.sendMctpNotice := by
  unfold State.sendMctpNotice
  split
  · exact .refl s
  · next n t h => exact (sameBeyondTraffic_popDest h).trans rfl

theorem sameBeyondTraffic_sendShroudNotice (s : State) (k : Nat) : sameBeyondTraffic s (s.sendShroudNotice k) := by
  unfold State.sendShroudNotice
  split
  · exact .refl s
  · next n t h => exact (sameBeyondTraffic_popDest h).trans (sameBeyondTraffic_sendPacket ..)

/-! The idle step. -/

theorem sameBeyondTraffic_dropAnswers (s : State) : sameBeyondTraffic s s.dropAnswers := rfl

theorem sameBeyondTraffic_countStalls (s : State) : sameBeyondTraffic s s.countStalls := by
  have hadd (u : State) (i sub n : Nat) : sameBeyondTraffic u (if n = 0 then u else u.odAdd 0 i sub n) := by split <;> rfl
  refine sameBeyondTraffic_foldl (fun u e => ?_) _ s
  exact (hadd u ..).trans ((hadd ..).trans ((hadd ..).trans (hadd ..)))

/-- What an idle step leaves when islands run: a cycle has passed, and only traffic has moved. -/
theorem sameBeyondTraffic_tick {s : State} (h : s.islandsRun = true) : sameBeyondTraffic { s with cyc := s.cyc + 1 } s.tick := by
  rw [State.tick, if_pos h]
  refine .trans ?_ (sameBeyondTraffic_foldl sameBeyondTraffic_sendShroudNotice _ _)
  refine .trans ?_ (sameBeyondTraffic_sendMctpNotice _)
  refine .trans ?_ (sameBeyondTraffic_ackMailbox _)
  refine .trans ?_ (sameBeyondTraffic_refuseNext _)
  refine .trans ?_ (sameBeyondTraffic_fetchPump _)
  refine .trans ?_ (sameBeyondTraffic_pumpInject _)
  refine .trans ?_ (sameBeyondTraffic_dropAnswers _)
  refine .trans ?_ (sameBeyondTraffic_foldl (fun u p => sameBeyondTraffic_sendStatus u p false) _ _)
  exact sameBeyondTraffic_countStalls _

/-- Settles O56: by the two cases of the queue, an idle step moving traffic alone. -/
theorem stepRunsCommand : Obligations.StepRunsCommand := by
  unfold Obligations.StepRunsCommand
  refine ⟨fun c s r h => ?_, fun s h => ⟨s.tick, ?_, ?_⟩⟩
  · simp only [step, h]
  · simp only [step, h]
  · by_cases hrun : s.islandsRun = true
    · have htick := sameBeyondTraffic_tick hrun
      exact ⟨htick.dome, htick.spars, htick.cyc.trans (if_pos hrun).symm⟩
    · rw [State.tick, if_neg hrun, if_neg hrun]
      exact ⟨rfl, rfl, rfl⟩

end Sys2Proof.Machine
end

section
/-! PROOF. What a device reset leaves (13 R387). -/

namespace Sys2Proof.Machine

open Sys2Proof Sys2Proof.Safety

/-- The berth map of a reset numbers a tower's first 128 berths in order (14 Table 14-6, 16 R482). -/
theorem berthMap_reset (t : Nat) (ht : t < 8) (k : Nat) (hk : k < 128) : (State.reset.berthMap t).getD k 0 = BitVec.ofNat 8 k := by
  have hmap : State.reset.berthMap t = (List.range 132).map fun b => if b < 128 then BitVec.ofNat 8 b else 0xFE := by
    interval_cases t <;> rfl
  rw [hmap, List.getD_eq_getElem _ _ (by rw [List.length_map, List.length_range]; omega), List.getElem_map, List.getElem_range, if_pos hk]

/-- Settles O57: every value is the default of its object or field. -/
theorem resetState : Obligations.ResetState := by
  unfold Obligations.ResetState
  refine ⟨rfl, rfl, ?_, ?_, ?_, ?_, ?_, berthMap_reset, fun _ => rfl, rfl, rfl⟩ <;> decide +kernel

end Sys2Proof.Machine
end

section
/-! PROOF. What the scratch stores of whole registers leave unchanged (03 Table 3-5). -/

namespace Sys2Proof.Machine

open Sys2Proof Sys2Proof.Safety

/-- Bytes put into scratch read back as the number they spell. -/
theorem memNat_memWrite_self (m : List Host.Cell) (a : Nat) {n : Nat} {b : Bytes} (h : b.length = n) :
    memNat (memWrite m a b) a n = leNat b := by
  rw [memNat, ← h, memRead_write]

/-- A slot-2 row that stores the `n` bytes of `v` of its spar changes no other byte of scratch, no other spar and no dome memory. -/
theorem storeFrame_of {c : Nat → Fields → Instr} {op : BitVec 8} {n : Nat} {v : Spar → Fields → Nat}
    (hrow : changesSpar c 2 op fun x f => stepped (postInc x f (x.scrPut (slot2Addr x f) (leBytes n (v x f)))))
    (hv : ∀ x f, v x f < 256 ^ n) (s : State) (i : Nat) (f : Fields) (h : issuesAlone s i 2 op f) :
    ∃ t, exec (c i f) s = .next t ∧
      (∀ a, a < slot2Addr (s.spar i) f ∨ slot2Addr (s.spar i) f + n ≤ a →
        memByte (t.spar i).scratch a = memByte (s.spar i).scratch a) ∧
      (∀ j, j ≠ i → t.spar j = s.spar j) ∧ t.dome = s.dome ∧
      memNat (t.spar i).scratch (slot2Addr (s.spar i) f) n = v (s.spar i) f := by
  refine ⟨_, hrow s i f h, ?_⟩
  have hscratch : ((s.modSpar i fun x => stepped (postInc x f (x.scrPut (slot2Addr x f) (leBytes n (v x f))))).spar i).scratch =
      memWrite (s.spar i).scratch (slot2Addr (s.spar i) f) (leBytes n (v (s.spar i) f)) := by
    rw [State.spar_modSpar_self]
    exact postInc_scratch ..
  rw [hscratch]
  refine ⟨fun a ha => memByte_write_out _ _ _ (by rwa [length_leBytes]), fun j hj => State.spar_modSpar_other _ _ hj.symm, rfl, ?_⟩
  rw [memNat_memWrite_self _ _ (length_leBytes ..), leNat_leBytes, Nat.mod_eq_of_lt (hv ..)]

/-- Settles O9: each store puts its register's bytes at its address and leaves the rest. -/
theorem storeFrame : Obligations.StoreFrame := by
  unfold Obligations.StoreFrame
  intro c op n hmem
  have hbits {w k : Nat} (r : BitVec w) (hw : w = 8 * k) : r.toNat < 256 ^ k :=
    r.isLt.trans_eq ((congrArg (2 ^ ·) hw).trans (pow_mul 2 8 k))
  simp only [List.mem_cons, List.not_mem_nil, or_false, Prod.mk.injEq] at hmem
  rcases hmem with ⟨rfl, rfl, rfl⟩ | ⟨rfl, rfl, rfl⟩ | ⟨rfl, rfl, rfl⟩
  · exact storeFrame_of (changesSpar_put (c := .stV) Spar.scrPut slot2Addr fun x f => vecBytes (x.vget f.b.toNat))
      fun _ _ => hbits _ rfl
  · exact storeFrame_of (changesSpar_put (c := .stP) Spar.scrPut slot2Addr fun x f => leBytes 32 (x.pget f.b.toNat).toNat)
      fun _ _ => hbits _ rfl
  · exact storeFrame_of (changesSpar_put (c := .stM) Spar.scrPut slot2Addr fun x f => leBytes 16 (x.mget f.b.toNat).toNat)
      fun _ _ => hbits _ rfl

end Sys2Proof.Machine
end

section
/-! PROOF. A notice at a destination: merged, queued or lost (13 R409-R411). -/

namespace Sys2Proof.Machine

open Sys2Proof Sys2Proof.Safety

/-! Merging (R411). -/

/-- A record that merges merges into one queued, of the same event, and the queue holds no more records than before. -/
theorem mergeInto_some {n : Notice} {q r : List Notice} (h : mergeInto n q = some r) :
    r.length = q.length ∧ ∃ m ∈ q, sameEvent n m = true := by
  induction q generalizing r with
  | nil => cases h
  | cons m l ih =>
    rw [mergeInto] at h
    split at h
    · next hm =>
      cases h
      exact ⟨rfl, m, List.mem_cons_self, hm⟩
    · obtain ⟨l', hl', rfl⟩ := Option.map_eq_some_iff.1 h
      obtain ⟨hlen, e, he, hsame⟩ := ih hl'
      exact ⟨congrArg (· + 1) hlen, e, List.mem_cons_of_mem m he, hsame⟩

/-! What a notice leaves of its destination (R409, R410). -/

theorem deliverTo_merged {s : State} {n : Notice} {k : Nat} {q : List Notice} (h : mergeInto n (s.dest k).queue = some q) :
    s.deliverTo n k = s.setDest k { s.dest k with queue := q } := by
  simp only [State.deliverTo, h]

/-- A vector signalled changes nothing but the host port. -/
theorem msix_dests_od (s : State) (c : Cxl) (v : Nat) :
    (({ s with cxl := c } : State).msix v).dests = s.dests ∧ (({ s with cxl := c } : State).msix v).od = s.od := by
  unfold State.msix
  split <;> exact ⟨rfl, rfl⟩

theorem countLost_dests (s : State) (k : Nat) : (s.countLost k).dests = s.dests := by
  unfold State.countLost
  split_ifs <;> rfl

/-- The counter of lost records counts from the dictionary alone. -/
theorem countLost_od_of_od {s t : State} (h : t.od = s.od) (k : Nat) : (t.countLost k).od = (s.countLost k).od := by
  unfold State.countLost
  split_ifs <;> simp only [State.odAdd, State.odSet, State.odGet, h]

/-- A record queued takes the next SEQ and the destination's loss mark; the ring's run of losses ends with it. -/
theorem dest_deliverTo_queued {s : State} {n : Notice} {k : Nat} (h : mergeInto n (s.dest k).queue = none) (hf : s.destFull k = false) :
    (s.deliverTo n k).dest k = ⟨((s.dest k).seq + 1) % 2 ^ 32, false,
      (s.dest k).queue ++ [{ n with seq := (s.dest k).seq, loss := (s.dest k).lossDue }]⟩ := by
  simp only [State.deliverTo, h, hf, Bool.false_eq_true, if_false]
  split <;> exact dest_setDest_self ..

/-- A record lost leaves its destination with the next SEQ and the loss mark, and its counter one higher. -/
theorem deliverTo_lost {s : State} {n : Notice} {k : Nat} (h : mergeInto n (s.dest k).queue = none) (hf : s.destFull k = true) :
    (s.deliverTo n k).dests = (s.setDest k { s.dest k with seq := ((s.dest k).seq + 1) % 2 ^ 32, lossDue := true }).dests ∧
    (s.deliverTo n k).od = (s.countLost k).od := by
  have hcount (d : Dest) : ((s.setDest k d).countLost k).dests = (s.setDest k d).dests ∧
      ((s.setDest k d).countLost k).od = (s.countLost k).od := 
    ⟨countLost_dests .., countLost_od_of_od (s := s) (t := s.setDest k d) rfl k⟩
  simp only [State.deliverTo, h, hf, if_true]
  split
  · obtain ⟨hdests, hod⟩ := hcount { s.dest k with seq := ((s.dest k).seq + 1) % 2 ^ 32, lossDue := true }
    exact ⟨(msix_dests_od ..).1.trans hdests, (msix_dests_od ..).2.trans hod⟩
  · exact hcount _

/-- The object that counts the lost records of a destination (R410). -/
theorem odGet_countLost {s : State} {k i sub : Nat}
    (h : (i, sub) = (if k = 0 then (0x1800, 0xA) else if k = 1 then (0x1020, 4) else (0x1010 + (k - 16) / 8, 8))) :
    (s.countLost k).odGet 0 i sub = (s.odGet 0 i sub + 1) % 2 ^ 64 := by
  unfold State.countLost
  split_ifs at h ⊢ <;> cases h <;> exact State.odGet_odAdd_self ..

/-- Settles O35: a notice by its three ways, and a merge by the queue's records in order. -/
theorem noticeDelivery : Obligations.NoticeDelivery := by
  unfold Obligations.NoticeDelivery
  refine ⟨fun s n k q h => ?_, fun s n k h hf => dest_deliverTo_queued h hf, fun s n k h hf => ?_, fun n q r h => mergeInto_some h⟩
  · rw [deliverTo_merged h, dest_setDest_self]
  · obtain ⟨hdests, hod⟩ := deliverTo_lost h hf
    refine ⟨?_, fun i sub hobj => ?_⟩
    · rw [State.dest, hdests]
      exact dest_setDest_self ..
    · rw [State.odGet, hod]
      exact odGet_countLost hobj

end Sys2Proof.Machine
end

section
/-! PROOF. Performance states and the monitored inputs (15 R450, R451, R465, R466). -/

namespace Sys2Proof.Machine

open Sys2Proof Sys2Proof.Safety

/-! A change of the performance state (R450, R451): what it writes, and what it leaves. -/

theorem odGet_writeTarget_self (s : State) (g mv : Nat) : (s.writeTarget g mv).odGet 0 (railIdx g) 1 = mv :=
  s.odGet_odSet_self 0 (railIdx g) 1 mv

theorem odGet_writeTarget_other (s : State) {g mv q i sub : Nat} (h : odKey 0 (railIdx g) 1 ≠ odKey q i sub) :
    (s.writeTarget g mv).odGet q i sub = s.odGet q i sub := s.odGet_odSet_other mv h

/-- No object of a tower rail group's target, which `writeTargets` sets. -/
def noTarget (q i sub : Nat) : Prop := ∀ g < 2, odKey 0 (railIdx g) 1 ≠ odKey q i sub

theorem odGet_writeTargets_other (s : State) {p q i sub : Nat} (h : noTarget q i sub) : (s.writeTargets p).odGet q i sub = s.odGet q i sub :=
  (odGet_writeTarget_other _ (h 1 (by decide))).trans (odGet_writeTarget_other s (h 0 (by decide)))

theorem odGet_writeTargets_rail (s : State) {g p : Nat} (hg : g < 2) : (s.writeTargets p).odGet 0 (railIdx g) 1 = s.railTarget g p := by
  have hk : odKey 0 (railIdx 1) 1 ≠ odKey 0 (railIdx 0) 1 := by decide
  obtain rfl | rfl : g = 0 ∨ g = 1 := by omega
  · exact (odGet_writeTarget_other _ hk).trans (odGet_writeTarget_self s 0 _)
  · exact odGet_writeTarget_self _ 1 _

/-- The states agree in everything but the dictionary's scalars, the record of outputs and the power state. -/
def sameBeyondPower (s u : State) : Prop := { u with od := s.od, out := s.out, power := s.power } = s

theorem sameBeyondPower.trans {s t u : State} (h : sameBeyondPower s t) (h' : sameBeyondPower t u) : sameBeyondPower s u := by
  unfold sameBeyondPower at *
  rw [← h, ← h']

theorem sameBeyondPower_writeTarget (s : State) (g mv : Nat) : sameBeyondPower s (s.writeTarget g mv) := rfl

theorem sameBeyondPower_modPower (s : State) (f : Power → Power) : sameBeyondPower s (s.modPower f) := rfl

theorem sameBeyondPower_writeTargets (s : State) (p : Nat) : sameBeyondPower s (s.writeTargets p) :=
  .trans ((sameBeyondPower_writeTarget s 0 _).trans (sameBeyondPower_writeTarget _ 1 _)) (sameBeyondPower_modPower _ _)

theorem sameBeyondPower_evalPower (s : State) : sameBeyondPower s s.evalPower := by
  have h0 : sameBeyondPower s (s.odSet 0 0x9001 3 s.causes) := rfl
  unfold State.evalPower
  dsimp only
  split
  · exact h0.trans (sameBeyondPower_modPower _ _)
  · split
    · exact h0.trans ((sameBeyondPower_writeTargets _ _).trans (sameBeyondPower_modPower _ _))
    · exact h0

theorem odGet_modPower (s : State) (f : Power → Power) (q i sub : Nat) : (s.modPower f).odGet q i sub = s.odGet q i sub := rfl

theorem odGet_evalPower (s : State) {q i sub : Nat} (ht : noTarget q i sub) (hc : odKey 0 0x9001 3 ≠ odKey q i sub) :
    s.evalPower.odGet q i sub = s.odGet q i sub := by
  have h1 : (s.odSet 0 0x9001 3 s.causes).odGet q i sub = s.odGet q i sub := s.odGet_odSet_other _ hc
  unfold State.evalPower
  dsimp only
  split
  · exact h1
  · split
    · exact (odGet_modPower _ _ q i sub).trans ((odGet_writeTargets_other _ ht).trans h1)
    · exact h1

theorem faultQ_evalPower (s : State) : s.evalPower.faultQ = s.faultQ := (congrArg State.faultQ (sameBeyondPower_evalPower s) :)

theorem slices_evalPower (s : State) : s.evalPower.slices = s.slices := (congrArg State.slices (sameBeyondPower_evalPower s) :)

theorem power_writeTargets (s : State) (p : Nat) : (s.writeTargets p).power = { s.power with vdoneWait := [0, 1] } := rfl

/-- Of the power state, only the change under way is touched. -/
theorem power_evalPower (s : State) :
    { s.evalPower.power with move := s.power.move, target := s.power.target, vdoneWait := s.power.vdoneWait } = s.power := by
  unfold State.evalPower
  dsimp only
  split
  · rfl
  · split
    · simp only [State.modPower, power_writeTargets, State.odSet_power]
    · rfl

theorem wantState_odSet_causes (s : State) (c : Nat) : (s.odSet 0 0x9001 3 c).wantState = s.wantState := by
  have hcap : (s.odSet 0 0x9001 3 c).odGet 0 0x9001 2 = s.odGet 0 0x9001 2 := s.odGet_odSet_other c (by decide)
  have hin : ∀ i sub, (s.odSet 0 0x9001 3 c).odGet 0 (inputIdx i) sub = s.odGet 0 (inputIdx i) sub := fun i sub =>
    s.odGet_odSet_other c (by unfold inputIdx odKey; omega)
  have hm : (s.odSet 0 0x9001 3 c).masked = s.masked := funext fun i => by rw [State.masked, hin]; rfl
  have hon : (s.odSet 0 0x9001 3 c).inputOn 4 = s.inputOn 4 := by rw [State.inputOn, State.level, hin, hm]; rfl
  have hcauses : (s.odSet 0 0x9001 3 c).causes = s.causes := by
    unfold State.causes
    rw [hcap, hm, hon]
    rfl
  unfold State.wantState
  rw [hcap, hcauses]
  rfl

/-- Where the causes ask for a state below the present one, a downward change to it is under way. -/
theorem evalPower_down {s : State} (hp : s.pState < s.wantState) : s.evalPower.power.move = .down ∧ s.evalPower.power.target = s.wantState := by
  have hlt : (s.odSet 0 0x9001 3 s.causes).pState < (s.odSet 0 0x9001 3 s.causes).wantState := by
    rwa [wantState_odSet_causes, State.pState, s.odGet_odSet_other _ (by decide)]
  unfold State.evalPower
  rw [if_pos hlt]
  exact ⟨rfl, wantState_odSet_causes s _⟩

/-- SLOW_N asserted or masked asks for state 3. -/
theorem wantState_of_slow {s : State} (h : s.inputOn 4 = true) : s.wantState = 3 := by
  have hc : 4 ≤ s.causes := by
    simp only [State.causes, h, if_true]
    omega
  simp only [State.wantState, if_pos hc]
  omega

theorem pState_evalPower (s : State) : s.evalPower.pState = s.pState :=
  odGet_evalPower s (by unfold noTarget; decide) (by decide)

/-! The slices that a change of the islands' state ends (R451). -/

theorem slice_setSlice_self (s : State) (t : Nat) : (s.setSlice t none).slice t = none := by
  simp [State.slice, State.setSlice, mapGet_mapSet_self]

theorem slice_setSlice_other (s : State) {t r : Nat} (x : Option Slice) (h : t ≠ r) : (s.setSlice t x).slice r = s.slice r := by
  simp only [State.slice, State.setSlice, mapGet_mapSet_ne ({} : Slice) {} s.slices _ h]

theorem slice_of_slices {s u : State} (h : u.slices = s.slices) (t : Nat) : u.slice t = s.slice t := by rw [State.slice, h]; rfl

theorem slices_resumeBerth (s : State) (n : Nat) : (s.resumeBerth n).slices = s.slices := by
  unfold State.resumeBerth
  split <;> rfl

theorem od_resumeBerth (s : State) (n : Nat) : (s.resumeBerth n).od = s.od := by
  unfold State.resumeBerth
  split <;> rfl

theorem power_resumeBerth (s : State) (n : Nat) : (s.resumeBerth n).power = s.power := by
  unfold State.resumeBerth
  split <;> rfl

/-- A tower's slice under way ends deferred, as a change of state makes it (R451). -/
def dropSlice (u : State) (t : Nat) : State :=
  match u.slice t with
  | some x => if x.active then ((u.setSlice t none).resumeBerth (132 * t + x.berth)).odAdd 0 (0x8100 + t) 8 1 else u
  | none => u

theorem setPState_eq (s : State) (p : Nat) :
    s.setPState p = (List.range 8).foldl dropSlice ((s.odSet 0 0x9001 1 p).odAdd 0 0x9001 4 1) := rfl

theorem slice_dropSlice_other (u : State) {t r : Nat} (h : t ≠ r) : (dropSlice u t).slice r = u.slice r := by
  unfold dropSlice
  split
  · split
    · exact (slice_of_slices (slices_resumeBerth _ _) r).trans (slice_setSlice_other u none h)
    · rfl
  · rfl

theorem slice_dropSlice_self {u : State} {t : Nat} {x : Slice} (hx : u.slice t = some x) (ha : x.active = true) :
    (dropSlice u t).slice t = none := by
  rw [dropSlice, hx]
  simp only [ha, if_true]
  exact (slice_of_slices (slices_resumeBerth _ _) t).trans (slice_setSlice_self u t)

theorem odGet_dropSlice (u : State) {t q i sub : Nat} (h : odKey 0 (0x8100 + t) 8 ≠ odKey q i sub) :
    (dropSlice u t).odGet q i sub = u.odGet q i sub := by
  unfold dropSlice
  split
  · split
    · refine (State.odGet_odAdd_other _ 1 h).trans ?_
      rw [State.odGet, od_resumeBerth]
      rfl
    · rfl
  · rfl

theorem power_dropSlice (u : State) (t : Nat) : (dropSlice u t).power = u.power := by
  unfold dropSlice
  split
  · split
    · exact power_resumeBerth _ _
    · rfl
  · rfl

theorem slice_foldl_dropSlice_other {l : List Nat} {r : Nat} (h : r ∉ l) (u : State) : (l.foldl dropSlice u).slice r = u.slice r := by
  induction l generalizing u with
  | nil => rfl
  | cons t l ih =>
    rw [List.mem_cons, not_or] at h
    obtain ⟨hne, hl⟩ := h
    exact (ih hl _).trans (slice_dropSlice_other u (Ne.symm hne))

theorem slice_foldl_dropSlice {l : List Nat} (hn : l.Nodup) {t : Nat} (ht : t ∈ l) {u : State} {x : Slice} (hx : u.slice t = some x)
    (ha : x.active = true) : (l.foldl dropSlice u).slice t = none := by
  induction l generalizing u with
  | nil => cases ht
  | cons k l ih =>
    obtain ⟨hk, hl⟩ := List.nodup_cons.mp hn
    by_cases hkt : k = t
    · subst hkt
      exact (slice_foldl_dropSlice_other hk _).trans (slice_dropSlice_self hx ha)
    · exact ih hl ((List.mem_cons.mp ht).resolve_left (Ne.symm hkt)) ((slice_dropSlice_other u hkt).trans hx)

theorem odGet_foldl_dropSlice {l : List Nat} {q i sub : Nat} (h : ∀ t ∈ l, odKey 0 (0x8100 + t) 8 ≠ odKey q i sub) (u : State) :
    (l.foldl dropSlice u).odGet q i sub = u.odGet q i sub := by
  induction l generalizing u with
  | nil => rfl
  | cons t l ih => exact (ih (fun k hk => h k (List.mem_cons_of_mem t hk)) _).trans (odGet_dropSlice u (h t List.mem_cons_self))

theorem power_foldl_dropSlice (l : List Nat) (u : State) : (l.foldl dropSlice u).power = u.power := by
  induction l generalizing u with
  | nil => rfl
  | cons t l ih => exact (ih _).trans (power_dropSlice u t)

/-! The islands take a state (R451). -/

theorem power_setPState (s : State) (p : Nat) : (s.setPState p).power = s.power := by
  rw [setPState_eq, power_foldl_dropSlice]
  rfl

theorem pState_setPState (s : State) (p : Nat) : (s.setPState p).pState = p := by
  rw [State.pState, setPState_eq, odGet_foldl_dropSlice (by decide), State.odGet_odAdd_other _ 1 (by decide), State.odGet_odSet_self]

theorem pState_modPower (s : State) (f : Power → Power) : (s.modPower f).pState = s.pState := rfl

theorem steps_setPState (s : State) (p : Nat) : (s.setPState p).odGet 0 0x9001 4 = (s.odGet 0 0x9001 4 + 1) % 2 ^ 64 := by
  rw [setPState_eq, odGet_foldl_dropSlice (by decide), State.odGet_odAdd_self, State.odGet_odSet_other _ _ (by decide)]

theorem slice_setPState (s : State) {p t : Nat} (ht : t < 8) {x : Slice} (hx : s.slice t = some x) (ha : x.active = true) :
    (s.setPState p).slice t = none := by
  rw [setPState_eq]
  exact slice_foldl_dropSlice List.nodup_range (List.mem_range.mpr ht) (u := (s.odSet 0 0x9001 1 p).odAdd 0 0x9001 4 1) hx ha

theorem railTarget_of_power {s u : State} (h : u.power = s.power) (g p : Nat) : u.railTarget g p = s.railTarget g p := by
  unfold State.railTarget
  rw [h]

/-- ISLANDS_FREQUENCY_ACK of a downward change. -/
theorem execIslandsFrequencyAck_down {s : State} (hh : s.handling = true) (hm : s.power.move = .down) (hp : s.pState < s.power.target) :
    execIslandsFrequencyAck s = .next ((s.setPState s.power.target).writeTargets s.power.target) := by
  rw [execIslandsFrequencyAck, handleEvent, hh, if_pos rfl, if_pos ⟨hm, hp⟩]

theorem slice_writeTargets (s : State) (p t : Nat) : (s.writeTargets p).slice t = s.slice t := rfl

/-- VDONE_READ of an upward change. -/
theorem execVdoneRead_up {s : State} (hh : s.handling = true) (hw : s.power.vdoneWait ≠ []) (hm : s.power.move = .up) :
    execVdoneRead s = .next ((((s.modPower fun w => { w with vdoneWait := [] }).setPState s.power.target).modPower
      fun w => { w with move := .idle }).evalPower) := by
  have hm' : (s.modPower fun w => { w with vdoneWait := [] }).power.move = .up := hm
  rw [execVdoneRead, handleEvent, hh, if_pos rfl, if_neg hw]
  simp only [hm']
  rfl

/-! The state cap (R450). -/

theorem wantState_ge_cap {s : State} {v : Nat} (hv : v ≤ 3) : v ≤ (s.odSet 0 0x9001 2 v).wantState := by
  unfold State.wantState
  rw [State.odGet_odSet_self]
  omega

theorem pState_odSet_cap (s : State) (v : Nat) : (s.odSet 0 0x9001 2 v).pState = s.pState := s.odGet_odSet_other v (by decide)

/-! The monitored inputs (R465, R466). -/

theorem noTarget_input {i sub : Nat} (h : sub < 256) : noTarget 0 (inputIdx i) sub := by
  unfold noTarget railIdx inputIdx odKey
  omega

theorem odGet_evalPower_input (s : State) {i sub : Nat} (h : sub < 256) : s.evalPower.odGet 0 (inputIdx i) sub = s.odGet 0 (inputIdx i) sub :=
  odGet_evalPower s (noTarget_input h) (by unfold inputIdx odKey; omega)

theorem masked_evalPower (s : State) (i : Nat) : s.evalPower.masked i = s.masked i := by
  rw [State.masked, odGet_evalPower_input s (by decide)]
  rfl

theorem level_evalPower (s : State) (i : Nat) : s.evalPower.level i = s.level i := by
  rw [State.level, odGet_evalPower_input s (by decide)]
  rfl

theorem odGet_storm (s : State) (i n : Nat) {q j sub : Nat} (h2 : odKey 0 (inputIdx i) 2 ≠ odKey q j sub)
    (h4 : odKey 0 (inputIdx i) 4 ≠ odKey q j sub) : (s.storm i n).odGet q j sub = s.odGet q j sub := by
  unfold State.storm
  split
  · exact (State.odGet_odAdd_other (s.odSet 0 (inputIdx i) 2 1) 1 h4).trans (s.odGet_odSet_other 1 h2)
  · rfl

theorem storm_masks {s : State} {i n : Nat} (hn : 1000 < n) (hm : s.masked i = false) :
    (s.storm i n).masked i = true ∧ faultRaised (s.storm i n) 0x0803 := by
  rw [State.storm, if_pos ⟨hn, by simp [hm]⟩]
  refine ⟨?_, _, List.mem_append_right _ List.mem_cons_self, rfl⟩
  have h : ((s.odSet 0 (inputIdx i) 2 1).odAdd 0 (inputIdx i) 4 1).odGet 0 (inputIdx i) 2 = 1 :=
    (State.odGet_odAdd_other _ 1 (by unfold odKey; omega)).trans (s.odGet_odSet_self 0 (inputIdx i) 2 1)
  exact decide_eq_true h

theorem level_assertInput (s : State) (i n : Nat) : (s.assertInput i n).odGet 0 (inputIdx i) 1 = 1 := by
  rw [State.assertInput, odGet_storm _ i n (by unfold odKey; omega) (by unfold odKey; omega),
    State.odGet_odAdd_other _ 1 (by unfold odKey; omega), State.odGet_odSet_self]

theorem assertions_assertInput (s : State) (i n : Nat) :
    (s.assertInput i n).odGet 0 (inputIdx i) 3 = (s.odGet 0 (inputIdx i) 3 + 1) % 2 ^ 64 := by
  rw [State.assertInput, odGet_storm _ i n (by unfold odKey; omega) (by unfold odKey; omega), State.odGet_odAdd_self,
    State.odGet_odSet_other _ _ (by unfold odKey; omega)]

theorem masked_odSet_odAdd (s : State) (i : Nat) : ((s.odSet 0 (inputIdx i) 1 1).odAdd 0 (inputIdx i) 3 1).masked i = s.masked i := by
  rw [State.masked, State.odGet_odAdd_other _ 1 (by unfold odKey; omega), State.odGet_odSet_other _ 1 (by unfold odKey; omega)]
  rfl

/-- More than 1,000 assertions in 10 ms mask an input and raise INPUT_STORM (R466). -/
theorem assertInput_masks {s : State} {i n : Nat} (hn : 1000 < n) (hm : s.masked i = false) :
    (s.assertInput i n).masked i = true ∧ faultRaised (s.assertInput i n) 0x0803 :=
  storm_masks hn ((masked_odSet_odAdd s i).trans hm)

theorem pState_assertInput (s : State) (n : Nat) : (s.assertInput 4 n).pState = s.pState := by
  rw [State.pState, State.assertInput, odGet_storm _ 4 n (by decide) (by decide), State.odGet_odAdd_other _ 1 (by decide),
    State.odGet_odSet_other _ 1 (by decide)]
  rfl

theorem od_releaseAlert (s : State) (g : Nat) : (s.releaseAlert g).od = s.od := by
  unfold State.releaseAlert
  split <;> rfl

/-- An input unmasked shows the level it was given. -/
theorem inputUnmask_levels (s : State) (i : Nat) (b : Bool) :
    ((s.odSet 0 (inputIdx i) 2 0).odSet 0 (inputIdx i) 1 (if b then 1 else 0)).masked i = false ∧
    ((s.odSet 0 (inputIdx i) 2 0).odSet 0 (inputIdx i) 1 (if b then 1 else 0)).level i = b := by
  refine ⟨?_, ?_⟩
  · rw [State.masked, State.odGet_odSet_other _ _ (by unfold odKey; omega), State.odGet_odSet_self]
    rfl
  · rw [State.level, State.odGet_odSet_self]
    cases b <;> rfl

/-- Settles O52: a change of state is traced through `evalPower`, `setPState` and `writeTargets`, and an input's objects are none of
those they write. -/
theorem performanceStates : Obligations.PerformanceStates := by
  refine ⟨⟨fun s v hs hv => ?_, fun s v hv => ?_, fun s n hh hm ht hp => ?_, fun s n hh hw hm ht => ?_⟩,
    fun s n hh => ?_, fun s hh => ?_, fun s i b hh hm => ?_, fun s i b hm => ?_⟩
  · have he : exec (.stateCapWrite v) s = .next (s.odSet 0 0x9001 2 v).evalPower := by
      simp only [exec]
      rw [execStateCapWrite, runDevCmd, hs, if_pos rfl, writeStateCap, if_neg (by omega)]
    refine ⟨_, he, ?_, fun hp => ?_⟩
    swap
    · have hw := wantState_ge_cap (s := s) hv
      obtain ⟨hd, ht⟩ := evalPower_down (s := s.odSet 0 0x9001 2 v) (by rw [pState_odSet_cap]; omega)
      exact ⟨hd, ht ▸ hw⟩
    rw [odGet_evalPower _ (by unfold noTarget; decide) (by decide), State.odGet_odSet_self]
  · simp only [exec]
    rw [execStateCapWrite, runDevCmd, writeStateCap, if_pos hv, ite_self]
  · subst ht
    refine ⟨_, by simp only [exec]; exact execIslandsFrequencyAck_down hh hm hp, ?_, ?_, ?_, fun g hg => ?_, fun t ht x hx ha => ?_⟩
    · rw [State.pState, odGet_writeTargets_other _ (by unfold noTarget; decide)]
      exact pState_setPState s _
    · rw [odGet_writeTargets_other _ (by unfold noTarget; decide), steps_setPState]
    · rw [power_writeTargets]
    · rw [odGet_writeTargets_rail _ hg, railTarget_of_power (power_setPState s _)]
    · rw [slice_writeTargets, slice_setPState s ht hx ha]
  · subst ht
    refine ⟨_, by simp only [exec]; exact execVdoneRead_up hh hw hm, ?_, ?_⟩
    · rw [pState_evalPower, pState_modPower, pState_setPState]
    · rw [odGet_evalPower _ (by unfold noTarget; decide) (by decide), odGet_modPower, steps_setPState, odGet_modPower]
  · have he : exec (.slowNAssert n) s = .next (s.assertInput 4 n).evalPower := by
      simp only [exec]
      rw [execSlowNAssert, handleEvent, hh, if_pos rfl]
    have hw : (s.assertInput 4 n).wantState = 3 := wantState_of_slow (by simp [State.inputOn, State.level, level_assertInput])
    refine ⟨_, he, ?_, ?_, fun hp => ?_, fun hn hm => ?_⟩
    · rw [odGet_evalPower_input _ (by decide), level_assertInput]
    · rw [odGet_evalPower_input _ (by decide), assertions_assertInput]
    · obtain ⟨hd, h3⟩ := evalPower_down (s := s.assertInput 4 n) (by rwa [pState_assertInput, hw])
      exact ⟨hd, h3.trans hw⟩
    · obtain ⟨hmask, hraise⟩ := assertInput_masks hn hm
      rw [masked_evalPower, faultRaised, faultQ_evalPower]
      exact ⟨hmask, hraise⟩
  · refine ⟨(s.odSet 0 (inputIdx 4) 1 0).evalPower, ?_, ?_⟩
    · simp only [exec]
      rw [execSlowNRelease, handleEvent, hh, if_pos rfl]
    · rw [odGet_evalPower_input _ (by decide), State.odGet_odSet_self]
  · have hs := inputUnmask_levels s i b
    let s1 := (s.odSet 0 (inputIdx i) 2 0).odSet 0 (inputIdx i) 1 (if b then 1 else 0)
    have ho : ∀ j sub, (if i < 4 ∧ ¬ b then s1.releaseAlert i else s1).odGet 0 j sub = s1.odGet 0 j sub := fun j sub => by
      split
      · rw [State.odGet, od_releaseAlert]
        rfl
      · rfl
    refine ⟨(if i < 4 ∧ ¬ b then s1.releaseAlert i else s1).evalPower, ?_, ?_, ?_⟩
    · simp only [exec]
      rw [execInputUnmask, handleEvent, hh, if_pos rfl, if_neg (not_not_intro hm)]
    · rw [masked_evalPower, State.masked, ho]
      exact hs.1
    · rw [level_evalPower, State.level, ho]
      exact hs.2
  · simp only [exec]
    rw [execInputUnmask, handleEvent]
    simp [hm]

end Sys2Proof.Machine
end

section
/-! PROOF. Thermal control, oscillators and droops (15 R458, R459, R467-R470). -/

namespace Sys2Proof.Machine

open Sys2Proof Sys2Proof.Safety

/-! The fixed path (14 R427): what a fatal record changes. -/

/-- The states agree in everything but the blobs, the notice destinations, the host port and the record of outputs: all that a fatal
record writes. -/
def sameBeyondFixed (s u : State) : Prop :=
  { u with blobs := s.blobs, blobGen := s.blobGen, dests := s.dests, cxl := s.cxl, out := s.out } = s

theorem sameBeyondFixed.trans {s t u : State} (h : sameBeyondFixed s t) (h' : sameBeyondFixed t u) : sameBeyondFixed s u := by
  unfold sameBeyondFixed at *
  rw [← h, ← h']

theorem sameBeyondFixed_msixNow (s : State) (v : Nat) : sameBeyondFixed s (s.msixNow v) := by
  unfold State.msixNow
  split <;> rfl

theorem sameBeyondFixed_emit (s : State) (kind addr : Nat) (data : Bytes) (flag : Nat) : sameBeyondFixed s (s.emit kind addr data flag) := rfl

theorem sameBeyondFixed_setDest (s : State) (k : Nat) (d : Dest) : sameBeyondFixed s (s.setDest k d) := rfl

theorem sameBeyondFixed_modCxl (s : State) (f : Cxl → Cxl) : sameBeyondFixed s (s.modCxl f) := rfl

theorem sameBeyondFixed_foldl {α : Type} {f : State → α → State} (hf : ∀ t a, sameBeyondFixed t (f t a)) (l : List α) (s : State) :
    sameBeyondFixed s (l.foldl f s) := by
  induction l generalizing s with
  | nil => rfl
  | cons a l ih => exact (hf s a).trans (ih _)

theorem sameBeyondFixed_fixedSend (s : State) (n : Notice) : sameBeyondFixed s (s.fixedSend n) := by
  unfold State.fixedSend
  extract_lets stamp x c t t1 s1 x2 s2
  have hstamp : ∀ t k, sameBeyondFixed t (stamp t k).2 := fun t k => sameBeyondFixed_setDest t k _
  have h1 : sameBeyondFixed s s1 := by
    unfold s1
    split
    · have ht : sameBeyondFixed s t1 := (hstamp s 0).trans ((sameBeyondFixed_emit ..).trans (sameBeyondFixed_modCxl ..))
      refine .trans ?_ (sameBeyondFixed_msixNow _ _)
      split
      · exact ht.trans (sameBeyondFixed_emit ..)
      · exact ht
    · rfl
  have h2 : sameBeyondFixed s1 s2 := by
    unfold s2
    split
    · exact (hstamp s1 1).trans (sameBeyondFixed_emit ..)
    · rfl
  exact h1.trans (h2.trans (sameBeyondFixed_foldl (fun t k => (hstamp t k).trans (sameBeyondFixed_emit ..)) _ _))

theorem sameBeyondFixed_fatal (s : State) (code source : Nat) (payload : Bytes) : sameBeyondFixed s (s.fatal code source payload) :=
  .trans (t := s.countFault code) rfl (sameBeyondFixed_fixedSend _ _)

theorem sameBeyondFixed.machine {s u : State} (h : sameBeyondFixed s u) : sameMachine s u :=
  ⟨(congrArg State.dome h :), (congrArg State.poison h :), (congrArg State.spars h :), (congrArg State.parts h :), (congrArg State.ports h :)⟩

/-! Temperature (R467-R470). -/

/-- What a change of power state leaves of the thermal controller. -/
theorem thermal_evalPower (s : State) :
    s.evalPower.power.thermal = s.power.thermal ∧ s.evalPower.power.excursion = s.power.excursion ∧
    s.evalPower.power.hotDomes = s.power.hotDomes :=
  ⟨(congrArg Power.thermal (power_evalPower s) :), (congrArg Power.excursion (power_evalPower s) :),
    (congrArg Power.hotDomes (power_evalPower s) :)⟩

theorem odGet_evalPower_thermal (s : State) (sub : Nat) (h : sub < 256) : s.evalPower.odGet 0 0x9030 sub = s.odGet 0 0x9030 sub :=
  odGet_evalPower s (by unfold noTarget railIdx odKey; omega) (by unfold odKey; omega)

theorem thermal_setThermal (s : State) (v : Nat) : (s.setThermal v).power.thermal = v := by
  unfold State.setThermal
  split
  · assumption
  · rfl

theorem power_setThermal (s : State) (v : Nat) : (s.setThermal v).power = { s.power with thermal := v } := by
  unfold State.setThermal
  split
  · next h => rw [← h]
  · rfl

theorem odGet_setThermal (s : State) (v : Nat) {q i sub : Nat} (h : odKey 0 0x9030 4 ≠ odKey q i sub) :
    (s.setThermal v).odGet q i sub = s.odGet q i sub := by
  unfold State.setThermal
  split
  · rfl
  · exact (State.odGet_odAdd_other _ 1 h).trans (odGet_modPower s _ q i sub)

/-- The readings and their smallest margin are noted, and the domes above 85 °C (R467, R469). -/
def noteReadings (s : State) (rs : List Int) : State :=
  ((({ s with riskShort := max s.riskShort (shortfall (smallestMargin rs).2) } : State).blobSet 0 0x9030 1
    (rs.flatMap fun r => leBytes 2 (ofSigned 16 r))).odSet 0 0x9030 2 (ofSigned 32 (smallestMargin rs).2)).modPower
      fun w => { w with hotDomes := (List.range 16).filter fun d => decide (340 < rs.getD (36 + d) 0) }

theorem odGet_noteReadings (s : State) (rs : List Int) {q i sub : Nat} (h : odKey 0 0x9030 2 ≠ odKey q i sub) :
    (noteReadings s rs).odGet q i sub = s.odGet q i sub :=
  (odGet_modPower _ _ q i sub).trans (State.odGet_odSet_other _ _ h)

/-- The record of an excursion (15 Table 15-3). -/
def excursionPayload (rs : List Int) : Bytes :=
  thermalPayload (smallestMargin rs).1 false (rs.getD (smallestMargin rs).1 0) (sensorLimit (smallestMargin rs).1)

/-- An excursion begins: it is counted and raised (R469). -/
def beginExcursion (s : State) (payload : Bytes) : State :=
  ((s.modPower fun w => { w with excursion := true }).odAdd 0 0x9030 3 1).raise 0x0802 (unitId 0 0) 4 (islSpire 0) payload

theorem execThermalReading_eq {s : State} {rs : List Int} (hh : s.handling = true) (hl : rs.length = 88) :
    exec (.thermalReading rs) s = .next
      (if (smallestMargin rs).2 ≤ 0 then
        (if ((noteReadings s rs).setThermal 3).power.excursion then (noteReadings s rs).setThermal 3
         else beginExcursion ((noteReadings s rs).setThermal 3) (excursionPayload rs)).evalPower
      else if (smallestMargin rs).2 < (noteReadings s rs).marginOf 5 then
        ((noteReadings s rs).setThermal (min 3 ((noteReadings s rs).power.thermal + 1))).evalPower
      else noteReadings s rs) := by
  simp only [exec]
  rw [execThermalReading, handleEvent, hh, if_pos rfl, if_neg (not_not_intro hl)]
  rfl

theorem marginOf_noteReadings (s : State) (rs : List Int) : (noteReadings s rs).marginOf 5 = s.marginOf 5 := by
  rw [State.marginOf, odGet_noteReadings s rs (by decide)]
  rfl

/-- A trip stops the device; memory, spars, partitions and ports stay (R470). -/
theorem execThermalTrip_stops {s : State} {k : Nat} {t : Int} (hp : s.pwrgd = true) (ht : s.tripN = false) (hk : k < 88)
    (h : sensorTrip k ≤ t) :
    ∃ u, exec (.thermalTrip k t) s = .next u ∧ u.boot = .stopped ∧ u.tripN = true ∧ u.faultN = true ∧ sameMachine s u := by
  simp only [exec]
  rw [execThermalTrip, if_pos ⟨hp, by simp [ht], hk, h⟩]
  refine ⟨_, rfl, rfl, rfl, rfl, ?_⟩
  split
  · exact ⟨rfl, rfl, rfl, rfl, rfl⟩
  · exact (sameBeyondFixed_fatal s 0x0802 (unitId 0 0) (thermalPayload k true t (sensorTrip k))).machine

/-! Oscillators and droops (R458, R459). -/

/-- The trims of clock record `k`'s islands are counted. -/
def addTrims (t : State) (k : Nat) : State := t.odAdd 0 (0x9020 + k) 3 (if k < 8 then 135 else 24)

theorem odGet_addTrims_other (t : State) {k j : Nat} (h : k ≠ j) : (addTrims t k).odGet 0 (0x9020 + j) 3 = t.odGet 0 (0x9020 + j) 3 :=
  t.odGet_odAdd_other _ (by unfold odKey; omega)

theorem odGet_foldl_addTrims_other {l : List Nat} {k : Nat} (h : k ∉ l) (s : State) :
    (l.foldl addTrims s).odGet 0 (0x9020 + k) 3 = s.odGet 0 (0x9020 + k) 3 := by
  induction l generalizing s with
  | nil => rfl
  | cons j l ih =>
    rw [List.mem_cons, not_or] at h
    exact (ih h.2 _).trans (odGet_addTrims_other s (Ne.symm h.1))

theorem odGet_foldl_addTrims {l : List Nat} (hn : l.Nodup) {k : Nat} (hk : k ∈ l) (s : State) :
    (l.foldl addTrims s).odGet 0 (0x9020 + k) 3 = (s.odGet 0 (0x9020 + k) 3 + (if k < 8 then 135 else 24)) % 2 ^ 64 := by
  induction l generalizing s with
  | nil => cases hk
  | cons j l ih =>
    obtain ⟨hj, hl⟩ := List.nodup_cons.mp hn
    by_cases hjk : j = k
    · subst hjk
      exact (odGet_foldl_addTrims_other hj _).trans (s.odGet_odAdd_self ..)
    · exact (ih hl ((List.mem_cons.mp hk).resolve_left (Ne.symm hjk)) _).trans (by rw [odGet_addTrims_other s hjk])

/-- A droop's end: the event and its stretched cycles are counted (R459). -/
def countDroop (s : State) (i n : Nat) : State := (s.odAdd 0 (clockIdx i) 1 1).odAdd 0 (clockIdx i) 2 n

theorem odGet_countDroop (s : State) (i n : Nat) :
    (countDroop s i n).odGet 0 (clockIdx i) 1 = (s.odGet 0 (clockIdx i) 1 + 1) % 2 ^ 64 ∧
    (countDroop s i n).odGet 0 (clockIdx i) 2 = (s.odGet 0 (clockIdx i) 2 + n) % 2 ^ 64 := by
  refine ⟨?_, ?_⟩
  · rw [countDroop, State.odGet_odAdd_other _ n (by unfold odKey; omega), State.odGet_odAdd_self]
  · rw [countDroop, State.odGet_odAdd_self, State.odGet_odAdd_other _ 1 (by unfold odKey; omega)]

/-- SUPPLY_RECOVERY of an island whose cycles were stretched: its cycle counter lags by some number of them. -/
theorem execSupplyRecovery_stretched {s : State} {i n : Nat} (hh : s.handling = true) (hi : i ∈ s.power.droop) (hn : 0 < n) :
    ∃ t : State, ∃ d ≤ n, t.od = s.od ∧ t.power.droop = setDel s.power.droop i ∧ exec (.supplyRecovery i n) s =
      .next { countDroop t i n with cycLost := mapSet 0 s.cycLost i (mapGet 0 s.cycLost i + d) } := by
  refine ⟨{ s with power := { s.power with droop := setDel s.power.droop i }, fresh := s.fresh + 1 },
    (Config.freeValue s.fresh 64).toNat % (n + 1), Nat.le_of_lt_succ (Nat.mod_lt _ (Nat.succ_pos n)),
    rfl, rfl, ?_⟩
  simp only [exec]
  rw [execSupplyRecovery, handleEvent, hh, if_pos rfl, if_neg (by simpa using hi)]
  simp only [if_neg (Nat.pos_iff_ne_zero.mp hn)]
  rfl

/-- Settles O53: the controller's state is followed through `setThermal` and `evalPower`, which write none of the objects counted. -/
theorem thermalControl : Obligations.ThermalControl := by
  refine ⟨⟨fun s rs hh hl hm hx => ?_, fun s rs hh hl hm hlt => ?_, fun s hh hm => ?_, fun s k t hp ht hk h => execThermalTrip_stops hp ht hk h⟩,
    fun s hh => ?_, fun s i hh => ?_, fun s i n hh hi hn => ?_⟩
  · have hpow := power_setThermal (noteReadings s rs) 3
    have hexc : ((noteReadings s rs).setThermal 3).power.excursion = false := by rw [hpow]; exact hx
    have he := execThermalReading_eq hh hl
    rw [if_pos hm, hexc, if_neg (by decide)] at he
    obtain ⟨hth, hex, hhot⟩ := thermal_evalPower (beginExcursion ((noteReadings s rs).setThermal 3) (excursionPayload rs))
    refine ⟨_, he, ?_, hex.trans rfl, ?_, ?_, ?_⟩
    · exact hth.trans (thermal_setThermal _ 3)
    · rw [faultRaised, faultQ_evalPower]
      exact ⟨_, List.mem_append_right _ List.mem_cons_self, rfl⟩
    · rw [odGet_evalPower_thermal _ 3 (by decide)]
      refine (State.odGet_odAdd_self _ 0 0x9030 3 1).trans ?_
      rw [odGet_modPower, odGet_setThermal _ 3 (by decide), odGet_noteReadings s rs (by decide)]
    · exact hhot.trans (congrArg Power.hotDomes hpow)
  · have he := execThermalReading_eq hh hl
    rw [if_neg (by omega), if_pos (by rwa [marginOf_noteReadings])] at he
    exact ⟨_, he, (thermal_evalPower _).1.trans (thermal_setThermal _ _)⟩
  · refine ⟨((s.modPower fun w => { w with excursion := false }).setThermal (s.power.thermal - 1)).evalPower, ?_, ?_, ?_⟩
    · simp only [exec]
      rw [execThermalStepUp, handleEvent, hh, if_pos rfl, if_neg (by omega)]
    · exact (thermal_evalPower _).1.trans (thermal_setThermal _ _)
    · rw [(thermal_evalPower _).2.1, power_setThermal]
      rfl
  · refine ⟨(List.range 9).foldl addTrims s, ?_, fun k hk => odGet_foldl_addTrims List.nodup_range (List.mem_range.mpr hk) s⟩
    simp only [exec]
    rw [execOscillatorTrim, handleEvent, hh, if_pos rfl]
    rfl
  · refine ⟨s.modPower fun w => { w with droop := setIns w.droop i }, ?_, mem_setIns.mpr (.inl rfl), rfl⟩
    simp only [exec]
    rw [execSupplyDroop, handleEvent, hh, if_pos rfl]
  · obtain ⟨t, d, hd, hod, hdr, he⟩ := execSupplyRecovery_stretched hh hi hn
    have hg : ∀ sub, t.odGet 0 (clockIdx i) sub = s.odGet 0 (clockIdx i) sub := fun sub => by rw [State.odGet, hod]; rfl
    obtain ⟨h1, h2⟩ := odGet_countDroop t i n
    rw [hg] at h1 h2
    refine ⟨_, he, ?_, h1, h2, ?_, ?_⟩
    · have : i ∉ setDel s.power.droop i := by simp [setDel]
      exact hdr ▸ this
    · exact (Nat.le_add_right _ d).trans_eq (mapGet_mapSet_self 0 s.cycLost i _).symm
    · exact (mapGet_mapSet_self 0 s.cycLost i _).trans_le (Nat.add_le_add_left hd _)

end Sys2Proof.Machine
end

section
/-! PROOF. Power, resets and boot (15 R455, R456, R462, R464, 16 R477-R483). -/

namespace Sys2Proof.Machine

open Sys2Proof Sys2Proof.Safety

/-! The boot ROM (16 R478): what its steps leave of what the release of RST_N took. -/

/-- The release of RST_N and what it took are as they were: the PUF's values, the pin, the flash, the straps and the identity. -/
structure keepsRelease (s u : State) : Prop where
  puf : u.puf = s.puf
  rstN : u.rstN = s.rstN
  flash : u.flash = s.flash
  identity : u.identity = s.identity
  straps : u.odGet 0 0x4001 0 = s.odGet 0 0x4001 0

theorem keepsRelease.refl (s : State) : keepsRelease s s := ⟨rfl, rfl, rfl, rfl, rfl⟩

theorem keepsRelease.trans {s t u : State} (h : keepsRelease s t) (h' : keepsRelease t u) : keepsRelease s u :=
  ⟨h'.puf.trans h.puf, h'.rstN.trans h.rstN, h'.flash.trans h.flash, h'.identity.trans h.identity, h'.straps.trans h.straps⟩

theorem keepsRelease_odSet (s : State) {q i sub v : Nat} (h : odKey q i sub ≠ odKey 0 0x4001 0) : keepsRelease s (s.odSet q i sub v) :=
  ⟨rfl, rfl, rfl, rfl, s.odGet_odSet_other v h⟩

theorem keepsRelease_bootBit (s : State) (k : Nat) : keepsRelease s (s.bootBit k) := keepsRelease_odSet s (by decide)

theorem keepsRelease_measure (s : State) (k : Nat) (v : Bytes) : keepsRelease s (s.measure k v) := ⟨rfl, rfl, rfl, rfl, rfl⟩

theorem keepsRelease_keepFault (s : State) (n : Notice) : keepsRelease s (s.keepFault n) := ⟨rfl, rfl, rfl, rfl, rfl⟩

theorem keepsRelease_sigRecord (s : State) (obj cause : Nat) (o : Option Bytes) : keepsRelease s (s.sigRecord obj cause o).2 :=
  ⟨rfl, rfl, rfl, rfl, rfl⟩

theorem keepsRelease_bootPolicy (s : State) : keepsRelease s s.bootPolicy := by
  unfold State.bootPolicy
  extract_lets o
  split
  · next b _ _ =>
    refine .trans (t := { s with platKey := objKey b }) ⟨rfl, rfl, rfl, rfl, rfl⟩ ?_
    refine .trans ?_ (keepsRelease_bootBit _ 0)
    refine .trans ?_ (keepsRelease_measure _ 3 _)
    refine .trans ?_ (keepsRelease_odSet _ (by decide))
    refine .trans ?_ (keepsRelease_odSet _ (by decide))
    exact keepsRelease_odSet _ (by decide)
  · exact (keepsRelease_sigRecord s 3 _ _).trans (keepsRelease_keepFault _ _)

theorem keepsRelease_slotRejected (s : State) (slot : Nat) : keepsRelease s (s.slotRejected slot).2 := by
  unfold State.slotRejected
  extract_lets o
  split
  · exact ⟨rfl, rfl, rfl, rfl, rfl⟩
  · split <;> exact .refl s

theorem keepsRelease_rejectSlot (s : State) (slot : Nat) (n : Notice) : keepsRelease s (s.rejectSlot slot n) :=
  .trans (t := s.blobSet 0 0xA000 6 (patchBytes (s.blobGet 0 0xA000 6) (64 * slot) n.bytes)) ⟨rfl, rfl, rfl, rfl, rfl⟩
    ((keepsRelease_bootBit _ _).trans (keepsRelease_keepFault _ _))

theorem keepsRelease_takeSlot (s : State) (slot : Nat) : keepsRelease s (s.takeSlot slot) := by
  unfold State.takeSlot
  extract_lets o
  refine .trans (t := { s with boot := .firmware }) ⟨rfl, rfl, rfl, rfl, rfl⟩ ?_
  refine .trans ?_ (keepsRelease_measure _ 2 _)
  exact (keepsRelease_odSet _ (by decide)).trans (keepsRelease_odSet _ (by decide))

theorem keepsRelease_recover (s : State) : keepsRelease s s.recover :=
  .trans (t := { s with boot := .recovery, faultN := true }) ⟨rfl, rfl, rfl, rfl, rfl⟩ (keepsRelease_bootBit _ 5)

/-- The identity becomes the public half of the unwrapped key, or stays (R483). -/
theorem keepsRelease_bootIdentity (s : State) : keepsRelease
    { s with identity := (match unwrapIdentity (s.puf.getD []) s.flash with | .ok k => some (Config.publicKey k) | .error _ => s.identity) }
    s.bootIdentity := by
  unfold State.bootIdentity
  split
  · next k hk =>
    simp only [hk]
    exact .trans (t := ({ s with identity := some (Config.publicKey k) } : State).blobSet 0 1 8 (sha512 (Config.publicKey k)))
      ⟨rfl, rfl, rfl, rfl, rfl⟩ (keepsRelease_bootBit _ 2)
  · next c hc =>
    simp only [hc]
    exact (keepsRelease_sigRecord s 5 c none).trans (keepsRelease_keepFault _ _)

/-- A slot without an image is rejected (R477). -/
theorem slotRejected_missing {s : State} {slot : Nat} (h : flashObject s.flash (1 + slot) = none) :
    ∃ n, (s.slotRejected slot).1 = some n := by
  unfold State.slotRejected
  simp only [h, State.rejectCause]
  exact ⟨_, rfl⟩

/-- The state the straps, the flash and the PUF give, with the identity and the policy record taken (R477, R483). -/
def releasedState (s : State) (st : BitVec 8) (fl pf : Bytes) : State :=
  ((({ s with rstN := false, straps := st, flash := fl, puf := some (s.puf.getD pf) } : State).odSet 0 0x4001 0 st.toNat).bootIdentity).bootPolicy

/-- The slot whose image is accepted first runs; with none accepted the device recovers (R478, R479). -/
def bootSlots (s : State) : State :=
  match (s.slotRejected 0).1 with
  | none => (s.slotRejected 0).2.takeSlot 0
  | some ra =>
    match (((s.slotRejected 0).2.rejectSlot 0 ra).slotRejected 1).1 with
    | none => (((s.slotRejected 0).2.rejectSlot 0 ra).slotRejected 1).2.takeSlot 1
    | some rb => ((((s.slotRejected 0).2.rejectSlot 0 ra).slotRejected 1).2.rejectSlot 1 rb).recover

theorem execRstNRelease_eq {s : State} {st : BitVec 8} {fl pf : Bytes} (hr : s.rstN = true) (hp : s.pwrgd = true) (ht : s.tripN = false) :
    execRstNRelease st fl pf s = .next (bootSlots (releasedState s st fl pf)) := by
  rw [execRstNRelease, if_neg (not_not_intro hr), if_neg (not_not_intro hp), if_neg (by simp [ht])]
  extract_lets s0 s1 a
  have hs1 : releasedState s st fl pf = s1 := rfl
  rw [hs1, bootSlots]
  cases ha : (s1.slotRejected 0).1 with
  | none => simp only [a]
  | some ra => cases hb : (((s1.slotRejected 0).2.rejectSlot 0 ra).slotRejected 1).1 <;> simp only [a, hb]

theorem keepsRelease_bootSlots (s : State) : keepsRelease s (bootSlots s) := by
  unfold bootSlots
  split
  · exact (keepsRelease_slotRejected s 0).trans (keepsRelease_takeSlot ..)
  · next ra _ =>
    refine .trans (keepsRelease_slotRejected s 0) (.trans (keepsRelease_rejectSlot _ 0 ra) ?_)
    split
    · exact (keepsRelease_slotRejected ..).trans (keepsRelease_takeSlot ..)
    · next rb _ => exact (keepsRelease_slotRejected _ 1).trans ((keepsRelease_rejectSlot _ 1 rb).trans (keepsRelease_recover _))

theorem boot_bootSlots (s : State) : (bootSlots s).boot = .firmware ∨ ((bootSlots s).boot = .recovery ∧ (bootSlots s).faultN = true) := by
  unfold bootSlots
  split
  · exact .inl rfl
  · split
    · exact .inl rfl
    · exact .inr ⟨rfl, rfl⟩

/-- No image in the flash: the recovery state (R479). -/
theorem boot_bootSlots_empty {s : State} (h1 : flashObject s.flash 1 = none) (h2 : flashObject s.flash 2 = none) :
    (bootSlots s).boot = .recovery := by
  obtain ⟨ra, ha⟩ := slotRejected_missing (s := s) (slot := 0) h1
  have hf : ((s.slotRejected 0).2.rejectSlot 0 ra).flash = s.flash :=
    ((keepsRelease_slotRejected s 0).trans (keepsRelease_rejectSlot _ 0 ra)).flash
  obtain ⟨rb, hb⟩ := slotRejected_missing (s := (s.slotRejected 0).2.rejectSlot 0 ra) (slot := 1) (hf.symm ▸ h2)
  rw [bootSlots, ha]
  simp only [hb]
  rfl

/-- What the released state took (R465, R478, R483). -/
theorem releasedState_takes (s : State) (st : BitVec 8) (fl pf : Bytes) : keepsRelease
    { ({ s with rstN := false, straps := st, flash := fl, puf := some (s.puf.getD pf) } : State).odSet 0 0x4001 0 st.toNat with
      identity := (match unwrapIdentity (s.puf.getD pf) fl with | .ok k => some (Config.publicKey k) | .error _ => s.identity) }
    (releasedState s st fl pf) :=
  (keepsRelease_bootIdentity _).trans (keepsRelease_bootPolicy _)

/-! The berth maps (R482). -/

/-- One berth more in a berth map. -/
def mapBerth (usable : Nat → Bool) (acc : Nat × Bytes) (b : Nat) : Nat × Bytes :=
  if usable b then (acc.1 + 1, acc.2 ++ [if acc.1 < 128 then BitVec.ofNat 8 acc.1 else 0xFE]) else (acc.1, acc.2 ++ [0xFF])

theorem berthMapOf_eq (usable : Nat → Bool) : berthMapOf usable = ((List.range 132).foldl (mapBerth usable) (0, [])).2 := rfl

theorem mapBerth_snd (usable : Nat → Bool) (acc : Nat × Bytes) (b : Nat) :
    ∃ x, (mapBerth usable acc b).2 = acc.2 ++ [x] ∧ (usable b = false → x = 0xFF) := by
  unfold mapBerth
  split
  · next h => exact ⟨_, rfl, fun hf => absurd h (by simp [hf])⟩
  · exact ⟨_, rfl, fun _ => rfl⟩

/-- A berth map has an entry for every berth, 0xFF for one that is not usable. -/
theorem foldl_mapBerth (usable : Nat → Bool) (n : Nat) :
    ((List.range n).foldl (mapBerth usable) (0, [])).2.length = n ∧
    ∀ k < n, usable k = false → ((List.range n).foldl (mapBerth usable) (0, [])).2.getD k 0 = 0xFF := by
  induction n with
  | zero => exact ⟨rfl, fun k hk => absurd hk (by omega)⟩
  | succ n ih =>
    obtain ⟨hlen, hget⟩ := ih
    rw [List.range_succ, List.foldl_append, List.foldl_cons, List.foldl_nil]
    obtain ⟨x, hx, hff⟩ := mapBerth_snd usable ((List.range n).foldl (mapBerth usable) (0, [])) n
    rw [hx]
    refine ⟨by simp [hlen], fun k hk hu => ?_⟩
    by_cases hkn : k < n
    · rw [List.getD_append _ _ _ _ (by rwa [hlen])]
      exact hget k hkn hu
    · obtain rfl : k = n := by omega
      rw [List.getD_append_right _ _ _ _ hlen.le, hlen, Nat.sub_self, hff hu]
      rfl

theorem berthMapOf_unusable {usable : Nat → Bool} {k : Nat} (hk : k < 132) (h : usable k = false) : (berthMapOf usable).getD k 0 = 0xFF :=
  (foldl_mapBerth usable 132).2 k hk h

/-! The firmware (16 R478-R482): what it sets, and what stays of it. -/

/-- The calibrated voltages and the berth maps are as they were. -/
structure keepsCalibration (s u : State) : Prop where
  rails : ∀ g < 2, u.odGet 0 (railIdx g) 2 = s.odGet 0 (railIdx g) 2
  maps : ∀ t < 8, u.berthMap t = s.berthMap t

theorem keepsCalibration.refl (s : State) : keepsCalibration s s := ⟨fun _ _ => rfl, fun _ _ => rfl⟩

theorem keepsCalibration.trans {s t u : State} (h : keepsCalibration s t) (h' : keepsCalibration t u) : keepsCalibration s u :=
  ⟨fun g hg => (h'.rails g hg).trans (h.rails g hg), fun t ht => (h'.maps t ht).trans (h.maps t ht)⟩

theorem keepsCalibration_of {s u : State} (hb : u.blobs = s.blobs) (hr : ∀ g < 2, u.odGet 0 (railIdx g) 2 = s.odGet 0 (railIdx g) 2) :
    keepsCalibration s u := ⟨hr, fun t _ => by rw [State.berthMap, State.blobGet, hb]; rfl⟩

theorem keepsCalibration_foldl {α : Type} {f : State → α → State} (hf : ∀ t a, keepsCalibration t (f t a)) (l : List α) (s : State) :
    keepsCalibration s (l.foldl f s) := by
  induction l generalizing s with
  | nil => exact .refl s
  | cons a l ih => exact (hf s a).trans (ih _)

theorem keepsCalibration_measure (s : State) {k : Nat} (hk : k < 256) (v : Bytes) : keepsCalibration s (s.measure k v) :=
  ⟨fun _ _ => rfl, fun t ht => mapGet_mapSet_ne _ _ s.blobs _ (by unfold odKey; omega)⟩

theorem keepsCalibration_deliver (s : State) (n : Notice) : keepsCalibration s (s.deliver n) :=
  keepsCalibration_of (congrArg State.blobs (sameBeyondNotices_deliver s n) :)
    fun g _ => mapGet_od_deliver s n (by unfold railIdx odKey; omega) _

theorem keepsCalibration_setReady (s : State) (k : Nat) (v : Bool) : keepsCalibration s (s.setReady k v) := by
  unfold State.setReady
  extract_lets w
  split
  · exact .refl s
  · exact .trans (t := s.odSet 0 0x0011 0 (setBit w k v))
      (keepsCalibration_of rfl fun g _ => s.odGet_odSet_other _ (by unfold railIdx odKey; omega)) (keepsCalibration_deliver _ _)

theorem keepsCalibration_evalPower (s : State) : keepsCalibration s s.evalPower :=
  keepsCalibration_of (congrArg State.blobs (sameBeyondPower_evalPower s) :) fun g _ =>
    odGet_evalPower s (by unfold noTarget railIdx odKey; omega) (by unfold railIdx odKey; omega)

/-- The states agree in the boot, in the blobs, and in the dictionary's scalars but for port `p`'s state and count of trainings. -/
structure keepsBeyondPort (p : Nat) (s u : State) : Prop where
  boot : u.boot = s.boot
  blobs : u.blobs = s.blobs
  od : ∀ i sub, odKey 0 (0x4010 + p) 1 ≠ odKey 0 i sub → odKey 0 (0x4010 + p) 0xC ≠ odKey 0 i sub → u.odGet 0 i sub = s.odGet 0 i sub

theorem keepsBeyondPort.trans {p : Nat} {s t u : State} (h : keepsBeyondPort p s t) (h' : keepsBeyondPort p t u) : keepsBeyondPort p s u :=
  ⟨h'.boot.trans h.boot, h'.blobs.trans h.blobs, fun i sub h1 h2 => (h'.od i sub h1 h2).trans (h.od i sub h1 h2)⟩

theorem keepsBeyondPort_of_od {p : Nat} {s u : State} (hboot : u.boot = s.boot) (hblobs : u.blobs = s.blobs) (hod : u.od = s.od) :
    keepsBeyondPort p s u := ⟨hboot, hblobs, fun i sub _ _ => by rw [State.odGet, hod]; rfl⟩

theorem keepsBeyondPort_setPortState (s : State) (p v : Nat) : keepsBeyondPort p s (s.setPortState p v) :=
  ⟨rfl, rfl, fun _ _ h _ => s.odGet_odSet_other v h⟩

theorem keepsBeyondPort_odAdd (s : State) (p n : Nat) : keepsBeyondPort p s (s.odAdd 0 (0x4010 + p) 0xC n) :=
  ⟨rfl, rfl, fun _ _ _ h => s.odGet_odAdd_other n h⟩

theorem keepsBeyondPort_sendTrain (s : State) (p : Nat) : keepsBeyondPort p s (s.sendTrain p) := keepsBeyondPort_of_od rfl rfl rfl

theorem keepsBeyondPort_startTraining (s : State) (p old : Nat) : keepsBeyondPort p s (s.startTraining p old) := by
  unfold State.startTraining
  extract_lets t n s0 s1
  have h0 : keepsBeyondPort p s s0 := keepsBeyondPort_of_od rfl rfl rfl
  have h1 : keepsBeyondPort p s0 s1 :=
    .trans (t := s0.modPort p fun t => { t with trains := n }) (keepsBeyondPort_of_od rfl rfl rfl) (keepsBeyondPort_odAdd _ p 1)
  clear_value s1 s0
  refine h0.trans ?_
  split
  · exact keepsBeyondPort_setPortState s0 p 0
  split
  · exact keepsBeyondPort_setPortState s0 p 4
  refine h1.trans ?_
  split
  · exact (keepsBeyondPort_setPortState s1 p 3).trans (keepsBeyondPort_of_od rfl rfl rfl)
  · exact (keepsBeyondPort_setPortState s1 p 1).trans (keepsBeyondPort_sendTrain _ p)

theorem keepsCalibration_startTraining (s : State) (p old : Nat) : keepsCalibration s (s.startTraining p old) :=
  keepsCalibration_of (keepsBeyondPort_startTraining s p old).blobs fun g _ =>
    (keepsBeyondPort_startTraining s p old).od _ _ (by unfold railIdx odKey; omega) (by unfold railIdx odKey; omega)

/-! Test and repair of the towers (R480-R482). -/

/-- Berths usable in tower `t`: they pass the test and no repair bit is set. -/
def usableBerth (body : Bytes) (fails : List Nat) (t b : Nat) : Bool := !fails.contains (132 * t + b) && !repairBit body t b

theorem mapTower_eq (s : State) (body : Bytes) (fails marg : List Nat) (t : Nat) : ∃ (n k : Nat),
    (s.mapTower body fails marg t).blobs = (s.blobSet 0 (0x8100 + t) 1 (berthMapOf (usableBerth body fails t))).blobs ∧
    (s.mapTower body fails marg t).od =
      (((s.blobSet 0 (0x8100 + t) 1 (berthMapOf (usableBerth body fails t))).odSet 0 (0x8100 + t) 2 n).odAdd 0 (0x8100 + t) 5 k).od := by
  unfold State.mapTower
  extract_lets bad usable n s1 s2 s3
  refine ⟨n - 128, (List.range 132).countP fun b => marg.contains (132 * t + b), ?_⟩
  have hb : s1.blobs = (s.blobSet 0 (0x8100 + t) 1 (berthMapOf (usableBerth body fails t))).blobs := rfl
  have ho : s1.od = (((s.blobSet 0 (0x8100 + t) 1 (berthMapOf (usableBerth body fails t))).odSet 0 (0x8100 + t) 2 (n - 128)).odAdd 0
    (0x8100 + t) 5 ((List.range 132).countP fun b => marg.contains (132 * t + b))).od := rfl
  rw [← hb, ← ho]
  have h2 : s2.blobs = s1.blobs ∧ s2.od = s1.od := ⟨by dsimp only [s2], by dsimp only [s2]⟩
  clear_value s2 s1
  have h3 : s3.blobs = s1.blobs ∧ s3.od = s1.od :=
    List.foldlRecOn (motive := fun u : State => u.blobs = s1.blobs ∧ u.od = s1.od) _ _ h2 fun u hu b _ => hu
  exact List.foldlRecOn (motive := fun u : State => u.blobs = s1.blobs ∧ u.od = s1.od) _ _ h3 fun u hu k _ => hu

theorem keepsRails_mapTower (s : State) (body : Bytes) (fails marg : List Nat) {t g : Nat} (ht : t < 8) (hg : g < 2) :
    (s.mapTower body fails marg t).odGet 0 (railIdx g) 2 = s.odGet 0 (railIdx g) 2 := by
  obtain ⟨n, k, -, hod⟩ := mapTower_eq s body fails marg t
  rw [State.odGet, hod]
  exact (State.odGet_odAdd_other _ k (by unfold railIdx odKey; omega)).trans (State.odGet_odSet_other _ n (by unfold railIdx odKey; omega))

theorem berthMap_mapTower_self (s : State) (body : Bytes) (fails marg : List Nat) (t : Nat) :
    (s.mapTower body fails marg t).berthMap t = berthMapOf (usableBerth body fails t) := by
  obtain ⟨n, k, hb, -⟩ := mapTower_eq s body fails marg t
  rw [State.berthMap, State.blobGet, hb]
  exact s.blobGet_blobSet_self ..

theorem berthMap_mapTower_other (s : State) (body : Bytes) (fails marg : List Nat) {t r : Nat} (h : t ≠ r) :
    (s.mapTower body fails marg t).berthMap r = s.berthMap r := by
  obtain ⟨n, k, hb, -⟩ := mapTower_eq s body fails marg t
  rw [State.berthMap, State.blobGet, hb]
  exact mapGet_mapSet_ne _ _ s.blobs _ (by unfold odKey; omega)

/-- The towers tested and repaired. -/
def mapTowers (s : State) (body : Bytes) (fails marg l : List Nat) : State := l.foldl (fun u t => u.mapTower body fails marg t) s

theorem keepsRails_mapTowers {l : List Nat} (hl : ∀ t ∈ l, t < 8) (s : State) (body : Bytes) (fails marg : List Nat) {g : Nat} (hg : g < 2) :
    (mapTowers s body fails marg l).odGet 0 (railIdx g) 2 = s.odGet 0 (railIdx g) 2 := by
  induction l generalizing s with
  | nil => rfl
  | cons t l ih =>
    exact (ih (fun r hr => hl r (List.mem_cons_of_mem t hr)) _).trans (keepsRails_mapTower s body fails marg (hl t List.mem_cons_self) hg)

theorem berthMap_mapTowers_other {l : List Nat} {t : Nat} (h : t ∉ l) (s : State) (body : Bytes) (fails marg : List Nat) :
    (mapTowers s body fails marg l).berthMap t = s.berthMap t := by
  induction l generalizing s with
  | nil => rfl
  | cons r l ih =>
    rw [List.mem_cons, not_or] at h
    exact (ih h.2 _).trans (berthMap_mapTower_other s body fails marg (Ne.symm h.1))

theorem berthMap_mapTowers {l : List Nat} (hn : l.Nodup) {t : Nat} (ht : t ∈ l) (s : State) (body : Bytes) (fails marg : List Nat) :
    (mapTowers s body fails marg l).berthMap t = berthMapOf (usableBerth body fails t) := by
  induction l generalizing s with
  | nil => cases ht
  | cons r l ih =>
    obtain ⟨hr, hl⟩ := List.nodup_cons.mp hn
    by_cases hrt : r = t
    · subst hrt
      exact (berthMap_mapTowers_other hr _ body fails marg).trans (berthMap_mapTower_self s body fails marg r)
    · exact ih hl ((List.mem_cons.mp ht).resolve_left (Ne.symm hrt)) _

/-! The calibrated voltages (R449). -/

theorem rail_setV0_self (s : State) (g mv : Nat) : (s.setV0 g mv).odGet 0 (railIdx g) 2 = mv :=
  (odGet_writeTarget_other _ (by unfold odKey; omega)).trans (State.odGet_odSet_self ..)

theorem rail_setV0_other (s : State) {g r : Nat} (mv : Nat) (h : g ≠ r) : (s.setV0 g mv).odGet 0 (railIdx r) 2 = s.odGet 0 (railIdx r) 2 :=
  (odGet_writeTarget_other _ (by unfold railIdx odKey; omega)).trans
    ((State.odGet_odSet_other _ mv (by unfold railIdx odKey; omega)).trans (odGet_modPower s _ _ _ _))

/-! Readiness (Table 12-4). -/

theorem testBit_setReady_other (s : State) {k j : Nat} (v : Bool) (h : j ≠ k) :
    ((s.setReady k v).odGet 0 0x0011 0).testBit j = (s.odGet 0 0x0011 0).testBit j := by
  unfold State.setReady
  extract_lets w
  split
  · rfl
  · rw [State.odGet, State.notify, mapGet_od_deliver_low _ _ (by decide)]
    exact (congrArg (Nat.testBit · j) (State.odGet_odSet_self ..)).trans ((testBit_setBit ..).trans (if_neg h))

theorem boot_setReady (s : State) (k : Nat) (v : Bool) : (s.setReady k v).boot = s.boot := by
  unfold State.setReady
  extract_lets w
  split
  · rfl
  · exact (congrArg State.boot (sameBeyondNotices_deliver (s.odSet 0 0x0011 0 (setBit w k v)) _) :)

/-- The device is in its boot, its dictionary ready and its identity known to be (Table 12-4 bits 0 and 1). -/
structure servesTraining (s : State) : Prop where
  boot : s.boot = .training
  bit0 : (s.odGet 0 0x0011 0).testBit 0 = true
  bit1 : (s.odGet 0 0x0011 0).testBit 1 = true

theorem servesTraining_of {s u : State} (h : servesTraining s) (hb : u.boot = s.boot) (ho : u.odGet 0 0x0011 0 = s.odGet 0 0x0011 0) :
    servesTraining u := ⟨hb.trans h.boot, ho ▸ h.bit0, ho ▸ h.bit1⟩

theorem servesTraining_setReady {s : State} (h : servesTraining s) {k : Nat} (hk : 1 < k) (v : Bool) : servesTraining (s.setReady k v) :=
  ⟨(boot_setReady s k v).trans h.boot, (testBit_setReady_other s v (by omega)).trans h.bit0, (testBit_setReady_other s v (by omega)).trans h.bit1⟩

theorem servesTraining_evalPower {s : State} (h : servesTraining s) : servesTraining s.evalPower :=
  servesTraining_of h (congrArg State.boot (sameBeyondPower_evalPower s) :) (odGet_evalPower s (by unfold noTarget; decide) (by decide))

theorem servesTraining_startTraining {s : State} (h : servesTraining s) (p old : Nat) : servesTraining (s.startTraining p old) :=
  servesTraining_of h (keepsBeyondPort_startTraining s p old).boot
    ((keepsBeyondPort_startTraining s p old).od _ _ (by unfold odKey; omega) (by unfold odKey; omega))

/-- The dictionary is ready: the first two readiness bits are set (R478 step 6). -/
theorem servesTraining_ready {s : State} (h : s.boot = .training) : servesTraining ((s.setReady 0 true).setReady 1 true) :=
  ⟨by rw [boot_setReady, boot_setReady, h], by rw [testBit_setReady_other _ _ (by decide), testBit_setReady], testBit_setReady _ 1 true⟩

/-! FIRMWARE_START and the domes' training. -/

/-- The firmware's last steps: the dictionary ready, the ports training, the power state settled (R478 steps 6 and 8). -/
def beginService (s : State) : State :=
  let s4 := (s.setReady 0 true).setReady 1 true
  let s5 := (List.range 36).foldl (fun u p => u.startTraining p 0) s4
  (if s5.fabricReady then s5.setReady 3 true else s5).evalPower

theorem servesTraining_beginService {s : State} (h : s.boot = .training) : servesTraining (beginService s) := by
  have h5 := List.foldlRecOn (motive := servesTraining) (List.range 36) (fun u p => u.startTraining p 0) (servesTraining_ready h)
    fun u hu p _ => servesTraining_startTraining hu p 0
  unfold beginService
  extract_lets s4 s5
  refine servesTraining_evalPower ?_
  split
  · exact servesTraining_setReady h5 (by decide) true
  · exact h5

theorem keepsCalibration_beginService (s : State) : keepsCalibration s (beginService s) := by
  have h4 : keepsCalibration s ((s.setReady 0 true).setReady 1 true) :=
    (keepsCalibration_setReady ..).trans (keepsCalibration_setReady ..)
  have h5 := List.foldlRecOn (motive := keepsCalibration s) (List.range 36) (fun u p => u.startTraining p 0) h4
    fun u hu p _ => hu.trans (keepsCalibration_startTraining u p 0)
  unfold beginService
  extract_lets s4 s5
  refine .trans ?_ (keepsCalibration_evalPower _)
  split
  · exact h5.trans (keepsCalibration_setReady ..)
  · exact h5

/-- The measurements the firmware takes of itself and of the towers it has mapped (R478 step 6). -/
def firmwareMeasures (s m : State) : State :=
  let fw := (flashObject s.flash (1 + s.odGet 0 0xA000 1)).getD []
  let s3 := ((m.measure 1 (beBytes 64 Config.romDigest.toNat)).measure 5 (sha512 ((List.range 8).flatMap fun t => m.berthMap t))).measure 7
    (leBytes 4 (objVersion fw) ++ leBytes 4 (m.odGet 0 0xA000 4) ++ leBytes 4 (m.odGet 0 0xA000 3) ++ leBytes 2 0xA1 ++
      leBytes 1 (m.odGet 0 0xA000 1) ++ [0])
  { s3 with boot := .training, faultQ := s3.bootFaults ++ s3.faultQ, bootFaults := [] }

theorem keepsCalibration_firmwareMeasures (s m : State) : keepsCalibration m (firmwareMeasures s m) := by
  unfold firmwareMeasures
  extract_lets fw s3
  refine .trans (t := s3) ?_ (keepsCalibration_of rfl fun _ _ => rfl)
  unfold s3
  refine .trans ?_ (keepsCalibration_measure _ (by decide) _)
  refine .trans ?_ (keepsCalibration_measure _ (by decide) _)
  exact keepsCalibration_measure _ (by decide) _

/-- The towers as the firmware finds and maps them, both voltages set. -/
def firmwareMaps (s : State) (a b : Nat) (fails marg : List Nat) : State :=
  mapTowers ((s.bootRepair.2.setV0 0 a).setV0 1 b) s.bootRepair.1 fails marg (List.range 8)

/-- FIRMWARE_START: voltages and berth maps are set, then measured, and the device begins its service. -/
theorem execFirmwareStart_begins {s : State} {a b : Nat} {fails marg : List Nat} (hb : s.boot = .firmware) :
    exec (.firmwareStart a b fails marg) s = .next (beginService (firmwareMeasures s (firmwareMaps s a b fails marg))) := by
  simp only [exec]
  rw [execFirmwareStart, if_pos hb]
  rfl

/-- A dome that fails its training is raised, and is among those fenced. -/
theorem execDomeTrainingComplete_ready {s : State} {failed : List Nat} (hb : s.boot = .training) :
    ∃ v : State, exec (.domeTrainingComplete failed) s = .next (v.setReady 2 true) ∧ v.boot = .ready ∧ v.dome = [] ∧ v.poison = [] ∧
      v.domeOff = failed.foldl setIns s.domeOff := by
  simp only [exec]
  rw [execDomeTrainingComplete, if_pos hb]
  extract_lets s1 s2
  refine ⟨s2, rfl, ?_⟩
  exact List.foldlRecOn (motive := fun u : State => u.boot = .ready ∧ u.dome = [] ∧ u.poison = [] ∧ u.domeOff = failed.foldl setIns s.domeOff)
    _ _ ⟨rfl, rfl, rfl, rfl⟩ fun u hu d _ => hu

theorem setReady_domes (s : State) (k : Nat) (v : Bool) :
    (s.setReady k v).dome = s.dome ∧ (s.setReady k v).poison = s.poison ∧ (s.setReady k v).domeOff = s.domeOff := by
  unfold State.setReady
  extract_lets w
  split
  · exact ⟨rfl, rfl, rfl⟩
  · have h := sameBeyondNotices_deliver (s.odSet 0 0x0011 0 (setBit w k v))
    exact ⟨(congrArg State.dome (h _) :), (congrArg State.poison (h _) :), (congrArg State.domeOff (h _) :)⟩

/-- Settles O54: a reset is read off `deviceReset`; the boot's steps each keep what the ones before them have set. -/
theorem powerAndBoot : Obligations.PowerAndBoot := by
  refine ⟨⟨fun s hp => ?_, fun s hp => ?_, fun s => ?_, fun s => ?_⟩, fun s st fl pf hr hp ht => ?_, fun s st fl pf hr hp => ?_,
    fun s a b fails marg hb => ?_, fun s failed hb => ?_⟩
  · simp only [exec]
    rw [execPwrgdAssert, if_neg (by simp [hp]), if_pos rfl]
  · simp only [exec]
    rw [execPwrgdAssert, if_neg (by simp [hp]), if_neg (by decide)]
  · exact ⟨_, rfl, rfl, rfl, rfl, rfl, rfl, rfl, rfl⟩
  · exact ⟨_, rfl, rfl, rfl, rfl, rfl, rfl, rfl, rfl, rfl, rfl⟩
  · have hk := (releasedState_takes s st fl pf).trans (keepsRelease_bootSlots _)
    refine ⟨_, by simp only [exec]; exact execRstNRelease_eq hr hp ht, hk.puf, hk.rstN, ?_, hk.flash, hk.identity, boot_bootSlots _,
      fun h1 h2 => ?_⟩
    · exact hk.straps.trans (State.odGet_odSet_self ..)
    · have hf : (releasedState s st fl pf).flash = fl := (releasedState_takes s st fl pf).flash
      exact boot_bootSlots_empty (hf.symm ▸ h1) (hf.symm ▸ h2)
  · simp only [exec]
    rw [execRstNRelease, if_neg (not_not_intro hr), if_pos (by simp [hp])]
  · have hu := servesTraining_beginService (s := firmwareMeasures s (firmwareMaps s a b fails marg)) rfl
    have hk := (keepsCalibration_firmwareMeasures s (firmwareMaps s a b fails marg)).trans (keepsCalibration_beginService _)
    have hl : ∀ t ∈ List.range 8, t < 8 := fun t ht => List.mem_range.mp ht
    refine ⟨_, execFirmwareStart_begins hb, hu.boot, hu.bit0, hu.bit1, ?_, ?_, fun t ht k hkb hf => ?_⟩
    · rw [hk.rails 0 (by decide), firmwareMaps, keepsRails_mapTowers hl _ _ _ _ (by decide), rail_setV0_other _ _ (by decide), rail_setV0_self]
    · rw [hk.rails 1 (by decide), firmwareMaps, keepsRails_mapTowers hl _ _ _ _ (by decide), rail_setV0_self]
    · rw [hk.maps t ht, firmwareMaps, berthMap_mapTowers List.nodup_range (List.mem_range.mpr ht)]
      exact berthMapOf_unusable hkb (by simp [usableBerth, hf])
  · obtain ⟨v, he, hboot, hdome, hpoison, hoff⟩ := execDomeTrainingComplete_ready (failed := failed) hb
    obtain ⟨h1, h2, h3⟩ := setReady_domes v 2 true
    refine ⟨_, he, (boot_setReady v 2 true).trans hboot, h1.trans hdome, h2.trans hpoison, testBit_setReady v 2 true, fun d hd => ?_⟩
    rw [h3, hoff]
    exact mem_foldl_setIns.mpr (.inl hd)

end Sys2Proof.Machine
end

section
/-! PROOF. The risk score and the shadow pieces (14 R433, R434, R440, R441). -/

namespace Sys2Proof.Machine

open Sys2Proof Sys2Proof.Safety

/-! The shadow requests (R434). -/

/-- What the score and the mode ask for partition `q` (R434). -/
def shadowAsk (s : State) (q : Nat) : Bool :=
  if s.odGet 0 (shadowIdx q) 1 = 1 then true
  else if s.odGet 0 (shadowIdx q) 1 = 2 then false
  else if s.odGet 0 0x7000 2 ≤ s.odGet 0 0x7000 1 then true
  else if s.odGet 0 0x7000 1 + s.odGet 0 0x7000 3 < s.odGet 0 0x7000 2 then false
  else (s.part q).shReq

theorem evalShadow_eq (s : State) (q : Nat) : s.evalShadow q = s.setShadowReq q (shadowAsk s q) := by
  have hsame : s.setShadowReq q (s.part q).shReq = s := if_pos rfl
  unfold State.evalShadow shadowAsk
  dsimp only
  split_ifs <;> [rfl; rfl; rfl; rfl; exact hsame.symm]

/-- The risk objects, the blobs, the history and the other partitions are as they were. -/
structure keepsRisk (q : Nat) (s u : State) : Prop where
  od : ∀ i sub, 0x7000 ≤ i → sub < 10 → u.odGet 0 i sub = s.odGet 0 i sub
  blobs : u.blobs = s.blobs
  hist : u.riskHist = s.riskHist
  part : ∀ r, q ≠ r → u.part r = s.part r

theorem keepsRisk.refl (q : Nat) (s : State) : keepsRisk q s s := ⟨fun _ _ _ _ => rfl, rfl, rfl, fun _ _ => rfl⟩

theorem setShadowReq_keeps (s : State) (q : Nat) (v : Bool) :
    keepsRisk q s (s.setShadowReq q v) ∧ ((s.setShadowReq q v).part q).shReq = v := by
  unfold State.setShadowReq
  split
  · next h => exact ⟨.refl q s, h⟩
  · have hn := sameBeyondNotices_deliver ((s.modPart q fun p => { p with shReq := v }).odSet 0 (shadowIdx q) 0xA (if v then 1 else 0))
    refine ⟨⟨fun i sub hi hsub => ?_, (congrArg State.blobs (hn _) :), (congrArg State.riskHist (hn _) :), fun r hr => ?_⟩, ?_⟩
    · exact (mapGet_od_deliver _ _ (by unfold odKey; omega) _).trans (State.odGet_odSet_other _ _ (by unfold shadowIdx odKey; omega))
    · exact (part_of_parts (hn _).parts r).trans (s.part_modPart_other (fun p => { p with shReq := v }) hr)
    · exact congrArg Part.shReq ((part_of_parts (hn _).parts q).trans (s.part_modPart_self q fun p => { p with shReq := v }))

theorem evalShadow_keeps (s : State) (q : Nat) : keepsRisk q s (s.evalShadow q) ∧ ((s.evalShadow q).part q).shReq = shadowAsk s q := by
  rw [evalShadow_eq]
  exact setShadowReq_keeps s q _

theorem shadowAsk_of_keeps {s u : State} {q r : Nat} (h : keepsRisk q s u) (hr : q ≠ r) : shadowAsk u r = shadowAsk s r := by
  unfold shadowAsk
  rw [h.od _ 1 (by unfold shadowIdx; omega) (by decide), h.od _ 2 (by decide) (by decide), h.od _ 1 (by decide) (by decide),
    h.od _ 3 (by decide) (by decide), h.part r hr]

/-- The requests of several partitions, each by its own mode. -/
theorem foldl_evalShadow {l : List Nat} (hn : l.Nodup) (s : State) :
    (∀ i sub, 0x7000 ≤ i → sub < 10 → (l.foldl State.evalShadow s).odGet 0 i sub = s.odGet 0 i sub) ∧
    (l.foldl State.evalShadow s).blobs = s.blobs ∧ (l.foldl State.evalShadow s).riskHist = s.riskHist ∧
    (∀ r, r ∉ l → (l.foldl State.evalShadow s).part r = s.part r) ∧
    ∀ q ∈ l, ((l.foldl State.evalShadow s).part q).shReq = shadowAsk s q := by
  induction l generalizing s with
  | nil => exact ⟨fun _ _ _ _ => rfl, rfl, rfl, fun _ _ => rfl, fun _ h => nomatch h⟩
  | cons k l ih =>
    obtain ⟨hk, hl⟩ := List.nodup_cons.mp hn
    obtain ⟨hod, hblobs, hhist, hpart, hreq⟩ := ih hl (s.evalShadow k)
    obtain ⟨hkeep, hself⟩ := evalShadow_keeps s k
    refine ⟨fun i sub hi hs => (hod i sub hi hs).trans (hkeep.od i sub hi hs), hblobs.trans hkeep.blobs, hhist.trans hkeep.hist,
      fun r hr => ?_, fun q hq => ?_⟩
    · rw [List.mem_cons, not_or] at hr
      exact (hpart r hr.2).trans (hkeep.part r (Ne.symm hr.1))
    · by_cases hqk : k = q
      · subst hqk
        exact (congrArg Part.shReq (hpart k hk)).trans hself
      · exact (hreq q ((List.mem_cons.mp hq).resolve_left (Ne.symm hqk))).trans (shadowAsk_of_keeps hkeep hqk)

/-! The risk score (R433). -/

/-- The score and its levels stored, and the sample taken. -/
def scored (s : State) (l : List Nat) : State :=
  (({ s with riskHist := (s.riskSample :: s.riskHist).take 36000, riskShort := 0 } : State).odSet 0 0x7000 1 (s.riskScore l)).blobSet 0 0x7000 5
    (l.map (BitVec.ofNat 8))

theorem execRiskScore_scored {s : State} (h : spireUp s 6) (old : Nat) : exec (.riskScore old) s = .next
    (((List.range 4).filter (scored s (s.riskLevels (s.riskInputs old))).present).foldl State.evalShadow
      (scored s (s.riskLevels (s.riskInputs old)))) := by
  simp only [exec]
  rw [execRiskScore, spireEvent_up _ h.1 h.2]
  rfl

theorem odGet_scored_other (s : State) (l : List Nat) {i sub : Nat} (h : odKey 0 0x7000 1 ≠ odKey 0 i sub) :
    (scored s l).odGet 0 i sub = s.odGet 0 i sub :=
  State.odGet_odSet_other ({ s with riskHist := (s.riskSample :: s.riskHist).take 36000, riskShort := 0 } : State) _ h

theorem odGet_scored_score (s : State) (l : List Nat) : (scored s l).odGet 0 0x7000 1 = s.riskScore l :=
  State.odGet_odSet_self ({ s with riskHist := (s.riskSample :: s.riskHist).take 36000, riskShort := 0 } : State) 0 0x7000 1 _

theorem present_scored (s : State) (l : List Nat) {q : Nat} (h : q < 4) : (scored s l).present q = s.present q := by
  rw [State.present, odGet_scored_other s l (by unfold odKey; omega)]
  rfl

theorem shadowAsk_scored (s : State) (l : List Nat) (q : Nat) : shadowAsk (scored s l) q =
    if s.odGet 0 (shadowIdx q) 1 = 1 then true else if s.odGet 0 (shadowIdx q) 1 = 2 then false
    else if s.odGet 0 0x7000 2 ≤ s.riskScore l then true
    else if s.riskScore l + s.odGet 0 0x7000 3 < s.odGet 0 0x7000 2 then false else (s.part q).shReq := by
  unfold shadowAsk
  rw [odGet_scored_other s l (by unfold shadowIdx odKey; omega), odGet_scored_other s l (i := 0x7000) (sub := 2) (by decide), odGet_scored_score,
    odGet_scored_other s l (i := 0x7000) (sub := 3) (by decide)]
  rfl

theorem execRiskScore_stored {s : State} {old v : Nat} {l : List Nat} (h : spireUp s 6) (hl : l = s.riskLevels (s.riskInputs old))
    (hv : v = s.riskScore l) :
    ∃ u, exec (.riskScore old) s = .next u ∧ u.odGet 0 0x7000 1 = v ∧ v ≤ 255 ∧ u.blobGet 0 0x7000 5 = l.map (BitVec.ofNat 8) ∧
      u.riskHist = (s.riskSample :: s.riskHist).take 36000 ∧
      ∀ q < 4, s.present q = true → (u.part q).shReq =
        if s.odGet 0 (shadowIdx q) 1 = 1 then true else if s.odGet 0 (shadowIdx q) 1 = 2 then false
        else if s.odGet 0 0x7000 2 ≤ v then true else if v + s.odGet 0 0x7000 3 < s.odGet 0 0x7000 2 then false else (s.part q).shReq := by
  subst hl hv
  obtain ⟨hod, hblobs, hhist, -, hreq⟩ := foldl_evalShadow
    (l := (List.range 4).filter (scored s (s.riskLevels (s.riskInputs old))).present) (List.nodup_range.filter _)
    (scored s (s.riskLevels (s.riskInputs old)))
  refine ⟨_, execRiskScore_scored h old, ?_, min_le_left .., ?_, hhist, fun q hq hp => ?_⟩
  · exact (hod 0x7000 1 (by decide) (by decide)).trans (odGet_scored_score s _)
  · rw [State.blobGet, hblobs]
    exact State.blobGet_blobSet_self ..
  · rw [hreq q (List.mem_filter.mpr ⟨List.mem_range.mpr hq, (present_scored s _ hq).trans hp⟩), shadowAsk_scored]

/-! A piece sent (R438): what it leaves. -/

theorem delivery_injectHead {s t : State} {key : Nat} (h : s.injectHead key = some t) : s.delivery <+: t.delivery := by
  unfold State.injectHead at h
  split at h
  · cases h
  dsimp only at h
  split at h
  · split at h <;> cases h
    exact List.prefix_append ..
  split at h
  · cases h
    exact List.prefix_rfl
  · split at h <;> cases h
    exact List.prefix_rfl

theorem delivery_injectNext {s t : State} {key : Nat} (h : s.injectNext key = some t) : t.delivery = s.delivery := by
  unfold State.injectNext at h
  split at h
  · cases h
  · split at h <;> cases h
    rfl

theorem delivery_pumpKey (n : Nat) (s : State) (key : Nat) : s.delivery <+: (State.pumpKey n s key).delivery := by
  induction n generalizing s with
  | zero => exact List.prefix_rfl
  | succ n ih =>
    rw [State.pumpKey]
    split
    · next t h => exact (delivery_injectHead h).trans (ih t)
    split
    · next t h => exact delivery_injectNext h ▸ ih t
    · exact List.prefix_rfl

/-- A piece sent leaves the partitions, the records on their way and the objects from OD 0x5100 on; delivered packets stay, in order. -/
structure keepsPieces (s u : State) : Prop where
  delivery : s.delivery <+: u.delivery
  parts : u.parts = s.parts
  faultQ : u.faultQ = s.faultQ
  od : ∀ i sub, 0x5100 ≤ i → u.odGet 0 i sub = s.odGet 0 i sub

theorem keepsPieces.refl (s : State) : keepsPieces s s := ⟨List.prefix_rfl, rfl, rfl, fun _ _ _ => rfl⟩

theorem keepsPieces_launch (s : State) (src : Nat) (p : Packet) : keepsPieces s (s.launch src p) :=
  ⟨delivery_pumpKey _ { s with outbox := mapSet [] s.outbox (4 * src + p.vl) (mapGet [] s.outbox (4 * src + p.vl) ++ [p]) } _,
    (congrArg State.parts (sameBeyondTraffic_launch s src p) :), (congrArg State.faultQ (sameBeyondTraffic_launch s src p) :),
    fun i sub hi => (keepsCounts_launch s src p).counts _ (by unfold odKey; omega) _⟩

theorem keepsPieces_sendPacket (s : State) (src q kind dlid qdst flow : Nat) (payload : Bytes) :
    keepsPieces s (s.sendPacket src q kind dlid qdst flow payload) := by
  rw [State.sendPacket]
  split
  · exact .refl s
  split
  · exact .refl s
  · exact keepsPieces_launch ..

theorem keepsPieces_sendCommit (s : State) (k : Packet) (status : Nat) : keepsPieces s (s.sendCommit k status) := by
  unfold State.sendCommit State.sendPiece
  exact keepsPieces_sendPacket ..

/-! Faults of a shadow (Table 14-2). -/

theorem shadowFault_frame (s : State) (q code gen : Nat) (want got cause : Option Nat) : ∃ n, n.code = code ∧
    s.shadowFault q code gen want got cause = { s with fresh := s.fresh + 3, faultQ := s.faultQ ++ [n] } := ⟨_, rfl, rfl⟩

/-- A fault of a shadow is raised, and the partitions, the objects and the delivered packets stay. -/
theorem shadowFault_raises (s : State) (q code gen : Nat) (want got cause : Option Nat) :
    faultRaised (s.shadowFault q code gen want got cause) code ∧
    (∀ c, faultRaised s c → faultRaised (s.shadowFault q code gen want got cause) c) ∧
    (s.shadowFault q code gen want got cause).parts = s.parts ∧ (s.shadowFault q code gen want got cause).od = s.od ∧
    (s.shadowFault q code gen want got cause).delivery = s.delivery := by
  obtain ⟨n, hn, he⟩ := shadowFault_frame s q code gen want got cause
  rw [he]
  refine ⟨⟨n, List.mem_append_right _ List.mem_cons_self, hn⟩, fun c ⟨m, hm, hc⟩ => ⟨m, List.mem_append_left _ hm, hc⟩, rfl, rfl, rfl⟩

/-- A generation lost: it is no longer sent, it is counted and raised (R441). -/
theorem loseShadow_loses (s : State) (q gen : Nat) (want got cause : Option Nat) :
    ((s.loseShadow q gen want got cause).part q).shSend = none ∧ faultRaised (s.loseShadow q gen want got cause) 0x0607 ∧
    (∀ c, faultRaised s c → faultRaised (s.loseShadow q gen want got cause) c) ∧
    (s.loseShadow q gen want got cause).odGet 0 (shadowIdx q) 8 = (s.odGet 0 (shadowIdx q) 8 + 1) % 2 ^ 64 := by
  obtain ⟨hr, hc, hp, ho, -⟩ := shadowFault_raises
    (((s.modPart q fun p => { p with shSend := none }).odSet 0 (shadowIdx q) 5 0).odAdd 0 (shadowIdx q) 8 1) q 0x0607 gen want got cause
  refine ⟨?_, hr, fun c h => hc c h, ?_⟩
  · exact congrArg Part.shSend ((part_of_parts hp q).trans (s.part_modPart_self q fun p => { p with shSend := none }))
  · rw [State.odGet, State.loseShadow, ho]
    refine (State.odGet_odAdd_self _ 0 (shadowIdx q) 8 1).trans ?_
    rw [State.odGet_odSet_other _ _ (by unfold odKey; omega)]
    rfl

/-! Pieces received (R440). -/

/-- The generation in progress is the piece's: its record is the one there is. -/
theorem receiving_current {s : State} {q g : Nat} {h : ShRecv} (hr : (s.part q).shRecv = some h) (hg : h.gen = g) : s.receiving q g = (h, s) := by
  simp [State.receiving, hr, Option.filter, hg]

theorem stalePiece_current {s : State} {q g : Nat} {h : ShRecv} (hr : (s.part q).shRecv = some h) (ho : h.oldest ≤ g) :
    s.stalePiece q g = false := by
  simp [State.stalePiece, hr, ho]

theorem execShadowDataPiece_foreign {s : State} {k : Packet} {r : List Packet} (hu : spireUp s 6) (hd : delivered s k r) (hk : k.kind = 0x1B)
    (hc : pieceCode k = 1) (hs : s.fromSource k = false) :
    exec .shadowDataPiece s = .next (({ s with delivery := r } : State).odAdd 0 (recvIdx k.qdst) 8 1) := by
  simp only [exec]
  rw [execShadowDataPiece, spireEvent_up _ hu.1 hu.2, onFrame_noAccess hd (by simp [shadowPacket, hk, hc]) (by simp [State.dataRange, hs])]
  have hs' : ({ s with delivery := r } : State).fromSource k = false := hs
  rw [if_pos (.inr (.inl (by simp [hs'])))]
  rfl

/-- A data piece of the generation in progress is written where it lies whole within the region and the map. -/
theorem takeData_current {s : State} {k : Packet} {h : ShRecv} {a : Nat} (hr : (s.part k.qdst).shRecv = some h) (hg : h.gen = pieceGen k)
    (hf : h.refused = false) (ha : s.imageBase k.qdst h.image + pieceOff k = a)
    (hsz : pieceOff k + (pieceData k).length ≤ s.odGet 0 (recvIdx k.qdst) 3) (hm : s.rangeInMap k.qdst a (pieceData k).length = true) :
    s.takeData k = (s.keepRecv k.qdst { h with bytes := h.bytes + (pieceData k).length }).engineWrite k.qdst [(a, pieceData k)] := by
  simp only [State.takeData, receiving_current hr hg, hf, ha, hsz.not_gt, hm, Bool.false_eq_true, not_true_eq_false, or_self, if_false]

/-- SHADOW_DATA_PIECE of the generation in progress, whole within the region and the partition's map. -/
theorem execShadowDataPiece_current {s : State} {k : Packet} {r : List Packet} {h : ShRecv} {a : Nat} (hu : spireUp s 6) (hd : delivered s k r)
    (hk : k.kind = 0x1B) (hc : pieceCode k = 1) (hs : s.fromSource k = true) (hp : cleanPort s lookoutUnit [(a, (pieceData k).length)])
    (hr : (s.part k.qdst).shRecv = some h) (hg : h.gen = pieceGen k) (ho : h.oldest ≤ h.gen) (hf : h.refused = false)
    (ha : a = s.imageBase k.qdst h.image + pieceOff k) (hsz : pieceOff k + (pieceData k).length ≤ s.odGet 0 (recvIdx k.qdst) 3)
    (hm : s.rangeInMap k.qdst a (pieceData k).length = true) :
    ∃ u, exec .shadowDataPiece s = .next u ∧ u.delivery = r ∧ u.dome = memWrite s.dome a (pieceData k) ∧
      (u.part k.qdst).shRecv = some { h with bytes := h.bytes + (pieceData k).length } := by
  have hrange : s.dataRange k = [(a, (pieceData k).length)] := by simp [State.dataRange, hs, hr, Option.filter, hg, ha]
  obtain ⟨as, ws, htake⟩ := s.takeAsk_frame lookoutUnit [(a, (pieceData k).length)]
  let t : State := { s with asks := as, biWaits := ws, delivery := r }
  have ht : ({ s.takeAsk lookoutUnit [(a, (pieceData k).length)] with delivery := r } : State) = t := by rw [htake]
  have hrt : (t.part k.qdst).shRecv = some h := hr
  have hst : t.fromSource k = true := hs
  have hat : t.imageBase k.qdst h.image + pieceOff k = a := ha.symm
  have hmt : t.rangeInMap k.qdst a (pieceData k).length = true := hm
  have htd := takeData_current hrt hg hf hat hsz hmt
  refine ⟨t.takeData k, ?_, ?_, ?_, ?_⟩
  · simp only [exec]
    rw [execShadowDataPiece, spireEvent_up _ hu.1 hu.2, onFrame_clean hd (by simp [shadowPacket, hk, hc]) hrange hp, ht,
      if_neg (by simp [hc, hst, stalePiece_current hrt (hg ▸ ho)])]
  all_goals rw [htd, State.engineWrite_clean (show (t.keepRecv k.qdst _).poison = [] from hp.1)]
  · rfl
  · rfl
  · exact congrArg Part.shRecv (t.part_modPart_self k.qdst fun p => { p with shRecv := some { h with bytes := h.bytes + (pieceData k).length } })

/-- END of the generation in progress (R440). -/
theorem execShadowEndPiece_current {s : State} {k : Packet} {r : List Packet} {h : ShRecv} (hu : spireUp s 6) (hd : delivered s k r)
    (hk : k.kind = 0x1B) (hc : pieceCode k = 2) (hs : s.fromSource k = true) (hr : (s.part k.qdst).shRecv = some h) (hg : h.gen = pieceGen k)
    (ho : h.oldest ≤ h.gen) (hf : h.refused = false) (hsz : pieceOff k ≤ s.odGet 0 (recvIdx k.qdst) 3) :
    exec .shadowEndPiece s = .next
      (let s1 := ({ s with delivery := r } : State).modPart k.qdst fun p => { p with shRecv := none }
      if h.bytes = pieceOff k then
        ((s1.odSet 0 (recvIdx k.qdst) (6 + h.image) h.gen).modPart k.qdst fun p =>
          { p with imgBytes := mapSet 0 p.imgBytes h.image (pieceOff k) }).sendCommit k 0
      else (s1.sendCommit k 1).shadowFault k.qdst 0x0606 h.gen (some (pieceOff k)) (some h.bytes) (some 1)) := by
  have hrt : (({ s with delivery := r } : State).part k.qdst).shRecv = some h := hr
  have hst : ({ s with delivery := r } : State).fromSource k = true := hs
  have hszt : ¬ ({ s with delivery := r } : State).odGet 0 (recvIdx k.qdst) 3 < pieceOff k := hsz.not_gt
  simp only [exec]
  rw [execShadowEndPiece, spireEvent_up _ hu.1 hu.2]
  simp only [State.takeDelivered_head hd (p := shadowPacket (· = 2)) (by simp [shadowPacket, hk, hc]), hst,
    stalePiece_current hrt (hg ▸ ho), State.takeEnd, receiving_current hrt hg, hf, hszt, not_true_eq_false, Bool.false_eq_true, or_self, if_false]

/-- END of a whole image makes it the generation's; END of another raises SHADOW_MISMATCH (R440). -/
theorem execShadowEndPiece_ends {s : State} {k : Packet} {r : List Packet} {h : ShRecv} (hu : spireUp s 6) (hd : delivered s k r)
    (hk : k.kind = 0x1B) (hc : pieceCode k = 2) (hs : s.fromSource k = true) (hr : (s.part k.qdst).shRecv = some h) (hg : h.gen = pieceGen k)
    (ho : h.oldest ≤ h.gen) (hf : h.refused = false) (hsz : pieceOff k ≤ s.odGet 0 (recvIdx k.qdst) 3) :
    ∃ u, exec .shadowEndPiece s = .next u ∧ r <+: u.delivery ∧ (u.part k.qdst).shRecv = none ∧
      (if h.bytes = pieceOff k then u.odGet 0 (recvIdx k.qdst) (6 + h.image) = h.gen
       else u.odGet 0 (recvIdx k.qdst) (6 + h.image) = s.odGet 0 (recvIdx k.qdst) (6 + h.image) ∧ faultRaised u 0x0606) := by
  have hrec : 0x5100 ≤ recvIdx k.qdst := by unfold recvIdx; omega
  let s1 := ({ s with delivery := r } : State).modPart k.qdst fun p => { p with shRecv := none }
  have h1 : (s1.part k.qdst).shRecv = none := congrArg Part.shRecv (State.part_modPart_self _ k.qdst _)
  refine ⟨_, execShadowEndPiece_current hu hd hk hc hs hr hg ho hf hsz, ?_⟩
  dsimp only
  split_ifs with hb
  · let v := (s1.odSet 0 (recvIdx k.qdst) (6 + h.image) h.gen).modPart k.qdst fun p =>
      { p with imgBytes := mapSet 0 p.imgBytes h.image (pieceOff k) }
    have hv := keepsPieces_sendCommit v k 0
    have hv1 : (v.part k.qdst).shRecv = none := (congrArg Part.shRecv (State.part_modPart_self _ k.qdst _)).trans h1
    refine ⟨hv.delivery, (congrArg Part.shRecv (part_of_parts hv.parts k.qdst)).trans hv1, ?_⟩
    exact (hv.od _ _ hrec).trans (s1.odGet_odSet_self 0 (recvIdx k.qdst) (6 + h.image) h.gen)
  · have hv := keepsPieces_sendCommit s1 k 1
    obtain ⟨hraise, -, hparts, hod, hdel⟩ := shadowFault_raises (s1.sendCommit k 1) k.qdst 0x0606 h.gen (some (pieceOff k)) (some h.bytes) (some 1)
    refine ⟨?_, (congrArg Part.shRecv (part_of_parts (hparts.trans hv.parts) k.qdst)).trans h1, ?_, hraise⟩
    · rw [hdel]
      exact hv.delivery
    · rw [State.odGet, hod]
      exact hv.od _ _ hrec

/-! The sender hears (R441). -/

/-- SHADOW_COMMIT_PIECE about the generation being sent. -/
theorem execShadowCommitPiece_sent {s : State} {k : Packet} {r : List Packet} {h : ShSend} (hu : spireUp s 6) (hd : delivered s k r)
    (hk : k.kind = 0x1B) (hc : pieceCode k = 3) (hp : s.present k.qdst = true) (hs : (s.part k.qdst).shSend = some h) (hg : h.gen = pieceGen k)
    (hl : s.odGet 0 (shadowIdx k.qdst) 2 = k.slid) :
    exec .shadowCommitPiece s = .next (({ s with delivery := r } : State).sentCommit k.qdst h k) := by
  let t : State := { s with delivery := r }
  have hpt : t.present k.qdst = true := hp
  have hst : (t.part k.qdst).shSend = some h := hs
  have hlt : t.odGet 0 (shadowIdx k.qdst) 2 = k.slid := hl
  have hfilter : ((t.part k.qdst).shSend.filter fun h => h.gen = pieceGen k && t.odGet 0 (shadowIdx k.qdst) 2 = k.slid) = some h := by
    rw [hst]
    simp [Option.filter, hg, hlt]
  simp only [exec]
  rw [execShadowCommitPiece, spireEvent_up _ hu.1 hu.2, State.takeDelivered_head hd (by simp [shadowPacket, hk, hc])]
  show Host.Outcome.next (if ¬ t.present k.qdst then t else _) = _
  rw [if_neg (not_not_intro hpt), hfilter]

/-- A commit makes the generation the last committed one (R441). -/
theorem sentCommit_committed (s : State) {q : Nat} (h : ShSend) {k : Packet} (hk : pieceStatus k = 0) :
    ((s.sentCommit q h k).part q).shSend = none ∧ (s.sentCommit q h k).odGet 0 (shadowIdx q) 4 = h.gen ∧
    (s.sentCommit q h k).odGet 0 (shadowIdx q) 5 = 0 ∧
    (s.sentCommit q h k).odGet 0 (shadowIdx q) 6 = (s.odGet 0 (shadowIdx q) 6 + 1) % 2 ^ 64 := by
  let s1 := s.modPart q fun p => { p with shSend := none }
  let s2 := ((s1.odSet 0 (shadowIdx q) 4 h.gen).odAdd 0 (shadowIdx q) 6 1).odSet 0 (shadowIdx q) 5 0
  let payload := leBytes 8 h.gen ++ leBytes 8 h.size ++ leBytes 2 k.slid
  have he : s.sentCommit q h k = s2.notify 0x13 0 q (spireUnit 6) payload := if_pos hk
  have hod : ∀ sub, (s.sentCommit q h k).odGet 0 (shadowIdx q) sub = s2.odGet 0 (shadowIdx q) sub := fun sub => by
    rw [he, State.notify]
    exact mapGet_od_deliver _ _ (by unfold shadowIdx odKey; omega) _
  have hne : ∀ a b, a ≠ b → odKey 0 (shadowIdx q) a ≠ odKey 0 (shadowIdx q) b := fun a b h => by unfold odKey; omega
  refine ⟨?_, ?_, ?_, ?_⟩
  · rw [he, State.notify, part_of_parts (sameBeyondNotices_deliver s2 _).parts q]
    exact congrArg Part.shSend (s.part_modPart_self q fun p => { p with shSend := none })
  · rw [hod, State.odGet_odSet_other _ _ (hne 5 4 (by decide)), State.odGet_odAdd_other _ _ (hne 6 4 (by decide)), State.odGet_odSet_self]
  · rw [hod, State.odGet_odSet_self]
  · rw [hod, State.odGet_odSet_other _ _ (hne 5 6 (by decide)), State.odGet_odAdd_self, State.odGet_odSet_other _ _ (hne 4 6 (by decide))]
    rfl

/-- Settles O49: the requests are a fold of `setShadowReq` over distinct partitions; a piece sent and a notice leave the shadow's objects. -/
theorem shadowPieces : Obligations.ShadowPieces := by
  refine ⟨fun s old l v hu hl hv => execRiskScore_stored hu hl hv, ⟨fun s k r hu hd hk hc hs => execShadowDataPiece_foreign hu hd hk hc hs,
    fun s k r h a hu hd hk hc hs hp hr hg ho hf ha hsz hm => execShadowDataPiece_current hu hd hk hc hs hp hr hg ho hf ha hsz hm,
    fun s k r h hu hd hk hc hs hr hg ho hf _ hsz => execShadowEndPiece_ends hu hd hk hc hs hr hg ho hf hsz⟩,
    fun s k r h i hu hd hk hc hp hi hs hg hl => ?_, fun s q h hu hs => ⟨fun he => ?_, fun he => ?_⟩⟩
  · subst hi
    have hex := execShadowCommitPiece_sent hu hd hk hc hp hs hg hl
    let t : State := { s with delivery := r }
    refine ⟨fun h0 => ⟨_, hex, sentCommit_committed t h h0⟩, fun h1 => ⟨_, hex, ?_⟩, fun h2 => ⟨_, hex, ?_⟩⟩
    · have he : t.sentCommit k.qdst h k = t.shadowFault k.qdst 0x0606 h.gen (some h.size) none (some 1) := by
        simp only [State.sentCommit, h1, one_ne_zero, if_false, if_true]
      obtain ⟨hraise, -, hparts, -, -⟩ := shadowFault_raises t k.qdst 0x0606 h.gen (some h.size) none (some 1)
      rw [he]
      exact ⟨(congrArg Part.shSend (part_of_parts hparts k.qdst)).trans hs, hraise⟩
    · let v := t.shadowFault k.qdst 0x0606 h.gen (some h.size) none (some 2)
      have he : t.sentCommit k.qdst h k = v.loseShadow k.qdst h.gen (some h.size) none (some 2) := by
        simp only [State.sentCommit, h2, OfNat.ofNat_ne_zero, OfNat.ofNat_ne_one, if_false, if_true]
        rfl
      obtain ⟨hraise, -, -, hod, -⟩ := shadowFault_raises t k.qdst 0x0606 h.gen (some h.size) none (some 2)
      obtain ⟨hnone, hlost, hkeep, hcount⟩ := loseShadow_loses v k.qdst h.gen (some h.size) none (some 2)
      have hodv : v.odGet 0 (shadowIdx k.qdst) 8 = s.odGet 0 (shadowIdx k.qdst) 8 := by rw [State.odGet, hod]; rfl
      rw [he]
      exact ⟨hnone, hkeep _ hraise, hlost, hodv ▸ hcount⟩
  · obtain ⟨hnone, hlost, -, hcount⟩ := loseShadow_loses s q h.gen (some h.size) none (some 3)
    refine ⟨_, ?_, hnone, hlost, hcount⟩
    simp only [exec]
    rw [execShadowCompletionTimeout, spireEvent_up _ hu.1 hu.2]
    simp only [hs, he, if_true]
  · simp only [exec]
    rw [execShadowCompletionTimeout, spireEvent_up _ hu.1 hu.2]
    simp only [hs, he, Bool.false_eq_true, if_false]

end Sys2Proof.Machine
end

section
/-! PROOF. Fault records, their cases and containment (14 R416-R427). -/

namespace Sys2Proof.Machine

open Sys2Proof Sys2Proof.Safety

/-! What the handling of a fault leaves of the cases. -/

/-- Subindices of the case objects that handling reads: the case's state, number and class, the next number and the limit. -/
abbrev caseSub (sub : Nat) : Prop := 1 < sub ∧ sub < 5

/-- The cases, their objects, the tests under way and the fences are as they were. -/
structure keepsCases (s u : State) : Prop where
  cases : u.cases = s.cases
  testing : u.testing = s.testing
  transients : u.transients = s.transients
  fenced : ∀ x ∈ s.fencedSpire, x ∈ u.fencedSpire
  od : ∀ i sub, 0x8001 ≤ i → i < 0x8100 → caseSub sub → u.odGet 0 i sub = s.odGet 0 i sub

theorem keepsCases.trans {s t u : State} (h : keepsCases s t) (h' : keepsCases t u) : keepsCases s u :=
  ⟨h'.cases.trans h.cases, h'.testing.trans h.testing, h'.transients.trans h.transients, fun x hx => h'.fenced x (h.fenced x hx),
    fun i sub h1 h2 h3 => (h'.od i sub h1 h2 h3).trans (h.od i sub h1 h2 h3)⟩

theorem keepsCases.case {s u : State} (h : keepsCases s u) (k : Nat) : u.case k = s.case k := by rw [State.case, h.cases]; rfl

theorem keepsCases_of_od {s u : State} (hc : u.cases = s.cases) (ht : u.testing = s.testing) (hr : u.transients = s.transients)
    (hf : ∀ x ∈ s.fencedSpire, x ∈ u.fencedSpire) (ho : u.od = s.od) : keepsCases s u :=
  ⟨hc, ht, hr, hf, fun _ _ _ _ _ => by rw [State.odGet, ho]; rfl⟩

theorem keepsCases.refl (s : State) : keepsCases s s := keepsCases_of_od rfl rfl rfl (fun _ hx => hx) rfl

theorem keepsCases_foldl {α : Type} {f : State → α → State} (hf : ∀ t a, keepsCases t (f t a)) (l : List α) (s : State) :
    keepsCases s (l.foldl f s) := by
  induction l generalizing s with
  | nil => exact .refl s
  | cons a l ih => exact (hf s a).trans (ih _)

theorem keepsCases_odSet (s : State) {q i sub v : Nat} (h : ∀ j r, 0x8001 ≤ j → j < 0x8100 → caseSub r → odKey q i sub ≠ odKey 0 j r) :
    keepsCases s (s.odSet q i sub v) :=
  ⟨rfl, rfl, rfl, fun _ hx => hx, fun j r h1 h2 h3 => s.odGet_odSet_other v (h j r h1 h2 h3)⟩

theorem keepsCases_deliver (s : State) (n : Notice) : keepsCases s (s.deliver n) :=
  have h := sameBeyondNotices_deliver s n
  ⟨(congrArg State.cases h :), (congrArg State.testing h :), (congrArg State.transients h :), fun _ hx => (congrArg State.fencedSpire h :) ▸ hx,
    fun _ _ h1 _ _ => mapGet_od_deliver s n (by unfold odKey; omega) _⟩

theorem keepsCases_modSpar (s : State) (i : Nat) (f : Spar → Spar) : keepsCases s (s.modSpar i f) :=
  keepsCases_of_od rfl rfl rfl (fun _ hx => hx) rfl

theorem keepsCases_countFault (s : State) (code : Nat) : keepsCases s (s.countFault code) :=
  keepsCases_of_od rfl rfl rfl (fun _ hx => hx) rfl

theorem keepsCases_attach (s : State) (k : Nat) : keepsCases s (s.attach k) := keepsCases_odSet s fun _ _ _ _ _ => by unfold odKey; omega

theorem keepsCases_stopJob (s : State) {q : Nat} (st : Nat) : keepsCases s (s.stopJob q st) := by
  unfold State.stopJob
  split
  · refine .trans ?_ (keepsCases_odSet _ fun _ _ _ _ _ => by unfold odKey; omega)
    exact keepsCases_foldl (fun t i => keepsCases_modSpar t i _) _ s
  · exact .refl s

/-- The job of partition `q` stops for an error of it (R105). -/
def stopErr (t : State) (q : Nat) : State := (t.stopJob q 2).modPart q fun p => { p with errSince := true }

theorem stopAffected_eq (s : State) (n : Notice) : s.stopAffected n =
    if !n.devwide then (if n.part < 4 then stopErr s n.part else s)
    else if n.source / 2 ^ 24 = 8 ∧ n.source % 2 ^ 24 ≤ 7 then (List.range 4).foldl stopErr s else s := rfl

theorem keepsCases_stopErr (t : State) (q : Nat) : keepsCases t (stopErr t q) :=
  (keepsCases_stopJob t 2).trans (keepsCases_of_od rfl rfl rfl (fun _ hx => hx) rfl)

theorem keepsCases_stopAffected (s : State) (n : Notice) : keepsCases s (s.stopAffected n) := by
  rw [stopAffected_eq]
  split_ifs
  · exact keepsCases_stopErr ..
  · exact .refl s
  · exact keepsCases_foldl keepsCases_stopErr _ s
  · exact .refl s

/-- A record of a partition whose job runs stops the job, with an error (R419). -/
theorem stopAffected_stops {s : State} {n : Notice} (hd : n.devwide = false) (hp : n.part < 4) (hj : s.jobRuns n.part = true) :
    (s.stopAffected n).jobState n.part = 2 := by
  rw [stopAffected_eq, hd, Bool.not_false, if_pos rfl, if_pos hp, stopErr, State.stopJob, if_pos hj]
  exact State.odGet_odSet_self _ n.part 0x2020 4 2

/-! Cases (R416, R417). -/

theorem caseOf_spec {s : State} {x k : Nat} (h : s.caseOf x = some k) : k < 64 ∧ (s.case k).open_ = true ∧ (s.case k).unit = x := by
  have hp := List.find?_some h
  simp only [Bool.and_eq_true, decide_eq_true_eq] at hp
  exact ⟨List.mem_range.mp (List.mem_of_find?_eq_some h), hp⟩

theorem caseOf_of_cases {s u : State} (h : u.cases = s.cases) (x : Nat) : u.caseOf x = s.caseOf x := by
  unfold State.caseOf State.case
  rw [h]

theorem caseUnit_of_maps {s u : State} (h : ∀ t, u.berthMap t = s.berthMap t) (x : Nat) : u.caseUnit x = s.caseUnit x := by
  have hb : ∀ i, u.berthOf i = s.berthOf i := fun i => by unfold State.berthOf; rw [h]
  unfold State.caseUnit
  simp only [hb]

theorem berthMap_countFault (s : State) (code t : Nat) : (s.countFault code).berthMap t = s.berthMap t :=
  mapGet_mapSet_ne _ _ s.blobs _ (by unfold odKey; omega)

/-- What a case's change of state does (R417). -/
theorem caseState_changes (s : State) (k st : Nat) :
    (s.caseState k st).cases = mapSet {} s.cases k { s.case k with st := st } ∧ (s.caseState k st).testing = s.testing ∧
    (s.caseState k st).transients = s.transients ∧ (s.caseState k st).fencedSpire = s.fencedSpire ∧ (s.caseState k st).blobs = s.blobs ∧
    (s.caseState k st).spars = s.spars ∧
    ∀ q i sub, 0x180100 ≤ odKey q i sub → (s.caseState k st).odGet q i sub = (s.odSet 0 (0x8010 + k) 2 st).odGet q i sub := by
  have h := sameBeyondNotices_deliver
    (({ s with cases := mapSet {} s.cases k { s.case k with st := st } } : State).odSet 0 (0x8010 + k) 2 st)
  exact ⟨(congrArg State.cases (h _) :), (congrArg State.testing (h _) :), (congrArg State.transients (h _) :),
    (congrArg State.fencedSpire (h _) :), (congrArg State.blobs (h _) :), (h _).spars, fun q i sub hk => mapGet_od_deliver _ _ hk _⟩

theorem case_caseState (s : State) (k st : Nat) : (s.caseState k st).case k = { s.case k with st := st } := by
  rw [State.case, (caseState_changes s k st).1]
  exact mapGet_mapSet_self _ s.cases k _

theorem odGet_caseState_self (s : State) (k st : Nat) : (s.caseState k st).odGet 0 (0x8010 + k) 2 = st :=
  ((caseState_changes s k st).2.2.2.2.2.2 0 _ 2 (by unfold odKey; omega)).trans (State.odGet_odSet_self ..)

theorem odGet_caseState_other (s : State) {k st q i sub : Nat} (hlo : 0x180100 ≤ odKey q i sub) (h : odKey 0 (0x8010 + k) 2 ≠ odKey q i sub) :
    (s.caseState k st).odGet q i sub = s.odGet q i sub :=
  ((caseState_changes s k st).2.2.2.2.2.2 q i sub hlo).trans (State.odGet_odSet_other _ _ h)

/-- A case closed: its entry is free, its object says so, and tests and fences stay (R417). -/
theorem caseClose_closes (s : State) (k cls : Nat) : caseClosed (s.caseClose k cls) k cls ∧ (s.caseClose k cls).testing = s.testing ∧
    (s.caseClose k cls).fencedSpire = s.fencedSpire := by
  have hne : ∀ a b, a ≠ b → odKey 0 (0x8010 + k) a ≠ odKey 0 (0x8010 + k) b := fun a b h => by unfold odKey; omega
  obtain ⟨-, ht, -, hf, -, -, -⟩ := caseState_changes (s.odSet 0 (0x8010 + k) 4 cls) k 5
  have h4 : ((s.odSet 0 (0x8010 + k) 4 cls).caseState k 5).odGet 0 (0x8010 + k) 4 = cls :=
    (odGet_caseState_other _ (by unfold odKey; omega) (hne 2 4 (by decide))).trans (State.odGet_odSet_self ..)
  unfold State.caseClose
  extract_lets s1
  refine ⟨⟨mapGet_mapSet_self ({} : Case) s1.cases k {}, ?_, ?_⟩, ht, hf⟩
  · exact (State.odGet_odSet_other _ _ (by unfold odKey; omega)).trans ((State.odGet_odSet_other _ _ (hne 2 4 (by decide))).trans h4)
  · exact (State.odGet_odSet_other _ _ (by unfold odKey; omega)).trans (State.odGet_odSet_self ..)

/-! Fencing (R423-R425). -/

theorem keepsCases_setPortState (s : State) (p v : Nat) : keepsCases s (s.setPortState p v) :=
  keepsCases_odSet s fun _ _ _ _ _ => by unfold odKey; omega

theorem keepsCases_of_rerouted {s u : State} (h : rerouted s u) : keepsCases s u :=
  ⟨(congrArg State.cases h.rest :), (congrArg State.testing h.rest :), (congrArg State.transients h.rest :),
    fun _ hx => (congrArg State.fencedSpire h.rest :) ▸ hx, fun _ _ _ _ _ => h.od _ (by unfold odKey; omega) _⟩

theorem keepsCases_dropLink (s : State) (p : Nat) : keepsCases s (s.dropLink p) := by
  refine .trans ?_ (keepsCases_of_rerouted (dropLink_rerouted s p))
  exact .trans (t := s.setPort p { s.port p with replay := [] }) (keepsCases_of_od rfl rfl rfl (fun _ hx => hx) rfl)
    (keepsCases_odSet _ fun _ _ _ _ _ => by unfold odKey; omega)

theorem keepsCases_setBerth (s : State) (t b v : Nat) : keepsCases s (s.setBerth t b v) :=
  keepsCases_of_od rfl rfl rfl (fun _ hx => hx) rfl

theorem keepsCases_sparesLeft (s : State) (t v : Nat) : keepsCases s (s.odSet 0 (0x8100 + t) 2 v) :=
  keepsCases_odSet s fun _ _ _ _ _ => by unfold odKey; omega

theorem keepsCases_fenceBerth (s : State) (n : Nat) : keepsCases s (s.fenceBerth n).2 := by
  unfold State.fenceBerth
  extract_lets t b v s0 s1 i s2
  have h0 : keepsCases s s0 := keepsCases_of_od rfl rfl rfl (fun _ hx => hx) rfl
  have h1 : keepsCases s0 s1 := keepsCases_setBerth s0 t b 0xFF
  have h2 : keepsCases s1 s2 := keepsCases_of_od rfl rfl rfl (fun _ hx => hx) rfl
  clear_value s0 s1 s2
  refine h0.trans ?_
  split
  · exact .refl s0
  refine h1.trans ?_
  split
  · exact keepsCases_sparesLeft ..
  refine h2.trans ?_
  split
  · exact (keepsCases_setBerth ..).trans ((keepsCases_sparesLeft ..).trans (keepsCases_deliver ..))
  · exact keepsCases_of_od rfl rfl rfl (fun _ hx => hx) rfl

theorem keepsCases_fenceUnit (s : State) (u : Nat) : keepsCases s (s.fenceUnit u).2 := by
  have hadd : ∀ x ∈ s.fencedSpire, x ∈ setIns s.fencedSpire (u % 2 ^ 24) := fun x hx => mem_setIns.mpr (.inr hx)
  unfold State.fenceUnit
  extract_lets n s1
  split
  case h_1 => exact keepsCases_fenceBerth s n
  case h_7 =>
    have h1 : keepsCases s s1 :=
      .trans (t := s.modPort n fun t => { t with fenced := true, lastTrain := none, auditing := false })
        (keepsCases_of_od rfl rfl rfl (fun _ hx => hx) rfl) (keepsCases_setPortState _ n 0)
    dsimp only
    split
    · exact h1.trans (keepsCases_dropLink s1 n)
    · exact h1
  case h_9 => exact keepsCases_of_od rfl rfl rfl hadd rfl
  case h_10 => exact .refl s
  all_goals exact keepsCases_of_od rfl rfl rfl (fun _ hx => hx) rfl

/-- A spire unit fenced is among the fenced ones (Table 14-5). -/
theorem fenceUnit_spire {s : State} {u : Nat} (h : u / 2 ^ 24 = 8) : u % 2 ^ 24 ∈ (s.fenceUnit u).2.fencedSpire := by
  unfold State.fenceUnit
  simp only [h]
  exact mem_setIns.mpr (.inl rfl)

/-- What a test's end leaves of the cases. -/
theorem endTest_keeps (s : State) (u : Nat) : (s.endTest u).cases = s.cases ∧ (s.endTest u).testing = s.testing.erase u ∧
    (s.endTest u).transients = s.transients ∧ (s.endTest u).od = s.od := by
  unfold State.endTest
  extract_lets s1 t v
  split_ifs <;> exact ⟨rfl, rfl, rfl, rfl⟩

/-- A case fenced is closed with class lasting, its unit's test over, and a spire unit of it fenced (R423). -/
theorem fenceCase_fences (s : State) (k : Nat) : caseClosed (s.fenceCase k) k 3 ∧
    (s.fenceCase k).testing = s.testing.erase (s.case k).unit ∧
    ((s.case k).unit / 2 ^ 24 = 8 → (s.case k).unit % 2 ^ 24 ∈ (s.fenceCase k).fencedSpire) := by
  unfold State.fenceCase
  extract_lets c rec' s1 f rec_
  obtain ⟨hclose, htest, hfence⟩ := caseClose_closes (((f.2.countFault 0x0602).attach k).deliver rec_) k 3
  have hs1 : s1.testing = s.testing.erase c.unit :=
    (keepsCases_stopAffected _ _).testing.trans ((caseState_changes _ k 4).2.1.trans (endTest_keeps s c.unit).2.1)
  have hrec : keepsCases f.2 (((f.2.countFault 0x0602).attach k).deliver rec_) :=
    (keepsCases_countFault ..).trans ((keepsCases_attach ..).trans (keepsCases_deliver ..))
  refine ⟨hclose, htest.trans (hrec.testing.trans ((keepsCases_fenceUnit s1 c.unit).testing.trans hs1)), fun h8 => ?_⟩
  rw [hfence]
  exact hrec.fenced _ (fenceUnit_spire h8)

/-! Containment (R426, R427). -/

theorem nested_contains (s : State) (code num cause : Nat) : containedState (s.nested code num cause) := by
  unfold State.nested
  extract_lets s1 s2 s3
  have hfold : ∀ (l : List Nat) (t : State), (l.foldl (fun t p => t.setPortState p 0) t).boot = t.boot ∧
      (l.foldl (fun t p => t.setPortState p 0) t).faultN = t.faultN := fun l t =>
    List.foldlRecOn (motive := fun u : State => u.boot = t.boot ∧ u.faultN = t.faultN) _ _ ⟨rfl, rfl⟩ fun _ hu _ _ => hu
  refine ⟨(hfold _ _).1, (hfold _ _).2, fun p hp => ?_⟩
  exact (portState_foldl_setPortState _ (List.range 36) 0 p).trans (if_pos (List.mem_range.mpr hp))

/-! FAULT_RECORD_ARRIVAL (R416). -/

theorem execFaultRecordArrival_next {s : State} {n : Notice} {r : List Notice} (h : faultNext s n r) (p : Bool) :
    exec (.faultRecordArrival p) s = .next (({ s with faultQ := r } : State).onFault n p) := by
  simp only [exec]
  rw [execFaultRecordArrival, handleEvent, h.1, if_pos rfl, h.2]

/-- The entry of a case that the record opens (R416). -/
def newCase (s : State) (n : Notice) : Case :=
  { open_ := true, num := s.odGet 0 0x8001 2, unit := s.caseUnit n.source, code := n.code, part := if n.devwide then 4 else n.part }

/-- The state in which a record that opens a case has been delivered (R416). -/
def caseEntered (s : State) (n : Notice) (k : Nat) : State :=
  let s0 : State := { s with cases := mapSet {} s.cases k (newCase s n) }
  ((((((s0.odSet 0 0x8001 2 ((s.odGet 0 0x8001 2 + 1) % 2 ^ 32)).odSet 0 0x8001 1 s0.openCases).blobSet 0 (0x8010 + k) 1 n.bytes).odSet 0
    (0x8010 + k) 3 (s.odGet 0 0x8001 2)).odSet 0 (0x8010 + k) 4 0).odSet 0 (0x8010 + k) 5 0).deliver n

theorem openCase_tested {s : State} {n : Notice} {k : Nat} (ht : hasTest (s.caseUnit n.source) = true) (hb : bootObject n = false) :
    s.openCase n k = (((caseEntered s n k).caseState k 1).stopAffected n).caseState k 2 := by
  unfold State.openCase
  extract_lets u num c s0 i s1 s2
  rw [if_pos (by simp [u, ht, hb])]
  rfl

theorem case_caseEntered (s : State) (n : Notice) (k : Nat) : (caseEntered s n k).case k = newCase s n := by
  unfold caseEntered
  extract_lets s0
  exact ((keepsCases_deliver _ n).case k).trans (mapGet_mapSet_self ({} : Case) s.cases k (newCase s n))

theorem odGet_caseEntered_num (s : State) (n : Notice) (k : Nat) :
    (caseEntered s n k).odGet 0 0x8001 2 = (s.odGet 0 0x8001 2 + 1) % 2 ^ 32 := by
  unfold caseEntered
  extract_lets s0
  refine ((keepsCases_deliver _ n).od 0x8001 2 (by decide) (by decide) ⟨by decide, by decide⟩).trans ?_
  refine (State.odGet_odSet_other _ _ (by unfold odKey; omega)).trans ((State.odGet_odSet_other _ _ (by unfold odKey; omega)).trans ?_)
  exact (State.odGet_odSet_other _ _ (by unfold odKey; omega)).trans ((State.odGet_odSet_other _ _ (by decide)).trans (State.odGet_odSet_self ..))

theorem jobState_caseEntered (s : State) (n : Notice) {k : Nat} (hk : k < 64) (q : Nat) : (caseEntered s n k).jobState q = s.jobState q := by
  have hset : ∀ (u : State) i sub v, odKey 0 i sub ≠ odKey q 0x2020 4 → (u.odSet 0 i sub v).jobState q = u.jobState q :=
    fun u i sub v h => u.odGet_odSet_other v h
  unfold caseEntered
  extract_lets s0
  refine (mapGet_od_deliver _ n (by unfold odKey; omega) _).trans ?_
  refine (hset _ (0x8010 + k) 5 _ (by unfold odKey; omega)).trans ((hset _ (0x8010 + k) 4 _ (by unfold odKey; omega)).trans ?_)
  refine (hset _ (0x8010 + k) 3 _ (by unfold odKey; omega)).trans ?_
  exact (hset _ 0x8001 1 _ (by unfold odKey; omega)).trans (hset s0 0x8001 2 _ (by unfold odKey; omega))

theorem jobState_caseState (s : State) (k st q : Nat) : (s.caseState k st).jobState q = s.jobState q :=
  odGet_caseState_other s (q := q) (i := 0x2020) (sub := 4) (by unfold odKey; omega) (by unfold odKey; omega)

/-- A case is opened: its entry, its object and its number, the test awaited and the job stopped (R416, R417, R419). -/
theorem openCase_opens {s : State} {n : Notice} {k : Nat} (hk : k < 64) (ht : hasTest (s.caseUnit n.source) = true) (hb : bootObject n = false) :
    (s.openCase n k).case k = { newCase s n with st := 2 } ∧
    (s.openCase n k).odGet 0 (0x8010 + k) 2 = 2 ∧ (s.openCase n k).odGet 0 0x8001 2 = (s.odGet 0 0x8001 2 + 1) % 2 ^ 32 ∧
    (n.devwide = false → n.part < 4 → s.jobRuns n.part = true → (s.openCase n k).jobState n.part = 2) := by
  rw [openCase_tested ht hb]
  let v := caseEntered s n k
  let w := (v.caseState k 1).stopAffected n
  have hw : keepsCases (v.caseState k 1) w := keepsCases_stopAffected _ n
  have hnum : ∀ (u : State) st, (u.caseState k st).odGet 0 0x8001 2 = u.odGet 0 0x8001 2 := fun u st =>
    odGet_caseState_other u (by decide) (by unfold odKey; omega)
  refine ⟨?_, odGet_caseState_self w k 2, ?_, fun hd hp hj => ?_⟩
  · rw [case_caseState, hw.case k, case_caseState, case_caseEntered]
  · rw [hnum w 2, hw.od 0x8001 2 (by decide) (by decide) ⟨by decide, by decide⟩, hnum v 1, odGet_caseEntered_num]
  · have hrun : (v.caseState k 1).jobRuns n.part = true := by
      rw [State.jobRuns, jobState_caseState, jobState_caseEntered s n hk]
      exact hj
    exact (jobState_caseState w k 2 n.part).trans (stopAffected_stops hd hp hrun)

/-- Where a record of an error goes (R416, R426). -/
theorem onFault_error (s : State) {n : Notice} (h : 2 ≤ n.sev) :
    s.onFault n true = (s.countFault n.code).nested n.code 0 1 ∧
    s.onFault n false = match s.caseOf (s.caseUnit n.source) with
      | some k => ((((s.countFault n.code).attach k).deliver n).stopAffected n).fenceCase k
      | none =>
        if 64 ≤ s.openCases then (s.countFault n.code).nested n.code 0 2
        else match (List.range 64).find? fun k => !(s.case k).open_ with
          | some k => (s.countFault n.code).openCase n k
          | none => s.countFault n.code := by
  have hunit : (s.countFault n.code).caseUnit n.source = s.caseUnit n.source := caseUnit_of_maps (berthMap_countFault s n.code) _
  refine ⟨?_, ?_⟩
  · rw [State.onFault, if_neg h.not_gt, if_pos rfl]
  · rw [State.onFault, if_neg h.not_gt, if_neg Bool.false_ne_true, hunit]
    rfl

/-- Settles O46: each case of `on_fault` is followed to the case's entry and object, which a notice, a stopped job and a fence leave. -/
theorem faultHandling : Obligations.FaultHandling := by
  refine ⟨⟨fun s n r p hn hsev => ?_, fun s n r k hn hsev hc ho hk ht hb => ?_, fun s n r k hn hsev hc h8 => ?_⟩,
    fun s n r hn hsev => ?_, fun s n r hn hsev hc ho => ?_, fun s unit k hh hc hst => ?_⟩
  · rw [execFaultRecordArrival_next hn, State.onFault, if_pos hsev]
  · let t : State := { s with faultQ := r }
    have hct : t.caseOf (t.caseUnit n.source) = none := hc
    have hkt : ((List.range 64).find? fun k => !(t.case k).open_) = some k := hk
    have hunit : (t.countFault n.code).caseUnit n.source = s.caseUnit n.source := caseUnit_of_maps (berthMap_countFault t n.code) _
    have he : t.onFault n false = (t.countFault n.code).openCase n k := by
      rw [(onFault_error t hsev).2, hct]
      dsimp only
      rw [if_neg (show ¬ 64 ≤ t.openCases from ho.not_ge), hkt]
    obtain ⟨hcase, hobj, hnum, hjob⟩ := openCase_opens (s := t.countFault n.code) (n := n) (k := k)
      (List.mem_range.mp (List.mem_of_find?_eq_some hk)) (hunit ▸ ht) hb
    refine ⟨_, (execFaultRecordArrival_next hn false).trans (congrArg _ he), ?_, ?_, ?_, ?_, ?_, hobj, hnum, fun hd hp hj => hjob hd hp hj⟩
    · exact congrArg Case.open_ hcase
    · exact (congrArg Case.unit hcase).trans hunit
    · exact congrArg Case.code hcase
    · exact congrArg Case.num hcase
    · exact congrArg Case.st hcase
  · let t : State := { s with faultQ := r }
    have hct : t.caseOf (t.caseUnit n.source) = some k := hc
    have he : t.onFault n false = ((((t.countFault n.code).attach k).deliver n).stopAffected n).fenceCase k := by
      rw [(onFault_error t hsev).2, hct]
    have hkeep : keepsCases t ((((t.countFault n.code).attach k).deliver n).stopAffected n) :=
      (keepsCases_countFault ..).trans ((keepsCases_attach ..).trans ((keepsCases_deliver ..).trans (keepsCases_stopAffected ..)))
    obtain ⟨hclose, -, hfence⟩ := fenceCase_fences ((((t.countFault n.code).attach k).deliver n).stopAffected n) k
    rw [hkeep.case k] at hfence
    exact ⟨_, (execFaultRecordArrival_next hn false).trans (congrArg _ he), hfence h8, hclose⟩
  · exact ⟨_, (execFaultRecordArrival_next hn true).trans (congrArg _ (onFault_error _ hsev).1), nested_contains ..⟩
  · let t : State := { s with faultQ := r }
    have hct : t.caseOf (t.caseUnit n.source) = none := hc
    have he : t.onFault n false = (t.countFault n.code).nested n.code 0 2 := by
      rw [(onFault_error t hsev).2, hct]
      exact if_pos ho
    exact ⟨_, (execFaultRecordArrival_next hn false).trans (congrArg _ he), nested_contains ..⟩
  · refine ⟨_, ?_, nested_contains s (s.case k).code (s.case k).num 3⟩
    simp only [exec]
    rw [execTestStartTimeout, handleEvent, hh, if_pos rfl, hc]
    exact congrArg _ (if_pos hst)

end Sys2Proof.Machine
end

section
/-! PROOF. Targeted tests and periodic slices (14 R420-R423, R428-R432). -/

namespace Sys2Proof.Machine

open Sys2Proof Sys2Proof.Safety

/-! The save of a tested berth's spar (R430): it leaves cases, tests and slices, and no spar's pause. -/

/-- Cases, tests and slices are as they were, and so is every spar's pause. -/
structure keepsTests (s u : State) : Prop where
  cases : u.cases = s.cases
  testing : u.testing = s.testing
  slices : u.slices = s.slices
  paused : ∀ i, (u.spar i).paused = (s.spar i).paused

theorem keepsTests.trans {s t u : State} (h : keepsTests s t) (h' : keepsTests t u) : keepsTests s u :=
  ⟨h'.cases.trans h.cases, h'.testing.trans h.testing, h'.slices.trans h.slices, fun i => (h'.paused i).trans (h.paused i)⟩

theorem keepsTests_of_same {s u : State} (hc : u.cases = s.cases) (ht : u.testing = s.testing) (hl : u.slices = s.slices)
    (hs : u.spars = s.spars) : keepsTests s u := ⟨hc, ht, hl, fun i => by rw [spar_of_spars hs]⟩

theorem keepsTests.refl (s : State) : keepsTests s s := keepsTests_of_same rfl rfl rfl rfl

theorem keepsTests_putLine (s : State) (l o : Nat) (bs : Bytes) : keepsTests s (s.putLine l o bs).1 := by
  unfold State.putLine
  split_ifs
  · exact keepsTests_of_same rfl rfl rfl rfl
  · exact keepsTests_of_same rfl rfl rfl rfl
  · exact keepsTests_of_same rfl rfl rfl rfl

theorem keepsTests_putLines (n : Nat) (s : State) (a : Nat) (bs : Bytes) : keepsTests s (State.putLines n s a bs).1 := by
  induction n generalizing s a bs with
  | zero => exact .refl s
  | succ n ih =>
    rw [State.putLines]
    split
    · exact .refl s
    · exact (keepsTests_putLine ..).trans (ih ..)

theorem keepsTests_modSpar (s : State) (i : Nat) (f : Spar → Spar) (hf : ∀ x, (f x).paused = x.paused) : keepsTests s (s.modSpar i f) := by
  refine ⟨rfl, rfl, rfl, fun j => ?_⟩
  by_cases h : i = j
  · subst h
    rw [State.spar_modSpar_self, hf]
  · rw [State.spar_modSpar_other _ _ h]

theorem keepsTests_drawFile (s : State) (w n : Nat) : keepsTests s (s.drawFile w n).2 :=
  List.foldlRecOn (motive := fun acc : List (Nat × BitVec w) × State => keepsTests s acc.2) _ _ (.refl s)
    fun _ h _ _ => h.trans (keepsTests_of_same rfl rfl rfl rfl)

theorem keepsTests_discardKept (s : State) (i : Nat) : keepsTests s (s.discardKept i) := by
  unfold State.discardKept
  extract_lets a b c d e f g h
  have hg : keepsTests s g.2 :=
    (keepsTests_drawFile s 64 64).trans ((keepsTests_drawFile a.2 64 32).trans ((keepsTests_drawFile b.2 256 16).trans
      ((keepsTests_drawFile c.2 128 8).trans ((keepsTests_drawFile d.2 8192 32).trans ((keepsTests_drawFile e.2 32 4).trans
        (keepsTests_drawFile f.2 512 4))))))
  have hh : keepsTests g.2 h.2 := keepsTests_of_same rfl rfl rfl rfl
  clear_value h
  exact hg.trans (hh.trans (keepsTests_modSpar _ _ _ fun _ => rfl))

theorem keepsTests_saveSpar (s : State) (i : Nat) : keepsTests s (s.saveSpar i) := by
  unfold State.saveSpar
  extract_lets r
  split_ifs
  · exact .refl s
  · exact keepsTests_discardKept s i
  · exact keepsTests_putLines ..

/-- A spar paused and saved is paused. -/
theorem paused_pauseSpar (s : State) (i : Nat) : ((s.modSpar i fun x => { x with paused := true }).spar i).paused = true :=
  congrArg Spar.paused (s.spar_modSpar_self i fun x => { x with paused := true })

/-! TARGETED_TEST_START (R420). -/

theorem sparAt_of_blobs {s u : State} (h : u.blobs = s.blobs) (n : Nat) : u.sparAt n = s.sparAt n := by
  unfold State.sparAt State.berthMap State.blobGet
  rw [h]

/-- A berth's test started: its case stays, it is under test, and its spar is paused (Table 14-4). -/
theorem beginTest_berth {s : State} {u : Nat} (h3 : u / 2 ^ 24 = 3) : (s.beginTest u).cases = s.cases ∧ u ∈ (s.beginTest u).testing ∧
    ∀ i, s.sparAt (u % 2 ^ 24) = some i → ((s.beginTest u).spar i).paused = true := by
  unfold State.beginTest
  extract_lets n s1 st
  have h1 : u ∈ s1.testing := List.mem_append_right _ List.mem_cons_self
  rw [if_pos h3]
  split
  · next i hi =>
    have hk := (keepsTests_saveSpar (s1.modSpar i fun x => { x with paused := true }) i)
    refine ⟨hk.cases, hk.testing ▸ h1, fun j hj => ?_⟩
    obtain rfl : i = j := Option.some.inj (hi.symm.trans hj)
    exact (hk.paused i).trans (paused_pauseSpar s1 i)
  · next hi => exact ⟨rfl, h1, fun j hj => absurd (hi.symm.trans hj) (by simp)⟩

/-- Another unit's test started: of the cases nothing changes, and the unit is under test. -/
theorem beginTest_other {s : State} {u : Nat} (h3 : u / 2 ^ 24 ≠ 3) : keepsCases { s with testing := s.testing ++ [u] } (s.beginTest u) := by
  unfold State.beginTest
  extract_lets n s1 st
  rw [if_neg h3]
  split_ifs
  · exact (keepsCases_setPortState s1 n 1).trans (keepsCases_dropLink _ n)
  · exact .refl s1
  · exact .refl s1

theorem execTargetedTestStart_other {s : State} {unit k : Nat} (hh : s.handling = true) (hc : s.caseOf (s.caseUnit unit) = some k)
    (hst : (s.case k).st = 2) (hf : s.unitFenced (s.caseUnit unit) = false) (h3 : s.caseUnit unit / 2 ^ 24 ≠ 3) :
    exec (.targetedTestStart unit) s = .next ((s.caseState k 3).beginTest (s.caseUnit unit)) := by
  simp only [exec]
  rw [execTargetedTestStart, handleEvent, hh, if_pos rfl]
  simp only [hc, hst, hf, ne_eq, not_true_eq_false, Bool.false_eq_true, if_false, if_neg h3]

/-- The ranges a berth's test saves its spar to (R430). -/
abbrev saveRange (s : State) (t : Nat) : List (Nat × Nat) := [(s.saveRegion t, if s.saveRegion t = 0 then 0 else saveBytes)]

theorem execTargetedTestStart_berth {s : State} {unit k : Nat} (hh : s.handling = true) (hc : s.caseOf (s.caseUnit unit) = some k)
    (hst : (s.case k).st = 2) (hf : s.unitFenced (s.caseUnit unit) = false) (h3 : s.caseUnit unit / 2 ^ 24 = 3)
    (ht : s.towerTests (s.caseUnit unit % 2 ^ 24 / 132) (s.caseUnit unit % 2 ^ 24) = false)
    (ho : portOpen s manageUnit (saveRange s (s.caseUnit unit % 2 ^ 24 / 132))) :
    exec (.targetedTestStart unit) s = .next
      (((s.takeAsk manageUnit (saveRange s (s.caseUnit unit % 2 ^ 24 / 132))).caseState k 3).beginTest (s.caseUnit unit)) := by
  obtain ⟨hheld, htr, hcut, hgr⟩ := ho
  simp only [exec]
  rw [execTargetedTestStart, handleEvent, hh, if_pos rfl]
  simp only [hc, hst, hf, ht, ne_eq, not_true_eq_false, Bool.false_eq_true, if_false, if_pos h3, State.portGate_open hheld htr hcut hgr]

/-! TARGETED_TEST_END (R421). -/

/-- A passed test's outcome: the class, and what the tests under way become (R421). -/
theorem classifyPass_closes (s : State) (k gone : Nat) : caseClosed (s.classifyPass k gone) k
      (if faultClass (s.case k).code = 0 then 1
        else if (dropTransients (s.case k).unit gone s.transients).count (s.case k).unit + 1 ≤ s.odGet 0 0x8001 4 then 2 else 3) ∧
    ((s.classifyPass k gone).testing = s.testing ∨ (s.classifyPass k gone).testing = s.testing.erase (s.case k).unit) := by
  unfold State.classifyPass
  extract_lets c s1
  by_cases h0 : faultClass (s.case k).code = 0
  · rw [if_pos h0, if_pos h0]
    obtain ⟨hclose, htest, -⟩ := caseClose_closes s k 1
    exact ⟨hclose, .inl htest⟩
  rw [if_neg h0, if_neg h0]
  by_cases hlim : (dropTransients (s.case k).unit gone s.transients).count (s.case k).unit + 1 ≤ s.odGet 0 0x8001 4
  · obtain ⟨hclose, htest, -⟩ := caseClose_closes ({ s1 with transients := s1.transients ++ [c.unit] } : State) k 2
    rw [if_pos hlim, if_neg (show ¬ s1.odGet 0 0x8001 4 < s1.transients.count c.unit + 1 from hlim.not_gt)]
    exact ⟨hclose, .inl htest⟩
  · obtain ⟨hclose, htest, -⟩ := fenceCase_fences s1 k
    rw [if_neg hlim, if_pos (show s1.odGet 0 0x8001 4 < s1.transients.count c.unit + 1 from lt_of_not_ge hlim)]
    exact ⟨hclose, .inr htest⟩

/-- A failed test fences its unit and closes its case (R421). -/
theorem testFails_fences (s : State) (k speed pattern sig : Nat) : caseClosed (s.testFails k speed pattern sig) k 3 ∧
    ((s.case k).unit / 2 ^ 24 = 8 → (s.case k).unit % 2 ^ 24 ∈ (s.testFails k speed pattern sig).fencedSpire) := by
  unfold State.testFails
  extract_lets c n
  have hk : keepsCases s ((((s.countFault 0x0601).attach k).deliver n).stopAffected n) :=
    (keepsCases_countFault ..).trans ((keepsCases_attach ..).trans ((keepsCases_deliver ..).trans (keepsCases_stopAffected ..)))
  obtain ⟨hclose, -, hfence⟩ := fenceCase_fences ((((s.countFault 0x0601).attach k).deliver n).stopAffected n) k
  rw [hk.case k] at hfence
  exact ⟨hclose, hfence⟩

theorem case_of_cases {s u : State} (h : u.cases = s.cases) (k : Nat) : u.case k = s.case k := by
  unfold State.case
  rw [h]

/-! Slices (R428-R432). -/

theorem slice_setSlice_some (s : State) (t : Nat) {x : Slice} (h : (x.due || x.active) = true) : (s.setSlice t (some x)).slice t = some x := by
  simp only [State.slice, State.setSlice, mapGet_mapSet_self, Option.getD_some, h, if_true]

theorem live_next {s : State} (h : s.live = true) (f : State → State) : liveEvent s f = .next (f s) := by rw [liveEvent, h, if_pos rfl]

/-- A slice's start: it is active, and the spar of its berth is paused and saved (R429, R430). -/
def startSlice (s : State) (t : Nat) (x : Slice) : State :=
  let s1 := s.setSlice t (some { x with due := false, active := true })
  match s.sparAt (132 * t + x.berth) with
  | some i =>
    let s2 := s1.modSpar i fun x => { x with paused := true }
    if s.saveRegion t = 0 then s2 else s2.saveSpar i
  | none => s1

theorem execSliceStart_starts {s : State} {t : Nat} {x : Slice} (hl : s.live = true) (hs : s.slice t = some x) (ha : x.active = false)
    (ht : s.towerTests t (132 * t + x.berth) = false) (hc : s.caseOf (berthUnit t x.berth) = none)
    (hr : s.sliceReady (132 * t + x.berth) = true) (ho : portOpen s manageUnit (saveRange s t)) :
    exec (.sliceStart t) s = .next (startSlice (s.takeAsk manageUnit (saveRange s t)) t x) := by
  obtain ⟨hheld, htr, hcut, hgr⟩ := ho
  simp only [exec]
  rw [execSliceStart, live_next hl]
  simp only [hs, ha, ht, hc, hr, Option.isSome_none, Bool.false_eq_true, not_true_eq_false, or_self, if_false,
    State.portGate_open hheld htr hcut hgr]
  rfl

theorem startSlice_starts (s : State) (t : Nat) (x : Slice) :
    (startSlice s t x).slice t = some { x with due := false, active := true } ∧
    ∀ i, s.sparAt (132 * t + x.berth) = some i → ((startSlice s t x).spar i).paused = true := by
  have h1 : (s.setSlice t (some { x with due := false, active := true })).slice t = some { x with due := false, active := true } :=
    slice_setSlice_some s t rfl
  unfold startSlice
  extract_lets s1
  split
  · next i hi =>
    extract_lets s2
    have h2 : (s2.spar i).paused = true := paused_pauseSpar s1 i
    have hk : keepsTests s2 (if s.saveRegion t = 0 then s2 else s2.saveSpar i) := by
      split
      · exact .refl s2
      · exact keepsTests_saveSpar s2 i
    refine ⟨(slice_of_slices (hk.slices.trans rfl) t).trans h1, fun j hj => ?_⟩
    obtain rfl : i = j := Option.some.inj (hi.symm.trans hj)
    exact (hk.paused i).trans h2
  · next hi => exact ⟨h1, fun j hj => absurd (hi.symm.trans hj) (by simp)⟩

/-- A berth resumed: its spar is paused no longer. -/
theorem paused_resumeBerth {s : State} {n i : Nat} (h : s.sparAt n = some i) : ((s.resumeBerth n).spar i).paused = false := by
  unfold State.resumeBerth
  rw [h]
  exact congrArg Spar.paused (s.spar_modSpar_self i fun x => { x with paused := false })

/-- A slice that has ended: it is gone, and its berth's spar runs on. -/
def endSlice (s : State) (t : Nat) (x : Slice) : State := (s.setSlice t none).resumeBerth (132 * t + x.berth)

theorem endSlice_ends (s : State) (t : Nat) (x : Slice) : (endSlice s t x).slice t = none ∧ (endSlice s t x).od = s.od ∧
    (endSlice s t x).faultQ = s.faultQ ∧ ∀ i, s.sparAt (132 * t + x.berth) = some i → ((endSlice s t x).spar i).paused = false := by
  refine ⟨(slice_of_slices (slices_resumeBerth _ _) t).trans (slice_setSlice_self s t), (od_resumeBerth ..).trans rfl, ?_, fun i hi => ?_⟩
  · unfold endSlice State.resumeBerth
    split <;> rfl
  · exact paused_resumeBerth (s := s.setSlice t none) hi

/-- SLICE_END counts the outcome in the tower's record (R432). -/
theorem execSliceEnd_ends {s : State} {t : Nat} {x : Slice} {res : TestResult} {sub : Nat} (hl : s.live = true) (hs : s.slice t = some x)
    (ha : x.active = true) (hres : match res with | .pass => sub = 3 | .marginal => sub = 5 | .fail _ _ => sub = 4 | .external => False) :
    ∃ fs, exec (.sliceEnd t res) s = .next { (endSlice s t x).odAdd 0 (0x8100 + t) sub 1 with faultQ := s.faultQ ++ fs } ∧
      (sub = 4 → ∃ n, fs = [n] ∧ n.code = 0x0601 ∧ n.source = berthUnit t x.berth) := by
  have hq : (endSlice s t x).faultQ = s.faultQ := (endSlice_ends s t x).2.2.1
  have hsame : ∀ sub, ({ (endSlice s t x).odAdd 0 (0x8100 + t) sub 1 with faultQ := s.faultQ ++ [] } : State) =
      (endSlice s t x).odAdd 0 (0x8100 + t) sub 1 := fun sub => by rw [List.append_nil, ← hq]; rfl
  simp only [exec]
  rw [execSliceEnd, live_next hl]
  simp only [hs, ha, not_true_eq_false, if_false]
  cases res with
  | pass =>
    subst hres
    exact ⟨[], congrArg Host.Outcome.next (hsame 3).symm, fun h => absurd h (by decide)⟩
  | marginal =>
    subst hres
    exact ⟨[], congrArg Host.Outcome.next (hsame 5).symm, fun h => absurd h (by decide)⟩
  | fail p g =>
    subst hres
    rw [← hq]
    exact ⟨[_], rfl, fun _ => ⟨_, rfl, rfl, rfl⟩⟩
  | external => exact hres.elim

/-- Settles O48: a test and a slice are followed to the unit's case and the tower's record, which saving a spar leaves. -/
theorem targetedTests : Obligations.TargetedTests := by
  refine ⟨⟨fun s unit x k hh hx hc hst hf h3 => ?_, fun s unit x k hh hx hc hst hf h3 ht ho => ?_, fun s unit x k gone hh hx hc hst hn => ?_,
    fun s unit k p g gone hh hc hst h8 => ?_⟩, fun s t b hl hs hb hr => ?_, fun s t x hl hs ha ht hc hr ho => ?_, fun s t x hl hs ha => ?_,
    fun s t x res sub hl hs ha hres => ?_⟩
  · subst hx
    have hk := beginTest_other (s := s.caseState k 3) h3
    have hlt := (caseOf_spec hc).1
    refine ⟨_, execTargetedTestStart_other hh hc hst hf h3, ?_, ?_, ?_⟩
    · rw [hk.case k]
      exact congrArg Case.st (case_caseState s k 3)
    · exact (hk.od _ 2 (by omega) (by omega) ⟨by decide, by decide⟩).trans (odGet_caseState_self s k 3)
    · rw [hk.testing]
      exact List.mem_append_right _ List.mem_cons_self
  · subst hx
    obtain ⟨as, ws, htake⟩ := s.takeAsk_frame manageUnit (saveRange s (s.caseUnit unit % 2 ^ 24 / 132))
    obtain ⟨hcases, htest, hpause⟩ := beginTest_berth (s := (s.takeAsk manageUnit (saveRange s (s.caseUnit unit % 2 ^ 24 / 132))).caseState k 3) h3
    refine ⟨_, execTargetedTestStart_berth hh hc hst hf h3 ht ho, ?_, htest, fun i hi => hpause i ?_⟩
    · rw [case_of_cases hcases]
      exact congrArg Case.st (case_caseState _ k 3)
    · refine (sparAt_of_blobs (s := s) ?_ _).trans hi
      rw [(caseState_changes _ k 3).2.2.2.2.1, htake]
  · subst hx
    obtain ⟨-, -, hunit⟩ := caseOf_spec hc
    obtain ⟨hcases, htest, htrans, hod⟩ := endTest_keeps s (s.caseUnit unit)
    have hcase : (s.endTest (s.caseUnit unit)).case k = s.case k := case_of_cases hcases k
    obtain ⟨hclose, hleft⟩ := classifyPass_closes (s.endTest (s.caseUnit unit)) k gone
    have hod4 : (s.endTest (s.caseUnit unit)).odGet 0 0x8001 4 = s.odGet 0 0x8001 4 := by rw [State.odGet, hod]; rfl
    rw [hcase, hunit, htrans, hod4] at hclose
    have hout : s.caseUnit unit ∉ s.testing.erase (s.caseUnit unit) := fun h => (hn.mem_erase_iff.mp h).1 rfl
    refine ⟨(s.endTest (s.caseUnit unit)).classifyPass k gone, ?_, ?_, hclose⟩
    · simp only [exec]
      rw [execTargetedTestEnd, handleEvent, hh, if_pos rfl]
      simp only [hc, hst, ne_eq, not_true_eq_false, if_false]
    · rcases hleft with h | h
      · rw [h, htest]
        exact hout
      · rw [h, htest]
        exact fun hm => hout (List.mem_of_mem_erase hm)
  · obtain ⟨hclose, hfence⟩ := testFails_fences (s.endTest (s.caseUnit unit)) k 0 p g
    rw [case_of_cases (endTest_keeps s (s.caseUnit unit)).1 k] at hfence
    refine ⟨_, ?_, hfence h8, hclose⟩
    simp only [exec]
    rw [execTargetedTestEnd, handleEvent, hh, if_pos rfl]
    simp only [hc, hst, ne_eq, not_true_eq_false, if_false]
  · refine ⟨({ s with sliceNext := mapSet 0 s.sliceNext t ((b + 1) % 132) } : State).setSlice t (some { berth := b, due := true, active := false }),
      ?_, slice_setSlice_some _ t rfl, mapGet_mapSet_self 0 s.sliceNext t _⟩
    simp only [exec]
    rw [execSliceDue, live_next hl]
    simp only [hs, hb, hr, Option.isSome_none, Bool.false_eq_true, decide_false, Bool.false_and, if_false]
  · obtain ⟨as, ws, htake⟩ := s.takeAsk_frame manageUnit (saveRange s t)
    obtain ⟨hslice, hpause⟩ := startSlice_starts (s.takeAsk manageUnit (saveRange s t)) t x
    refine ⟨_, execSliceStart_starts hl hs ha ht hc hr ho, hslice, fun i hi => hpause i ?_⟩
    rw [htake]
    exact hi
  · refine ⟨(s.setSlice t none).odAdd 0 (0x8100 + t) 8 1, ?_, slice_setSlice_self s t, State.odGet_odAdd_self (s.setSlice t none) 0 (0x8100 + t) 8 1⟩
    simp only [exec]
    rw [execSliceDefer, live_next hl]
    simp only [hs, ha, Bool.false_eq_true, if_false]
  · obtain ⟨fs, he, hfail⟩ := execSliceEnd_ends hl hs ha hres
    obtain ⟨hslice, hod, -, hpause⟩ := endSlice_ends s t x
    refine ⟨_, he, hslice, ?_, hpause, fun h4 => ?_⟩
    · have hg : (endSlice s t x).odGet 0 (0x8100 + t) sub = s.odGet 0 (0x8100 + t) sub := by rw [State.odGet, hod]; rfl
      exact hg ▸ (endSlice s t x).odGet_odAdd_self 0 (0x8100 + t) sub 1
    · obtain ⟨n, rfl, hcode, hsrc⟩ := hfail h4
      exact ⟨n, rfl, hcode, hsrc⟩

end Sys2Proof.Machine
end

section
/-! PROOF. The partition plan and the preload (13 R404-R406). -/

namespace Sys2Proof.Machine

open Sys2Proof Sys2Proof.Safety

/-! Notices leave every object but the counters of lost records (R410). -/

theorem mapGet_od_deliver_sub (s : State) (n : Notice) {key : Nat} (h : key % 256 < 4) (d : Nat) :
    mapGet d (s.deliver n).od key = mapGet d s.od key := by
  have hlost : ∀ (u : State) k, mapGet d (u.countLost k).od key = mapGet d u.od key := fun u k => by
    unfold State.countLost State.odAdd
    split_ifs <;> exact mapGet_mapSet_ne _ _ _ _ (by simp only [odKey]; omega)
  refine List.foldlRecOn (motive := fun u : State => mapGet d u.od key = mapGet d s.od key) _ _ rfl fun u hu k _ => ?_
  rcases deliverTo_od u n k with he | he
  · rw [he, hu]
  · rw [he, hlost, hu]

/-! What the shadow requests leave (14 R434). -/

/-- The states agree in everything but what a shadow request writes: its partition, the dictionary's scalars, the notice destinations
and the host port. -/
def sameBeyondRequests (s u : State) : Prop := { u with parts := s.parts, od := s.od, dests := s.dests, cxl := s.cxl } = s

theorem sameBeyondRequests.trans {s t u : State} (h : sameBeyondRequests s t) (h' : sameBeyondRequests t u) : sameBeyondRequests s u := by
  unfold sameBeyondRequests at *
  rw [← h, ← h']

theorem sameBeyondRequests_of_notices {s u : State} (h : sameBeyondNotices s u) : sameBeyondRequests s u := by
  have hp := h.parts
  unfold sameBeyondNotices at h
  unfold sameBeyondRequests
  rw [← hp, h]

/-- A shadow request writes no object of a subindex below 4. -/
theorem setShadowReq_leaves (s : State) (q : Nat) (v : Bool) : sameBeyondRequests s (s.setShadowReq q v) ∧
    ∀ p i sub, sub < 4 → (s.setShadowReq q v).odGet p i sub = s.odGet p i sub := by
  unfold State.setShadowReq
  split
  · exact ⟨rfl, fun _ _ _ _ => rfl⟩
  · refine ⟨.trans (t := (s.modPart q fun p => { p with shReq := v }).odSet 0 (shadowIdx q) 0xA (if v then 1 else 0)) rfl
      (sameBeyondRequests_of_notices (sameBeyondNotices_deliver _ _)), fun p i sub h => ?_⟩
    exact (mapGet_od_deliver_sub _ _ (by unfold odKey; omega) _).trans (State.odGet_odSet_other _ _ (by unfold odKey; omega))

theorem foldl_evalShadow_leaves (l : List Nat) (s : State) : sameBeyondRequests s (l.foldl State.evalShadow s) ∧
    ∀ p i sub, sub < 4 → (l.foldl State.evalShadow s).odGet p i sub = s.odGet p i sub := by
  induction l generalizing s with
  | nil => exact ⟨rfl, fun _ _ _ _ => rfl⟩
  | cons k l ih =>
    obtain ⟨hsame, hod⟩ := setShadowReq_leaves s k (shadowAsk s k)
    rw [← evalShadow_eq] at hsame hod
    exact ⟨hsame.trans (ih _).1, fun p i sub h => ((ih _).2 p i sub h).trans (hod p i sub h)⟩

/-! A partition's row in the dictionary (Table 13-12). -/

/-- Partition `q`'s record says what the row says. -/
def rowStands (s : State) (q : Nat) (r : PlanRow) : Prop := s.present q = r.present ∧ s.towerMask q = r.towers

theorem rowStands_of_od {s u : State} {q : Nat} {r : PlanRow} (h : ∀ sub, 0 < sub → sub < 3 → u.odGet 0 (0x1010 + q) sub = s.odGet 0 (0x1010 + q) sub)
    (hr : rowStands s q r) : rowStands u q r := by
  refine ⟨?_, (h 2 (by decide) (by decide)).trans hr.2⟩
  rw [State.present, h 1 (by decide) (by decide)]
  exact hr.1

theorem rowStands_setLayout_self (s : State) (q : Nat) (r : PlanRow) : rowStands (s.setLayout q r) q r := by
  have hne : ∀ p i a b, a < 256 → b < 256 → a ≠ b → odKey p i a ≠ odKey 0 (0x1010 + q) b := fun p i a b ha hb h => by unfold odKey; omega
  have hrest : ∀ (t : State) sub, sub < 3 →
      ((((((t.odSet 0 (0x1010 + q) 3 r.ports).odSet 0 (0x1010 + q) 4 r.first).odSet 0 (0x1010 + q) 5 r.count).odSet q 0x6400 5
        r.first).odSet q 0x6400 6 r.count)).odGet 0 (0x1010 + q) sub = t.odGet 0 (0x1010 + q) sub := fun t sub hs => by
    rw [State.odGet_odSet_other _ _ (hne _ _ _ _ (by decide) (by omega) (by omega)), State.odGet_odSet_other _ _ (hne _ _ _ _ (by decide) (by omega) (by omega)),
      State.odGet_odSet_other _ _ (hne _ _ _ _ (by decide) (by omega) (by omega)), State.odGet_odSet_other _ _ (hne _ _ _ _ (by decide) (by omega) (by omega)),
      State.odGet_odSet_other _ _ (hne _ _ _ _ (by decide) (by omega) (by omega))]
  unfold rowStands State.present State.towerMask State.setLayout
  extract_lets i
  rw [hrest _ 1 (by decide), hrest _ 2 (by decide), State.odGet_odSet_self, State.odGet_odSet_other _ _ (hne _ _ _ _ (by decide) (by decide) (by decide)),
    State.odGet_odSet_self]
  cases r.present <;> exact ⟨rfl, rfl⟩

theorem odGet_setLayout_other (s : State) {p q sub : Nat} (r : PlanRow) (h : p ≠ q) (h0 : 0 < sub) (h3 : sub < 3) :
    (s.setLayout p r).odGet 0 (0x1010 + q) sub = s.odGet 0 (0x1010 + q) sub := by
  have hrow : ∀ a, a < 256 → odKey 0 (0x1010 + p) a ≠ odKey 0 (0x1010 + q) sub := fun a ha => by unfold odKey; omega
  have hgrp : ∀ a, a = 5 ∨ a = 6 → odKey p 0x6400 a ≠ odKey 0 (0x1010 + q) sub := fun a ha => by unfold odKey; omega
  unfold State.setLayout
  extract_lets i
  rw [State.odGet_odSet_other _ _ (hgrp 6 (.inr rfl)), State.odGet_odSet_other _ _ (hgrp 5 (.inl rfl)),
    State.odGet_odSet_other _ _ (hrow 5 (by decide)), State.odGet_odSet_other _ _ (hrow 4 (by decide)), State.odGet_odSet_other _ _ (hrow 3 (by decide)),
    State.odGet_odSet_other _ _ (hrow 2 (by decide)), State.odGet_odSet_other _ _ (hrow 1 (by decide))]

/-- The rows of the changed partitions written, one after another. -/
def setLayouts (b : Bytes) (l : List Nat) (s : State) : State := l.foldl (fun t q => t.setLayout q (planRow b q)) s

theorem setLayouts_cons (b : Bytes) (p : Nat) (l : List Nat) (s : State) :
    setLayouts b (p :: l) s = setLayouts b l (s.setLayout p (planRow b p)) := by
  simp only [setLayouts, List.foldl_cons]

theorem odGet_setLayouts_other (b : Bytes) {l : List Nat} {q : Nat} (h : q ∉ l) (s : State) {sub : Nat} (h0 : 0 < sub) (h3 : sub < 3) :
    (setLayouts b l s).odGet 0 (0x1010 + q) sub = s.odGet 0 (0x1010 + q) sub := by
  induction l generalizing s with
  | nil => rfl
  | cons p l ih =>
    rw [List.mem_cons, not_or] at h
    rw [setLayouts_cons, ih h.2, odGet_setLayout_other s _ (Ne.symm h.1) h0 h3]

theorem rowStands_setLayouts (b : Bytes) {l : List Nat} (hn : l.Nodup) {q : Nat} (h : q ∈ l) (s : State) :
    rowStands (setLayouts b l s) q (planRow b q) := by
  induction l generalizing s with
  | nil => cases h
  | cons p l ih =>
    obtain ⟨hp, hl⟩ := List.nodup_cons.mp hn
    rw [setLayouts_cons]
    by_cases hpq : p = q
    · subst hpq
      exact rowStands_of_od (fun sub h0 h3 => odGet_setLayouts_other b hp _ h0 h3) (rowStands_setLayout_self s p _)
    · exact ih hl ((List.mem_cons.mp h).resolve_left (Ne.symm hpq)) _

/-- The record of a partition the plan does not change is no object that it resets (R404 step 2). -/
theorem resetsKey_row {ch tw : List Nat} {q sub : Nat} (hq : q < 4) (h0 : 0 < sub) (h3 : sub < 3) (h : q ∉ ch) :
    resetsKey ch tw (odKey 0 (0x1010 + q) sub) = false := by
  have hfind : ∀ p < 4, ∀ k < 3, 0 < k → (odFind (0x1010 + p) k).map (fun r => (r.scope, r.lo)) = some (.perQ, 0x1010) := by decide
  obtain ⟨r, hr, hrow⟩ := Option.map_eq_some_iff.mp (hfind q hq sub h3 h0)
  obtain ⟨hscope, hlo⟩ := Prod.mk.inj hrow
  have hi : odKey 0 (0x1010 + q) sub / 256 % 65536 = 0x1010 + q := by unfold odKey; omega
  have hs : odKey 0 (0x1010 + q) sub % 256 = sub := by unfold odKey; omega
  unfold resetsKey
  simp only [hi, hs, hr, hscope, hlo, Nat.add_sub_cancel_left]
  simp [h]

theorem odGet_resetObjects_row (s : State) {ch tw : List Nat} {q sub : Nat} (hq : q < 4) (h0 : 0 < sub) (h3 : sub < 3) (h : q ∉ ch) :
    (s.resetObjects ch tw).odGet 0 (0x1010 + q) sub = s.odGet 0 (0x1010 + q) sub :=
  mapGet_filter _ s.od fun e he => by rw [he, resetsKey_row hq h0 h3 h]; rfl

/-- A partition the plan leaves has its row already (R404). -/
theorem rowStands_unchanged {s : State} {b : Bytes} {q : Nat} (hq : q < 4) (h : q ∉ s.planChanged b) : rowStands s q (planRow b q) := by
  have he : planRow b q = s.layoutRow q := by
    by_contra hne
    exact h (List.mem_filter.mpr ⟨List.mem_range.mpr hq, by simpa using hne⟩)
  rw [he]
  exact ⟨rfl, rfl⟩

/-! The plan takes effect (R404). -/

/-- The state once the changed partitions' rows are written. -/
def planWritten (s : State) (b : Bytes) : State :=
  setLayouts b (s.planChanged b) ((s.dropWork (s.planChanged b) (s.planTowers b (s.planChanged b))).resetObjects (s.planChanged b)
    (s.planTowers b (s.planChanged b)))

/-- The state once the moved domes hold zeros. -/
def planZeroed (s : State) (b : Bytes) : State :=
  ((planWritten s b).odSet 0 0x1000 0 ((List.range 4).countP (planWritten s b).present)).zeroDomes (s.movedDomes b)

theorem takePlan_eq (s : State) (b : Bytes) :
    s.takePlan b = ((s.planChanged b).filter (planZeroed s b).present).foldl State.evalShadow (planZeroed s b) := rfl

theorem rowStands_planWritten (s : State) (b : Bytes) {q : Nat} (hq : q < 4) : rowStands (planWritten s b) q (planRow b q) := by
  by_cases h : q ∈ s.planChanged b
  · exact rowStands_setLayouts b (List.nodup_range.filter _) h _
  · refine rowStands_of_od (fun sub h0 h3 => ?_) (rowStands_unchanged hq h)
    exact (odGet_setLayouts_other b h _ h0 h3).trans (odGet_resetObjects_row _ hq h0 h3 h)

theorem rowStands_takePlan (s : State) (b : Bytes) {q : Nat} (hq : q < 4) : rowStands (s.takePlan b) q (planRow b q) := by
  refine rowStands_of_od (fun sub h0 h3 => ?_) (rowStands_planWritten s b hq)
  rw [takePlan_eq, (foldl_evalShadow_leaves _ _).2 0 _ sub (by omega)]
  exact (planWritten s b).odGet_odSet_other _ (by unfold odKey; omega)

theorem dome_setLayout (s : State) (q : Nat) (r : PlanRow) : (s.setLayout q r).dome = s.dome := by
  simp only [State.setLayout, State.odSet_dome]

theorem dome_setLayouts (b : Bytes) (l : List Nat) (s : State) : (setLayouts b l s).dome = s.dome := by
  induction l generalizing s with
  | nil => rfl
  | cons p l ih => rw [setLayouts_cons, ih, dome_setLayout]

theorem dome_planWritten (s : State) (b : Bytes) : (planWritten s b).dome = s.dome := (dome_setLayouts b _ _).trans rfl

/-- The moved domes hold zeros and grant nothing; the others' memory stays (R404 step 3). -/
theorem takePlan_domes (s : State) (b : Bytes) : (s.takePlan b).zeroFill = s.movedDomes b ∧
    (s.takePlan b).dome = s.dome.filter fun e => !(s.movedDomes b).contains (domeOf e.1) := by
  have h := (foldl_evalShadow_leaves ((s.planChanged b).filter (planZeroed s b).present) (planZeroed s b)).1
  rw [← takePlan_eq] at h
  refine ⟨(congrArg State.zeroFill h :), (congrArg State.dome h :).trans ?_⟩
  exact congrArg (List.filter _) (dome_planWritten s b)

theorem memByte_takePlan_moved {s : State} {b : Bytes} {a : Nat} (h : domeOf a ∈ s.movedDomes b) : memByte (s.takePlan b).dome a = 0 := by
  rw [(takePlan_domes s b).2]
  exact mapGet_filter_out 0 s.dome fun e he => by simp [he, h]

theorem memByte_takePlan_other {s : State} {b : Bytes} {a : Nat} (h : domeOf a ∉ s.movedDomes b) :
    memByte (s.takePlan b).dome a = memByte s.dome a := by
  rw [(takePlan_domes s b).2]
  exact mapGet_filter 0 s.dome fun e he => by simp [he, h]

/-! APPLY_PLAN. -/

theorem cmdApplyPlan_refused {s : State} {val tok : Nat} (hr : s.stillRuns 0x100102 0 = false) (hb : s.planOk (s.blobGet 0 0x1001 1) = false) :
    cmdApplyPlan val tok s = (stDone, s.completeDev 0x1001 2 1 tok val []) := by
  simp only [cmdApplyPlan, hr, hb, Bool.false_eq_true, not_false_eq_true, if_false, if_true]

/-- The zero fill of a plan, noted as running. -/
def planRuns (val tok : Nat) : Running := { obj := 0x100102, q := 0, token := tok, value := val, qsel := 0x80 }

theorem cmdApplyPlan_taken {s : State} {val tok : Nat} (hr : s.stillRuns 0x100102 0 = false) (hb : s.planOk (s.blobGet 0 0x1001 1) = true)
    (hj : ∀ q < 4, s.jobRuns q = false) (hm : s.movedDomes (s.blobGet 0 0x1001 1) ≠ []) :
    cmdApplyPlan val tok s = (stDone, (s.takePlan (s.blobGet 0 0x1001 1)).startRunning (planRuns val tok)) := by
  have hany : (s.planChanged (s.blobGet 0 0x1001 1)).any s.jobRuns = false := by
    rw [List.any_eq_false]
    intro q hq
    rw [hj q (List.mem_range.mp (List.mem_of_mem_filter hq))]
    exact Bool.false_ne_true
  simp only [cmdApplyPlan, hr, hb, hany, hm, Bool.false_eq_true, not_true_eq_false, if_false]
  rfl

theorem sameBeyondNotices_completeDev (s : State) (i sub status tok val : Nat) (more : Bytes) :
    sameBeyondNotices s (s.completeDev i sub status tok val more) := sameBeyondNotices_deliver s _

theorem stillRuns_endRunning (s : State) (obj q : Nat) : (s.endRunning obj q).stillRuns obj q = false := by
  rw [State.stillRuns, State.endRunning, List.any_eq_false]
  intro r hr
  simpa [imp_iff_not_or] using (List.mem_filter.mp hr).2

/-! APPLY_PRELOAD (R405, R406). -/

theorem cmdApplyPreload_good {s : State} {rq : Requester} {q val tok : Nat} {es : List Preset} (he : s.preloadEntries (s.blobGet q 0x1100 1) = some es)
    (hr : s.preloadRefused (s.blobGet q 0x1100 1) = none) (hc : ∀ e ∈ es, s.checkPreset rq e = 0) (hq : q ≠ 0) :
    cmdApplyPreload rq q val tok s = (stDone, (applyPresets rq tok es 0 s).2.2.complete q 0x1100 2 (applyPresets rq tok es 0 s).1 tok val
      (leBytes 4 (applyPresets rq tok es 0 s).2.1)) := by
  have hfind : (es.find? fun e => s.checkPreset rq e != stDone) = none := List.find?_eq_none.mpr fun e h => by
    rw [hc e h]
    decide
  simp only [cmdApplyPreload, he, hr, hfind, hq, and_false, if_false]

/-- Settles O34: a bad plan only completes; a good one is followed through the rows it writes and the domes it zeroes. -/
theorem partitionPlan : Obligations.PartitionPlan := by
  refine ⟨⟨fun s val tok hs hr hb => ?_, fun s val tok hs hr hb hj hm => ?_, fun s r hs hr => ?_⟩, fun s rq q val tok hs hp he => ?_,
    fun s rq q val tok es c hs hp he hr => ?_, fun s rq q val tok es st n t hs hp he hr hc hq ha => ?_, fun rq tok e r n s t hl hw => ?_,
    fun rq tok e r n s t hl hw => ?_⟩
  · simp only [exec]
    exact runDevCmd_next hs (cmdApplyPlan_refused hr hb)
  · have he : exec (.applyPlan val tok) s = .next ((s.takePlan (s.blobGet 0 0x1001 1)).startRunning (planRuns val tok)) := by
      simp only [exec]
      exact runDevCmd_next hs (cmdApplyPlan_taken hr hb hj hm)
    refine ⟨_, he, fun q hq => rowStands_takePlan s _ hq, fun d hd => ⟨?_, ?_⟩,
      fun a ha => memByte_takePlan_other ha, ?_⟩
    · have hz : (s.takePlan (s.blobGet 0 0x1001 1)).zeroFill.contains d = true := by
        rw [(takePlan_domes s _).1]
        exact List.contains_iff_mem.mpr hd
      have hheld : (s.takePlan (s.blobGet 0 0x1001 1)).domeHeld d = true := by simp only [State.domeHeld, hz, Bool.or_true, Bool.true_or]
      exact hheld
    · rintro a rfl
      exact memByte_takePlan_moved hd
    · simp [State.stillRuns, State.startRunning, planRuns]
  · have hk := sameBeyondNotices_completeDev (({ s with zeroFill := [] } : State).endRunning 0x100102 0) 0x1001 2 0 r.token r.value []
    refine ⟨(({ s with zeroFill := [] } : State).endRunning 0x100102 0).completeDev 0x1001 2 0 r.token r.value [], ?_, ?_, ?_, ?_⟩
    · simp only [exec]
      rw [execPlanZeroFillComplete, hs, if_pos rfl, hr]
    · exact (congrArg State.zeroFill hk :)
    · have hrun : _ = (({ s with zeroFill := [] } : State).endRunning 0x100102 0).running := (congrArg State.running hk :)
      rw [State.stillRuns, hrun]
      exact stillRuns_endRunning _ _ _
    · exact (congrArg State.dome hk :)
  · simp only [exec]
    exact runCmd_next (st := stDone) hs hp (by simp only [cmdApplyPreload, he]; rfl)
  · let v := s.raise 0x0701 (spireUnit 7) q (islSpire 7)
      (leBytes 1 6 ++ leBytes 1 c ++ leBytes 2 0 ++ leBytes 4 (fieldAt (s.blobGet q 0x1100 1) 0 2))
    have hk := sameBeyondNotices_complete v q 0x1100 2 stSignature tok val (leBytes 4 0)
    refine ⟨v.complete q 0x1100 2 stSignature tok val (leBytes 4 0), ?_, (congrArg State.blobs hk :), _, (congrArg State.faultQ hk :), rfl⟩
    simp only [exec]
    refine runCmd_next (st := stDone) hs hp ?_
    simp only [cmdApplyPreload, he, hr]
    rfl
  · simp only [exec]
    rw [execApplyPreload, runCmd_next hs hp (cmdApplyPreload_good he hr hc hq), ha]
  · rw [applyPresets, hl]
    exact if_neg hw
  · rw [applyPresets, hl]
    exact if_pos hw

end Sys2Proof.Machine
end

section
/-! PROOF. The dictionary over the mailbox: answers and refusals (13 R390-R398, 12 R370). -/

namespace Sys2Proof.Machine

open Sys2Proof Sys2Proof.Safety

/-! The answer of a mailbox request (12 R370, 13 R393). -/

/-- The states agree in everything but what an answer writes: the host port, the answers given, and free values drawn. -/
def sameBeyondAnswer (s u : State) : Prop := { u with cxl := s.cxl, answers := s.answers, fresh := s.fresh } = s

theorem sameBeyondAnswer.trans {s t u : State} (h : sameBeyondAnswer s t) (h' : sameBeyondAnswer t u) : sameBeyondAnswer s u := by
  unfold sameBeyondAnswer at *
  rw [← h, ← h']

theorem sameBeyondAnswer_modCxl (s : State) (f : Cxl → Cxl) : sameBeyondAnswer s (s.modCxl f) := rfl

theorem sameBeyondAnswer_toHost (s : State) (r : Nat) (x : OutMsg) : sameBeyondAnswer s (s.toHost r x) := rfl

theorem sameBeyondAnswer_noteAnswer (s : State) (rq : Requester) (b : Bytes) : sameBeyondAnswer s (s.noteAnswer rq b) := rfl

theorem sameBeyondAnswer_mailboxDone (s : State) (b : Bytes) : sameBeyondAnswer s (s.mailboxDone b) :=
  (sameBeyondAnswer_modCxl ..).trans ((sameBeyondAnswer_toHost ..).trans (sameBeyondAnswer_noteAnswer ..))

theorem mailboxRan_holds (s : State) (b : Bytes) (later : Bool) :
    mailboxHolds (s.mailboxRan b later) b ∧ sameBeyondAnswer s (s.mailboxRan b later) := by
  unfold State.mailboxRan
  split
  · exact ⟨.inr ⟨rfl, rfl⟩, rfl⟩
  · exact ⟨mailboxHolds_mailboxDone s b, sameBeyondAnswer_mailboxDone s b⟩

/-- Where the answer is given at once, the mailbox's request is over unless it was acknowledged before. -/
theorem mailboxRan_given {s : State} (h : s.cxl.mbxState = 1) (b : Bytes) : (s.mailboxRan b false).cxl.mbxState = 3 := by
  rw [State.mailboxRan, if_neg (by simp [h])]
  rfl

theorem respond_holds (s : State) (op : MOp) (m : Merec) (a : Ans) :
    mailboxHolds (s.respond op .cxl 0 0 m a) (ansBytes op.code m a) ∧ sameBeyondAnswer s (s.respond op .cxl 0 0 m a) := by
  unfold State.respond
  extract_lets b d t
  have hd : sameBeyondAnswer s d.2 := rfl
  split
  · exact mailboxRan_holds s b false
  split
  · exact ⟨(mailboxRan_holds d.2 b false).1, hd.trans (mailboxRan_holds d.2 b false).2⟩
  · rw [if_pos rfl]
    exact ⟨(mailboxRan_holds d.2 b true).1, hd.trans (mailboxRan_holds d.2 b true).2⟩

theorem respond_refused {s : State} (h : s.cxl.mbxState = 1) (op : MOp) (m : Merec) {a : Ans} (ha : a.status ≠ 0) :
    (s.respond op .cxl 0 0 m a).cxl.mbxState = 3 := by
  have hat : atOnce op m a = true := by simp [atOnce, stDone, ha]
  rw [State.respond]
  simp only [hat, if_true]
  exact mailboxRan_given h _

/-! A request's turn (R392). -/

/-- The grant is used. -/
def turnUsed (s : State) : State := { s with mgmtTurn := none }

/-- What a request reads of the dictionary does not depend on the grant. -/
theorem lookup_turnUsed (s : State) (rq : Requester) (i sub qsel : Nat) : (turnUsed s).lookup rq i sub qsel = s.lookup rq i sub qsel := rfl

theorem takeTurn_turnUsed {s : State} {op : MOp} {m : Merec} (h : s.inMailbox op m = true) : s.takeTurn .cxl = turnUsed s ∧
    s.turnOf op .cxl m = true ∧ s.cxl.mbxDropped = [] := by
  simp only [State.inMailbox, Bool.and_eq_true, Bool.or_eq_true, decide_eq_true_eq, List.isEmpty_iff] at h
  obtain ⟨⟨hd, -⟩, ht⟩ := h
  exact ⟨by simp only [State.takeTurn, hd, turnUsed], ht, hd⟩

/-- A request of the mailbox runs, no table read being waited for. -/
theorem merecRow_mailbox {s : State} {op : MOp} {m : Merec} (hs : s.served = true) (h : s.inMailbox op m = true)
    (hw : s.startWaits op .cxl m = none) :
    merecRow op .cxl m s = .next (((turnUsed s).answerMerec op .cxl m).2.respond op .cxl 0 0 m ((turnUsed s).answerMerec op .cxl m).1) := by
  obtain ⟨htake, hturn, hd⟩ := takeTurn_turnUsed h
  have ha : s.answers? = true := by simp [State.answers?, hs]
  rw [merecRow, if_pos ha, State.serveMerec, if_pos hturn, hw]
  simp only [State.runMerec, hd, ne_eq, not_true_eq_false, and_false, if_false, htake, State.answerTo]

/-- The row of an operation over the mailbox. -/
theorem exec_merecRow {c : Requester → Merec → Instr} {op : MOp} (h : (c, op) ∈ merecRows) (m : Merec) (s : State) :
    exec (c .cxl m) s = merecRow op .cxl m s := by
  simp only [merecRows, List.mem_cons, List.not_mem_nil, or_false, Prod.mk.injEq] at h
  rcases h with ⟨rfl, rfl⟩ | ⟨rfl, rfl⟩ | ⟨rfl, rfl⟩ | ⟨rfl, rfl⟩ | ⟨rfl, rfl⟩ | ⟨rfl, rfl⟩ <;> simp only [exec] <;> rfl

/-! The checks in their order (R391). -/

section checks
variable {s : State} {op : MOp} {rq : Requester} {m : Merec}

theorem execMerec_malformed (h : malformed op rq m = true) :
    s.execMerec op rq m = ({ status := 5, qsel := s.ansQsel rq m.index m.sub m.qsel }, s) := by
  rw [State.execMerec, if_pos h]
  rfl

theorem execMerec_error {e : Nat} (h : malformed op rq m = false) (hl : s.lookup rq m.index m.sub m.qsel = .error e) :
    s.execMerec op rq m = ({ status := e, qsel := s.ansQsel rq m.index m.sub m.qsel }, s) := by
  rw [State.execMerec, h, if_neg Bool.false_ne_true, hl]

theorem execMerec_denied {t : Target} (h : malformed op rq m = false) (hl : s.lookup rq m.index m.sub m.qsel = .ok t)
    (hd : s.denied op rq t m = true) : s.execMerec op rq m = (s.ansFor op t m 4 [], s) := by
  rw [State.execMerec, h, if_neg Bool.false_ne_true, hl]
  exact if_pos hd

theorem execMerec_mismatched {t : Target} (h : malformed op rq m = false) (hl : s.lookup rq m.index m.sub m.qsel = .ok t)
    (hd : s.denied op rq t m = false) (hm : s.mismatched op rq t m = true) : s.execMerec op rq m = (s.ansFor op t m 6 [], s) := by
  rw [State.execMerec, h, if_neg Bool.false_ne_true, hl]
  dsimp only
  rw [hd, if_neg Bool.false_ne_true]
  exact if_pos hm

theorem execMerec_performed {t : Target} (h : malformed op rq m = false) (hl : s.lookup rq m.index m.sub m.qsel = .ok t)
    (hd : s.denied op rq t m = false) (hm : s.mismatched op rq t m = false) : s.execMerec op rq m =
      ((s.perform op rq t m).1.2.ansFor op t m (s.perform op rq t m).1.1 (s.perform op rq t m).2, (s.perform op rq t m).1.2) := by
  rw [State.execMerec, h, if_neg Bool.false_ne_true, hl]
  dsimp only
  rw [hd, if_neg Bool.false_ne_true, hm, if_neg Bool.false_ne_true]

/-- Refused by an earlier check, or with fewer than 8 requests deferred, the request gets the answer it executed to (R393). -/
theorem answerMerec_executed (h : s.deferredBy rq < 8 ∨
    ((s.execMerec op rq m).1.status ≠ 0 ∧ (s.execMerec op rq m).1.status ≠ 2 ∧ (s.execMerec op rq m).1.status ≠ 7)) :
    s.answerMerec op rq m = s.execMerec op rq m := by
  unfold State.answerMerec
  extract_lets r
  refine if_neg ?_
  rintro ⟨h8, -, h0 | h2 | h7⟩
  · exact h.elim (fun hlt => hlt.not_ge h8) fun hne => hne.1 h0
  · exact h.elim (fun hlt => hlt.not_ge h8) fun hne => hne.2.1 h2
  · exact h.elim (fun hlt => hlt.not_ge h8) fun hne => hne.2.2 h7

/-- Only a write of the start-job command that passes every check waits for a table read. -/
theorem startWaits_none (h : op ≠ .write ∨ malformed op rq m = true ∨ (∃ e, s.lookup rq m.index m.sub m.qsel = .error e) ∨
    ∃ t, s.lookup rq m.index m.sub m.qsel = .ok t ∧ (s.denied op rq t m = true ∨ s.mismatched op rq t m = true)) :
    s.startWaits op rq m = none := by
  unfold State.startWaits
  split
  · next hc =>
    obtain ⟨hop, -, -, hm, -⟩ := hc
    rcases h with h | h | ⟨e, h⟩ | ⟨t, h, hr⟩
    · exact absurd hop h
    · exact absurd h hm
    · rw [h]
    · rw [h]
      refine if_neg ?_
      rintro ⟨hd, hmm, -⟩
      exact hr.elim hd hmm
  · rfl

end checks

/-! Answers over the mailbox. -/

/-- A request executed and answered: the mailbox holds its answer, and the state is the one it executed to. -/
theorem exec_answered {c : Requester → Merec → Instr} {op : MOp} {s : State} {m : Merec} {a : Ans} {v : State} (hc : (c, op) ∈ merecRows)
    (hs : s.served = true) (hb : s.inMailbox op m = true) (hw : s.startWaits op .cxl m = none) (ha : (turnUsed s).answerMerec op .cxl m = (a, v)) :
    ∃ u, exec (c .cxl m) s = .next u ∧ mailboxHolds u (ansBytes op.code m a) ∧ sameBeyondAnswer v u ∧
      (a.status ≠ 0 → v.cxl.mbxState = 1 → u.cxl.mbxState = 3) := by
  obtain ⟨hholds, hsame⟩ := respond_holds v op m a
  refine ⟨_, ?_, hholds, hsame, fun hne h1 => respond_refused h1 op m hne⟩
  rw [exec_merecRow hc, merecRow_mailbox hs hb hw, ha]

/-- A refused request is answered with the refusal, and changes nothing. -/
theorem exec_refused {c : Requester → Merec → Instr} {op : MOp} {s : State} {m : Merec} {a : Ans} (hc : (c, op) ∈ merecRows)
    (hs : s.served = true) (hb : s.inMailbox op m = true) (hw : s.startWaits op .cxl m = none)
    (he : (turnUsed s).execMerec op .cxl m = (a, turnUsed s)) {st : Nat} (hst : a.status = st) (h0 : st ≠ 0) (h2 : st ≠ 2) (h7 : st ≠ 7) :
    ∃ u, exec (c .cxl m) s = .next u ∧ (s.cxl.mbxState = 1 → u.cxl.mbxState = 3) ∧ mailboxHolds u (ansBytes op.code m a) ∧
      u.od = s.od ∧ u.blobs = s.blobs ∧ u.sessions = s.sessions := by
  subst hst
  have ha : (turnUsed s).answerMerec op .cxl m = (a, turnUsed s) := by
    rw [answerMerec_executed (.inr (by rw [he]; exact ⟨h0, h2, h7⟩)), he]
  obtain ⟨u, hex, hholds, hsame, hgiven⟩ := exec_answered hc hs hb hw ha
  exact ⟨u, hex, hgiven h0, hholds, (congrArg State.od hsame :), (congrArg State.blobs hsame :), (congrArg State.sessions hsame :)⟩

/-- A request that passes every check is answered with what it performs. -/
theorem exec_performed {c : Requester → Merec → Instr} {op : MOp} {s : State} {m : Merec} {t : Target} (hc : (c, op) ∈ merecRows)
    (hs : s.served = true) (hd8 : s.deferredBy .cxl < 8) (hl : s.lookup .cxl m.index m.sub m.qsel = .ok t)
    (hb : s.inMailbox op m = true) (hw : s.startWaits op .cxl m = none) (hmal : malformed op .cxl m = false)
    (hd : s.denied op .cxl t m = false) (hm : s.mismatched op .cxl t m = false) :
    ∃ u, exec (c .cxl m) s = .next u ∧ mailboxHolds u (ansBytes op.code m (((turnUsed s).perform op .cxl t m).1.2.ansFor op t m
      ((turnUsed s).perform op .cxl t m).1.1 ((turnUsed s).perform op .cxl t m).2)) ∧
      sameBeyondAnswer ((turnUsed s).perform op .cxl t m).1.2 u := by
  have ha := (answerMerec_executed (s := turnUsed s) (op := op) (rq := .cxl) (m := m) (.inl hd8)).trans
    (execMerec_performed (s := turnUsed s) hmal hl hd hm)
  obtain ⟨u, hex, hholds, hsame, -⟩ := exec_answered hc hs hb hw ha
  exact ⟨u, hex, hholds, hsame⟩

/-- A read that passes every check changes no object. -/
theorem exec_readPerformed {c : Requester → Merec → Instr} {op : MOp} {s : State} {m : Merec} {t : Target} {st : Nat} {d : Bytes}
    (hc : (c, op) ∈ merecRows) (hop : op ≠ .write) (hs : s.served = true) (hd8 : s.deferredBy .cxl < 8)
    (hl : s.lookup .cxl m.index m.sub m.qsel = .ok t) (hb : s.inMailbox op m = true) (hmal : malformed op .cxl m = false)
    (hd : s.denied op .cxl t m = false) (hm : s.mismatched op .cxl t m = false)
    (hp : (turnUsed s).perform op .cxl t m = ((st, turnUsed s), d)) :
    ∃ u, exec (c .cxl m) s = .next u ∧ mailboxHolds u (ansBytes op.code m
      { status := st, qsel := t.qsel, gen := s.genOf t m.index m.sub, total := s.totalFor op t m, data := d }) ∧ u.od = s.od ∧ u.blobs = s.blobs := by
  obtain ⟨u, hex, hholds, hsame⟩ := exec_performed hc hs hd8 hl hb (startWaits_none (.inl hop)) hmal hd hm
  rw [hp] at hholds hsame
  exact ⟨u, hex, hholds, (congrArg State.od hsame :), (congrArg State.blobs hsame :)⟩

/-- Settles O31: every request is executed and answered from the state its grant leaves, and an answer writes the host port alone. -/
theorem dictionaryOperations : Obligations.DictionaryOperations := by
  refine ⟨fun s m t hs hd8 hl => ?_, fun c op hc s m hs hb => ⟨fun hmal => ?_, fun e hmal hl h0 h2 h7 => ?_, fun t hmal hl hd => ?_,
    fun t hmal hl hd hm => ?_⟩, fun s m t hs hd8 hb hmal hl hd hm hw => ?_, fun s q v hv => ?_, fun s q v hv => ?_⟩
  · refine ⟨fun ⟨hb, hmal, hd, hm⟩ => ?_, fun ⟨hb, hmal, hd, hm⟩ hlen => ?_, fun ⟨hb, hmal, hd, hm⟩ hlen => ?_, fun ⟨hb, hmal, hd, hm⟩ => ?_,
      fun ⟨hb, hmal, hd, hm⟩ => ?_⟩
    · exact exec_readPerformed (by simp) (by decide) hs hd8 hl hb hmal hd hm rfl
    · exact exec_readPerformed (by simp) (by decide) hs hd8 hl hb hmal hd hm (if_neg hlen.not_gt)
    · obtain ⟨u, hex, hholds, -, -⟩ := exec_readPerformed (c := .readSegment) (by simp) (by decide) hs hd8 hl hb hmal hd hm (if_pos hlen)
      exact ⟨u, hex, hholds⟩
    · exact exec_readPerformed (by simp) (by decide) hs hd8 hl hb hmal hd hm rfl
    · exact exec_readPerformed (by simp) (by decide) hs hd8 hl hb hmal hd hm rfl
  · exact exec_refused (st := 5) hc hs hb (startWaits_none (.inr (.inl hmal))) (execMerec_malformed hmal) rfl (by decide) (by decide) (by decide)
  · exact exec_refused hc hs hb (startWaits_none (.inr (.inr (.inl ⟨e, hl⟩)))) (execMerec_error hmal hl) rfl h0 h2 h7
  · obtain ⟨u, hex, hgiven, hholds, hsame⟩ := exec_refused (st := 4) hc hs hb (startWaits_none (.inr (.inr (.inr ⟨t, hl, .inl hd⟩))))
      (execMerec_denied (s := turnUsed s) hmal hl hd) rfl (by decide) (by decide) (by decide)
    exact ⟨u, _, hex, hgiven, rfl, rfl, hholds, hsame⟩
  · obtain ⟨u, hex, hgiven, hholds, hsame⟩ := exec_refused (st := 6) hc hs hb (startWaits_none (.inr (.inr (.inr ⟨t, hl, .inr hm⟩))))
      (execMerec_mismatched (s := turnUsed s) hmal hl hd hm) rfl (by decide) (by decide) (by decide)
    exact ⟨u, _, hex, hgiven, rfl, rfl, hholds, hsame⟩
  · obtain ⟨u, hex, hholds, hsame⟩ := exec_performed (c := .write) (by simp) hs hd8 hl hb hw hmal hd hm
    rw [(takeTurn_turnUsed hb).1]
    exact ⟨u, _, hex, hholds, rfl, rfl, (congrArg State.od hsame :), (congrArg State.blobs hsame :), (congrArg State.dome hsame :),
      (congrArg State.spars hsame :), (congrArg State.parts hsame :)⟩
  · have hok : s.scalarOk 0x2500 1 v = false := decide_eq_false hv
    simp [writeScalar, State.objBusy, hok, stRefused]
  · have hok : s.scalarOk 0x2500 1 v = true := decide_eq_true hv
    simp [writeScalar, State.objBusy, hok, stDone, scalarMask, State.afterScalar]

end Sys2Proof.Machine
end

section
/-! PROOF. Write sessions, deferred answers and the dictionary's deadline (13 R391, R393, R396). -/

namespace Sys2Proof.Machine

open Sys2Proof Sys2Proof.Safety

/-! WRITE SEGMENT on the requester's only session (R396). -/

section session
variable {s : State} {t : Target} {m : Merec} {x : Session}

/-- The session is the requester's on the request's object. -/
structure ownSession (t : Target) (m : Merec) (x : Session) : Prop where
  req : x.req = 0
  q : x.q = t.q
  obj : x.obj = objKeyOf m

theorem ownSession.is_own (h : ownSession t m x) : (x.req = 0 && x.q = t.q && x.obj = objKeyOf m) = true := by simp [h.req, h.q, h.obj]

theorem sessionOf_own (h : ownSession t m x) (hs : s.sessions = [x]) : s.sessionOf 0 t.q (objKeyOf m) = some x := by
  rw [State.sessionOf, hs]
  exact List.find?_cons_of_pos h.is_own

theorem closeSession_own (h : ownSession t m x) (hs : s.sessions = [x]) : s.closeSession 0 t.q (objKeyOf m) = { s with sessions := [] } := by
  rw [State.closeSession, hs, List.filter_cons_of_neg (by simp [h.is_own]), List.filter_nil]

theorem closeSession_none (q obj : Nat) (hs : s.sessions = []) : s.closeSession 0 q obj = { s with sessions := [] } := by
  rw [State.closeSession, hs, List.filter_nil]

/-- A segment that is not the last adds its bytes to the session. -/
theorem extend_more (sofar : Bytes) (hl : m.last = false) (hc : s.closeSession 0 t.q (objKeyOf m) = { s with sessions := [] }) :
    s.extend .cxl t m sofar = (0, { s with sessions := [{ req := 0, q := t.q, obj := objKeyOf m, data := sofar ++ m.data, token := m.token }] }) := by
  unfold State.extend
  simp only [reqCode, hl, Bool.false_eq_true, if_false, hc]
  rfl

/-- A last segment after which the bytes do not fit the object is refused (R391). -/
theorem extend_unfit {sofar : Bytes} (hl : m.last = true) (hf : sizeFits t.row m.index m.sub (sofar ++ m.data).length = false) :
    s.extend .cxl t m sofar = (6, s) := by
  unfold State.extend
  simp only [hl, hf, Bool.false_eq_true, not_false_eq_true, if_true]
  rfl

/-- A first segment, the requester holding no session. -/
theorem writeSegmentOn_first (ho : m.offset = 0) (hs : s.sessions = []) : s.writeSegmentOn .cxl t m = s.extend .cxl t m [] := by
  unfold State.writeSegmentOn
  simp [ho, hs, State.sessionElse]

/-- A segment behind the session's bytes. -/
theorem writeSegmentOn_next (h : ownSession t m x) (hs : s.sessions = [x]) (ho : m.offset ≠ 0) (hn : m.offset = x.data.length) :
    s.writeSegmentOn .cxl t m = s.extend .cxl t m x.data := by
  unfold State.writeSegmentOn
  extract_lets c o mine
  have hmine : mine = some x := sessionOf_own h hs
  rw [if_neg ho, hmine]
  exact if_pos hn

/-- A segment that is not behind the session's bytes ends the session. -/
theorem writeSegmentOn_gap (h : ownSession t m x) (hs : s.sessions = [x]) (ho : m.offset ≠ 0) (hn : m.offset ≠ x.data.length) :
    s.writeSegmentOn .cxl t m = (8, { s with sessions := [] }) := by
  unfold State.writeSegmentOn
  extract_lets c o mine
  have hmine : mine = some x := sessionOf_own h hs
  rw [if_neg ho, hmine]
  exact (if_neg hn).trans (congrArg (Prod.mk 8) (closeSession_own h hs))

end session

/-! Deferred answers (R393). -/

theorem execDeferredAnswer_mctp {s : State} {eid : Nat} {d : Deferred} {r : List Deferred} (ha : s.answers? = true) (hs : s.deferred = d :: r)
    (hd : d.req = 0x20000 + eid) : execDeferredAnswer (.mctp eid) s = .next { s with
      deferred := r
      answers := s.answers ++ [(0x20000 + eid, d.answer)]
      out := s.out ++ [{ kind := 5, addr := eid, data := [0x7E, 0x2B, 0x1E, 0x02] ++ d.answer, flag := 0 }] } := by
  have hfind : (s.deferred.find? fun d => d.req = reqCode (.mctp eid)) = some d := by
    rw [hs]
    exact List.find?_cons_of_pos (by simp [reqCode, hd])
  have herase : s.deferred.erase d = r := by rw [hs, List.erase_cons_head]
  rw [execDeferredAnswer, if_pos ha, if_neg (by simp), hfind]
  simp only [herase]
  rfl

/-- Settles O33: a segment is taken by the session its requester holds, and an answer writes the host port alone. -/
theorem writeSessions : Obligations.WriteSessions := by
  refine ⟨⟨fun s t m ho hl hs => ?_, fun s t m x hn ho hl hs hr hq hobj => ?_, fun s t m x hn ho hs hr hq hobj => ?_,
    fun s t m x hn ho hl hs hr hq hobj hf => ?_, fun s m t hs hd8 hb hmal hl hd hm => ?_, fun s rq q obj hs => ?_⟩,
    fun s eid d r hs hd hr => ?_, fun s delay hs hd => ?_, fun s delay hd => ?_⟩
  · rw [writeSegmentOn_first ho hs, extend_more [] hl (closeSession_none _ _ hs)]
    rfl
  · have hx : ownSession t m x := ⟨hr, hq, hobj⟩
    rw [writeSegmentOn_next hx hs ho hn, extend_more x.data hl (closeSession_own hx hs), ← hr, ← hq, ← hx.obj]
  · exact writeSegmentOn_gap ⟨hr, hq, hobj⟩ hs ho hn
  · rw [writeSegmentOn_next ⟨hr, hq, hobj⟩ hs ho hn, extend_unfit hl hf]
  · obtain ⟨u, hex, hholds, hsame⟩ := exec_performed (c := .writeSegment) (by simp) hs hd8 hl hb (startWaits_none (.inl (by decide))) hmal hd hm
    rw [(takeTurn_turnUsed hb).1]
    exact ⟨u, _, hex, hholds, rfl, (congrArg State.sessions hsame :), (congrArg State.od hsame :), (congrArg State.blobs hsame :)⟩
  · simp only [exec]
    rw [execSessionTimeout, if_pos hs]
    rfl
  · simp only [exec]
    exact execDeferredAnswer_mctp (by simp [State.answers?, hs]) hd hr
  · refine ⟨s.raiseOpen 0x0501 (spireUnit 2) 4 (islSpire 0) [spireUnit 2, delay],
      openRecord s 0x0501 (spireUnit 2) 4 (islSpire 0) [spireUnit 2, delay], ?_, rfl, rfl, rfl, rfl, rfl⟩
    simp only [exec]
    rw [execDictionaryDeadline, if_pos ⟨hs, hd⟩]
  · simp only [exec]
    rw [execDictionaryDeadline, if_neg fun h => hd.not_gt h.2]

end Sys2Proof.Machine
end
